-- ==== Sys2Proof/Word.lean ====
section
/-! DEFINITION. The word types of the Oaric (00_scope, "Numbers, bits and bytes"). -/

namespace Sys2Proof

/-- One byte (R11). -/
abbrev Byte := BitVec 8
/-- A control-page register, or an FP32 value (R12, R40). -/
abbrev W32 := BitVec 32
/-- A 64-bit value: a slot-table entry, a register pair (R12, R156). -/
abbrev W64 := BitVec 64
/-- The number of a core, or of the quarry above it (R18). -/
abbrev CoreId := Fin 128
/-- The number of a link port (R18). -/
abbrev PortId := Fin 8
/-- The number of a job slot (R376). -/
abbrev JobId := Fin 4

end Sys2Proof
end

