-- ==== Sys2Proof/Syntax.lean ====
section
/-! DEFINITION. The commands of the Oaric: one constructor per row of spec/opcode_table.json. What lies outside the
device (a reading, an image, a peer's reply) is a command's operand. -/

namespace Sys2Proof

/-- Who writes a control page (R13, R451, "Who acts"). -/
inductive Agent where
  | host | svc | program
  deriving DecidableEq, Repr

/-- A block with a lifecycle state (R397). -/
inductive Block where
  | core (n : CoreId) | quarry (n : CoreId) | port (p : PortId)
  deriving DecidableEq, Repr

/-- A unit that has no counterpart (R439). -/
inductive SoleUnit where
  | lintelTree | reductionEngine | attentionBlock | management
  deriving DecidableEq, Repr

/-- Where control-state parity failed (R397, R439): in a block, or in a unit that has no counterpart. -/
inductive ParityUnit where
  | block (b : Block) | sole (u : SoleUnit)
  deriving DecidableEq, Repr

/-- What the checker sees beside the array's own values (R96, R99): nothing, a column output changed on its way, or a
path-parity error. -/
inductive ChkUpset where
  | none | column (j : BitVec 6) (value : W32) | pathParity
  deriving DecidableEq, Repr

/-- What ST.OUT meets in the accumulator bank or the output stage (R99). -/
inductive OutUpset where
  | none | accUncorrectable | stageDiffers
  deriving DecidableEq, Repr

/-- A symbol error that the medium shows in a codeword (R184): codeword number within the row or block read, symbol. -/
structure CwUpset where
  codeword : Nat
  symbol : Nat
  deriving DecidableEq, Repr

/-- What comes back from outside the device for a stream request (Table 7.5). -/
inductive ExtReply where
  | status (code : BitVec 8) (data : List Byte)
  | notPresent
  deriving DecidableEq, Repr

/-- A reply on the sill ring, the mesh or a port (R219, R225): the epoch bit beside its tag, and what comes from outside where the request
left the device. -/
structure StreamAnswer where
  epoch : Bool
  ext : ExtReply
  deriving DecidableEq, Repr

/-- An access to BAR0 (R12): its size in bytes and its kind. -/
structure Bar0Access where
  size : Nat
  write : Bool
  deriving DecidableEq, Repr

/-- A read at a counter's low word (R174): its offset, and whether it reads 64 bits. -/
structure CounterRead where
  off : BitVec 25
  wide : Bool
  deriving DecidableEq, Repr

/-- A PRI response (R374). -/
inductive PriResp where
  | success | invalidRequest | responseFailure
  deriving DecidableEq, Repr

/-- How the remote side of an EXPORT or IMPORT ends (R270). -/
inductive RemoteEnd where
  | done | notPresent (addr : Nat) | denied (addr : Nat) | parked (addr : Nat) | aborted (addr : Nat)
  deriving DecidableEq, Repr

/-- What a training of a link port finds (R327, R339). -/
structure Training where
  cabled : Bool
  sameRate : Bool
  healthy : BitVec 8
  peer : BitVec 16
  reversed : Bool
  deriving DecidableEq, Repr

/-- A configuration request of the host that changes the host interface (R353, R374). -/
inductive CfgReq where
  | enablePri (on : Bool) (allocation : Nat)
  | enableAts (on : Bool)
  | enablePasid (on : Bool)
  | tenBitTags (on : Bool)
  | bar2Size (log2GiB : Nat)
  | msixMask (vector : BitVec 6) (masked : Bool)
  deriving DecidableEq, Repr

/-- VEC.ALU's fields (Table 5.7). -/
structure AluLane where
  fn : BitVec 4
  mask : BitVec 2
  vd : BitVec 5
  va : BitVec 5
  vb : BitVec 5
  vc : BitVec 5
  imm : Bool
  imm16 : BitVec 16
  cond : BitVec 3
  msel : BitVec 2
  md : BitVec 2
  lane : BitVec 8
  deriving DecidableEq, Repr

/-- VEC.SFU's, VEC.RED's and VEC.DACT's fields (Table 5.7). -/
structure FnLane where
  fn : BitVec 4
  mask : BitVec 2
  vd : BitVec 5
  va : BitVec 5
  vb : BitVec 5
  seg : BitVec 2
  dbase : BitVec 8
  deriving DecidableEq, Repr

/-- The operations of the lanes of a sub-bundle (Tables 5.2 to 5.7), with their fields. -/
inductive LaneOp where
  | ctlNop
  | ctlLoop (last : BitVec 11) (count : BitVec 20)
  | ctlSkip (level : BitVec 3) (cond : BitVec 2) (count : BitVec 11)
  | ctlArrive (id : BitVec 8)
  | ctlWait (id : BitVec 8)
  | ctlLintel (id : BitVec 8)
  | ctlSwait (cond : Bool) (head : BitVec 10)
  | ctlSdrop (countM1 : BitVec 6) (head : BitVec 10)
  | ctlSeta (areg : BitVec 6) (half : Bool) (imm : BitVec 24)
  | ctlSlotld (first : BitVec 10) (countM1 : BitVec 6) (row : BitVec 13)
  | ctlEnd
  | strIssue (queue : BitVec 8) (areg : BitVec 6)
  | strStop (queue : BitVec 8)
  | ldTload (orient : Bool) (loc : BitVec 14) (wdesc : BitVec 6) (trow : BitVec 20)
  | ldStage (half : Bool) (loc : BitVec 14) (adesc : BitVec 6) (mode : BitVec 2) (nsetsM1 : BitVec 2) (wslot : BitVec 10)
  | ldVec (vreg : BitVec 5) (part : BitVec 2) (loc : BitVec 14) (desc : BitVec 6)
  | stOut (accRow : BitVec 12) (fset : BitVec 2) (odesc : BitVec 6) (loc : BitVec 14) (flush iter : Bool)
  | stVec (vreg : BitVec 5) (part : BitVec 2) (loc : BitVec 14) (desc : BitVec 6)
  | arrMul (add iter : Bool) (accRow : BitVec 12)
  | arrSwap (fset : BitVec 2) (adesc : BitVec 6)
  | vecAlu (l : AluLane)
  | vecSfu (l : FnLane)
  | vecRed (l : FnLane)
  | vecDact (l : FnLane)
  deriving DecidableEq, Repr

/-- The commands, one per row of the table of operations and events. -/
inductive Instr where
  | subBundleHold (c : CoreId) (sb : BitVec 256)
  | ctlNop (c : CoreId)
  | ctlLoop (c : CoreId) (last : BitVec 11) (count : BitVec 20)
  | ctlSkip (c : CoreId) (level : BitVec 3) (cond : BitVec 2) (count : BitVec 11)
  | ctlArrive (c : CoreId) (id : BitVec 8)
  | ctlWait (c : CoreId) (id : BitVec 8)
  | ctlLintel (c : CoreId) (id : BitVec 8)
  | ctlSwait (c : CoreId) (cond : Bool) (head : BitVec 10)
  | ctlSdrop (c : CoreId) (countM1 : BitVec 6) (head : BitVec 10)
  | ctlSeta (c : CoreId) (areg : BitVec 6) (half : Bool) (imm : BitVec 24)
  | ctlSlotld (c : CoreId) (first : BitVec 10) (countM1 : BitVec 6) (row : BitVec 13)
  | ctlEnd (c : CoreId)
  | strIssue (c : CoreId) (queue : BitVec 8) (areg : BitVec 6)
  | strStop (c : CoreId) (queue : BitVec 8)
  | ldTload (c : CoreId) (orient : Bool) (loc : BitVec 14) (wdesc : BitVec 6) (trow : BitVec 20)
  | ldStage (c : CoreId) (half : Bool) (loc : BitVec 14) (adesc : BitVec 6) (mode : BitVec 2) (nsetsM1 : BitVec 2) (wslot : BitVec 10)
  | ldVec (c : CoreId) (vreg : BitVec 5) (part : BitVec 2) (loc : BitVec 14) (desc : BitVec 6)
  | stOut (c : CoreId) (accRow : BitVec 12) (fset : BitVec 2) (odesc : BitVec 6) (loc : BitVec 14) (flush iter : Bool) (u : OutUpset)
  | stVec (c : CoreId) (vreg : BitVec 5) (part : BitVec 2) (loc : BitVec 14) (desc : BitVec 6)
  | arrMul (c : CoreId) (add iter : Bool) (accRow : BitVec 12) (bad : Bool)
  | arrSwap (c : CoreId) (fset : BitVec 2) (adesc : BitVec 6)
  | vecAlu (c : CoreId) (l : AluLane) (u : Option (BitVec 8))
  | vecSfu (c : CoreId) (l : FnLane) (u : Option (BitVec 8))
  | vecRed (c : CoreId) (l : FnLane) (u : Option (BitVec 8))
  | vecDact (c : CoreId) (l : FnLane) (u : Option (BitVec 8))
  | instructionFetch (c : CoreId) (block : Nat)
  | tileLoaderRow (c : CoreId)
  | arrayCheckResult (c : CoreId) (u : ChkUpset)
  | probeCheckResult (c : CoreId) (u : ChkUpset)
  | lintelRelease (j : JobId) (id : BitVec 8)
  | slotDeadlock (c : CoreId)
  | lintelWatchdog (c : CoreId)
  | streamWatchdogSample (c : CoreId)
  | streamDescriptorStart (c : CoreId) (queue : BitVec 8)
  | streamRequestIssue (c : CoreId) (engine : BitVec 2)
  | windowEntryGenerate (c : CoreId) (queue : BitVec 8)
  | streamReply (c : CoreId) (tag : Nat) (ans : StreamAnswer)
  | streamHalt (c : CoreId) (queue : BitVec 8)
  | pageRequestSend (c : CoreId) (queue : BitVec 8)
  | pageRequestResponse (c : CoreId) (queue : BitVec 8) (r : PriResp)
  | atsTranslationResponse (pasid : BitVec 20) (page : BitVec 52) (readable writable : Bool)
  | atsInvalidation (pasid : BitVec 20) (page : BitVec 52)
  | resume (c : CoreId) (queue : BitVec 8) (rsvd : Bool)
  | stop (c : CoreId) (queue : BitVec 8) (rsvd : Bool)
  | sillPatrolScrub (c : CoreId) (errs : List CwUpset)
  | sillRepair (c : CoreId)
  | remoteSillRequest (c : CoreId) (tag : Nat)
  | meshParityError (c : CoreId) (tag : Nat)
  | quarryAdmission (c : CoreId) (tag : Nat)
  | quarryCommandIssue (q : CoreId) (channel : Bool) (errs : List CwUpset)
  | rowIdleClose (q : CoreId) (bank : BitVec 7)
  | refresh (q : CoreId) (bank : BitVec 7)
  | quarryPatrolScrub (q : CoreId) (errs : List CwUpset)
  | quarryRepair (q : CoreId)
  | sensorRead (dram logic : List (Option (BitVec 16)))
  | hotModeExit (q : CoreId)
  | windowOpen (q : CoreId) (w : BitVec 6) (word0 : W32) (who : Agent)
  | windowClose (q : CoreId) (w : BitVec 6) (who : Agent)
  | windowClosed (q : CoreId) (w : BitVec 6)
  | benchCommandStart (q : CoreId) (b : BitVec 5)
  | add (q : CoreId) (b : BitVec 5) (mismatch : Bool)
  | xchg (q : CoreId) (b : BitVec 5) (mismatch : Bool)
  | fill (q : CoreId) (b : Option (BitVec 5)) (mismatch : Bool)
  | toxf (q : CoreId) (b : BitVec 5) (mismatch : Bool)
  | xfadd (q : CoreId) (b : BitVec 5) (mismatch : Bool)
  | sgd (q : CoreId) (b : BitVec 5) (mismatch : Bool)
  | adamw (q : CoreId) (b : BitVec 5) (mismatch : Bool)
  | lion (q : CoreId) (b : BitVec 5) (mismatch : Bool)
  | benchExport (q : CoreId) (b : Option (BitVec 5)) (r : RemoteEnd)
  | benchImport (q : CoreId) (b : Option (BitVec 5)) (r : RemoteEnd) (data : List Byte)
  | tagArm (j : JobId) (tag : BitVec 12)
  | shardVerify (j : JobId) (tag : BitVec 12) (shard : BitVec 12)
  | tagReduced (j : JobId) (tag : BitVec 12)
  | verdictTrigger (j : JobId) (tag : BitVec 12)
  | gatherSend (j : JobId) (tag : BitVec 12)
  | openMsg (p : PortId)
  | acceptMsg (p : PortId)
  | refuseMsg (p : PortId)
  | openRetry (j : JobId) (tag : BitVec 12)
  | doneMsg (p : PortId)
  | deliverChecksum (p : PortId)
  | gathered (p : PortId)
  | abortMsg (p : PortId)
  | reductionWatchdog (j : JobId) (tag : BitVec 12)
  | attentionRequest (c : CoreId) (head : BitVec 10)
  | allocateStep
  | pagedRequestProceed (n : Nat)
  | tileEntryEmit (n : Nat)
  | swapOutComplete (slot : BitVec 6) (present : Bool)
  | admitSeq
  | releaseSeq
  | linkTrainingDone (p : PortId) (t : Training)
  | flitTransmit (p : PortId)
  | flitReceive (p : PortId) (flit : List Byte) (fecCorr fecUncorr : Nat)
  | retryReq (p : PortId) (seq : BitVec 12)
  | retryReqResend (p : PortId)
  | ackTimeout (p : PortId)
  | laneAlignmentLoss (p : PortId)
  | retrainDone (p : PortId) (t : Training)
  | write (p : PortId)
  | read (p : PortId)
  | xfaddRequest (p : PortId)
  | handoff (p : PortId)
  | completion (p : PortId)
  | readData (p : PortId)
  | lintel (p : PortId)
  | txnTimeout (p : PortId) (txn : BitVec 9)
  | parkTimeout (p : PortId) (channel : BitVec 2)
  | ethFrameReceive (p : PortId) (frame : List Byte)
  | pfcPause (p : PortId) (prio : BitVec 3) (pause : Bool)
  | ethRetryTimeout (p : PortId) (peer : BitVec 16)
  | bar0InvalidAccess (off : BitVec 25) (acc : Bar0Access)
  | registerWrite (off : BitVec 25) (wide : Bool) (value : W64) (who : Agent)
  | counterLowRead (r : CounterRead)
  | counterHighRead (off : BitVec 25)
  | bar2Read (off : Nat) (len : Nat)
  | bar2Write (off : Nat) (data : List Byte) (poisoned : Bool)
  | queueEnable (h : BitVec 10) (word0 : W32)
  | queueDisable (h : BitVec 10)
  | sqStopComplete (h : BitVec 10)
  | sqDoorbell (h : BitVec 10) (value : W64)
  | cqDoorbell (h : BitVec 10) (value : W64)
  | sqEntryFetch (h : BitVec 10) (entry : Option (List Byte))
  | ackFaultRecord
  | clearEventFlag (mask : W32)
  | intHoldoffExpiry (h : BitVec 10)
  | hostLinkDown
  | load (image : Option (List Byte))
  | run
  | park
  | teardown
  | unload
  | preemptDrainDone
  | drainLimitExpiry
  | switchSaveDone
  | switchRestoreDone
  | reqClose (b : Block)
  | reqOpen (b : Block)
  | reqRetire (b : Block)
  | blockClosed (b : Block)
  | blockSelfTestDone (b : Block) (pass : Bool)
  | pmbusPoll (readings : List (Option Nat))
  | pmbusFailLimit (r : BitVec 4)
  | avsSettleTimeout
  | louvreUpdate
  | thermalTermUpdate
  | droopDetect (k : BitVec 6) (deep : Bool)
  | droopStepDown (k : BitVec 6)
  | pwrAlertNFall
  | pwrAlertNRise (lowNs : Nat)
  | alertRowRelease
  | alertLimitExpiry
  | excursionBegin (mv : BitVec 10)
  | excursionEnd (lowest : BitVec 10) (ns : Nat)
  | coreDomainReset (mv : BitVec 10)
  | coreDomainRecovery
  | vddCoreRecoveryTimeout
  | thermalTrip (logic : Bool) (sensor : BitVec 8) (reading : BitVec 16)
  | lossIn (c : CoreId) (value : W32) (who : Agent)
  | svcKick (who : Agent)
  | stavufWatchdogExpiry
  | commitReq (value : W32) (who : Agent)
  | commitApply (fenceNs : Nat)
  | discard (off : BitVec 25) (value : W32)
  | perstNAssert
  | devRstNAssert
  | pwrgdCoreFall
  | resetRelease (fusesOk : Bool)
  | keyGenerationDone
  | imageBegin (len : BitVec 12) (mail : List Byte)
  | imageChunk (len : BitVec 12) (mail : List Byte)
  | imageEnd (len : BitVec 12)
  | imageVerifyDone
  | setJobkey (len : BitVec 12) (mail : List Byte)
  | firmwareStartTimeout
  | bringUpComplete (failed : List Block) (sole : List SoleUnit)
  | secPolicyWrite (value : W32)
  | privateDebugInstruction (ir : Nat)
  | sidebandPageSelect (page : Byte) (off : BitVec 16)
  | sidebandRead
  | doeDiscovery (index : Byte)
  | getId
  | getCerts (off len : W32)
  | attest (nonce : List Byte) (mask : Byte)
  | hostLinkUp (rate : BitVec 4) (width : BitVec 5) (flitMode : Bool)
  | configurationRequest (r : CfgReq)
  | swapInComplete (slot : BitVec 6) (data : List Byte)
  | avsVoltageReached
  | bringUpStart
  | controlParityFault (u : ParityUnit) (off : W32) (mask : W32)
  deriving DecidableEq, Repr

end Sys2Proof
end

