-- ==== Sys2Proof/Decode.lean ====
section
/-! DEFINITION. The command that a word spells. The table of operations and events gives no row any bits, so no word
spells a command: a command arrives with its operands from outside. -/

namespace Sys2Proof

/-- The command spelled by a word under the table's bits: the table gives none. -/
def decodeTableWord (_nbits _w : Nat) : Option Instr := none

end Sys2Proof
end

