-- ==== Sys2Proof/Config.lean ====
section
/-! DEFINITION. What one part fixes (fuses, keys) and the values the manual leaves open: constants without a body,
so that a statement holds whatever they are. -/

namespace Sys2Proof.Config

/-- Whether the part is an OA-1200 (R2, R3): 120 cores in service instead of 128. -/
opaque isOA1200 : Bool
/-- The fuses that name the eight fused cores of an OA-1200 (R3, R4, R471): the k-th picks one of the cores that the earlier ones left. -/
opaque fusedPick : Nat → BitVec 7
/-- The fused Device Serial Number (R462). -/
opaque serial : BitVec 64
/-- The fused boot-ROM version (R462). -/
opaque romVer : BitVec 32
/-- VCORE_FUSED in mV (R405). -/
opaque vcoreFused : BitVec 10
/-- The fused digest of Yarfer's signing key (R471). -/
opaque yarferKeyDigest : BitVec 256
/-- The fused least security version (R471). -/
opaque minSvn : BitVec 8
/-- The fused debug-disable bit (R471). -/
opaque debugDisable : Bool
/-- The fused identity SEED (R471). -/
opaque seed : BitVec 256
/-- Deterministic Falcon-1024 key generation from 48 bytes (R474): the public key, 1,793 bytes. -/
opaque falconPublic : List Byte → List Byte
/-- The Falcon-1024 signature of a message under the private key generated from 48 bytes (R474, R478): 1,280 bytes. -/
opaque falconSign : List Byte → List Byte → List Byte
/-- Falcon-1024 verification of a signature under a public key (R470, R476): key, message, signature. -/
opaque falconVerify : List Byte → List Byte → List Byte → Bool
/-- The public key in the leaf of a certificate bundle (R474). -/
opaque leafKey : List Byte → List Byte
/-- Yarfer's PCI-SIG vendor ID (R353), which the manual names without its number. -/
opaque yarferVendorId : BitVec 16
/-- The hash that picks one port of a mask for a sender and a destination chip (R344). -/
opaque portHash : Nat → Nat → Nat
/-- A value the manual calls unpredictable, by the count of such values used so far (R7). -/
opaque freeValue : Nat → BitVec 32
/-- Which of the FP32 values within the error bound of Table 4.4 the SFU gives (R118): the function's code in Table 5.7 and the
input's bits. -/
opaque sfuPick : Nat → BitVec 32 → BitVec 8
/-- Whether a block of a register of the vector unit is privileged under a channel list (R113, log 22): the list, the part, the block. -/
opaque vecPriv : List Nat → Nat → Nat → Bool
/-- The sign that MAX and MIN give to two zeros of different sign, which R116 does not state: MAX or MIN, the operands. -/
opaque zeroSign : Bool → BitVec 32 → BitVec 32 → Bool
/-- Which ring takes a hand-off when a core has more than one for a port and channel (R341). -/
opaque handoffPick : Nat → Nat

/-- The channel that a stream queue's hand-offs use (Table 11.4), which the manual does not give: by global queue number. -/
opaque handoffChannel : Nat → BitVec 2

end Sys2Proof.Config
end

