-- ==== Sys2Proof/Machine/Bytes.lean ====
section
/-! DEFINITION. Bytes, bit fields and sparse tables: the helpers every family uses (R11, R42). -/

namespace Sys2Proof.Machine

/-- Bits [hi:lo] of a number (R11). -/
def fld (v hi lo : Nat) : Nat := (v >>> lo) % 2 ^ (hi - lo + 1)

/-- Bit n of a number, as a condition. -/
def bitAt (v n : Nat) : Bool := (v >>> n) % 2 == 1

/-- The number with bits [hi:lo] replaced by x. -/
def putFld (v hi lo x : Nat) : Nat :=
  v - (fld v hi lo) * 2 ^ lo + (x % 2 ^ (hi - lo + 1)) * 2 ^ lo

/-- A little-endian byte sequence as a number (R11). -/
def leNat : List Byte → Nat
  | [] => 0
  | b :: bs => b.toNat + 256 * leNat bs

/-- The n little-endian bytes of a number (R11). -/
def natLe : Nat → Nat → List Byte
  | 0, _ => []
  | n + 1, v => BitVec.ofNat 8 v :: natLe n (v / 256)

/-- A field of n bytes at an offset of a structure in memory. -/
def byteFld (bs : List Byte) (off n : Nat) : Nat := leNat ((bs.drop off).take n)

/-- n zero bytes. -/
def zeros (n : Nat) : List Byte := List.replicate n 0

/-- A byte list cut or filled with zeros to n bytes. -/
def fitTo (n : Nat) (bs : List Byte) : List Byte := (bs ++ zeros (n - bs.length)).take n

/-- A byte list with the bytes at an offset replaced. -/
def spliceAt (bs : List Byte) (off : Nat) (new : List Byte) : List Byte :=
  bs.take off ++ new ++ bs.drop (off + new.length)

/-- A list cut into pieces of n (fuel: the list's length). -/
def chunksAux {α : Type} (n : Nat) : Nat → List α → List (List α)
  | 0, _ => []
  | _ + 1, [] => []
  | k + 1, xs => xs.take n :: chunksAux n k (xs.drop n)

/-- A list cut into pieces of n. -/
def chunks {α : Type} (n : Nat) (xs : List α) : List (List α) := chunksAux n xs.length xs

/-- Round up to a multiple of m. -/
def roundUp (x m : Nat) : Nat := (x + m - 1) / m * m

/-- Division rounding up. -/
def ceilDiv (x m : Nat) : Nat := (x + m - 1) / m

/-- A sparse table: entries by key, keys rising; what is not listed reads a default. -/
abbrev Tab (α : Type) := List (Nat × α)

/-- The entry of a key, or the default. -/
def tget {α : Type} (d : α) : Tab α → Nat → α
  | [], _ => d
  | (k, v) :: t, x => if x = k then v else tget d t x

/-- The table with one entry written, its keys still rising. -/
def tset {α : Type} : Tab α → Nat → α → Tab α
  | [], x, w => [(x, w)]
  | (k, v) :: t, x, w =>
    if x = k then (k, w) :: t
    else if x < k then (x, w) :: (k, v) :: t
    else (k, v) :: tset t x w

/-- The table without a key. -/
def tdel {α : Type} (t : Tab α) (x : Nat) : Tab α := t.filter (fun e => e.1 ≠ x)

/-- The entry of a key, where there is one. -/
def tfind {α : Type} (t : Tab α) (x : Nat) : Option α := (t.find? (fun e => e.1 == x)).map Prod.snd

/-- Remove the first element for which p holds. -/
def removeFirst {α : Type} (p : α → Bool) : List α → List α
  | [] => []
  | x :: xs => if p x then xs else x :: removeFirst p xs

/-- The list with element n replaced. -/
def setAt {α : Type} (xs : List α) (n : Nat) (x : α) : List α := xs.set n x

/-- The least element of a list of numbers, or a default. -/
def minOf (d : Nat) (xs : List Nat) : Nat :=
  match xs with
  | [] => d
  | y :: ys => ys.foldl Nat.min y

/-- The greatest element of a list of numbers, or 0. -/
def maxOf (xs : List Nat) : Nat := xs.foldl Nat.max 0

/-- The numbers lo, lo + 1, … of a count. -/
def fromN (lo n : Nat) : List Nat := (List.range n).map (lo + ·)

end Sys2Proof.Machine
end

