-- ==== Sys2Proof/Machine/Numerics.lean ====
section
/-! DEFINITION. Number formats, rounding and block scaling (02_numerics): values are exact dyadic numbers, rounded
only where the manual rounds. -/

namespace Sys2Proof.Machine

/-- A value of a floating-point format: a signed dyadic number m × 2^e, an infinity or a NaN (R41, R44). -/
inductive Num where
  | fin (neg : Bool) (m : Nat) (e : Int)
  | inf (neg : Bool)
  | nan
  deriving DecidableEq, Repr

/-- A binary floating-point format: precision, exponent of the least subnormal, field widths (Table 2.1). -/
structure FpFmt where
  p : Nat
  emin : Int
  ebits : Nat
  mbits : Nat
  deriving DecidableEq, Repr

/-- FP32 (Table 2.1). -/
def fp32 : FpFmt := ⟨24, -149, 8, 23⟩
/-- BF16 (Table 2.1). -/
def bf16 : FpFmt := ⟨8, -133, 8, 7⟩
/-- FP8 E4M3 (Table 2.1). -/
def e4m3 : FpFmt := ⟨4, -9, 4, 3⟩
/-- FP8 E5M2 (Table 2.1). -/
def e5m2 : FpFmt := ⟨3, -16, 5, 2⟩
/-- FP4 E2M1 (Table 2.1). -/
def e2m1 : FpFmt := ⟨2, -1, 2, 1⟩

/-- Two to an integer power, as a value. -/
def pow2 (e : Int) : Num := .fin false 1 e

/-- Shift right with rounding to nearest, ties to even (R43). -/
def rneShift (m r : Nat) : Nat :=
  let q := m / 2 ^ r
  let rest := 2 * (m % 2 ^ r)
  if rest > 2 ^ r || (rest == 2 ^ r && q % 2 == 1 && r != 0) then q + 1 else q

/-- The significand and exponent of a dyadic number rounded to a format, before overflow (R43): subnormals kept. -/
def roundSig (f : FpFmt) (m : Nat) (e : Int) : Nat × Int :=
  if m = 0 then (0, f.emin) else
  let q : Int := max (e + (Nat.log2 m + 1 : Nat) - f.p) f.emin
  let m' := if e ≥ q then m * 2 ^ (e - q).toNat else rneShift m (q - e).toNat
  if m' = 2 ^ f.p then (2 ^ (f.p - 1), q + 1) else (m', q)

/-- The bits of a rounded finite number, or none where it lies beyond the largest exponent (R41). -/
def packFin (f : FpFmt) (neg : Bool) (m : Nat) (e : Int) (maxE : Nat) : Option Nat :=
  let (s, q) := roundSig f m e
  let sign := if neg then 2 ^ (f.ebits + f.mbits) else 0
  if s < 2 ^ (f.p - 1) then some (sign + s)
  else
    let be := (q - f.emin + 1).toNat
    if be > maxE then none else some (sign + be * 2 ^ f.mbits + (s - 2 ^ (f.p - 1)))

/-- Round a value to FP32 (R43, R44). -/
def fl (x : Num) : W32 :=
  match x with
  | .nan => 0x7FC00000#32
  | .inf n => if n then 0xFF800000#32 else 0x7F800000#32
  | .fin n m e =>
    match packFin fp32 n m e 254 with
    | some b => BitVec.ofNat 32 b
    | none => if n then 0xFF800000#32 else 0x7F800000#32

/-- Round a value to BF16 (R43, R44). -/
def flBf16 (x : Num) : BitVec 16 :=
  match x with
  | .nan => 0x7FC0#16
  | .inf n => if n then 0xFF80#16 else 0x7F80#16
  | .fin n m e =>
    match packFin bf16 n m e 254 with
    | some b => BitVec.ofNat 16 b
    | none => if n then 0xFF80#16 else 0x7F80#16

/-- The value of an encoding of an IEEE-style format: exponent all ones is infinity or NaN (R41, Table 2.1). -/
def decodeIeee (f : FpFmt) (b : Nat) : Num :=
  let neg := bitAt b (f.ebits + f.mbits)
  let ex := fld b (f.ebits + f.mbits - 1) f.mbits
  let man := b % 2 ^ f.mbits
  if ex = 2 ^ f.ebits - 1 then (if man = 0 then .inf neg else .nan)
  else if ex = 0 then .fin neg man f.emin
  else .fin neg (2 ^ f.mbits + man) (f.emin + ex - 1)

/-- The value of an FP32 word (R41). -/
def val32 (w : W32) : Num := decodeIeee fp32 w.toNat
/-- The value of a BF16 word (R41). -/
def valBf16 (w : BitVec 16) : Num := decodeIeee bf16 w.toNat
/-- The value of an E4M3 byte: the top binade is finite but for S.1111.111 (R41). -/
def valE4m3 (b : Nat) : Num :=
  if b % 128 = 127 then .nan
  else if fld b 6 3 = 0 then .fin (bitAt b 7) (b % 8) (-9)
  else .fin (bitAt b 7) (8 + b % 8) (-9 + fld b 6 3 - 1)
/-- The value of an E5M2 byte (R41). -/
def valE5m2 (b : Nat) : Num := decodeIeee e5m2 b
/-- The value of an E2M1 code (Table 2.2). -/
def valE2m1 (b : Nat) : Num :=
  if fld b 2 1 = 0 then .fin (bitAt b 3) (b % 2) (-1) else .fin (bitAt b 3) (2 + b % 2) (-1 + fld b 2 1 - 1)
/-- The value of an E8M0 scale byte (R41). -/
def valE8m0 (b : Nat) : Num := if b = 255 then .nan else pow2 ((b : Int) - 127)
/-- The value of an INT8 byte (Table 2.1). -/
def valInt8 (b : Nat) : Num := if b < 128 then .fin false b 0 else .fin true (256 - b) 0

namespace Num

/-- The value of a finite number scaled to an exponent not above its own, signed. -/
def scaled (neg : Bool) (m : Nat) (e q : Int) : Int :=
  (if neg then -1 else 1) * ((m * 2 ^ (e - q).toNat : Nat) : Int)

/-- A finite value from a signed significand. -/
def ofInt (v e : Int) : Num := .fin (v < 0) v.natAbs e

/-- Exact sum (R44): a zero sum is +0 unless both terms are −0. -/
def add : Num → Num → Num
  | .nan, _ => .nan
  | _, .nan => .nan
  | .inf a, .inf b => if a = b then .inf a else .nan
  | .inf a, _ => .inf a
  | _, .inf b => .inf b
  | .fin a m e, .fin b n f =>
    let q := min e f
    let v := scaled a m e q + scaled b n f q
    if v = 0 then .fin (a && b) 0 q else ofInt v q

/-- Exact negation. -/
def neg : Num → Num
  | .nan => .nan
  | .inf a => .inf (!a)
  | .fin a m e => .fin (!a) m e

/-- Exact magnitude. -/
def abs : Num → Num
  | .nan => .nan
  | .inf _ => .inf false
  | .fin _ m e => .fin false m e

/-- Exact product (R44). -/
def mul : Num → Num → Num
  | .nan, _ => .nan
  | _, .nan => .nan
  | .inf a, .inf b => .inf (a != b)
  | .inf a, .fin b m _ => if m = 0 then .nan else .inf (a != b)
  | .fin a m _, .inf b => if m = 0 then .nan else .inf (a != b)
  | .fin a m e, .fin b n f => .fin (a != b) (m * n) (e + f)

/-- Whether a value is finite. -/
def isFin : Num → Bool
  | .fin _ _ _ => true
  | _ => false

/-- Whether a value is a NaN. -/
def isNan : Num → Bool
  | .nan => true
  | _ => false

/-- Whether a value is a zero of either sign. -/
def isZero : Num → Bool
  | .fin _ m _ => m == 0
  | _ => false

/-- The sign bit of a value. -/
def sign : Num → Bool
  | .fin a _ _ => a
  | .inf a => a
  | .nan => false

/-- Strictly below; false where unordered (R116). -/
def lt : Num → Num → Bool
  | .nan, _ => false
  | _, .nan => false
  | .inf a, .inf b => a && !b
  | .inf a, .fin _ _ _ => a
  | .fin _ _ _, .inf b => !b
  | .fin a m e, .fin b n f =>
    let q := min e f
    scaled a m e q < scaled b n f q

/-- Equal in value; false where unordered (R116). -/
def eqv (x y : Num) : Bool := !x.isNan && !y.isNan && !lt x y && !lt y x

/-- Not above; false where unordered (R116). -/
def le (x y : Num) : Bool := lt x y || eqv x y

/-- The quotient of two values with enough bits and a sticky bit, so that one rounding of it is the rounding of the
exact quotient (R50, R263). -/
def div : Num → Num → Num
  | .nan, _ => .nan
  | _, .nan => .nan
  | .inf _, .inf _ => .nan
  | .inf a, .fin b _ _ => .inf (a != b)
  | .fin a _ e, .inf b => .fin (a != b) 0 e
  | .fin a m e, .fin b n f =>
    if n = 0 then (if m = 0 then .nan else .inf (a != b))
    else if m = 0 then .fin (a != b) 0 0
    else
      let k := Nat.log2 n + 64
      let q := (m * 2 ^ k) / n
      let r := (m * 2 ^ k) % n
      .fin (a != b) (2 * q + (if r = 0 then 0 else 1)) (e - f - k - 1)

/-- The square root with enough bits and a sticky bit (Table 4.4, R263). -/
def sqrt : Num → Num
  | .nan => .nan
  | .inf a => if a then .nan else .inf false
  | .fin a m e =>
    if m = 0 then .fin a 0 e
    else if a then .nan
    else
      let k := 128 + (e.toNat % 2 + (-e).toNat % 2)
      let s := Nat.sqrt (m * 2 ^ k)
      .fin false (2 * s + (if s * s = m * 2 ^ k then 0 else 1)) ((e - k) / 2 - 1)

/-- The larger of two finite magnitudes. -/
def maxMag (x y : Num) : Num := if lt x.abs y.abs then y.abs else x.abs

/-- Floor of the base-2 logarithm of a nonzero finite magnitude. -/
def lg : Num → Int
  | .fin _ m e => e + (Nat.log2 m : Nat)
  | _ => 0

end Num

/-- The nearest integer of a finite value, ties to even (R51, R65). -/
def roundInt (x : Num) : Int :=
  match x with
  | .fin n m e =>
    let v := if e ≥ 0 then m * 2 ^ e.toNat else rneShift m (-e).toNat
    if n then -(v : Int) else v
  | _ => 0

/-- FP32 addition, multiplication, fused multiply-add, division and square root, each with one rounding (R43, R116, R263). -/
def fadd (a b : W32) : W32 := fl ((val32 a).add (val32 b))
@[inherit_doc fadd] def fsub (a b : W32) : W32 := fl ((val32 a).add (val32 b).neg)
@[inherit_doc fadd] def fmul (a b : W32) : W32 := fl ((val32 a).mul (val32 b))
@[inherit_doc fadd] def ffma (a b c : W32) : W32 := fl (((val32 a).mul (val32 b)).add (val32 c))
@[inherit_doc fadd] def fdiv (a b : W32) : W32 := fl ((val32 a).div (val32 b))
@[inherit_doc fadd] def fsqrt (a : W32) : W32 := fl (val32 a).sqrt
/-- Sign change (R116). -/
def fneg (a : W32) : W32 := fl (val32 a).neg

/-- The FP32 value of one. -/
def fOne : W32 := 0x3F800000#32

/-- The biased exponent field of an FP32 word (R65, R95). -/
def expField (w : W32) : Nat := fld w.toNat 30 23

/-- Element formats (Table 2.7). -/
inductive EFmt where
  | e4m3 | e5m2 | e2m1 | bf16 | int8 | fp32
  deriving DecidableEq, Repr

/-- The element format of an ELEM_FMT code (Table 2.7). -/
def EFmt.ofCode : Nat → Option EFmt
  | 0 => some .e4m3
  | 1 => some .e5m2
  | 2 => some .e2m1
  | 3 => some .bf16
  | 4 => some .int8
  | 5 => some .fp32
  | _ => none

/-- Tensor rows per patch (Table 3.3). -/
def EFmt.patchRows : EFmt → Nat
  | .e4m3 | .e5m2 | .int8 => 16
  | .e2m1 => 32
  | .bf16 => 8
  | .fp32 => 4

/-- Patches per patch set (Table 3.3). -/
def EFmt.patchSet : EFmt → Nat
  | .e2m1 => 64
  | _ => 32

/-- Scale bytes per 512-byte data row (R75): 16 for FP8, 32 for FP4, 0 for the others. -/
def EFmt.scaleBytes : EFmt → Nat
  | .e4m3 | .e5m2 => 16
  | .e2m1 => 32
  | _ => 0

/-- The bytes of 32 elements (R42). -/
def EFmt.blockBytes : EFmt → Nat
  | .e4m3 | .e5m2 | .int8 => 32
  | .e2m1 => 16
  | .bf16 => 64
  | .fp32 => 128

/-- The largest finite value of a scaled format (R49). -/
def EFmt.emax : EFmt → Num
  | .e4m3 => .fin false 448 0
  | .e5m2 => .fin false 57344 0
  | .e2m1 => .fin false 6 0
  | _ => .fin false 127 0

/-- The value of one element code (R41). -/
def EFmt.val (f : EFmt) (code : Nat) : Num :=
  match f with
  | .e4m3 => valE4m3 code
  | .e5m2 => valE5m2 code
  | .e2m1 => valE2m1 code
  | .bf16 => decodeIeee Sys2Proof.Machine.bf16 code
  | .int8 => valInt8 code
  | .fp32 => decodeIeee Sys2Proof.Machine.fp32 code

/-- Element codes of a byte sequence (R42): two per byte for FP4, low half first. -/
def EFmt.codes (f : EFmt) (bs : List Byte) : List Nat :=
  match f with
  | .e4m3 | .e5m2 | .int8 => bs.map BitVec.toNat
  | .e2m1 => bs.flatMap (fun b => [b.toNat % 16, b.toNat / 16])
  | .bf16 => (chunks 2 bs).map leNat
  | .fp32 => (chunks 4 bs).map leNat

/-- The byte sequence of element codes (R42). -/
def EFmt.bytesOf (f : EFmt) (cs : List Nat) : List Byte :=
  match f with
  | .e4m3 | .e5m2 | .int8 => cs.map (BitVec.ofNat 8)
  | .e2m1 => (chunks 2 cs).map (fun p => BitVec.ofNat 8 (p.headD 0 % 16 + 16 * (p.getD 1 0 % 16)))
  | .bf16 => cs.flatMap (natLe 2)
  | .fp32 => cs.flatMap (natLe 4)

/-- A finite value rounded into a small float format: the code, saturated at the largest finite code (R49, R50). -/
def packSmall (f : EFmt) (neg : Bool) (m : Nat) (e : Int) : Nat × Bool :=
  let (fmt, sat, sbit) : FpFmt × Nat × Nat :=
    match f with
    | .e4m3 => (Sys2Proof.Machine.e4m3, 0x7E, 0x80)
    | .e5m2 => (Sys2Proof.Machine.e5m2, 0x7B, 0x80)
    | _ => (Sys2Proof.Machine.e2m1, 0x7, 0x8)
  let s := if neg then sbit else 0
  match packFin fmt false m e (2 ^ fmt.ebits) with
  | some c => if c > sat then (s + sat, true) else (s + c, false)
  | none => (s + sat, true)

/-- What one conversion writes: the code, whether it saturated, whether it is counted non-finite (R52). -/
structure Conv where
  code : Nat
  sat : Bool := false
  nonfin : Bool := false
  deriving DecidableEq, Repr

/-- Conversion of a value no format can hold (Table 2.4), for a scaled float format. -/
def convSpecial (f : EFmt) (x : Num) (sgn : Bool) : Conv :=
  match f, x with
  | .e2m1, _ => ⟨0, false, true⟩
  | .e5m2, .inf n => ⟨if n then 0xFC else 0x7C, false, true⟩
  | _, .inf n => ⟨if n then 0xFF else 0x7F, false, true⟩
  | _, _ => ⟨if sgn then 0xFF else 0x7F, false, true⟩

/-- X of R49: the least integer, not below −127, with bmax ≤ emax × 2^X. -/
def scaleExp (f : EFmt) (bmax : Num) : Int :=
  if bmax.isZero then -127 else
  let l := bmax.lg - f.emax.lg
  max (-127) (if bmax.le (f.emax.mul (pow2 l)) then l else l + 1)

/-- The largest magnitude among the finite elements (R49). -/
def blockMax (xs : List W32) : Num :=
  xs.foldl (fun a x => if (val32 x).isFin then a.maxMag (val32 x) else a) (.fin false 0 0)

/-- A block's codes and scale byte. -/
structure QBlock where
  elems : List Conv
  scale : Nat
  deriving DecidableEq, Repr

/-- Quantise a block of an ordinary row (R49, Table 2.4). -/
def quantOrdinary (f : EFmt) (xs : List W32) : QBlock :=
  let x := scaleExp f (blockMax xs)
  let conv (w : W32) : Conv :=
    match val32 w with
    | .fin n m e => let (c, s) := packSmall f n m (e - x); ⟨c, s, false⟩
    | v => convSpecial f v (bitAt w.toNat 31)
  let special := f == .e2m1 && xs.any (fun w => !(val32 w).isFin)
  ⟨xs.map conv, if special then 0xFF else (x + 127).toNat⟩

/-- The least E4M3 code whose value is not below r (R50); 448 where r is above it. -/
def e4m3Above (r : Num) : Nat :=
  match (fromN 1 126).find? (fun c => r.le (valE4m3 c)) with
  | some c => c
  | none => 0x7E

/-- Quantise a block of a privileged row under T (R50, Table 2.4). -/
def quantPrivileged (f : EFmt) (t : W32) (xs : List W32) : QBlock :=
  let bmax := blockMax xs
  let r := fl (bmax.div (val32 (fl (f.emax.mul (val32 t)))))
  let pc := if bmax.isZero then 0 else e4m3Above (val32 r)
  let d := val32 (fl ((valE4m3 pc).mul (val32 t)))
  let conv (w : W32) : Conv :=
    match val32 w with
    | .fin n m e =>
      if pc = 0 || !d.isFin then ⟨if n then (if f == .e2m1 then 8 else 0x80) else 0, false, false⟩
      else match (Num.fin n m e).div d with
        | .fin _ qm qe => let (c, s) := packSmall f n qm qe; ⟨c, s, false⟩
        | _ => ⟨0, false, false⟩
    | v => convSpecial f v (bitAt w.toNat 31)
  let special := f == .e2m1 && xs.any (fun w => !(val32 w).isFin)
  ⟨xs.map conv, if special then 0x7F else pc⟩

/-- Quantise to INT8 under T (R51, Table 2.4). -/
def quantInt8 (t : W32) (w : W32) : Conv :=
  match val32 w with
  | .fin n m e =>
    let q := roundInt ((Num.fin n m e).div (val32 t))
    if q > 127 then ⟨127, true, false⟩
    else if q < -127 then ⟨129, true, false⟩
    else ⟨(q % 256).toNat, false, false⟩
  | _ => ⟨0, false, true⟩

/-- Convert to BF16 (Table 2.4): an overflow is counted non-finite. -/
def quantBf16 (w : W32) : Conv :=
  let b := flBf16 (val32 w)
  ⟨b.toNat, false, !(valBf16 b).isFin⟩

/-- A tensor format descriptor's fields (Tables 2.6, 2.7). -/
structure TDesc where
  fmt : EFmt
  mode : Nat
  priv : Bool
  t : W32
  scaleAddr : Nat
  chanAddr : Nat
  statsAddr : Nat
  deriving DecidableEq, Repr

/-- The check of R58 and Table 2.3 over the 64 bytes of a descriptor. -/
def parseTDesc (bs : List Byte) : Option TDesc :=
  let c := byteFld bs 0 4
  let t := BitVec.ofNat 32 (byteFld bs 8 4)
  let hi (o : Nat) : Bool := byteFld bs (o + 6) 2 == 0
  let resOk := fld c 31 20 == 0 && !bitAt c 15 && !bitAt c 7 && hi 0x10 && hi 0x18 && hi 0x20 && hi 0x28 &&
    byteFld bs 0x30 4 / 16 == 0 && byteFld bs 0x34 12 == 0
  let mode := fld c 5 4
  let priv := bitAt c 6
  match EFmt.ofCode (fld c 3 0) with
  | none => none
  | some f =>
    let combo := match f with
      | .e4m3 | .e5m2 | .e2m1 => mode == 1
      | .int8 => mode == 2 && !priv
      | .bf16 | .fp32 => mode == 0 && !priv
    let needT := f == .int8 || priv
    let tOk := 1 ≤ expField t && expField t ≤ 254 && !bitAt t.toNat 31
    if resOk && combo && (!needT || tOk) then
      some ⟨f, mode, priv, t, byteFld bs 0x10 6, byteFld bs 0x18 6, byteFld bs 0x20 6⟩
    else none

/-- The check of R55 over the 512 bytes of a channel list: its entries, or none. -/
def parseChan (bs : List Byte) : Option (List Nat) :=
  let c := byteFld bs 0 4
  let n := c % 128
  let es := (List.range n).map (fun i => byteFld bs (0x40 + 4 * i) 4)
  let asc := (es.zip (es.drop 1)).all (fun p => p.1 < p.2)
  if c / 128 == 0 && n ≤ 64 && byteFld bs 4 60 == 0 && byteFld bs 0x140 192 == 0 && asc then some es else none

/-- Quantise one block of 32 FP32 values into a descriptor's format (R49 to R52). -/
def quantBlock (d : TDesc) (privRow : Bool) (xs : List W32) : QBlock :=
  match d.fmt with
  | .e4m3 | .e5m2 | .e2m1 => if privRow then quantPrivileged d.fmt d.t xs else quantOrdinary d.fmt xs
  | .int8 => ⟨xs.map (quantInt8 d.t), 0⟩
  | .bf16 => ⟨xs.map quantBf16, 0⟩
  | .fp32 => ⟨xs.map (fun w => ⟨w.toNat, false, !(val32 w).isFin⟩), 0⟩

/-- Whether a block's scale decodes as NaN (R53). -/
def scaleNan (privRow : Bool) (b : Nat) : Bool := if privRow then b ≥ 128 || b == 127 else b == 255

/-- One stored element widened to FP32 (R111, R112, Table 4.2). A BF16 NaN keeps its sign and payload (log 115). -/
def widen (d : TDesc) (privRow : Bool) (scale code : Nat) : W32 :=
  match d.fmt with
  | .fp32 => BitVec.ofNat 32 code
  | .bf16 => BitVec.ofNat 32 (code * 65536)
  | .int8 => fl ((valInt8 code).mul (val32 d.t))
  | f =>
    if scaleNan privRow scale then 0x7FC00000#32
    else
      let q := f.val code
      if q.isZero then fl q
      else if privRow then fl (q.mul (val32 (fl ((valE4m3 scale).mul (val32 d.t)))))
      else fl (q.mul (valE8m0 scale))

/-- The statistics of one pass, in the order of Table 2.8. -/
structure Stats where
  amax : W32 := 0
  sat : Nat := 0
  nonfin : Nat := 0
  first : Nat := 0xFFFFFFFFFFFFFFFF
  deriving DecidableEq, Repr

/-- The statistics of a list of inputs and their conversions, elements numbered from a base index (R59, Table 2.8). -/
def statsOf (base : Nat) (xs : List W32) (cs : List Conv) : Stats :=
  { amax := fl (blockMax xs)
    sat := cs.countP (·.sat)
    nonfin := cs.countP (·.nonfin)
    first := match cs.findIdx? (·.nonfin) with
      | some i => base + i
      | none => 0xFFFFFFFFFFFFFFFF }

/-- The combine rule of Table 2.8. -/
def Stats.join (a b : Stats) : Stats :=
  { amax := if (val32 a.amax).lt (val32 b.amax) then b.amax else a.amax
    sat := min 0xFFFFFFFF (a.sat + b.sat)
    nonfin := min 0xFFFFFFFF (a.nonfin + b.nonfin)
    first := min a.first b.first }

/-- A statistics record's bytes (Table 2.8). -/
def Stats.bytes (a : Stats) : List Byte :=
  natLe 4 a.amax.toNat ++ natLe 4 a.sat ++ natLe 4 a.nonfin ++ zeros 4 ++ natLe 8 a.first ++ zeros 8

/-- A statistics record read back. -/
def Stats.ofBytes (bs : List Byte) : Stats :=
  { amax := BitVec.ofNat 32 (byteFld bs 0 4), sat := byteFld bs 4 4, nonfin := byteFld bs 8 4, first := byteFld bs 0x10 8 }

/-- The FP32 input of a TOXF element converted under R65: the element and its RANGE_MISS and NONFINITE marks. -/
def toXf (e : Nat) (x : W32) : Int × Bool × Bool :=
  match val32 x with
  | .fin n m q =>
    let v := roundInt (.fin n m (q + 189 - e))
    if v > 2 ^ 51 - 1 then (2 ^ 51 - 1, true, false)
    else if v < -(2 ^ 51 - 1) then (-(2 ^ 51 - 1), true, false)
    else (v, false, false)
  | _ => (0, false, true)

/-- An XF64 element converted back to FP32 (R68). -/
def fromXf (hdr : Nat) (v : Int) : W32 :=
  if bitAt hdr 9 then 0x7FC00000#32 else fl (.ofInt v ((fld hdr 7 0 : Nat) - 189))

/-- A 64-bit two's-complement value of a number. -/
def sInt64 (v : Nat) : Int := if v % 2 ^ 64 < 2 ^ 63 then ((v % 2 ^ 64 : Nat) : Int) else ((v % 2 ^ 64 : Nat) : Int) - 2 ^ 64

/-- The 64-bit encoding of an integer. -/
def uInt64 (v : Int) : Nat := (v % 2 ^ 64).toNat

/-- Combine two XF64 headers of equal EXP (R66). -/
def xfJoinHdr (a b : Nat) : Nat :=
  max (fld a 31 24) (fld b 31 24) * 2 ^ 24 + (if bitAt a 9 || bitAt b 9 then 2 ^ 9 else 0) +
    (if bitAt a 8 || bitAt b 8 then 2 ^ 8 else 0) + fld a 7 0

/-- Add two XF64 blocks element by element, with no rounding (R66). -/
def xfAdd (a b : List Byte) : List Byte :=
  ((chunks 8 a).zip (chunks 8 b)).flatMap (fun p => natLe 8 ((leNat p.1 + leNat p.2) % 2 ^ 64))

/-- EXP of a block from its history (R69). -/
def nextExp (hist : List Nat) (rangeMiss : Bool) : Nat :=
  min 255 (maxOf hist + 12 + (if rangeMiss then 4 else 0))

end Sys2Proof.Machine
end

