-- ==== Sys2Proof/Machine/State.lean ====
section
/-! DEFINITION. Everything the manual gives the device to hold, as plain data; the reasons a command can stop; the state
at reset. What a sparse table does not list reads the default its accessor in Ops names. -/

namespace Sys2Proof.Machine

/-- Faults of the model. The device turns every fault of its own into a record and goes on (R426), so no meaning raises
one: safe. -/
inductive Fault where
  /-- Raised by no meaning. -/
  | none
  deriving DecidableEq, Repr

/-- Refusals of the model. -/
inductive Refusal where
  /-- An arm of exec that has no meaning yet: safe. -/
  | notModelled (mnemonic : String)
  /-- A private debug instruction while the port is unlocked (R477): the manual gives it no effect that could be
  modelled. Raised by PRIVATE_DEBUG_INSTRUCTION alone: safe. -/
  | privateDebugEffect
  deriving DecidableEq, Repr

/-! ### Lifecycle -/

/-- STATE of a block's PAGE_STATE (Table 13.9), in the order of its codes. -/
inductive LifeSt where
  | closed | opening | opened | closing | faulted
  deriving DecidableEq, Repr

/-- A block's lifecycle (R397). -/
structure Life where
  st : LifeSt := .opened
  epoch : Bool := false
  retired : Bool := false
  deriving DecidableEq, Repr

/-! ### Cores -/

/-- An entry of the loop stack (R152). -/
structure Loop where
  first : Nat
  last : Nat
  left : Nat
  index : Nat
  deriving DecidableEq, Repr

/-- A half of the instruction buffer (R151): its block, whether it is filled, and the bytes of the block that are not zero, by
offset; of its 64 requests, how many are issued and which are answered; the first status of one that failed, and its address. -/
structure IHalf where
  block : Nat
  filled : Bool
  code : List Host.Cell := []
  sent : Nat := 0
  got : List Nat := []
  bad : Option (Nat × Nat) := none
  deriving DecidableEq, Repr

/-- A reserved bank access (R189, R188). -/
structure Resv where
  when : Nat
  bank : Nat
  scrub : Bool
  deriving DecidableEq, Repr

/-- A tile in the cells: raw rows with their scale bytes, as loaded (R78, R95); sill rows that a store had still in flight at
its LD.TLOAD (R171); the CCLK in which the loader next tries a row. -/
structure Tile where
  desc : TDesc
  transposed : Bool
  chan : List Nat
  trow : Nat
  loc : Nat
  pos : Nat := 0
  cpos : Nat := 0
  rows : List (List Byte × List Byte) := []
  completeAt : Option Nat := none
  wet : List Nat := []
  at_ : Nat := 0
  deriving DecidableEq, Repr

/-- A staged vector: element codes and block scales (R81). -/
structure SVec where
  codes : List Nat
  scales : List Nat
  deriving DecidableEq, Repr

/-- A half of the staging buffer (R81, R82); the sill rows that its LD.STAGE reads, with the CCLK of each read. -/
structure Stage where
  fmt : EFmt := .e4m3
  t : W32 := 0
  vecs : List SVec := []
  reads : List (Nat × Nat) := []
  fillAt : Nat := 0
  freeAt : Nat := 0
  order : Nat := 0
  deriving DecidableEq, Repr

/-- A row of the accumulator bank (R89, R90): entries, saturation bit, mode tag, completion of the last update, and a mask of
the factor sets latched for the tiles whose results it holds (R91). -/
structure AccRow where
  vals : List W32 := List.replicate 32 0
  sat : Bool := false
  int8 : Bool := false
  readyAt : Nat := 0
  sets : Nat := 0
  deriving DecidableEq, Repr

/-- A patch being collected by the output stage (R92). -/
structure OutPatch where
  desc : Nat
  loc : Nat
  rows : List (List Nat) := []
  deriving DecidableEq, Repr

/-- A vector or probe row on its way to the checker (R76, R96, R98): outputs, checksum output or column sums, bound
exponents; the CCLK in which its result is set. -/
structure ChkEnt where
  probe : Bool
  int8 : Bool
  y : List Num
  c : Num
  sums : List Num
  bounds : List Nat
  tileSeq : Nat
  vec : Nat
  at_ : Nat
  deriving DecidableEq, Repr

/-- A patch set kept by the staging buffer (R85): its first sill row, and its rows with their scale bytes as read. -/
structure PatchSet where
  row : Nat
  rows : List (List Byte × List Byte)
  deriving DecidableEq, Repr

/-- The matrix array of a core (R70 to R100): fset is the factor set latched for the active tile (R91); after a mismatch that
ACTION 1 lets pass, what it writes is loose (R100). -/
structure Arr where
  active : Option Tile := none
  shadow : Option Tile := none
  shadowFreeAt : Nat := 0
  s0 : Stage := {}
  s1 : Stage := {}
  stageCount : Nat := 0
  carried : Option PatchSet := none
  acc : Tab AccRow := []
  fsets : Tab (List W32) := []
  fset : Option Nat := none
  patch : Option OutPatch := none
  scales : List (Nat × Nat) := []
  chkQ : List ChkEnt := []
  nextAt : Nat := 0
  tileSeq : Nat := 0
  vecs : Nat := 0
  loose : Bool := false
  deriving DecidableEq, Repr

/-- The vector unit of a core (R110 to R120); after a mismatch that ACTION 1 lets pass, what it writes is loose (R100, R119). -/
structure Vec where
  v : Tab (List W32) := []
  m : Tab Nat := []
  ready : Tab Nat := []
  mready : Tab Nat := []
  sfuFree : Nat := 0
  loose : Bool := false
  deriving DecidableEq, Repr

/-- The sub-bundle being issued: lanes issued, what they have named, and what they will write at its close (R32, R137, R138,
R191). -/
structure Cur where
  issued : Nat := 0
  rings : List Nat := []
  halves : List Nat := []
  uses : List (Nat × Nat) := []
  vec : Option Vec := none
  acc : List (Nat × AccRow) := []
  deriving DecidableEq, Repr

/-- What a stream request carries (R151, R212, R214). -/
inductive ReqKind where
  | data | scale | index | fetch
  deriving DecidableEq, Repr

/-- A dropped request (R225): its kind, its own offset, and its offset in the byte sequence. -/
structure Drop where
  kind : ReqKind
  off : Nat
  pos : Nat
  deriving DecidableEq, Repr

/-- A started stream descriptor (R204, R210, R226): raw descriptor, ring and start position, chunks completed and
dropped, scale bytes completed, slots finished, index buffer, window position; the companion ring's start and slots
finished. -/
structure Strm where
  serial : Nat
  raw : List Byte
  head : Nat
  start : Nat
  got : List (Nat × Nat) := []
  dropped : List Drop := []
  scaleGot : List Nat := []
  corr : Bool := false
  slots : Nat := 0
  idxBase : Option Nat := none
  idx : List Nat := []
  ctx : Option Nat := none
  win : Nat := 0
  tdesc : List Byte := []
  cstart : Nat := 0
  cslots : Nat := 0
  deriving DecidableEq, Repr

/-- A page request of a halted stream (R226, R374); success is a response kept for a parked job (R232). -/
inductive Prg where
  | none | waiting | sent | failed | success
  deriving DecidableEq, Repr

/-- A stream queue (R202 to R205, R226): started descriptors oldest first, accepted descriptors, halt status and address, halt not yet recorded, stopping. -/
structure SQ where
  run : List Strm := []
  pend : List (List Byte) := []
  halt : Nat := 0
  haltAddr : Nat := 0
  haltPos : Nat := 0
  halting : Bool := false
  stopping : Bool := false
  prg : Prg := .none
  deriving DecidableEq, Repr

/-- A change of FULL to come: the CCLK in which the row concerned is written or read, the slot-table entry, the value (R160). -/
structure Due where
  at_ : Nat
  entry : Nat
  full : Bool
  deriving DecidableEq, Repr

/-- A bank taken in a CCLK by the tile loader or by an asynchronous access (R192). -/
structure Busy where
  at_ : Nat
  bank : Nat
  loader : Bool
  deriving DecidableEq, Repr

/-- An asynchronous access that lost a bank: its requester, the CCLK of its last loss, the consecutive CCLK for which the tile
loader has deferred it (R192). -/
structure Wait where
  bank : Nat
  who : Nat
  at_ : Nat
  byLoader : Nat
  deriving DecidableEq, Repr

/-- A detector of a core that stood at its limit when another tore its job down (R179): of the lintel watchdog or of the slot-deadlock
detector; the job slot; what DL_INFO records. -/
structure Alarm where
  lint : Bool
  job : Nat
  info : Nat
  deriving DecidableEq, Repr

/-- A core: issue state, array, vector unit, sill controller and stream queues (chapters 03 to 07); 64-byte units that
hand-offs have written, by slot-table entry (R341); the CCLK from which a LOAD of a sill row written, and the use of a
slot-table entry loaded, may issue (R171); changes of FULL to come (R160); banks taken, accesses that wait, the requester each bank
served last (R192); the CCLK of the last stream-watchdog sample (R177); whether a resumed core still waits for its blocks (R180); a
detector that fired beside another (R179); the context that each engine's gather port served last (R214); the CCLK from which a remote sill
request may leave (R196); the CCLK from which a fall of PWR_ALERT_N holds ARRAY issue (R411). -/
structure Core where
  life : Life := {}
  job : Option Nat := none
  pc : Nat := 0
  cclk : Nat := 0
  running : Bool := false
  ended : Bool := false
  faulted : Bool := false
  hold : Nat := 0
  loops : List Loop := []
  areg : Tab Nat := []
  slots : Tab Nat := []
  h0 : Option IHalf := none
  h1 : Option IHalf := none
  code : Nat := 0
  codeLen : Nat := 0
  lintWait : Option (Nat × Nat) := none
  waitMark : Option (Nat × Nat) := none
  slotHold : Nat := 0
  lintHold : Nat := 0
  heldSlot : Nat := 0
  heldLint : Nat := 0
  resv : List Resv := []
  cur : Cur := {}
  arr : Arr := {}
  vec : Vec := {}
  repairQ : List Nat := []
  scrubPos : Nat := 0
  latch : Option Nat := none
  sq : Tab SQ := []
  serial : Nat := 0
  epoch : Bool := false
  finishing : Bool := false
  swdLast : List (List (Nat × Nat)) := []
  louvreAcc : Nat := 0
  droop : Nat := 0
  hand : Tab Nat := []
  wet : Tab Nat := []
  slotAt : Tab Nat := []
  due : List Due := []
  busy : List Busy := []
  waits : List Wait := []
  turn : Tab Nat := []
  swdAt : Nat := 0
  refetch : Bool := false
  alarm : Option Alarm := none
  gport : Tab Nat := []
  remoteAt : Nat := 0
  alertAt : Nat := 0
  deriving DecidableEq, Repr

/-- A lintel of a job (R163 to R166): physical core mask, notify group, expected messages; phase, cores arrived in it
and the phase each core last arrived in; messages counted for the current and next phase; all local cores arrived. -/
structure Lint where
  valid : Bool := false
  mask : Nat := 0
  notify : Nat := 0xFF
  expect : Nat := 0
  phase : Nat := 0
  arrived : Nat := 0
  last : Tab Nat := []
  msgCur : Nat := 0
  msgNext : Nat := 0
  deriving DecidableEq, Repr

/-! ### Stream requests in flight -/

/-- How far a request has come: issued, waiting at an input port of its quarry for an entry (R245), admitted there, served. -/
inductive ReqSt where
  | issued | waiting | admitted | served
  deriving DecidableEq, Repr

/-- A request in flight of a stream or of the instruction fetch (R216 to R220). -/
structure Req where
  core : Nat
  tag : Nat
  queue : Nat
  serial : Nat
  kind : ReqKind
  off : Nat
  len : Nat
  addr : Nat
  space : Nat
  write : Bool
  lc : Bool
  deadline : Nat
  epoch : Bool
  data : List Byte := []
  st : ReqSt := .issued
  status : Nat := 0
  arrival : Nat := 0
  via : Option (Nat × Nat) := none
  win : Option Nat := none
  deriving DecidableEq, Repr

/-! ### Quarries -/

/-- A region under EXPORT or IMPORT (R271): queue, or none for a host command; bounds. -/
structure Lock where
  queue : Option Nat
  lo : Nat
  hi : Nat
  deriving DecidableEq, Repr

/-- A bench queue (R254, Table 8.6): state code, next command, the command held; elements done, old values gathered, and
whether a saved command was running (R273). Of a started command: what it read at its start, by address (R132, R263), and the ranges that
an optimizer step writes as its working copy (R38). -/
structure BQ where
  st : Nat := 0
  pos : Nat := 0
  cmd : Option (List Byte) := none
  done : Nat := 0
  old : List Byte := []
  was : Nat := 0
  snap : List (Nat × List Byte) := []
  work : List (Nat × Nat) := []
  deriving DecidableEq, Repr

/-- A bench command submitted by the host (R254): its SQ, the command; bytes done, and those bytes. -/
structure HostBench where
  sq : Nat
  cmd : List Byte
  done : Nat := 0
  old : List Byte := []
  deriving DecidableEq, Repr

/-- A quarry, its controller and its bench (chapter 08). -/
structure Quarry where
  life : Life := {}
  open_ : Tab Nat := []
  budget : Nat := 0
  refRow : Tab Nat := []
  postponed : Tab Nat := []
  hot : Bool := false
  cool : Nat := 0
  scrubPos : Nat := 0
  repairQ : List Nat := []
  latch : Option Nat := none
  bq : Tab BQ := []
  host : List HostBench := []
  locks : List Lock := []
  arrivals : Nat := 0
  deriving DecidableEq, Repr

/-- A codeword that is not clean (R184, R239): erroneous symbols and the poison mark. -/
structure Cw where
  syms : List Nat
  poison : Bool
  deriving DecidableEq, Repr

/-! ### Reduction engine -/

/-- A tag's state (Table 9.6), in the order of its codes. -/
inductive TagSt where
  | idle | armed | reducing | reduced | failed
  deriving DecidableEq, Repr

/-- A shard's progress on this chip in the step (R282 to R292, R296 to R299): arrivals counted, sums; own contribution
added or offered, its checksum, its compressed blocks; HEADERS accepted and bytes of them written; the checksum that a
DELIVER brought. -/
structure ShardSt where
  arrivals : Nat := 0
  orig : Nat := 0
  csum : Nat := 0
  sum : Nat := 0
  verified : Bool := false
  headers : Bool := false
  delivered : Bool := false
  gathered : Bool := false
  sent : Bool := false
  own : Nat := 0
  payload : List (List Byte) := []
  hdrOpen : Bool := false
  hdrBytes : Nat := 0
  dsum : Option Nat := none
  deriving DecidableEq, Repr

/-- A bucket tag (R281); the step in which it last became REDUCED, and whether it was poisoned then (R295); the TIME at which it became
REDUCING (R300). -/
structure Tag where
  st : TagSt := .idle
  step : Nat := 0
  releases : Nat := 0
  poisoned : Bool := false
  skipped : Bool := false
  optDone : Nat := 0
  lastStep : Option Nat := none
  lastPoison : Bool := false
  since : Nat := 0
  shards : Tab ShardSt := []
  deriving DecidableEq, Repr

/-- A transfer being sent (R288, R289, R296, R297): kind as in Table 11.6, destination, accepted, retry due, units sent,
requests not yet acknowledged. -/
structure Xfer where
  id : Nat
  job : Nat
  tag : Nat
  shard : Nat
  kind : Nat
  dst : Nat
  accepted : Bool := false
  retry : Bool := false
  pos : Nat := 0
  acks : Nat := 0
  deriving DecidableEq, Repr

/-- The reduction engine (chapter 09): tags by job slot × 4096 + tag. -/
structure Red where
  tags : Tab Tag := []
  xfers : List Xfer := []
  nextId : Nat := 0
  deriving DecidableEq, Repr

/-! ### Attention -/

/-- A request of the generator (R309, R314): its ring, header and entries; state code 0 waiting, 1 emitting, 2 done; next
tile entry; entries served; pinned pages; retired. -/
structure AttReq where
  core : Nat
  ring : Nat
  hdr : List Byte
  ents : List Byte
  job : Nat
  st : Nat := 0
  tile : Nat := 0
  served : List Bool := []
  pins : List Nat := []
  retired : Bool := false
  deriving DecidableEq, Repr

/-- A sequence slot (Table 10.6): state code 0 to 4. -/
structure Seq where
  st : Nat := 0
  job : Nat := 0
  prio : Nat := 0
  id : Nat := 0
  len : Nat := 0
  pages : Nat := 0
  age : Nat := 0
  deriving DecidableEq, Repr

/-- An attention command waiting for a step boundary (R320). -/
structure AttCmd where
  sq : Nat
  cmd : List Byte
  deriving DecidableEq, Repr

/-- The step being allocated, or the last (R321): its ALLOC request's core, STEP, SEQ and entries; the outcome of each
entry, 0xFF while it has none; done. -/
structure AttStep where
  core : Nat
  step : Nat
  ref : Nat
  ents : List Byte
  out : List Nat
  done : Bool := false
  deriving DecidableEq, Repr

/-- The generator and the KV pool manager (chapter 10): pool pages and swap pages with the sequence slot that holds each. -/
structure Att where
  reqs : List AttReq := []
  seqs : Tab Seq := []
  cmds : List AttCmd := []
  used : List (Nat × Nat) := []
  swapUsed : List (Nat × Nat) := []
  age : Nat := 0
  step : Option AttStep := none
  deriving DecidableEq, Repr

/-! ### Link ports -/

/-- LINK of PORT_STATUS (Table 11.12), in the order of its codes. -/
inductive LinkSt where
  | down | training | up | retraining
  deriving DecidableEq, Repr

/-- Who sent a transaction of a port (R335). -/
inductive TxnOwner where
  | stream (core tag : Nat) | xfer (id : Nat) | bench (unit : Nat)
  deriving DecidableEq, Repr

/-- A transaction of a port that has had no response (R335), with the port's EPOCH as it was sent, and the TIME of that. -/
structure Txn where
  owner : TxnOwner
  dst : Nat
  expired : Bool := false
  epoch : Bool := false
  at_ : Nat := 0
  deriving DecidableEq, Repr

/-- One direction of a retry protocol (R337): next sequence number, retained flits, expected sequence number, a retry
to send, times of those sent for the SEQ, TIME of the last ACK or of the first flit since. In Ethernet mode there is one for each peer
chip (R349). -/
structure Lane where
  txSeq : Nat := 0
  replay : List (Nat × List Byte) := []
  rxSeq : Nat := 0
  asking : Bool := false
  asks : List Nat := []
  epoch : Nat := 0
  peerEpoch : Nat := 0
  timeouts : Nat := 0
  ackAt : Nat := 0
  down : Bool := false
  deriving DecidableEq, Repr

/-- A link port (chapter 11). Path 0xFFFF is the Zelzen link; others are Ethernet paths by chip. Messages to send stand
under class + 8 × path, a rest of one under 65536 × 8 more; credits to return, flits in the receive buffers and messages
received stand by class; so does the TIME since which a hand-off is held for a parked job (R342). -/
structure Port where
  life : Life := {}
  link : LinkSt := .down
  width : Nat := 0
  active : Nat := 0
  failed : Nat := 0
  reversed : Bool := false
  epoch : Bool := false
  peer : Nat := 0xFFFF
  fitted : Nat := 0
  credits : Tab Nat := []
  ret : Tab Nat := []
  paused : Nat := 0
  pausing : Nat := 0
  lanes : Tab Lane := []
  txq : List (Nat × List Byte) := []
  part : Tab (List Byte) := []
  inbox : List (Nat × List Byte) := []
  buf : Tab Nat := []
  txns : Tab Txn := []
  retrains : List Nat := []
  held : Tab Nat := []
  deriving DecidableEq, Repr

/-- The on-chip copies of the routing tables in force (R343, R346). -/
structure Routes where
  route : List Nat := []
  groups : List (Nat × Nat) := []
  members : List Nat := []
  paths : Tab (List (List Byte)) := []
  deriving DecidableEq, Repr

/-! ### Host interface -/

/-- A host queue's dynamic state (Table 12.4): state code, head, tail, error, phase, entries fetched and not completed,
TIME of the last message, message due (R371). -/
structure Hq where
  st : Nat := 0
  head : Nat := 0
  tail : Nat := 0
  err : Nat := 0
  phase : Bool := true
  fetched : Nat := 0
  msgAt : Option Nat := none
  due : Bool := false
  deriving DecidableEq, Repr

/-- A cached translation (R373). -/
structure Tlb where
  pasid : Nat
  page : Nat
  r : Bool
  w : Bool
  deriving DecidableEq, Repr

/-- The host interface (chapter 12). -/
structure Hif where
  up : Bool := false
  rate : Nat := 0
  width : Nat := 0
  flit : Bool := false
  tenBit : Bool := false
  pri : Bool := false
  priAlloc : Nat := 0
  ats : Bool := false
  pasid : Bool := false
  bar2Log : Nat := 0
  hqs : Tab Hq := []
  store : List (Nat × List Byte) := []
  msixPend : Nat := 0
  tlb : List Tlb := []
  prgFailed : Bool := false
  deriving DecidableEq, Repr

/-! ### Jobs -/

/-- A job slot's state (Table 13.1), in the order of its codes. -/
inductive JobSt where
  | empty | loading | loaded | running | parking | parked | resuming | ended | tearingDown | tornDown
  deriving DecidableEq, Repr

/-- A job slot (R376, R400): state, image facts, bound CQs, and the per-core and bench state saved while parked (R390), with
the registers that are the job's own: its bench queues' and the status registers of its cores. -/
structure Job where
  st : JobSt := .empty
  ncores : Nat := 0
  key : Nat := 0
  seq : Nat := 0
  placed : Nat := 0
  extra : Nat := 0
  cqEvent : Nat := 0
  cqStream : Nat := 0
  cqBench : Nat := 0
  cqRed : Nat := 0
  cqAtt : Nat := 0
  code : Tab (Nat × Nat) := []
  shutter : Nat := 0
  saved : Tab Core := []
  savedBq : Tab (Tab BQ) := []
  savedLocks : Tab (List Lock) := []
  regs : Tab W32 := []
  deriving DecidableEq, Repr

/-- A job command taken from a submission queue (R381). -/
structure JobCmd where
  sq : Nat
  cmd : List Byte
  deriving DecidableEq, Repr

/-- The phases of a switch (Table 13.6). -/
inductive SwPhase where
  | idle | drain | save | restore
  deriving DecidableEq, Repr

/-- A switch in progress (R388): outgoing and incoming slots, the ordering command, start. -/
structure Switch where
  phase : SwPhase := .idle
  outgoing : Option Nat := none
  incoming : Option Nat := none
  cmd : Option JobCmd := none
  start : Nat := 0
  deriving DecidableEq, Repr

/-! ### Faults, health, power, boot, commit -/

/-- The fault ring (R428, R430): records by entry, oldest, unacknowledged, records formed; lost classes are a register. -/
structure Flt where
  ring : Tab (List Byte) := []
  oldest : Nat := 0
  unack : Nat := 0
  seq : Nat := 0
  history : List (Nat × Nat × Nat × Nat) := []
  deriving DecidableEq, Repr

/-- The loss monitor of one job slot (R434). -/
structure Loss where
  samples : Nat := 0
  spikes : Nat := 0
  nonfinite : Nat := 0
  mean : Int := 0
  dev : Int := 0
  spikeVal : Int := 0
  spikeSample : Nat := 0
  deriving DecidableEq, Repr

/-- A regulator entry's readings (R403, R404). -/
structure Regu where
  mw : Nat := 0
  fails : Nat := 0
  ok : Bool := false
  deriving DecidableEq, Repr

/-- Power, droop and temperature (chapter 14); the TIME at which a change of VDD_CORE was written (R405), at which PWR_ALERT_N fell
(R412), and at which the core domain was reset (R414). -/
structure Pwr where
  b : Nat := 0
  pTerm : Nat := 0
  tTerm : Nat := 0
  sat : Bool := false
  pavg : Nat := 0
  pnow : Nat := 0
  energy : Nat := 0
  blocks : List Nat := []
  partial_ : Nat := 0
  ticks : Nat := 0
  reg : Tab Regu := []
  vcoreOld : Nat := 0
  avsBusy : Bool := false
  alertLow : Bool := false
  rows : Nat := 8
  reported : Bool := false
  exc : Bool := false
  coreHeld : Bool := false
  dram : List (Option Nat) := []
  logic : List (Option Nat) := []
  dramOver : Bool := false
  logicOver : Bool := false
  trip : Bool := false
  droopK : Tab Nat := []
  avsAt : Nat := 0
  fellAt : Nat := 0
  heldAt : Nat := 0
  deriving DecidableEq, Repr

/-- Boot, firmware and identity (chapter 17); the TIME of the last SVC_KICK or of the handover (R435), and
that at which the mailbox command ends (R472). -/
structure Boot where
  perst : Bool := false
  devRst : Bool := false
  pwrgd : Bool := false
  held : Bool := true
  stage : Nat := 0
  error : Nat := 0
  result : Nat := 0
  keyReady : Bool := false
  pushLen : Nat := 0
  certLen : Nat := 0
  pushed : List Byte := []
  pushing : Bool := false
  bundle : List Byte := []
  jobKeySet : Bool := false
  svcHeld : Bool := false
  kickAt : Nat := 0
  sbPage : Nat := 0
  sbOff : Nat := 0
  fuseFault : Bool := false
  busyTill : Nat := 0
  deriving DecidableEq, Repr

/-- A commit in progress (R454): group, token, by Stavuf, applying, the set taken, the tables read. -/
structure Commit where
  busy : Bool := false
  applying : Bool := false
  group : Nat := 0
  token : Nat := 0
  bySvc : Bool := false
  taken : Tab W32 := []
  tables : Routes := {}
  deriving DecidableEq, Repr

/-- The stored part of the device state word (R368): change count, event flags, FATAL. -/
structure Dsw where
  count : Nat := 0
  events : Nat := 0
  fatal : Bool := false
  ready : Bool := false
  deriving DecidableEq, Repr

/-! ### What the device sends out -/

/-- What leaves the device: read data and answers, posted writes, records, messages. -/
inductive Out where
  | readData (bytes : List Byte)
  | readPoisoned (bytes : List Byte)
  | record (cq addr : Nat) (bytes : List Byte)
  | hostWrite (addr : Nat) (pasid : Option Nat) (bytes : List Byte)
  | hostRead (addr : Nat) (pasid : Option Nat) (len : Nat)
  | msix (vector : Nat)
  | translation (pasid page : Nat)
  | pageRequest (core queue pasid page : Nat) (write : Bool)
  | invalidated (pasid page : Nat)
  | flit (port : Nat) (bytes : List Byte)
  | frame (port : Nat) (peer : Nat) (bytes : List Byte)
  | pause (port prio : Nat) (on : Bool)
  | avs (mv : Nat)
  | thermtrip
  | answer (bytes : List Byte)
  deriving DecidableEq, Repr

/-! ### The whole -/

/-- The device; recs holds, by statistics record, the kind of unit that writes it in its present period (R61). -/
structure State where
  mem : List Host.Cell
  ecc : Tab Cw
  regs : Tab W32
  staged : Tab W32
  ctrs : Tab Nat
  latch : Tab Nat
  cores : Tab Core
  quarries : Tab Quarry
  ports : Tab Port
  lintels : Tab Lint
  red : Red
  att : Att
  routes : Routes
  hif : Hif
  jobs : Tab Job
  sw : Switch
  jobCmds : List JobCmd
  runSlot : Option Nat
  lastSlot : Nat
  flt : Flt
  loss : Tab Loss
  pwr : Pwr
  boot : Boot
  commit : Commit
  dsw : Dsw
  flight : List Req
  free : Nat
  recs : Tab Nat
  time : Nat
  out : List Out
  pending : List Instr
  deriving DecidableEq, Repr

/-- The device held in reset, its reset inputs low (R465, R485): registers at the Reset column of their field maps,
memories with nothing listed. What the manual gives no reset value is named in the assumption log. -/
def State.reset : State :=
  { mem := [], ecc := [], regs := [], staged := [], ctrs := [], latch := [], cores := [], quarries := [], ports := [],
    lintels := [], red := {}, att := {}, routes := {}, hif := {}, jobs := [], sw := {}, jobCmds := [], runSlot := none,
    lastSlot := 0, flt := {}, loss := [], pwr := {}, boot := {}, commit := {}, dsw := {}, flight := [], free := 0, recs := [],
    time := 0, out := [], pending := [] }

end Sys2Proof.Machine
end

