-- ==== Sys2Proof/Machine/Pages.lean ====
section
/-! DEFINITION. The BAR0 map: pages, their identifiers, and the field map of every register, as masks by access code
(R13, R443 to R452). -/

namespace Sys2Proof.Machine

/-- The control pages (Table 16.8). -/
inductive Page where
  | identity | commit | state | interrupt | fault | hif | health | job | red | att
  | hq (k : Nat) | core (n : Nat) | array (n : Nat) | vector (n : Nat) | sill (n : Nat)
  | quarry (n : Nat) | bench (n : Nat) | port (p : Nat) | links | power | thermal | stavuf | security
  deriving DecidableEq, Repr

/-- Two to the 32, less one: every bit of a register. -/
def all32 : Nat := 0xFFFFFFFF

/-- BAR0 offset of a page (Table 16.8). -/
def Page.base : Page → Nat
  | .identity => 0x0 | .commit => 0x1000 | .state => 0x2000 | .interrupt => 0x3000 | .fault => 0x4000
  | .hif => 0x5000 | .health => 0x6000 | .job => 0x7000 | .red => 0x8000 | .att => 0x9000
  | .hq k => 0x20000 + 0x1000 * k
  | .core n => 0x100000 + 0x4000 * n
  | .array n => 0x101000 + 0x4000 * n
  | .vector n => 0x102000 + 0x4000 * n
  | .sill n => 0x103000 + 0x4000 * n
  | .quarry n => 0x300000 + 0x2000 * n
  | .bench n => 0x301000 + 0x2000 * n
  | .port p => 0x400000 + 0x2000 * p
  | .links => 0x410000 | .power => 0x600000 | .thermal => 0x601000 | .stavuf => 0x700000 | .security => 0x701000

/-- The page that a BAR0 offset lies in (R449, R450). -/
def pageOf (off : Nat) : Option Page :=
  let pg := off / 0x1000
  if pg < 10 then
    [Page.identity, .commit, .state, .interrupt, .fault, .hif, .health, .job, .red, .att][pg]?
  else if 0x20 ≤ pg ∧ pg < 0x30 then some (.hq (pg - 0x20))
  else if 0x100 ≤ pg ∧ pg < 0x300 then
    let n := (pg - 0x100) / 4
    [Page.core n, .array n, .vector n, .sill n][(pg - 0x100) % 4]?
  else if 0x300 ≤ pg ∧ pg < 0x400 then
    let n := (pg - 0x300) / 2
    if (pg - 0x300) % 2 = 0 then some (.quarry n) else some (.bench n)
  else if 0x400 ≤ pg ∧ pg < 0x410 then
    if pg % 2 = 0 then some (.port ((pg - 0x400) / 2)) else none
  else if pg = 0x410 then some .links
  else if pg = 0x600 then some .power
  else if pg = 0x601 then some .thermal
  else if pg = 0x700 then some .stavuf
  else if pg = 0x701 then some .security
  else none

/-- PAGE_ID (Tables 16.2 and 16.3). -/
def Page.id : Page → Nat
  | .identity => 0x01000000 | .commit => 0x02000000 | .state => 0x03000000 | .interrupt => 0x04000000
  | .fault => 0x05000000 | .hif => 0x06000000 | .health => 0x07000000 | .job => 0x08000000 | .red => 0x09000000
  | .att => 0x0A000000 | .hq k => 0x0B000000 + k
  | .core n => 0x10000000 + n | .array n => 0x10010000 + n | .vector n => 0x10020000 + n | .sill n => 0x10030000 + n
  | .quarry n => 0x20000000 + n | .bench n => 0x20010000 + n
  | .port p => 0x30000000 + p | .links => 0x31000000
  | .power => 0x40000000 | .thermal => 0x41000000 | .stavuf => 0x50000000 | .security => 0x51000000

/-- The UNIT of a block's fault records: its PAGE_ID with SUB 0 (R444). -/
def Page.unit (p : Page) : Nat := putFld p.id 19 16 0

/-- The bits of a register by access code (Table 0.5) and its value at reset; bits in no mask are reserved. -/
structure RegDef where
  reset : Nat := 0
  rw : Nat := 0
  w1c : Nat := 0
  st : Nat := 0
  wo : Nat := 0
  ro : Nat := 0
  deriving DecidableEq, Repr

/-- A register whose every field is RO. -/
def roDef (mask : Nat := all32) (reset : Nat := 0) : Option RegDef := some { reset := reset, ro := mask }
/-- A register whose every field is RW. -/
def rwDef (mask : Nat) (reset : Nat := 0) : Option RegDef := some { reset := reset, rw := mask }
/-- A register whose every field is ST. -/
def stDef (mask : Nat) (reset : Nat := 0) : Option RegDef := some { reset := reset, st := mask }

/-- Inner offsets of a page's event counters, low words (Tables 3.11, 4.7, 5.15, 5.16, 6.9, 6.10, 7.9, 8.16, 9.12, 10.7,
11.14, 12.10, 13.13, 14.9, 15.11, 16.14 and R432, R448; R472 names MBOX_IGNORED without an offset). -/
def Page.isCounter (p : Page) (o : Nat) : Bool :=
  let upto (hi : Nat) : Bool := 0x40 ≤ o && o ≤ hi && o % 8 == 0
  o == 0xF8 ||
  match p with
  | .commit => upto 0x58
  | .fault => upto 0x50 || (0x200 ≤ o && o ≤ 0x268 && o % 8 == 0)
  | .hif => upto 0x80
  | .health => false
  | .job => upto 0x60
  | .red => upto 0x90
  | .att => upto 0x88
  | .core _ => upto 0x70 || (0x200 ≤ o && o ≤ 0x260 && o % 8 == 0) || (0x400 ≤ o && o ≤ 0x458 && o % 8 == 0)
  | .array _ => upto 0x68
  | .vector _ => upto 0x58
  | .sill _ => upto 0x70 || (0x200 ≤ o && o < 0x600 && o % 0x40 < 0x28 && o % 8 == 0)
  | .quarry _ => upto 0xA8 || (0x800 ≤ o && o < 0x1000 && o % 0x20 == 0x10)
  | .bench _ => upto 0x90
  | .port _ => upto 0xD8
  | .power => upto 0x80
  | .thermal => upto 0x58
  | .stavuf => o == 0x40
  | _ => false

/-- The header registers (Table 16.1). STAGE_CTRL is defined only on pages with ST fields (R446). -/
def headerDef (hasSt : Bool) : Nat → Option RegDef
  | 0x00 => roDef 0xFF0FFFFF
  | 0x04 => roDef 0xFFFFFF
  | 0x08 => roDef 0xF0FFFFFF
  | 0x0C => some { ro := 0x87, wo := 0x300 }
  | 0x10 => if hasSt then some { wo := 1 } else some {}
  | 0x14 => roDef 0xFFFF0003
  | 0x20 => roDef 0x7FFF
  | _ => none

/-- Whether a page holds ST fields, and of which commit group (Table 16.9). -/
def Page.group : Page → Option Nat
  | .port _ => some 1
  | .links => some 1
  | .power => some 2
  | .thermal => some 2
  | _ => none

/-- The block registers of a page by inner offset from 0x100 (the field maps of every chapter). -/
def blockDef (p : Page) (o : Nat) : Option RegDef :=
  match p with
  | .identity => if o = 0x100 then roDef 0xFFFF else if o = 0x104 then roDef 0xFF else if o < 0x128 then roDef else none
  | .commit => match o with
    | 0x100 => some { wo := 0xFFFF00FF }
    | 0x104 => roDef 0xC0FFFF01 | 0x108 => roDef 0xFFFF | 0x10C => roDef | 0x110 => roDef | 0x118 => roDef | 0x11C => roDef
    | _ => none
  | .state => match o with
    | 0x100 => roDef 0xF0FFFFFF | 0x104 => some { wo := 0xFFFF } | 0x108 => roDef | 0x10C => roDef | _ => none
  | .interrupt =>
    if o = 0x100 then rwDef 0xFFFF else if o = 0x104 then rwDef 0x3F
    else if 0x800 ≤ o ∧ o < 0xC00 then (if o % 16 = 12 then rwDef 1 1 else rwDef all32)
    else if o = 0xC00 ∨ o = 0xC04 then roDef else none
  | .fault =>
    if 0x800 ≤ o then roDef else
    match o with
    | 0x100 => rwDef 3 3
    | 0x104 => roDef 0x3F1F
    | 0x108 => some { w1c := 0x7FFE }
    | 0x10C => some { wo := all32 }
    | _ => if 0x110 ≤ o ∧ o < 0x120 ∨ 0x130 ≤ o ∧ o < 0x140 then some { w1c := all32 }
           else if 0x120 ≤ o ∧ o < 0x150 then roDef else none
  | .hif => match o with
    | 0x100 => roDef 0xF01F011F | 0x104 => rwDef 0x1F 0x10 | 0x108 => rwDef 0xC0000000 | 0x10C => rwDef 0xFFFF
    | 0x110 => roDef | 0x114 => roDef 0xFFFF
    | 0x120 => rwDef 0x800FFFFF | 0x124 => rwDef 0x800FFFFF | 0x128 => rwDef 0x800FFFFF | 0x12C => rwDef 0x800FFFFF
    | _ => none
  | .health => match o with
    | 0x100 => rwDef 0xFF0FFFF1 0x10006041
    | 0x124 => roDef 3
    | _ => if 0x108 ≤ o ∧ o ≤ 0x120 then roDef else none
  | .job => match o with
    | 0x100 => rwDef all32 0xFA | 0x104 => roDef 0x80000003 | 0x108 => roDef
    | _ => if 0x200 ≤ o ∧ o < 0x300 ∧ o % 0x40 = 0 then roDef 0xF07FFFFF
           else if 0x200 ≤ o ∧ o < 0x300 ∧ (o % 0x40 < 8 ∨ 0x10 ≤ o % 0x40 ∧ o % 0x40 < 0x30) then roDef else none
  | .red => match o with
    | 0x100 => rwDef 3 3 | 0x104 => rwDef all32 0xF4240 | 0x108 => rwDef 0x3FFF | 0x10C => roDef 0xFFFC1FFF | 0x110 => roDef 0xFF003FFF
    | 0x114 => roDef 0xFFFF
    | _ => if 0x120 ≤ o ∧ o < 0x140 then (if o % 8 = 0 then rwDef all32 else rwDef 0xFFFF) else none
  | .att => match o with
    | 0x100 => rwDef 0x31 1
    | 0x108 => rwDef all32 | 0x10C => rwDef 0xFFFF | 0x110 => rwDef all32 | 0x114 => rwDef 0xFFFF
    | 0x118 => rwDef all32 | 0x11C => rwDef all32 | 0x120 => rwDef 0x1FFFF | 0x124 => rwDef 0xFF07FF
    | 0x128 => rwDef 0x7FF | 0x12C => rwDef 0xFFFFFF | 0x130 => roDef | 0x134 => roDef 0x1FFFF | 0x138 => roDef 0xFFFFFF
    | _ => if o < 0x800 ∨ 0x10 < o % 0x20 then none
           else roDef ([0xFCFF0000, all32, 0x7FFFF, 0x7FFFFF].getD (o % 0x20 / 4) all32)
  | .hq _ =>
    if o < 0x800 then none else
    match o % 0x20 with
    | 0x00 => rwDef 0xFFF1FFFF | 0x04 => rwDef 0xFFFF001F | 0x08 => rwDef all32 | 0x0C => rwDef all32
    | 0x10 => roDef 0xFFFF | 0x14 => roDef 0xFFFF | 0x18 => roDef 0xC0FFFFFF | _ => none
  | .core _ => match o with
    | 0x100 => rwDef 7 7 | 0x104 => roDef 0xFF000003 | 0x108 => roDef
    | 0x10C => rwDef all32 0x1000000 | 0x110 => rwDef all32 0x4000000 | 0x114 => rwDef all32 0x100000
    | 0x118 => roDef 0xCFFFFF00 | 0x11C => some { wo := all32 }
    | 0x300 => rwDef 3 3 | 0x304 => roDef 0xFF0000FF | 0x308 => roDef 0x3F7F
    | _ => if 0x800 ≤ o ∧ o < 0xA80 then roDef 0xC0FF000F else none
  | .array _ => match o with
    | 0x100 => rwDef 0x0FFFFF07 0x04102003 | 0x104 => some { w1c := 0xC, ro := 3 } | 0x108 => roDef | 0x10C => roDef
    | 0x110 => roDef | 0x114 => roDef | 0x118 => roDef 0xFF00FF | _ => none
  | .vector _ => match o with
    | 0x100 => rwDef 3 1 | 0x104 => roDef 0xFF07 | _ => none
  | .sill _ => match o with
    | 0x100 => rwDef 3 3 | 0x104 => rwDef all32 0x10000 | 0x108 => roDef 0x1FF | 0x10C => roDef 0xFF1FFF3F | 0x110 => roDef 0xF
    | _ => none
  | .quarry _ =>
    if 0x800 ≤ o then
      match o % 0x20 with
      | 0x00 => rwDef 0xF07F0F00 | 0x04 => rwDef 0xFFFF | 0x08 => rwDef 0x3FFFF000 | 0x0C => rwDef 0x3FFFF000
      | _ => none
    else match o with
      | 0x100 => rwDef 7 6 | 0x104 => rwDef all32 0x4000000 | 0x108 => roDef 0x1FFFFF | 0x10C => roDef 0x8000FFFF
      | 0x110 => roDef 0xFC00003F | 0x114 => roDef 0xFFFFFF | 0x118 => roDef 0xF
      | _ => if 0x200 ≤ o ∧ o < 0x240 then rwDef 0xBFFF3FFF else if 0x240 ≤ o ∧ o < 0x250 then roDef 0xBFFF3FFF else none
  | .bench _ =>
    if 0x400 ≤ o ∧ o < 0x600 then
      match o % 0x10 with
      | 0x0 => rwDef 0xFFFFFFC0 | 0x4 => rwDef all32 | 0x8 => rwDef 0x83FF03FF | _ => roDef 0xC000FFFF
    else match o with
      | 0x100 => rwDef 3 1 | 0x104 => roDef 0xFFFF001F | _ => none
  | .port _ => match o with
    | 0x100 => stDef 0x8FF003 0xF000 | 0x104 => roDef 0xCFFFFF03 | 0x108 => roDef 0xFFFF 0xFFFF
    | 0x10C => rwDef all32 0x3E8 | 0x110 => rwDef all32 0x2710 | 0x114 => rwDef all32 0x32
    | 0x118 => stDef all32 | 0x11C => stDef 0xFFFF
    | 0x120 => stDef all32 | 0x124 => stDef all32 | 0x128 => stDef all32 | 0x12C => stDef all32
    | 0x130 => stDef 0xFFFF8FFF | 0x134 => stDef 0x07777777 | 0x138 => stDef 0x3F3F3F3F | 0x13C => stDef 0x3F3F3F
    | 0x140 => rwDef all32 0xC0 | _ => none
  | .links => match o with
    | 0x100 => stDef 0xFFFF 0xFFFF
    | 0x104 => rwDef 0xC000FFFF | 0x108 => rwDef 0xC000FFFF | 0x10C => rwDef 0xC000FFFF | 0x110 => rwDef 0xC000FFFF
    | 0x118 => stDef all32 | 0x11C => stDef 0xFFFF | 0x120 => stDef 0x1FFF | 0x128 => stDef all32 | 0x12C => stDef 0xFFFF
    | _ => if 0x140 ≤ o ∧ o < 0x180 then (if o % 8 = 0 then stDef all32 else stDef 0xFFC0FFFF) else none
  | .power => match o with
    | 0x100 => stDef 0xFF3FFF87 0x40384287 | 0x104 => stDef 0x3FF 0x28A | 0x108 => roDef 0x3FF | 0x10C => roDef 0x80FFFFFF
    | 0x110 => roDef 0x1FFFFF | 0x114 => roDef 0x1FFFFF | 0x118 => roDef | 0x11C => roDef | 0x120 => rwDef all32 0xA | 0x124 => roDef 0x800003FF
    | 0x128 => roDef | 0x130 => roDef | 0x134 => roDef | 0x138 => roDef 0x33F
    | _ => if 0x140 ≤ o ∧ o < 0x1C0 then (if o % 8 = 0 then stDef 0x800F0F7F else stDef 0xFFFF) else none
  | .thermal => match o with
    | 0x100 => stDef 0xFFFFF000 0x5A642000 | 0x104 => roDef 0xFFFF007F | 0x108 => roDef 0xFFFF003F | 0x10C => some { w1c := 7, ro := 8 }
    | _ => if 0x200 ≤ o ∧ o < 0x300 then roDef 0xFFFF else none
  | .stavuf => match o with
    | 0x100 => roDef 0xFFFF011F | 0x104 => some { wo := 0xFFFFF000 } | 0x108 => rwDef 0x37F7F 0x14B4A
    | _ => if 0x800 ≤ o then rwDef all32 else none
  | .security => match o with
    | 0x100 => roDef 0xF | 0x104 => rwDef 3
    | _ => if 0x180 ≤ o ∧ o < 0x1A0 ∨ 0x200 ≤ o ∧ o < 0x2C0 then roDef else none

/-- The field map of the register at an inner offset; none where the offset is reserved or a counter. -/
def regDef (p : Page) (o : Nat) : Option RegDef :=
  if o < 0x100 then headerDef p.group.isSome o else blockDef p o

/-- The value at reset of the register at a BAR0 offset. -/
def regReset (off : Nat) : Nat :=
  match pageOf off with
  | some p => ((regDef p (off % 0x1000)).map RegDef.reset).getD 0
  | none => 0

/-- The writable bits of whatever access, whose writing is not a reserved write (R16). -/
def RegDef.defined (d : RegDef) : Nat := d.rw ||| d.w1c ||| d.st ||| d.wo ||| d.ro

end Sys2Proof.Machine
end

