-- ==== Sys2Proof/Machine/Ops.lean ====
section
/-! DEFINITION. Named access to every part of the state: byte memory in its canonical form, registers, counters, cores,
slots, quarries, jobs. -/

namespace Sys2Proof.Machine

/-! ### Byte memory: addresses rising, no listed zero; what is not listed reads 0 (DESIGN CHOICE, log 1) -/

/-- Addresses strictly rise from a bound and no listed byte is zero. -/
def Memory.wfFrom : Nat → List Host.Cell → Bool
  | _, [] => true
  | lo, (a, v) :: t => decide (lo ≤ a) && v != 0 && Memory.wfFrom (a + 1) t

/-- The canonical form of a memory. -/
def Memory.wf (m : List Host.Cell) : Bool := Memory.wfFrom 0 m

/-- The byte at an address. -/
def memGet : List Host.Cell → Nat → Byte
  | [], _ => 0
  | (a, v) :: t, x => if x = a then v else memGet t x

/-- A memory with one byte written; a zero removes the entry. -/
def memSet : List Host.Cell → Nat → Byte → List Host.Cell
  | [], x, w => if w = 0 then [] else [(x, w)]
  | (a, v) :: t, x, w =>
    if x = a then (if w = 0 then t else (a, w) :: t)
    else if x < a then (if w = 0 then (a, v) :: t else (x, w) :: (a, v) :: t)
    else (a, v) :: memSet t x w

/-- A memory with consecutive bytes written. -/
def memWrite (m : List Host.Cell) (a : Nat) : List Byte → List Host.Cell
  | [] => m
  | b :: bs => memWrite (memSet m a b) (a + 1) bs

/-- Consecutive bytes of a memory. -/
def memRead (m : List Host.Cell) (a n : Nat) : List Byte := (List.range n).map (fun i => memGet m (a + i))

/-- A memory with a range zeroed. -/
def memZero (m : List Host.Cell) (lo hi : Nat) : List Host.Cell := m.filter (fun c => !(decide (lo ≤ c.1) && decide (c.1 < hi)))

/-- A memory with a range replaced by a copy of another. -/
def memCopy (m : List Host.Cell) (src dst n : Nat) : List Host.Cell :=
  (m.filter (fun c => decide (src ≤ c.1) && decide (c.1 < src + n))).foldl
    (fun acc c => memSet acc (dst + (c.1 - src)) c.2) (memZero m dst (dst + n))

/-- The bytes of a range of device memory. -/
def State.bytes (s : State) (a n : Nat) : List Byte := memRead s.mem a n

/-- Device memory with bytes written; whole codewords become clean (R187, R239). -/
def State.put (s : State) (a : Nat) (bs : List Byte) : State :=
  { s with
    mem := memWrite s.mem a bs
    ecc := s.ecc.filter (fun e => !(decide (a ≤ 32 * e.1) && decide (32 * e.1 + 32 ≤ a + bs.length))) }

/-- A little-endian number in device memory (R11). -/
def State.num (s : State) (a n : Nat) : Nat := leNat (s.bytes a n)

/-! ### Device addresses (R19, R182, R235) -/

/-- First address of quarry n. -/
def quarryBase (n : Nat) : Nat := n * 0x30000000
/-- Bytes of a quarry. -/
def quarrySize : Nat := 0x30000000
/-- The end of the quarry range. -/
def quarryEnd : Nat := 0x1800000000
/-- First address of the sill of core n. -/
def sillBase (n : Nat) : Nat := 0x2000000000 + n * 0x400000
/-- The end of the sill range. -/
def sillEnd : Nat := 0x2020000000
/-- The control-page mirror. -/
def mirrorBase : Nat := 0x3000000000
/-- The end of the mirror. -/
def mirrorEnd : Nat := 0x3002000000

/-- The quarry that an address lies in. -/
def quarryOf (a : Nat) : Option Nat := if a < quarryEnd then some (a / quarrySize) else none
/-- The core whose sill an address lies in. -/
def sillOf (a : Nat) : Option Nat := if 0x2000000000 ≤ a ∧ a < sillEnd then some ((a - 0x2000000000) / 0x400000) else none
/-- The address of a sill row. -/
def rowAddr (core row : Nat) : Nat := sillBase core + 512 * row

/-! ### Registers, counters -/

/-- The stored value of a register, or its value at reset. -/
def State.reg (s : State) (off : Nat) : Nat := ((tfind s.regs off).map BitVec.toNat).getD (regReset off)
/-- A register written. -/
def State.setReg (s : State) (off v : Nat) : State := { s with regs := tset s.regs off (BitVec.ofNat 32 v) }
/-- A 64-bit pair of registers. -/
def State.reg64 (s : State) (off : Nat) : Nat := s.reg off + 2 ^ 32 * s.reg (off + 4)
/-- A 64-bit pair written. -/
def State.setReg64 (s : State) (off v : Nat) : State := (s.setReg off v).setReg (off + 4) (v / 2 ^ 32)
/-- A register of a page. -/
def State.preg (s : State) (p : Page) (o : Nat) : Nat := s.reg (p.base + o)
/-- A register of a page written. -/
def State.setPreg (s : State) (p : Page) (o v : Nat) : State := s.setReg (p.base + o) v

/-- An event counter, 48 bits (R102). -/
def State.ctr (s : State) (p : Page) (o : Nat) : Nat := tget 0 s.ctrs (p.base + o)
/-- An event counter advanced (R102). -/
def State.bump (s : State) (p : Page) (o : Nat) (n : Nat := 1) : State :=
  { s with ctrs := tset s.ctrs (p.base + o) ((s.ctr p o + n) % 2 ^ 48) }

/-- A value the manual leaves unpredictable (R7, log 8). -/
def State.freeWord (s : State) : W32 := Config.freeValue s.free
/-- One more free value used. -/
def State.useFree (s : State) : State := { s with free := s.free + 1 }
/-- n free bytes, from the value at a count (R7). -/
def freeBytes (k n : Nat) : List Byte := (List.range n).map (fun i => (Config.freeValue (k + i)).truncate 8)

/-! ### Parts -/

/-- The state of core n at reset: its louvre accumulator is spread (R408). -/
def Core.fresh (n : Nat) : Core := { louvreAcc := 2 * n % 256 }
/-- Core n. -/
def State.core (s : State) (n : Nat) : Core := tget (Core.fresh n) s.cores n
/-- Core n replaced. -/
def State.setCore (s : State) (n : Nat) (c : Core) : State := { s with cores := tset s.cores n c }
/-- Core n updated. -/
def State.onCore (s : State) (n : Nat) (f : Core → Core) : State := s.setCore n (f (s.core n))
/-- Quarry n. -/
def State.quarry (s : State) (n : Nat) : Quarry := tget {} s.quarries n
/-- Quarry n updated. -/
def State.onQuarry (s : State) (n : Nat) (f : Quarry → Quarry) : State :=
  { s with quarries := tset s.quarries n (f (s.quarry n)) }
/-- Port p. -/
def State.port (s : State) (p : Nat) : Port := tget {} s.ports p
/-- Port p updated. -/
def State.onPort (s : State) (p : Nat) (f : Port → Port) : State := { s with ports := tset s.ports p (f (s.port p)) }
/-- Job slot j. -/
def State.job (s : State) (j : Nat) : Job := tget {} s.jobs j
/-- Job slot j updated. -/
def State.onJob (s : State) (j : Nat) (f : Job → Job) : State := { s with jobs := tset s.jobs j (f (s.job j)) }
/-- Lintel id of job slot j. -/
def State.lint (s : State) (j id : Nat) : Lint := tget {} s.lintels (256 * j + id)
/-- A lintel updated. -/
def State.onLint (s : State) (j id : Nat) (f : Lint → Lint) : State :=
  { s with lintels := tset s.lintels (256 * j + id) (f (s.lint j id)) }
/-- A bucket tag of job slot j. -/
def State.tag (s : State) (j t : Nat) : Tag := tget {} s.red.tags (4096 * j + t)
/-- A bucket tag updated. -/
def State.onTag (s : State) (j t : Nat) (f : Tag → Tag) : State :=
  { s with red := { s.red with tags := tset s.red.tags (4096 * j + t) (f (s.tag j t)) } }
/-- Sequence slot i. -/
def State.seq (s : State) (i : Nat) : Seq := tget {} s.att.seqs i
/-- A sequence slot updated. -/
def State.onSeq (s : State) (i : Nat) (f : Seq → Seq) : State :=
  { s with att := { s.att with seqs := tset s.att.seqs i (f (s.seq i)) } }
/-- Host queue h. -/
def State.hq (s : State) (h : Nat) : Hq := tget {} s.hif.hqs h
/-- A host queue updated. -/
def State.onHq (s : State) (h : Nat) (f : Hq → Hq) : State :=
  { s with hif := { s.hif with hqs := tset s.hif.hqs h (f (s.hq h)) } }
/-- The stream queue q of core n. -/
def State.sq (s : State) (n q : Nat) : SQ := tget {} (s.core n).sq q
/-- A stream queue updated. -/
def State.onSq (s : State) (n q : Nat) (f : SQ → SQ) : State :=
  s.onCore n (fun c => { c with sq := tset c.sq q (f (tget {} c.sq q)) })
/-- The bench queue b of quarry n. -/
def State.bq (s : State) (n b : Nat) : BQ := tget {} (s.quarry n).bq b
/-- A bench queue updated. -/
def State.onBq (s : State) (n b : Nat) (f : BQ → BQ) : State :=
  s.onQuarry n (fun q => { q with bq := tset q.bq b (f (tget {} q.bq b)) })
/-- Something leaves the device. -/
def State.send (s : State) (o : Out) : State := { s with out := o :: s.out }

/-- The first k fused cores of an OA-1200: each is one of those that the earlier ones left. -/
def fusedFirst : Nat → List Nat
  | 0 => []
  | k + 1 =>
    let rest := (List.range 128).filter (fun n => !(fusedFirst k).contains n)
    rest.getD ((Config.fusedPick k).toNat % rest.length) 0 :: fusedFirst k

/-- Whether core n is fused (R3, R4): eight cores of the OA-1200, none of the OA-1280. -/
def fused (n : Nat) : Bool := Config.isOA1200 && (fusedFirst 8).contains n
/-- The lifecycle of core n: a fused core reads CLOSED (R397). -/
def State.coreLife (s : State) (n : Nat) : Life := if fused n then { st := .closed } else (s.core n).life
/-- Whether core n is healthy (R384). -/
def State.healthy (s : State) (n : Nat) : Bool := !fused n && !(s.coreLife n).retired && (s.coreLife n).st == .opened
/-- The lifecycle of a block (R397). -/
def State.life (s : State) : Block → Life
  | .core n => s.coreLife n
  | .quarry n => (s.quarry n).life
  | .port p => (s.port p).life
/-- The lifecycle of a block updated. -/
def State.onLife (s : State) (b : Block) (f : Life → Life) : State :=
  match b with
  | .core n => s.onCore n (fun c => { c with life := f c.life })
  | .quarry n => s.onQuarry n (fun q => { q with life := f q.life })
  | .port p => s.onPort p (fun q => { q with life := f q.life })
/-- The first control page of a block (R444). -/
def blockPage : Block → Page
  | .core n => .core n
  | .quarry n => .quarry n
  | .port p => .port p

/-- Cores of a mask, ascending. -/
def coresOf (mask : Nat) : List Nat := (List.range 128).filter (bitAt mask)
/-- The job slot that runs, parks or resumes (R376). -/
def State.running (s : State) : Option Nat := s.runSlot
/-- Whether a job slot's job is loaded, in the sense of R251. -/
def JobSt.isLoaded : JobSt → Bool
  | .loading | .loaded | .running | .parking | .parked | .resuming | .ended => true
  | _ => false
/-- Code of a job slot's state (Table 13.1). -/
def JobSt.code : JobSt → Nat
  | .empty => 0 | .loading => 1 | .loaded => 2 | .running => 3 | .parking => 4 | .parked => 5 | .resuming => 6
  | .ended => 7 | .tearingDown => 8 | .tornDown => 9
/-- Code of a lifecycle state (Table 13.9). -/
def LifeSt.code : LifeSt → Nat
  | .closed => 0 | .opening => 1 | .opened => 2 | .closing => 3 | .faulted => 4
/-- Code of a tag's state (Table 9.6). -/
def TagSt.code : TagSt → Nat
  | .idle => 0 | .armed => 1 | .reducing => 2 | .reduced => 3 | .failed => 4
/-- Code of a port's link state (Table 11.12). -/
def LinkSt.code : LinkSt → Nat
  | .down => 0 | .training => 1 | .up => 2 | .retraining => 3
/-- This chip's CHIP_ID in effect. -/
def State.chipId (s : State) : Nat := fld (s.preg .links 0x100) 15 0
/-- The job slot that a key names (R340), torn-down jobs included. -/
def State.slotOfKey (s : State) (key : Nat) : Option Nat :=
  (List.range 4).find? (fun j => let r := s.preg .links (0x104 + 4 * j); bitAt r 31 && fld r 15 0 == key)
/-- The key of job slot j. -/
def State.keyOf (s : State) (j : Nat) : Nat := fld (s.preg .links (0x104 + 4 * j)) 15 0
/-- The PASID of job slot j, where VALID (R372). -/
def State.pasidOf (s : State) (j : Nat) : Option Nat :=
  let r := s.preg .hif (0x120 + 4 * j)
  if bitAt r 31 then some (fld r 19 0) else none

/-! ### Slots (R156 to R161) -/

/-- Slot-table entry e of core n. -/
def State.slot (s : State) (n e : Nat) : Nat := tget 0 (s.core n).slots e
/-- A slot-table entry written. -/
def State.setSlot (s : State) (n e v : Nat) : State := s.onCore n (fun c => { c with slots := tset c.slots e v })
/-- FULL of an entry. -/
def sFull (v : Nat) : Bool := bitAt v 63
/-- VALID of an entry. -/
def sValid (v : Nat) : Bool := bitAt v 62
/-- DIR of an entry: outbound. -/
def sOut (v : Nat) : Bool := bitAt v 61
/-- HEAD of an entry. -/
def sHead (v : Nat) : Bool := bitAt v 60
/-- AGENT of an entry. -/
def sAgent (v : Nat) : Nat := fld v 59 58
/-- AGENT_ID of an entry. -/
def sAgentId (v : Nat) : Nat := fld v 57 50
/-- PROD_POS of a head. -/
def sProd (v : Nat) : Nat := fld v 49 44
/-- CONS_POS of a head. -/
def sCons (v : Nat) : Nat := fld v 43 38
/-- Length of a ring. -/
def sLen (v : Nat) : Nat := fld v 37 32 + 1
/-- COMP of a head. -/
def sComp (v : Nat) : Nat := fld v 31 22
/-- COMP_EN of a head. -/
def sCompEn (v : Nat) : Bool := bitAt v 21
/-- Buffer length of a slot in rows. -/
def sRows (v : Nat) : Nat := fld v 19 13 + 1
/-- First sill row of a slot's buffer. -/
def sBuf (v : Nat) : Nat := fld v 12 0

/-- The entry at a ring position of a head. -/
def State.ringSlot (s : State) (n head pos : Nat) : Nat :=
  s.slot n (head + pos % sLen (s.slot n head))
/-- FULL of the slot at a ring position. -/
def State.slotFull (s : State) (n head pos : Nat) : Bool := sFull (s.ringSlot n head pos)
/-- FULL of the slot at a ring position written. -/
def State.setFull (s : State) (n head pos : Nat) (b : Bool) : State :=
  let e := head + pos % sLen (s.slot n head)
  s.setSlot n e (putFld (s.slot n e) 63 63 (if b then 1 else 0))
/-- PROD_POS advanced by k, modulo the ring's length (R160). -/
def State.advProd (s : State) (n head k : Nat) : State :=
  let v := s.slot n head
  s.setSlot n head (putFld v 49 44 ((sProd v + k) % sLen v))
/-- CONS_POS advanced by k, modulo the ring's length (R160). -/
def State.advCons (s : State) (n head k : Nat) : State :=
  let v := s.slot n head
  s.setSlot n head (putFld v 43 38 ((sCons v + k) % sLen v))
/-- k consecutive ring positions all FULL. -/
def State.fullFrom (s : State) (n head pos k : Nat) : Bool := (List.range k).all (fun i => s.slotFull n head (pos + i))
/-- Sill rows of k slots of a ring from a position, in order. -/
def State.ringRows (s : State) (n head pos k : Nat) : List Nat :=
  (List.range k).flatMap (fun i => let v := s.ringSlot n head (pos + i); fromN (sBuf v) (sRows v))
/-- Whether an entry is a VALID head whose ring and buffers lie in range (R157). -/
def State.ringOk (s : State) (n head : Nat) : Bool :=
  let v := s.slot n head
  sValid v && sHead v && decide (head + sLen v ≤ 1024) &&
    (List.range (sLen v)).all (fun i => let w := s.slot n (head + i); decide (sBuf w + sRows w ≤ 8192))

end Sys2Proof.Machine
end

