-- ==== Sys2Proof/Machine/Flags.lean ====
section
/-! DEFINITION. The device state word (R368, Table 12.8): level flags computed from their conditions, event flags held. -/

namespace Sys2Proof.Machine

/-- Whether any unit runs below its fitted resources (R438, Table 15.6). -/
def State.degraded (s : State) : Bool :=
  s.cores.any (fun e => e.2.life.retired || (e.2.life.st == .faulted)) ||
  s.quarries.any (fun e => e.2.life.retired || (e.2.life.st == .faulted)) ||
  s.ports.any (fun e => (e.2.life.st == .faulted) || decide (e.2.width < e.2.fitted)) ||
  (s.hif.up && decide (s.hif.width < fld (s.preg .hif 0x104) 4 0)) ||
  s.pwr.dram.any Option.isNone || s.pwr.logic.any Option.isNone ||
  s.pwr.reg.any (fun e => bitAt (s.preg .power (0x140 + 8 * e.1)) 31 && !e.2.ok)

/-- FULL level and event flags of the device state word, bits [14:0] (Table 12.8). -/
def State.flags14 (s : State) : Nat :=
  let b (c : Bool) (n : Nat) : Nat := if c then 2 ^ n else 0
  s.dsw.events +
  b s.dsw.fatal 14 + b (decide (0 < s.flt.unack)) 13 +
  b (decide (0 < s.pwr.tTerm)) 9 + b (decide (0 < s.pwr.b)) 8 + b s.degraded 7 +
  b (s.att.seqs.any (fun e => e.2.st == 3)) 4 +
  b (s.jobs.any (fun e => e.2.st == .loaded || e.2.st == .parked)) 2 +
  b (s.jobs.any (fun e => e.2.st == .running || e.2.st == .parking || e.2.st == .resuming)) 1 +
  b (s.dsw.ready && !s.dsw.fatal) 0

/-- The event flags: bits 12, 11, 10, 6, 5 and 3 (Table 12.8). -/
def eventMask : Nat := 0x1C68

/-- The sixteen flags: ATTN follows the event flags, FAULT_PENDING and FATAL (Table 12.8). -/
def State.flags (s : State) : Nat :=
  let f := s.flags14
  f + (if s.dsw.events != 0 || s.dsw.fatal || decide (0 < s.flt.unack) then 2 ^ 15 else 0)

/-- The class of the oldest unacknowledged record, or 0 (R368). -/
def State.faultClass (s : State) : Nat :=
  if s.flt.unack = 0 then 0 else byteFld (tget [] s.flt.ring s.flt.oldest) 0 1

/-- The device state word. -/
def State.dswWord (s : State) : Nat := s.dsw.count % 16 * 2 ^ 28 + s.faultClass * 2 ^ 16 + s.flags

/-- An event flag set; it holds until acknowledged. -/
def State.event (s : State) (bit : Nat) : State := { s with dsw := { s.dsw with events := s.dsw.events ||| 2 ^ bit } }

/-- NONFINITE. -/
def evNonfinite : Nat := 12
/-- LOSS_SPIKE. -/
def evSpike : Nat := 11
/-- EXCURSION. -/
def evExcursion : Nat := 10
/-- LINK_EVENT. -/
def evLink : Nat := 6
/-- PAGE_REQUEST. -/
def evPage : Nat := 5
/-- COMMIT_RESULT. -/
def evCommit : Nat := 3

end Sys2Proof.Machine
end

