-- ==== Sys2Proof/Machine/Report.lean ====
section
/-! DEFINITION. What the device reports: MSI-X messages (R371), completion records (R364 to R367), fault records (R428 to
R430), retirement markings (R436), and the end of a command, at which the state word advances (R368, R370). -/

namespace Sys2Proof.Machine

/-- The DSW bytes of a record being formed, until its command ends; bits [27:24] of a state word read 0 (R368). -/
def dswMark : List Byte := [0xFF, 0xFF, 0xFF, 0xFF]

/-- A record with the state word filled in at an offset, where the mark stands there. -/
def fillDsw (off w : Nat) (bs : List Byte) : List Byte :=
  if (bs.drop off).take 4 = dswMark then spliceAt bs off (natLe 4 w) else bs

/-- An MSI-X message: sent, or its pending bit set while it is masked (R371). -/
def State.msix (s : State) (v : Nat) : State :=
  if bitAt (s.preg .interrupt (0x800 + 16 * v + 12)) 0
  then { s with hif := { s.hif with msixPend := s.hif.msixPend ||| 2 ^ v } }
  else s.send (.msix v)

/-- Word k of a host queue's entry (Table 12.4). -/
def State.hqWord (s : State) (h k : Nat) : Nat := s.preg (.hq (h / 64)) (0x800 + 0x20 * (h % 64) + 4 * k)
/-- Entries of a host queue's ring. -/
def State.hqSize (s : State) (h : Nat) : Nat := 2 ^ fld (s.hqWord h 1) 4 0
/-- Ring base of a host queue. -/
def State.hqBase (s : State) (h : Nat) : Nat := s.hqWord h 2 + 2 ^ 32 * s.hqWord h 3
/-- Records that a completion queue owes from the overflow store. -/
def State.hqHeld (s : State) (h : Nat) : Nat := s.hif.store.countP (fun e => e.1 == h)

/-- Whether INT_HOLDOFF has passed since a CQ's last message (R371). -/
def State.holdoffOver (s : State) (h : Nat) : Bool :=
  match (s.hq h).msgAt with
  | some t => decide (t + 100 * fld (s.hqWord h 1) 31 16 ≤ s.time)
  | none => true

/-- A CQ's message (R371). -/
def State.cqMessage (s : State) (h : Nat) : State :=
  (s.onHq h (fun q => { q with due := false, msgAt := some s.time })).msix (fld (s.hqWord h 0) 25 20)

/-- The interrupt after a record: within the hold-off it is put off (R371). -/
def State.cqInterrupt (s : State) (h : Nat) : State :=
  if !bitAt (s.hqWord h 0) 26 then s
  else if s.holdoffOver h then s.cqMessage h
  else s.onHq h (fun q => { q with due := true })

/-- A record's SQ_HEAD, where it names an SQ: that SQ's HEAD as the record is written (Table 12.6). -/
def State.withHead (s : State) (bs : List Byte) : List Byte :=
  let sq := byteFld bs 8 2
  if sq < 1024 then spliceAt bs 0xA (natLe 2 (s.hq sq).head) else bs

/-- One record written at TAIL with its PHASE, TAIL advanced, the interrupt following (R364, R365, R367). -/
def State.writeRecord (s : State) (h : Nat) (bs : List Byte) : State :=
  let q := s.hq h
  let bs := spliceAt (s.withHead bs) 2 [if q.phase then 1 else 0]
  let nt := (q.tail + 1) % s.hqSize h
  let s := s.send (.record h (s.hqBase h + 64 * q.tail) bs)
  (s.onHq h (fun q => { q with tail := nt, phase := if nt = 0 then !q.phase else q.phase })).cqInterrupt h

/-- Whether a completion queue holds a free entry (R366). -/
def State.cqFree (s : State) (h : Nat) : Bool := (((s.hq h).tail + 1) % s.hqSize h) != (s.hq h).head

/-- Job byte of a record: the slot, or 0x80. -/
def jobByte : Option Nat → Nat
  | some j => j
  | none => 0x80

/-- The UNIT of the host interface page (R12). -/
def hifUnit : Nat := 0x06000000

/-- The retirement triggers of Table 15.5: the class, the unit, and what within the unit met the fault (array or vector
unit, sill or accumulator bank, channel and unit of a quarry). Answers whether the fault marks a core, or a quarry. -/
def retireTrigger (hist : List (Nat × Nat × Nat × Nat)) (now cls unit sub : Nat) : Bool :=
  let recent := hist.filter (fun e => now < e.2.2.2 + 8640000000000 && e.1 == cls && e.2.1 == unit)
  let isCore := unit / 2 ^ 24 == 0x10
  let isQuarry := unit / 2 ^ 24 == 0x20
  (isCore && (cls == 1 || cls == 2) && recent.any (fun e => e.2.2.1 == sub)) ||
  (isQuarry && cls == 2 && !recent.isEmpty) ||
  (isQuarry && cls == 1 && recent.any (fun e => e.2.2.1 % 2 == sub % 2 && e.2.2.1 != sub)) ||
  ((isCore || isQuarry) && cls == 11 && sub == 0)

/-- One bit set in a 128-bit register array. -/
def State.setBit128 (s : State) (base n : Nat) : State :=
  let off := base + 4 * (n / 32)
  s.setReg off (s.reg off ||| 2 ^ (n % 32))

/-- One bit cleared in a 128-bit register array. -/
def State.clearBit128 (s : State) (base n : Nat) : State :=
  let off := base + 4 * (n / 32)
  s.setReg off (putFld (s.reg off) (n % 32) (n % 32) 0)

/-- One bit of a 128-bit register array. -/
def State.bit128 (s : State) (base n : Nat) : Bool := bitAt (s.reg (base + 4 * (n / 32))) (n % 32)

/-- The ECC latch of a block released where it holds a given record's event (R201). -/
def State.releaseLatch (s : State) (unit seq : Nat) : State :=
  let n := unit % 2 ^ 16
  if unit / 2 ^ 24 = 0x10 ∧ (s.core n).latch = some seq then
    (s.onCore n (fun c => { c with latch := none })).setPreg (.sill n) 0x10C (s.preg (.sill n) 0x10C % 2 ^ 30)
  else if unit / 2 ^ 24 = 0x20 ∧ (s.quarry n).latch = some seq then
    (s.onQuarry n (fun q => { q with latch := none })).setPreg (.quarry n) 0x110 (s.preg (.quarry n) 0x110 % 2 ^ 30)
  else s

/-- A formed record counted under its class, and kept in the ring or lost (R428, R430). -/
def State.keepFault (s : State) (cls unit sub seq : Nat) (bytes : List Byte) : State :=
  let s := s.bump .fault (0x200 + 8 * (cls - 1))
  let s := { s with flt := { s.flt with seq := seq, history := (cls, unit, sub, s.time) :: s.flt.history } }
  if s.flt.unack < 32 then
    ({ s with flt := { s.flt with
        ring := tset s.flt.ring ((s.flt.oldest + s.flt.unack) % 32) bytes, unack := s.flt.unack + 1 } }).bump .fault 0x40
  else
    ((s.bump .fault 0x48).setPreg .fault 0x108 (s.preg .fault 0x108 ||| 2 ^ cls)).releaseLatch unit seq

/-- A unit marked for retirement (R436): a core or a quarry. -/
def State.markRetire (s : State) (unit : Nat) : State :=
  (s.bump .fault 0x50).setBit128 (Page.fault.base + (if unit / 2 ^ 24 = 0x10 then 0x110 else 0x130)) (unit % 2 ^ 16)

/-- A fault record formed (R428, R430, R436): class, status, job, UNIT, flags, detail, and what within the unit met the
fault. A record that finds the ring full is lost, and still counted and acted on. -/
def State.fault (s : State) (cls status : Nat) (job : Option Nat) (unit flags : Nat) (detail : List Byte)
    (sub : Nat := 0) : State :=
  let mark := bitAt (s.preg .fault 0x100) 1 && retireTrigger s.flt.history s.time cls unit sub
  let flags := if mark then flags ||| 0x10 else flags
  let seq := s.flt.seq + 1
  let bytes := natLe 1 cls ++ natLe 1 status ++ natLe 1 flags ++ natLe 1 (jobByte job) ++ natLe 4 seq ++
    natLe 8 s.time ++ natLe 4 unit ++ dswMark ++ zeros 8 ++ fitTo 32 detail
  let t := s.keepFault cls unit sub seq bytes
  if mark then t.markRetire unit else t

/-- Class 13: cause, host queue, offset or address; no job is torn down (R363, Table 15.4). -/
def State.hostFault (s : State) (status unit cause hq addr : Nat) : State :=
  s.fault 13 status none unit 0 (natLe 2 cause ++ natLe 2 hq ++ zeros 4 ++ natLe 8 addr)

/-- The records of a completion queue that enters error or is disabled are discarded (R361, R366). -/
def State.dropHeld (s : State) (h : Nat) : State :=
  ({ s with hif := { s.hif with store := s.hif.store.filter (fun e => e.1 != h) } }).bump .hif 0x68 (s.hqHeld h)

/-- A host queue put in error (R361 to R363, R366). -/
def State.hqError (s : State) (h err : Nat) : State := (s.onHq h (fun q => { q with st := 2, err := err })).dropHeld h

/-- A completion record for a completion queue: written, held in the overflow store, or discarded (R361, R366). -/
def State.post (s : State) (h status source : Nat) (job : Option Nat) (sq head : Nat) (detail : List Byte) : State :=
  let bs := natLe 1 status ++ natLe 1 source ++ zeros 1 ++ natLe 1 (jobByte job) ++ dswMark ++ natLe 2 sq ++
    natLe 2 head ++ zeros 4 ++ natLe 8 s.time ++ zeros 8 ++ fitTo 32 detail
  if (s.hq h).st != 1 || !bitAt (s.hqWord h 0) 30 then s.bump .hif 0x68
  else if s.hqHeld h = 0 && s.cqFree h then s.writeRecord h bs
  else if s.hif.store.length < 256 then { s with hif := { s.hif with store := s.hif.store ++ [(h, bs)] } }
  else ((s.bump .hif 0x68).hqError h 2).hostFault 0 (Page.hq (fld h 9 6)).unit 5 h 0

/-- Held records of a completion queue written while it has free entries (R366). -/
def State.flushHeld (s : State) (h : Nat) : Nat → State
  | 0 => s
  | k + 1 =>
    match s.hif.store.find? (fun e => e.1 == h) with
    | none => s
    | some e =>
      if s.cqFree h then
        State.flushHeld (({ s with hif := { s.hif with store := removeFirst (fun x => x.1 == h) s.hif.store } }).writeRecord h e.2) h k
      else s

/-- The SQ's completion record: to the CQ that the SQ names, its HEAD carried (R364). -/
def State.postSq (s : State) (sq status source : Nat) (job : Option Nat) (detail : List Byte) : State :=
  (s.post (fld (s.hqWord sq 0) 9 0) status source job sq (s.hq sq).head detail).onHq sq
    (fun q => { q with fetched := q.fetched - 1 })

/-- The device state word filled into everything that a command formed. -/
def State.fillRecords (s0 s : State) : State :=
  let w := s.dswWord
  let fresh := s.out.length - s0.out.length
  { s with
    flt := { s.flt with ring := s.flt.ring.map (fun e => (e.1, fillDsw 0x14 w e.2)) }
    hif := { s.hif with store := s.hif.store.map (fun e => (e.1, fillDsw 4 w e.2)) }
    out := (s.out.take fresh).map (fun o => match o with
        | .record q a bs => .record q a (fillDsw 4 w bs)
        | o => o) ++ s.out.drop fresh }

/-- DSW_VECTOR, where an enabled flag rose (R371). -/
def State.dswInterrupt (s : State) (before : Nat) : State :=
  if (List.range 16).any (fun i => bitAt (s.preg .interrupt 0x100) i && bitAt s.flags i && !bitAt before i)
  then s.msix (fld (s.preg .interrupt 0x104) 5 0) else s

/-- CHANGE_COUNT after a command: every flag that changed did so at one instant (R368, R370). -/
def nextCount (s0 s : State) : Nat := if s.flags = s0.flags then s0.dsw.count else (s0.dsw.count + 1) % 16

/-- The end of a command: CHANGE_COUNT, the records' state words, the interrupt of the state word (R367, R368, R371). -/
def finish (s0 s : State) : State :=
  (State.fillRecords s0 { s with dsw := { s.dsw with count := nextCount s0 s } }).dswInterrupt s0.flags

/-- Whether every clock runs: not held in reset, not tripped (R419, R465). -/
def State.live (s : State) : Bool := !s.boot.held && !s.pwr.trip
/-- Whether SVCLK runs: not held in reset. -/
def State.svcLive (s : State) : Bool := !s.boot.held

/-- A command of a domain that a trip stops: its effect, while the clocks run. -/
def act (s : State) (f : State → State) : Host.Outcome State Fault Refusal :=
  .next (if s.live then finish s (f s) else s)

/-- A command of the SVCLK domain and of the host interface's own registers: its effect, out of reset. -/
def actSvc (s : State) (f : State → State) : Host.Outcome State Fault Refusal :=
  .next (if s.svcLive then finish s (f s) else s)

/-- What passes on an empty queue: one tick of TIME, 10 ns, while MCLK runs (R220, Table 12.6, log 6). -/
def State.idle (s : State) : State := if s.live then { s with time := s.time + 1 } else s

end Sys2Proof.Machine
end

