-- ==== Sys2Proof/Machine/Send.lean ====
section
/-! DEFINITION. Messages of the link ports: layout, routing and sending (R333, R343 to R345). -/

namespace Sys2Proof.Machine

/-- The 24-byte header and the data of a message (Table 11.4). -/
structure Msg where
  kind : Nat
  sub : Nat := 0
  key : Nat := 0
  src : Nat := 0
  dst : Nat := 0
  txn : Nat := 0
  deadline : Nat := 0
  rlen : Nat := 0
  addr : Nat := 0
  data : List Byte := []
  deriving DecidableEq, Repr

/-- A message's bytes (Table 11.4). -/
def Msg.bytes (m : Msg) : List Byte :=
  natLe 1 m.kind ++ natLe 1 m.sub ++ natLe 2 m.data.length ++ natLe 2 m.key ++ natLe 2 m.src ++ natLe 2 m.dst ++
    natLe 2 m.txn ++ natLe 2 m.deadline ++ natLe 2 m.rlen ++ natLe 8 m.addr ++ m.data

/-- A message read from its bytes. -/
def Msg.ofBytes (bs : List Byte) : Msg :=
  { kind := byteFld bs 0 1, sub := byteFld bs 1 1, key := byteFld bs 4 2, src := byteFld bs 6 2, dst := byteFld bs 8 2,
    txn := byteFld bs 0xA 2, deadline := byteFld bs 0xC 2, rlen := byteFld bs 0xE 2, addr := byteFld bs 0x10 6,
    data := (bs.drop 24).take (byteFld bs 2 2) }

/-- The traffic class of a message kind; a HANDOFF's is its channel plus 3 (Tables 11.3 and 11.5). -/
def Msg.cls (m : Msg) : Nat :=
  if m.kind ≤ 3 then 0 else if m.kind = 4 then 3 + m.sub % 4 else if m.kind ≤ 9 then 1 else 2

/-- Whether a port runs in Ethernet mode. -/
def State.isEth (s : State) (p : Nat) : Bool := bitAt (s.preg (.port p) 0x100) 1

/-- The port mask of a chip in the route table in force (R343). -/
def State.portMask (s : State) (dst : Nat) : Nat :=
  match s.routes.route.find? (fun e => bitAt e 63 && fld e 15 0 == dst) with
  | some e => fld e 55 48
  | none => 0

/-- Whether an Ethernet port that runs has a path to a chip, or a Zelzen port's peer is that chip (R344, R350). -/
def State.reaches (s : State) (p dst : Nat) : Bool :=
  if s.isEth p then
    (s.port p).life.st == .opened && (s.port p).link == .up && (tget [] s.routes.paths p).any (fun e => byteFld e 0 2 == dst)
  else (s.port p).peer == dst

/-- The port of a sender and a destination: of the mask, by the fixed hash; none where there is no route (R344). -/
def State.routePort (s : State) (sender dst : Nat) : Option Nat :=
  let ports := (List.range 8).filter (bitAt (s.portMask dst))
  match ports[Config.portHash sender dst % ports.length]? with
  | some p => if s.reaches p dst then some p else none
  | none => none

/-- The retry protocol's key of a port and a chip: the link itself, or one path (R337, R349). -/
def State.laneKey (s : State) (p dst : Nat) : Nat := if s.isEth p then dst else 0xFFFF

/-- The members of a multicast group (R343). -/
def State.groupOf (s : State) (g : Nat) : List Nat :=
  match s.routes.groups[g]? with
  | some (count, first) => (s.routes.members.drop first).take count
  | none => []

/-- The members of a multicast group other than this chip, in order (R345). -/
def State.members (s : State) (g : Nat) : List Nat := (s.groupOf g).filter (· != s.chipId)

/-- A message accepted by a port. -/
def State.queueMsg (s : State) (p : Nat) (m : Msg) : State :=
  s.onPort p (fun q => { q with txq := q.txq ++ [(m.cls + 8 * s.laneKey p m.dst, m.bytes)] })

/-- A link fault record (Table 15.4, class 5). -/
def State.linkFault (s : State) (p cause peer seq abortCls : Nat) (job : Option Nat) (status : Nat := 0) (torn : Bool := false) : State :=
  s.fault 5 status job (Page.port p).unit (if torn then 1 else 0)
    (natLe 1 p ++ natLe 1 cause ++ natLe 2 peer ++ natLe 4 seq ++ natLe 1 abortCls)

/-- A RED_CTL or LINTEL message sent to one chip; with no route it is discarded, counted and reported (R344). Counted on
port 0's page where no port is named (DESIGN CHOICE, log 12). -/
def State.sendCtl (s : State) (sender : Nat) (m : Msg) : State :=
  let m := { m with src := s.chipId }
  match s.routePort sender m.dst with
  | some p => s.queueMsg p m
  | none => (s.bump (.port 0) 0xB0).linkFault 0 4 m.dst 0 0 none

/-- The same message to every member of a group, in ascending member index (R345). -/
def State.sendGroup (s : State) (sender g : Nat) (m : Msg) : State :=
  (s.members g).foldl (fun s d => s.sendCtl sender { m with dst := d }) s

/-- RED_CTL data (Table 11.6). -/
def redData (tag step xfer shard cls csum orig origin : Nat) : List Byte :=
  natLe 2 tag ++ natLe 1 step ++ natLe 1 xfer ++ natLe 2 shard ++ natLe 1 cls ++ zeros 1 ++ natLe 8 csum ++
    natLe 2 orig ++ natLe 2 origin ++ zeros 12

end Sys2Proof.Machine
end

