-- ==== Sys2Proof/Machine/Access.lean ====
section
/-! DEFINITION. Reads and writes of sills and quarries with their codes (R183 to R187, R236 to R240), and admission at a
quarry (R247 to R253). -/

namespace Sys2Proof.Machine

/-- What a read meets in a codeword (R184): clean, one symbol, or more than one symbol or poison. -/
def Cw.grade (c : Cw) : Nat := if c.poison || 2 ≤ c.syms.length then 2 else if c.syms.length = 1 then 1 else 0

/-- The codewords of a byte range that are not clean. -/
def State.badCws (s : State) (a len : Nat) : List (Nat × Cw) :=
  s.ecc.filter (fun e => decide (a < 32 * e.1 + 32) && decide (32 * e.1 < a + len) && decide (0 < e.2.grade))

/-- The worst grade in a byte range. -/
def State.grade (s : State) (a len : Nat) : Nat := maxOf ((s.badCws a len).map (fun e => e.2.grade))

/-- Status of a read of a grade: OK, OK_CORRECTED or FAULT_UNCORRECTABLE (Table 12.3). -/
def gradeStatus (g : Nat) : Nat := if g = 0 then 0 else if g = 1 then 1 else 0x40

/-- A symbol error introduced into a codeword (R184). -/
def State.upset (s : State) (a : Nat) (u : CwUpset) : State :=
  let k := a / 32 + u.codeword
  let c := tget ⟨[], false⟩ s.ecc k
  if c.syms.contains u.symbol then s else { s with ecc := tset s.ecc k { c with syms := u.symbol :: c.syms } }

/-- The codewords of a range marked poisoned (R188, R239). -/
def State.poison (s : State) (a len : Nat) : State :=
  let mark (e : Tab Cw) (k : Nat) : Tab Cw := tset e k { tget (Cw.mk [] false) e k with poison := true }
  { s with ecc := (fromN (a / 32) (ceilDiv len 32)).foldl mark s.ecc }

/-- Codewords of a range with their single errors written back corrected (R186, R238). -/
def State.scrubbed (s : State) (a len : Nat) : State :=
  { s with ecc := s.ecc.filter (fun e => !(decide (a ≤ 32 * e.1) && decide (32 * e.1 < a + len) && e.2.grade == 1)) }

/-- Detail of a class 1 record (Table 15.4). -/
def eccDetail (a cw source : Nat) : List Byte := natLe 8 a ++ natLe 1 cw ++ natLe 1 source

/-! ### Sills -/

/-- One codeword event of a sill read (R185, R187, R201): counted, recorded unless latched, repaired or reported. -/
def State.sillEvent (s : State) (n source : Nat) (job : Option Nat) (flags : Nat) (e : Nat × Cw) : State :=
  let off := 32 * e.1 - sillBase n
  let row := off / 512
  let cw := off / 32 % 16
  let info (kind sym : Nat) : Nat := kind * 2 ^ 30 + source * 2 ^ 28 + cw * 2 ^ 24 + row * 2 ^ 8 + sym
  let c := s.core n
  if e.2.grade = 1 then
    let s := s.bump (.sill n) 0x40
    let s := if c.latch.isSome then s else s.setPreg (.sill n) 0x10C (info 1 (e.2.syms.headD 0))
    if !bitAt (s.preg (.sill n) 0x100) 1 || c.repairQ.contains row then s
    else if c.repairQ.length < 8 then s.onCore n (fun c => { c with repairQ := c.repairQ ++ [row] })
    else s.bump (.sill n) 0x60
  else
    let s := s.bump (.sill n) 0x48
    let s := if c.latch.isSome then s
      else (s.setPreg (.sill n) 0x10C (info 2 0x3F)).onCore n (fun c => { c with latch := some (s.flt.seq + 1) })
    s.fault 1 0x40 job (Page.core n).unit flags (eccDetail (rowAddr n row) cw source)

/-- First address of the row that an address lies in. -/
def rowStart (a : Nat) : Nat := a / 512 * 512
/-- Bytes of the whole rows that a range touches, from the first (R183). -/
def rowSpan (a len : Nat) : Nat := roundUp (a + len) 512 - rowStart a

/-- A read of sill bytes by a requester, of whole rows (R183 to R187): the state, the data and the status. -/
def State.sillRead (s : State) (n a len source : Nat) (job : Option Nat) (flags : Nat) : State × List Byte × Nat :=
  let bad := s.badCws (rowStart a) (rowSpan a len)
  let s' := bad.foldl (fun s e => s.sillEvent n source job flags e) s
  (s', s.bytes a len, gradeStatus (s.grade (rowStart a) (rowSpan a len)))

/-- Bytes of a sill row written where a write covers the whole row: what is not new is written back as it was corrected (R183, R186). -/
def State.putRow (s : State) (a : Nat) (bs : List Byte) : State := (s.put a bs).scrubbed (rowStart a) (rowSpan a bs.length)

/-- Whether requests for a core's sill are refused: it is fused, retired, or not in service (R4, R22, R397). -/
def State.sillShut (s : State) (o : Nat) : Bool := fused o || (s.coreLife o).retired || (s.coreLife o).st != .opened

/-! ### Quarries -/

/-- Units of a byte range (R236). -/
def units (a len : Nat) : Nat := (a + len + 63) / 64 - a / 64
/-- First address of the unit that an address lies in. -/
def unitStart (a : Nat) : Nat := a / 64 * 64
/-- Bytes of the whole units that a range touches, from the first (R236). -/
def unitSpan (a len : Nat) : Nat := 64 * units a len

/-- Bank of a quarry address (R235, Table 8.2). -/
def qBank (a : Nat) : Nat := let off := a % quarrySize; (fld off 15 9) ^^^ (fld off 24 18)
/-- Row of a quarry address (Table 8.2). -/
def qRow (a : Nat) : Nat := fld (a % quarrySize) 29 18
/-- Channel of a quarry address: 1 for B[0] = 1 (R235). -/
def qChan (a : Nat) : Bool := qBank a % 2 == 1

/-- One codeword event of a quarry read (R238, R240, R201). -/
def State.quarryEvent (s : State) (n source : Nat) (job : Option Nat) (flags : Nat) (e : Nat × Cw) : State :=
  let unit := (32 * e.1 - quarryBase n) / 64
  let cw := e.1 % 2
  let info (kind sym : Nat) : Nat := kind * 2 ^ 30 + source * 2 ^ 27 + cw * 2 ^ 26 + sym
  let q := s.quarry n
  if e.2.grade = 1 then
    let s := s.bump (.quarry n) 0x50
    let s := if q.latch.isSome then s
      else (s.setPreg (.quarry n) 0x110 (info 1 (e.2.syms.headD 0))).setPreg (.quarry n) 0x114 unit
    if !bitAt (s.preg (.quarry n) 0x100) 2 || q.repairQ.contains unit then s
    else if q.repairQ.length < 8 then s.onQuarry n (fun q => { q with repairQ := q.repairQ ++ [unit] })
    else s.bump (.quarry n) 0xA8
  else
    let s := s.bump (.quarry n) 0x58
    let s := if q.latch.isSome then s
      else ((s.setPreg (.quarry n) 0x110 (info 2 0x3F)).setPreg (.quarry n) 0x114 unit).onQuarry n
        (fun q => { q with latch := some (s.flt.seq + 1) })
    s.fault 1 0x40 job (Page.quarry n).unit flags (eccDetail (quarryBase n + 64 * unit) cw source) (unit * 2 + qBank (64 * unit) % 2)

/-- The codeword events of a quarry read: one for each uncorrectable unit (R240, Table 8.16). -/
def State.unitEvents (s : State) (a len : Nat) : List (Nat × Cw) :=
  let bad := s.badCws a len
  bad.filter (fun e => !(e.1 % 2 == 1 && e.2.grade == 2 && bad.any (fun d => d.1 + 1 == e.1 && d.2.grade == 2)))

/-- A bank's row opened by a request: a hit where it stands open (R244, Table 8.16). -/
def State.openRow (s : State) (n a : Nat) : State :=
  let s := if tfind (s.quarry n).open_ (qBank a) = some (qRow a) then s.bump (.quarry n) 0x70 else s
  s.onQuarry n (fun y => { y with open_ := tset y.open_ (qBank a) (qRow a) })

/-- The rows of the units of a range opened, a request for each unit (R216, R244). -/
def State.openRows (s : State) (n a len : Nat) : State :=
  (fromN (a / 64) (units a len)).foldl (fun (s : State) u => s.openRow n (64 * u)) s

/-- Units read, corrected ones counted and queued, uncorrectable ones reported (R236 to R240): the state, the data and the status. -/
def State.unitsRead (s : State) (n a len source : Nat) (job : Option Nat) (flags : Nat) : State × List Byte × Nat :=
  let s' := (s.unitEvents (unitStart a) (unitSpan a len)).foldl (fun s e => s.quarryEvent n source job flags e) (s.bump (.quarry n) 0x40 (units a len))
  (s', s.bytes a len, gradeStatus (s.grade (unitStart a) (unitSpan a len)))

/-- The units that a write covers only in part, the first and the last of it (R236). -/
def partUnits (a len : Nat) : List Nat :=
  let lo := unitStart a
  let hi := lo + unitSpan a len
  (if a % 64 ≠ 0 then [lo] else []) ++ (if (a + len) % 64 ≠ 0 && (hi - 64 != lo || a % 64 == 0) then [hi - 64] else [])

/-- Units written (R236): one covered in part is read, corrected and merged; an uncorrectable one is written back poisoned, with nothing
merged, and the write answers FAULT_UNCORRECTABLE; the units covered whole are written (log 116). -/
def State.unitsWrite (s : State) (n a : Nat) (bs : List Byte) (source : Nat) (job : Option Nat) (flags : Nat) : State × Nat :=
  let parts := partUnits a bs.length
  let lost := parts.filter (fun u => s.grade u 64 == 2)
  let s1 := parts.foldl (fun (s : State) u => (s.unitsRead n u 64 source job flags).1) s
  let s2 := parts.foldl (fun (s : State) u => s.scrubbed u 64) s1
  let lo := if lost.contains (unitStart a) then unitStart a + 64 - a else 0
  let hi := if lost.contains ((a + bs.length - 1) / 64 * 64) then (a + bs.length - 1) / 64 * 64 - a else bs.length
  let s3 := s2.put (a + lo) ((bs.drop lo).take (hi - lo))
  let s4 := lost.foldl (fun (s : State) u => s.poison u 64) s3
  (s4.bump (.quarry n) 0x48 (units a bs.length), if lost.isEmpty then 0 else 0x40)

/-! ### Requests of the streams that wait at a quarry (R244 to R246) -/

/-- A request served, its status and data kept until its reply. -/
def State.serve (s : State) (r : Req) (st : Nat) (bs : List Byte) : State :=
  { s with flight := s.flight.map (fun x =>
      if x.core = r.core ∧ x.tag = r.tag then { x with st := .served, status := st, data := bs } else x) }

/-- Whether a request touches a 64-byte unit of a range. -/
def Req.touches (r : Req) (a len : Nat) : Bool :=
  decide (r.addr / 64 ≤ (a + len - 1) / 64) && decide (a / 64 ≤ (r.addr + r.len - 1) / 64)

/-- Requests admitted at a quarry and not yet served. -/
def State.admitted (s : State) (q : Nat) : List Req :=
  s.flight.filter (fun r => r.space == 0 && r.st == .admitted && quarryOf r.addr == some q)

/-- Whether an optimizer step that runs writes into a range as its working copy (R38). -/
def State.beingWritten (s : State) (a len : Nat) : Bool :=
  s.quarries.any (fun e => e.2.bq.any (fun b => b.2.st == 1 && b.2.work.any (fun w => decide (w.1 < a + len) && decide (a < w.2))))

/-- Bytes read that no gate kept from an optimizer step that runs: each unit of its working copy is as before the step or after it, and free
(R38). -/
def State.ungated (s : State) (a : Nat) (bs : List Byte) : State × List Byte :=
  if s.beingWritten a bs.length then
    ({ s with free := s.free + bs.length }, bs.zipIdx.map (fun p =>
      if s.beingWritten (unitStart (a + p.2)) 64 then (Config.freeValue (s.free + p.2)).truncate 8 else p.1))
  else (s, bs)

/-- A request of a stream or of the instruction fetch served at its quarry. -/
def State.serveReq (s : State) (q : Nat) (r : Req) : State :=
  let s := s.openRow q r.addr
  let job := (s.core r.core).job
  let source := if r.core = q then 0 else 1
  if r.write then
    let (s, st) := s.unitsWrite q r.addr r.data source job 1
    s.serve r st []
  else
    let (s, bs, st) := s.unitsRead q r.addr r.len source job 1
    let (s, bs) := s.ungated r.addr bs
    s.serve r st (if st = 0x40 then [] else bs)

/-- Of some requests, those that touch a range, and those that arrived before one of these and touch its units (fuel: their number). -/
def chain (rs : List Req) : Nat → List (Nat × Nat × Nat) → List Req
  | 0, _ => []
  | k + 1, rngs =>
    let hit := rs.filter (fun r => rngs.any (fun g => decide (r.arrival < g.2.2) && r.touches g.1 g.2.1))
    if hit.isEmpty then []
    else chain (rs.filter (fun r => !hit.contains r)) k (hit.map (fun r => (r.addr, r.len, r.arrival))) ++ hit

/-- Requests that arrived before an access of another requester and touch its units are served before it, in their order of arrival
(R246, log 117). -/
def State.settle (s : State) (q a len : Nat) : State :=
  let rs := s.admitted q
  let due := chain rs rs.length [(a, len, (s.quarry q).arrivals)]
  (rs.filter due.contains).foldl (fun (s : State) r => s.serveReq q r) s

/-- A read of quarry bytes by a requester that is served at once, after what arrived before it (R236 to R240, R244, R246): the state, the
data and the status. -/
def State.quarryRead (s : State) (n a len source : Nat) (job : Option Nat) (flags : Nat) : State × List Byte × Nat :=
  ((s.settle n a len).openRows n a len).unitsRead n a len source job flags

/-- A write of quarry bytes by such a requester, and its status. -/
def State.quarryWrite (s : State) (n a : Nat) (bs : List Byte) (source : Nat) (job : Option Nat) (flags : Nat) : State × Nat :=
  ((s.settle n a bs.length).openRows n a bs.length).unitsWrite n a bs source job flags

/-! ### Admission -/

/-- Ranges of a job slot's allocation of a quarry, as quarry offsets (R248). -/
def State.allocOf (s : State) (n j : Nat) : List (Nat × Nat) :=
  (List.range 4).filterMap (fun k =>
    let r := s.preg (.quarry n) (0x200 + 0x10 * j + 4 * k)
    if bitAt r 31 then some (fld r 13 0 * 65536, fld r 29 16 * 65536) else none)

/-- Whether ranges cover lo to hi between them. -/
def covers (rs : List (Nat × Nat)) (hi : Nat) : Nat → Nat → Bool
  | 0, lo => decide (hi ≤ lo)
  | k + 1, lo =>
    if hi ≤ lo then true
    else match rs.find? (fun r => decide (r.1 ≤ lo) && decide (lo < r.2)) with
      | some r => covers rs hi k r.2
      | none => false

/-- Whether a range lies within a job slot's allocation of a quarry (R247, R248). -/
def State.inAlloc (s : State) (n j a len : Nat) : Bool :=
  let off := a - quarryBase n
  covers (s.allocOf n j) (off + len) 8 off

/-- Whether a range touches any job slot's shutter range of a quarry (R248, R254). -/
def State.inShutter (s : State) (n a len : Nat) : Bool :=
  let off := a - quarryBase n
  (List.range 4).any (fun j =>
    let r := s.preg (.quarry n) (0x240 + 4 * j)
    bitAt r 31 && decide (off < fld r 29 16 * 65536) && decide (fld r 13 0 * 65536 < off + len))

/-- Requester classes, by bit of CLASSES above 16 (Table 8.5). -/
inductive Requester where
  | core | bench | peer (key : Nat) | host | svc | red | kv
  deriving DecidableEq, Repr

/-- Bit of a class. -/
def Requester.bit : Requester → Nat
  | .core => 16 | .bench => 17 | .peer _ => 18 | .host => 19 | .svc => 20 | .red => 21 | .kv => 22

/-- Operations of a request, by bit of OPS (Table 8.4). -/
inductive WinOp where
  | read | write | atomic | xfadd
  deriving DecidableEq, Repr

/-- Bit of an operation. -/
def WinOp.bit : WinOp → Nat
  | .read => 8 | .write => 9 | .atomic => 10 | .xfadd => 11

/-- Word k of window w (Table 8.4). -/
def State.winWord (s : State) (n w k : Nat) : Nat := s.preg (.quarry n) (0x800 + 0x20 * w + 4 * k)

/-- The job condition of Table 8.5. -/
def State.winJob (s : State) (n w : Nat) : Requester → Bool
  | .peer key => fld (s.winWord n w 1) 15 0 == key
  | .host => true
  | .svc => true
  | _ => s.runSlot == some (fld (s.winWord n w 0) 29 28)

/-- Whether window w admits a request (R250). -/
def State.winAdmits (s : State) (n w : Nat) (r : Requester) (op : WinOp) (a len : Nat) : Bool :=
  let w0 := s.winWord n w 0
  let off := a - quarryBase n
  fld w0 31 30 == 1 && bitAt w0 r.bit && bitAt w0 op.bit && s.winJob n w r &&
    decide (fld (s.winWord n w 2) 29 12 * 4096 ≤ off) && decide (off + len ≤ fld (s.winWord n w 3) 29 12 * 4096)

/-- The lowest-numbered window that admits a request (R250). -/
def State.winFor (s : State) (n : Nat) (r : Requester) (op : WinOp) (a len : Nat) : Option Nat :=
  (List.range 64).find? (fun w => s.winAdmits n w r op a len)

/-- A window request in admission (R4, R22, R248, R250, R253, R275): the status, HITS counted or the denial counted. -/
def State.winEnter (s : State) (r : Requester) (op : WinOp) (a len : Nat) : State × Nat × Option Nat :=
  match quarryOf a with
  | none => (s, if (sillOf a).any fused then 0x10 else 0x60, none)
  | some n =>
    if (s.quarry n).life.st ≠ .opened then (s, 0x10, none)
    else if quarryOf (a + len - 1) ≠ some n || s.inShutter n a len then (s.bump (.quarry n) 0x88, 0x60, none)
    else
      match s.winFor n r op a len with
      | some w => (s.bump (.quarry n) (0x810 + 0x20 * w), 0, some w)
      | none => (s.bump (.quarry n) 0x88, 0x60, none)

/-- Whether an uncorrectable unit met by a window requester tears down the running job (Table 8.3): not for a requester
from another chip, nor for the host or Stavuf. -/
def Requester.tears : Requester → Bool
  | .host => false
  | .svc => false
  | .peer _ => false
  | _ => true

/-- A read through a window, admitted and served at once: the state, the status, the data. -/
def State.winRead (s : State) (r : Requester) (a len : Nat) : State × Nat × List Byte :=
  match s.winEnter r .read a len with
  | (s, 0, _) =>
    let n := a / quarrySize
    let torn := r.tears
    let (s, bs, st) := s.quarryRead n a len 1 (if torn then s.runSlot else none) (if torn then 1 else 0)
    (s, st, if st = 0x40 then [] else bs)
  | (s, st, _) => (s, st, [])

/-- A write through a window, admitted and served at once. -/
def State.winWrite (s : State) (r : Requester) (a : Nat) (bs : List Byte) : State × Nat :=
  match s.winEnter r .write a bs.length with
  | (s, 0, _) =>
    let n := a / quarrySize
    let torn := r.tears
    s.quarryWrite n a bs 1 (if torn then s.runSlot else none) (if torn then 1 else 0)
  | (s, st, _) => (s, st)

/-- A direct request of a job in admission (R247, R248, R275). -/
def State.directEnter (s : State) (n j a len : Nat) : State × Nat :=
  if (s.quarry n).life.st ≠ .opened then (s, 0x10)
  else if s.inAlloc n j a len && !s.inShutter n a len then (s, 0) else (s.bump (.quarry n) 0x80, 0x60)

end Sys2Proof.Machine
end

