-- ==== Sys2Proof/Machine/Descriptors.lean ====
section
/-! DEFINITION. Stream descriptors: their fields, sizes and addresses (Tables 7.1 and 7.2, R206, R210, R212, R213, R215). -/

namespace Sys2Proof.Machine

/-! ### Descriptor fields (Tables 7.1 and 7.2) -/

/-- CTRL. -/
def dCtrl (r : List Byte) : Nat := byteFld r 0 4
/-- MODE. -/
def dMode (r : List Byte) : Nat := fld (dCtrl r) 31 28
/-- DIR: outbound. -/
def dOut (r : List Byte) : Bool := bitAt (dCtrl r) 27
/-- SPACE. -/
def dSpace (r : List Byte) : Nat := fld (dCtrl r) 26 25
/-- CLASS: latency-critical. -/
def dLc (r : List Byte) : Bool := bitAt (dCtrl r) 24
/-- GATE_EN. -/
def dGate (r : List Byte) : Bool := bitAt (dCtrl r) 23
/-- SCALE_EN. -/
def dScale (r : List Byte) : Bool := bitAt (dCtrl r) 22
/-- NOTIFY. -/
def dNotify (r : List Byte) : Bool := bitAt (dCtrl r) 21
/-- RING_HEAD. -/
def dHead (r : List Byte) : Nat := fld (byteFld r 4 4) 9 0
/-- COMP_HEAD. -/
def dComp (r : List Byte) : Nat := fld (byteFld r 4 4) 25 16
/-- RATE. -/
def dRate (r : List Byte) : Nat := fld (byteFld r 8 4) 11 0
/-- SEQ. -/
def dSeq (r : List Byte) : Nat := byteFld r 0xC 4
/-- ADDR. -/
def dAddr (r : List Byte) : Nat := byteFld r 0x10 8
/-- LIMIT. -/
def dLimit (r : List Byte) : Nat := byteFld r 0x18 8
/-- PEER_CHIP. -/
def dPeer (r : List Byte) : Nat := byteFld r 0x20 2
/-- GATE_TAG. -/
def dGateTag (r : List Byte) : Nat := fld (byteFld r 0x20 8) 27 16
/-- TDESC. -/
def dTdesc (r : List Byte) : Nat := byteFld r 0x28 6
/-- SPAN. -/
def dSpan (r : List Byte) : Nat := byteFld r 0x30 4
/-- COUNT[d]. -/
def dCount (r : List Byte) (d : Nat) : Nat := byteFld r (0x34 + 4 * d) 4
/-- STRIDE[d]. -/
def dStride (r : List Byte) (d : Nat) : Nat := byteFld r (0x48 + 8 * d) 6
/-- TBASE. -/
def dTbase (r : List Byte) : Nat := byteFld r 0x70 6
/-- SCALE_KB. -/
def dKb (r : List Byte) : Nat := fld (byteFld r 0x78 4) 19 0
/-- P of a WINDOW descriptor (Table 7.4). -/
def wP (r : List Byte) : Nat := fld (byteFld r 0x34 4) 23 16
/-- NPIX of a WINDOW descriptor. -/
def wNpix (r : List Byte) : Nat := byteFld r 0x3C 4
/-- Bytes of an index (IDX64). -/
def dIdxSize (r : List Byte) : Nat := if bitAt (dCtrl r) 20 then 8 else 4

/-- Bytes of the sequence (R210, R213, R215). -/
def dTotal (r : List Byte) : Nat :=
  match dMode r with
  | 0 => dSpan r * (dCount r 0 * dCount r 1 * dCount r 2 * dCount r 3 * dCount r 4)
  | 1 => dSpan r * dCount r 0
  | _ => 512 * ceilDiv (wNpix r) (wP r)

/-- Address of a LINEAR position (R210). -/
def linAddr (r : List Byte) (p : Nat) : Nat :=
  let i (d below : Nat) : Nat := p / below % dCount r d * dStride r d
  let c0 := dCount r 0
  let c1 := c0 * dCount r 1
  let c2 := c1 * dCount r 2
  let c3 := c2 * dCount r 3
  dAddr r + i 0 1 + i 1 c0 + i 2 c1 + i 3 c2 + i 4 c3

/-- Bytes of a slot of a ring. -/
def State.slotBytes (s : State) (n head : Nat) : Nat := 512 * sRows (s.slot n head)
/-- Slots that a descriptor fills or drains. -/
def State.slotTotal (s : State) (n : Nat) (x : Strm) : Nat := ceilDiv (dTotal x.raw) (s.slotBytes n x.head)

/-- Ring rows that carry scales (R212). -/
def scaleRows (r : List Byte) : Nat := if dScale r then ceilDiv (dTotal r) 512 else 0

end Sys2Proof.Machine
end

