-- ==== Sys2Proof/Machine/Teardown.lean ====
section
/-! DEFINITION. Ending things: a stream queue stopped (R205), a tag failed (R300), a job torn down (R394, R395), a program
fault (R169), a block closed (R397). -/

namespace Sys2Proof.Machine

/-! ### Streams -/

/-- Requests of a queue that are in flight. -/
def State.inFlight (s : State) (n q : Nat) : List Req := s.flight.filter (fun r => r.core == n && r.queue == q)

/-- Free bytes at an address (R7). -/
def State.putFree (s : State) (a len : Nat) : State :=
  { s with mem := memWrite s.mem a (freeBytes s.free len), free := s.free + len }

/-- Of k slots of a ring from a position, the buffers of those not FULL become unpredictable (R205). -/
def State.loseSlots (s : State) (n head pos k : Nat) : State :=
  (List.range (min k (sLen (s.slot n head)))).foldl (fun (s : State) i =>
    let v := s.ringSlot n head (pos + i)
    if s.slotFull n head (pos + i) then s else s.putFree (rowAddr n (sBuf v)) (512 * sRows v)) s

/-- The slots that an inbound descriptor has yet to fill, and those of its companion ring, at a stop (R205, log 102). -/
def State.loseStrm (s : State) (n : Nat) (d : Strm) : State :=
  if dOut d.raw then s
  else
    let s' := s.loseSlots n d.head (d.start + d.slots) (s.slotTotal n d - d.slots)
    if dScale d.raw then
      s'.loseSlots n (dComp d.raw) (d.cstart + d.cslots) (ceilDiv (scaleRows d.raw) (sRows (s.slot n d.head)) - d.cslots)
    else s'

/-- STR.STOP (R205): the active descriptor ends, pending ones are discarded, no record; idle once nothing is in flight.
A halt being recorded is recorded first (R231). -/
def State.stopQueue (s : State) (n q : Nat) : State :=
  let x := s.sq n q
  if x.halting then s.onSq n q (fun x => { x with pend := [], stopping := true })
  else (x.run.foldl (fun (s : State) d => s.loseStrm n d) s).onSq n q
    (fun _ => { ({} : SQ) with stopping := !(s.inFlight n q).isEmpty })

/-- The requests in flight of a core abandoned, their tags free (R389). -/
def State.dropFlight (s : State) (n : Nat) : State :=
  let k := s.flight.countP (fun r => r.core == n)
  ({ s with flight := s.flight.filter (fun r => r.core != n) } : State).bump .job 0x50 k

/-- The requests in flight of a core abandoned and its tag epochs inverted (R219, R389). -/
def State.abandon (s : State) (n : Nat) : State := (s.dropFlight n).onCore n (fun c => { c with epoch := !c.epoch })

/-- A core that its job no longer holds stops issuing; its streams stop with no record and its requests are abandoned. -/
def State.stopCore (s : State) (n : Nat) : State :=
  (s.onCore n (fun c => { c with
    running := false, job := none, sq := [], lintWait := none, hold := 0, slotHold := 0, lintHold := 0, cur := {}, waits := [] })).dropFlight n

/-- A core of a torn-down job: its tag epochs invert too (R219, R394). -/
def State.haltCore (s : State) (n : Nat) : State := (s.stopCore n).onCore n (fun c => { c with epoch := !c.epoch })

/-! ### Reduction -/

/-- Address of the descriptor of a tag (R278). -/
def State.bucketAt (s : State) (j t : Nat) : Nat := s.reg64 (Page.red.base + 0x120 + 8 * j) % 2 ^ 48 + 128 * t
/-- The bytes of the descriptor of a tag. -/
def State.bucket (s : State) (j t : Nat) : List Byte := s.bytes (s.bucketAt j t) 128
/-- Class 3 and class 8, 4 and 14 records of the engine name the reduction page. -/
def redUnit : Nat := Page.red.unit

/-- ABORT to every member of a tag's group (R300, Table 11.6). -/
def State.sendAbort (s : State) (j t status cls origin : Nat) : State :=
  let d := s.bucket j t
  (s.sendGroup redUnit (byteFld d 0xC 1) {
    kind := 0x10, sub := 7, key := s.keyOf j
    data := redData t (s.tag j t).step status 0 cls 0 0 origin }).bump .red 0x90 (s.members (byteFld d 0xC 1)).length

/-- A tag FAILED, with its record where NOTIFY is set (R300, R303). -/
def State.markFailed (s : State) (j t status origin : Nat) : State :=
  let d := s.bucket j t
  let tg := s.tag j t
  let s := (s.onTag j t (fun x => { x with st := .failed })).setPreg .red 0x110
    (status * 2 ^ 24 + j * 2 ^ 12 + t)
  let s := s.setPreg .red 0x114 origin
  let s := { s with red := { s.red with xfers := s.red.xfers.filter (fun x => !(x.job == j && x.tag == t)) } }
  if bitAt (byteFld d 0 4) 24 then
    s.post (s.job j).cqRed status 0x03 (some j) 0xFFFF 0
      (natLe 2 (t + 4096 * j) ++ natLe 1 tg.step ++ natLe 1 0 ++ natLe 4 0xFFFFFFFF ++ natLe 2 origin)
  else s

/-! ### Attention -/

/-- Detail of a sequence record (Table 10.10). -/
def seqDetail (id slot step reason flags len pages ref : Nat) : List Byte :=
  natLe 4 id ++ natLe 1 slot ++ natLe 1 step ++ natLe 1 reason ++ natLe 1 flags ++ natLe 4 len ++ natLe 4 pages ++ natLe 4 ref

/-- The record of an attention command (R324): to the CQ that the job image binds to attention. -/
def State.attCmdDone (s : State) (j : Nat) (c : AttCmd) (status : Nat) (detail : List Byte) : State :=
  (s.post (s.job j).cqAtt status 0x04 (some j) c.sq (s.hq c.sq).head detail).onHq c.sq (fun q => { q with fetched := q.fetched - 1 })

/-- The generator and the pool manager at a teardown (R325): requests discarded, slots and pages freed, queued commands
completed. -/
def State.attTeardown (s : State) (j : Nat) : State :=
  let mine := s.att.seqs.filter (fun e => e.2.st != 0 && e.2.job == j)
  let slots := mine.map Prod.fst
  let pool := fld (s.preg .att 0x100) 5 4 == j
  let cmds := if pool then s.att.cmds else []
  let s := { s with att := { s.att with
    reqs := s.att.reqs.filter (fun r => r.job != j)
    seqs := s.att.seqs.filter (fun e => !slots.contains e.1)
    used := s.att.used.filter (fun e => !slots.contains e.2)
    swapUsed := s.att.swapUsed.filter (fun e => !slots.contains e.2)
    cmds := if pool then [] else s.att.cmds
    step := if pool then none else s.att.step } }
  cmds.foldl (fun (s : State) c => s.attCmdDone j c 0x31 (seqDetail (byteFld c.cmd 4 4) 0 0 0 1 0 0 (byteFld c.cmd 0xC 4))) s

/-! ### Bench -/

/-- Detail of a bench record (Table 12.7). -/
def benchDetail (queue quarry op seq done addr first : Nat) : List Byte :=
  natLe 2 queue ++ natLe 1 quarry ++ natLe 1 op ++ natLe 4 seq ++ natLe 8 done ++ natLe 8 addr ++ natLe 8 first

/-- All ones of 64 bits. -/
def ones64 : Nat := 2 ^ 64 - 1

/-- A bench queue at teardown (R274): a running command with NOTIFY completes with ABORTED_TEARDOWN; the rest is
discarded. -/
def State.benchTeardown (s : State) (j n : Nat) (qs : Tab BQ) : State :=
  qs.foldl (fun s e =>
    match e.2.cmd with
    | some c =>
      if e.2.st == 1 && bitAt (byteFld c 0 4) 18 then
        s.post (s.job j).cqBench 0x31 0x02 (some j) 0xFFFF 0
          (benchDetail (224 * n + 160 + e.1) n (byteFld c 3 1) (byteFld c 4 4) 0 0 ones64)
      else s
    | none => s) s

/-! ### Windows, lintels -/

/-- The quarry whose window's first word stands at a BAR0 offset. -/
def winWord0 (off : Nat) : Option (Nat × Nat) :=
  match pageOf off with
  | some (.quarry n) => if 0x800 ≤ off % 0x1000 ∧ off % 0x20 = 0 then some (n, (off % 0x1000 - 0x800) / 0x20) else none
  | _ => none

/-- Whether a request that a window admitted is not yet completed (R251). -/
def State.winBusy (s : State) (q w : Nat) : Bool :=
  s.flight.any (fun r => r.st == .admitted && r.win == some w && quarryOf r.addr == some q)

/-- Every window of a job closes; one with requests not yet completed stands CLOSING (R251, R253). -/
def State.closeWindows (s : State) (j : Nat) : State :=
  { s with regs := s.regs.map (fun e =>
      match winWord0 e.1 with
      | some (n, w) =>
        if fld e.2.toNat 31 30 == 1 && fld e.2.toNat 29 28 == j then
          (e.1, BitVec.ofNat 32 (putFld e.2.toNat 31 30 (if s.winBusy n w then 2 else 0)))
        else e
      | none => e) }

/-- A job's lintels returned to the unused state (R394, R396). -/
def State.dropLintels (s : State) (j : Nat) : State :=
  { s with lintels := s.lintels.filter (fun e => e.1 / 256 != j) }

/-! ### Jobs -/

/-- Detail of a job record (Table 13.5). -/
def jobDetail (op slot reason cls seq placed dur : Nat) : List Byte :=
  natLe 1 op ++ natLe 1 slot ++ natLe 1 reason ++ natLe 1 cls ++ natLe 4 seq ++ natLe 16 placed ++ natLe 4 dur

/-- The record of a job command: status, reason, class, PLACED, DURATION (R382). -/
def State.jobDone (s : State) (c : JobCmd) (slot : Option Nat) (status reason cls placed dur : Nat) : State :=
  s.postSq c.sq status 0x05 slot (jobDetail (byteFld c.cmd 0 1) (slot.getD (byteFld c.cmd 1 1)) reason cls (byteFld c.cmd 4 4) placed dur)

/-- Microseconds since a TIME. -/
def State.usSince (s : State) (t : Nat) : Nat := (s.time - t) / 100

/-- The switch that a teardown meets (R392): a fault of the outgoing job lets the incoming job start as the RUN ordered,
and a PARK completes with ABORTED_TEARDOWN; a fault of the incoming job ends the switch. -/
def State.switchTorn (s : State) (j cls : Nat) : State :=
  if s.sw.phase = .idle then s
  else if s.sw.outgoing = some j then
    match s.sw.incoming with
    | some i => ({ s with sw := { s.sw with phase := .restore, outgoing := none }, runSlot := some i }).onJob i
        (fun x => { x with st := .resuming })
    | none =>
      let s' := { s with sw := {} }
      match s.sw.cmd with
      | some c => s'.jobDone c (some j) 0x31 0 cls 0 (s.usSince s.sw.start)
      | none => s'
  else if s.sw.incoming = some j && s.sw.phase == .restore then
    let s' := { s with sw := {} }
    match s.sw.cmd with
    | some c => s'.jobDone c (some j) 0x31 0 cls 0 (s.usSince s.sw.start)
    | none => s'
  else s

/-- PARKs that head their queues as the running job is torn down complete with ABORTED_TEARDOWN (R179). -/
def State.parksTorn (s : State) (j cls : Nat) : State :=
  let heads := s.jobCmds.filter (fun c => byteFld c.cmd 0 1 == 3 && s.jobCmds.find? (fun d => d.sq == c.sq) == some c)
  heads.foldl (fun (s : State) c => ({ s with jobCmds := removeFirst (· == c) s.jobCmds } : State).jobDone c (some j) 0x31 0 cls 0 0) s

/-- The states in which a job can be torn down (R394). -/
def JobSt.tearable : JobSt → Bool
  | .loaded | .running | .parking | .parked | .resuming | .ended => true
  | _ => false

/-- Steps 1 to 4 of a teardown and the slot's TORN_DOWN (R394), with no record. -/
def State.tearCore (s : State) (j cls : Nat) : State :=
  let jb : Job := s.job j
  let live := (coresOf jb.placed).filter (fun n => (s.core n).job == some j)
  let s : State := live.foldl State.haltCore s
  let s : State := (coresOf jb.placed).foldl (fun (s : State) n =>
    let qs := if live.contains n then (s.quarry n).bq else tget [] jb.savedBq n
    let s : State := s.benchTeardown j n qs
    if live.contains n then s.onQuarry n (fun q => { q with bq := [], locks := q.locks.filter (fun l => l.queue.isNone) })
    else s) s
  let tags := s.red.tags.filter (fun e => e.1 / 4096 == j && e.2.st != .idle)
  let s : State := tags.foldl (fun (s : State) e =>
    let s : State := if e.2.st == .failed then s else s.sendAbort j (e.1 % 4096) 0x31 cls s.chipId
    s.onTag j (e.1 % 4096) (fun x => { ({} : Tag) with step := x.step })) s
  let s : State := { s with red := { s.red with xfers := s.red.xfers.filter (fun x => x.job != j) } }
  let s : State := ((s.attTeardown j).closeWindows j).dropLintels j
  let s : State := s.onJob j (fun x => { x with st := .tornDown, saved := [], savedBq := [], savedLocks := [] })
  let s : State := s.setPreg .links (0x104 + 4 * j) (s.preg .links (0x104 + 4 * j) ||| 2 ^ 30)
  let s : State := if s.runSlot = some j ∧ s.sw.phase = .idle then s.parksTorn j cls else s
  let s : State := if s.runSlot = some j then { s with runSlot := none, lastSlot := j } else s
  (s.bump .job 0x58).switchTorn j cls

/-- A teardown that no command ordered (R394, R395): its record goes to CQ_EVENT, with OP 0x11 and the class. -/
def State.tearDown (s : State) (j cls : Nat) : State :=
  if (s.job j).st.tearable then
    let cq := (s.job j).cqEvent
    (s.tearCore j cls).post cq 0x31 0x05 (some j) 0xFFFF 0 (jobDetail 0x11 j 0 cls 0 0 0)
  else s

/-- A teardown of a job, where one is named. -/
def State.tearJob (s : State) (j : Option Nat) (cls : Nat) : State :=
  match j with
  | some j => s.tearDown j cls
  | none => s

/-- Detail of a class 14 record (Table 15.4). -/
def progDetail (core pc check low addr : Nat) : List Byte :=
  natLe 2 core ++ zeros 2 ++ natLe 4 pc ++ natLe 1 check ++ natLe 1 low ++ zeros 6 ++ natLe 8 addr

/-- A program fault (R169): class 14 with its check code, and the job torn down. -/
def State.progFault (s : State) (job : Option Nat) (unit status core pc check low addr : Nat) : State :=
  (s.fault 14 status job unit (if job.isSome then 1 else 0) (progDetail core pc check low addr)).tearJob job 14

/-- A program fault found by core n in its evaluation: it issues nothing more (R169). An operation that names a bad descriptor or list,
or an unmapped address, completes with INTERNAL (R20, R55, R58). -/
def State.coreFault (s : State) (n check low addr : Nat) : State :=
  let c := s.core n
  (s.onCore n (fun c => { c with faulted := true })).progFault c.job (Page.core n).unit (if check = 5 ∨ check = 8 then 0x7F else 0) n c.pc
    check low addr

/-- A tag fails on this chip (R300, Table 9.8): ABORT to the group, the class's record, one teardown of the job. -/
def State.failTag (s : State) (j t status cls : Nat) (detail : List Byte) : State :=
  let s := (s.markFailed j t status s.chipId).sendAbort j t status cls s.chipId
  (s.fault cls status (some j) redUnit 1 detail).tearDown j cls

/-- A job that runs on a core or quarry. -/
def State.userOf (s : State) (b : Block) : Option Nat :=
  match s.runSlot, b with
  | some j, .core n => if bitAt (s.job j).placed n then some j else none
  | some j, .quarry n => if bitAt (s.job j).placed n || bitAt (s.job j).extra n then some j else none
  | _, _ => none

/-- A block FAULTED (R397, Table 13.10): class 11, and a running job that uses it torn down. -/
def State.blockFaulted (s : State) (b : Block) (off mask : Nat) : State :=
  let job := s.userOf b
  let s := s.onLife b (fun l => { l with st := .faulted })
  (s.fault 11 0 job (blockPage b).unit (if job.isSome then 1 else 0) (natLe 4 off ++ natLe 4 mask)).tearJob job 11

/-- FATAL set, in a record's FLAGS too (R439). -/
def State.setFatal (s : State) : State := { s with dsw := { s.dsw with fatal := true } }

end Sys2Proof.Machine
end

