-- ==== Sys2Proof/Machine/Operands.lean ====
section
/-! DEFINITION. Operand forms of the lanes (R138 to R141, R149, R156 to R162, R189 to R191) and the evaluation of a lane:
encoding check, holds, timing check, effect (R168). -/

namespace Sys2Proof.Machine

/-- What the evaluation of one lane finds (R168): the check code of a fault found before issue; the hold causes that are not
slots, by precedence number; the slots waited on (ring head, entry, whether it is to be filled); the lintel waited on and a phase
to remember; the ring and half named; the bank accesses; the check code of a timing fault; and the state after issue. -/
structure Eval where
  enc : Nat := 0
  holds : List Nat := []
  slots : List (Nat × Nat × Bool) := []
  lint : Option Nat := none
  mark : Option (Nat × Nat) := none
  ring : Option Nat := none
  half : Option Nat := none
  uses : List (Nat × Nat) := []
  timing : Nat := 0
  run : State

/-- The first nonzero check code. -/
def firstCode (xs : List Nat) : Nat := (xs.find? (· != 0)).getD 0

/-- A check code where a condition fails. -/
def need (code : Nat) (ok : Bool) : Nat := if ok then 0 else code

/-- Address register r of core n (R140). -/
def State.areg (s : State) (n r : Nat) : Nat := tget 0 (s.core n).areg r

/-- Whether an address is an aligned one in the core's own sill (R141, R203). -/
def inSill (n a align len : Nat) : Bool :=
  a % align == 0 && decide (sillBase n ≤ a) && decide (a + len ≤ sillBase n + 0x400000)

/-- Bank of a sill row (R182). -/
def bankOf (row : Nat) : Nat := 4 * (row / 2048) + row % 4
/-- Row of an address in its sill. -/
def rowOf (a : Nat) : Nat := a / 512 % 8192
/-- Read latency of a sill row (R181). -/
def latOf (row : Nat) : Nat := 3 + row / 2048
/-- The farthest read latency among rows: L of Table 5.11. -/
def farLat (rows : List Nat) : Nat := maxOf (rows.map latOf)

/-- A place that an operation reads or writes (R139). -/
inductive Place where
  | rows (first : Nat)
  | ring (head : Nat)
  deriving DecidableEq, Repr

/-- A LOC field's place (R139). -/
def placeOf (loc : BitVec 14) : Place :=
  if bitAt loc.toNat 13 then .ring (fld loc.toNat 9 0) else .rows (fld loc.toNat 12 0)

/-- Bytes of scale per 512-byte row that an operation on a descriptor needs; 0 unless BLOCK (R75). -/
def TDesc.scaleBytes (d : TDesc) : Nat := if d.mode = 1 then d.fmt.scaleBytes else 0

/-- The check of a place for an operation that moves a number of rows in a direction under a descriptor (R75, R137, R139,
R157, R159, R162). -/
def State.placeOk (s : State) (n : Nat) (loc : BitVec 14) (rows : Nat) (outbound : Bool) (d : TDesc) : Bool :=
  match placeOf loc with
  | .rows r =>
    decide (r + rows ≤ 8192) &&
      (d.scaleBytes == 0 || (d.scaleAddr % 512 == 0 && decide (sillBase n ≤ d.scaleAddr) &&
        decide (d.scaleAddr + d.scaleBytes * (r + rows) ≤ sillBase n + 0x400000)))
  | .ring h =>
    let v := s.slot n h
    fld loc.toNat 12 10 == 0 && s.ringOk n h && sOut v == outbound &&
      rows % sRows v == 0 &&
      (d.scaleBytes == 0 || !sCompEn v ||
        (let w := s.slot n (sComp v)
         sValid w && sHead w && sOut w == outbound && sRows v * d.scaleBytes == 512 * sRows w))

/-- Whether an operation on a ring moves the companion ring too (R160). -/
def State.companion (s : State) (n h : Nat) (d : TDesc) : Bool := d.scaleBytes != 0 && sCompEn (s.slot n h)

/-- Slots that an operation of a number of rows moves (R159). -/
def State.slotsOf (s : State) (n h rows : Nat) : Nat := rows / sRows (s.slot n h)

/-- Sill rows of a place, in order. -/
def State.placeRows (s : State) (n : Nat) (loc : BitVec 14) (rows : Nat) (outbound : Bool) : List Nat :=
  match placeOf loc with
  | .rows r => fromN r rows
  | .ring h =>
    let v := s.slot n h
    (s.ringRows n h (if outbound then sProd v else sCons v) (s.slotsOf n h rows)).take rows

/-- Address of the S scale bytes of the i-th row of a place (R75): plain rows in the scale tensor, ring rows in the
companion slot that corresponds. -/
def State.scaleAddrOf (s : State) (n : Nat) (loc : BitVec 14) (outbound : Bool) (d : TDesc) (i : Nat) : Nat :=
  match placeOf loc with
  | .rows r => d.scaleAddr + d.scaleBytes * (r + i)
  | .ring h =>
    let v := s.slot n h
    if sCompEn v then
      let w := s.slot n (sComp v)
      let cpos := (if outbound then sProd w else sCons w) + i / sRows v
      rowAddr n (sBuf (s.ringSlot n (sComp v) cpos)) + d.scaleBytes * (i % sRows v)
    else d.scaleAddr

/-! ### Slot entries not yet in effect (R171) -/

/-- Entries of a ring and of its companion. -/
def State.ringEntries (s : State) (n h : Nat) : List Nat :=
  let v := s.slot n h
  fromN h (sLen v) ++ (if sCompEn v then fromN (sComp v) (sLen (s.slot n (sComp v))) else [])

/-- A ring named before entries that CTL.SLOTLD loads are in effect: what is read of them is free (R171, Table 5.11). -/
def State.early (s : State) (n h : Nat) : State :=
  let c := s.core n
  let es := (s.ringEntries n h).filter (fun e => decide (c.cclk < tget 0 c.slotAt e))
  let v (i : Nat) : Nat := (Config.freeValue (s.free + 2 * i)).toNat + 2 ^ 32 * (Config.freeValue (s.free + 2 * i + 1)).toNat
  if es.isEmpty then s
  else ({ s with free := s.free + 2 * es.length } : State).onCore n (fun c => { c with
    slots := es.zipIdx.foldl (fun t e => tset t e.1 (v e.2)) c.slots })

/-- The same for a place. -/
def State.earlyAt (s : State) (n : Nat) (loc : BitVec 14) : State :=
  match placeOf loc with
  | .rows _ => s
  | .ring h => s.early n h

/-! ### Scheduled reads -/

/-- Whether a store into a range of a core's own sill is still in flight (R171). -/
def State.wetAt (s : State) (n a len : Nat) : Bool :=
  (s.core n).wet.any (fun e => decide ((s.core n).cclk < e.2) && decide (rowAddr n e.1 < a + len) && decide (a < rowAddr n e.1 + 512))

/-- Rows stored, readable from a CCLK on (R171, Table 5.11, log 104). -/
def State.soak (s : State) (n : Nat) (rows : List Nat) (ready : Nat) : State :=
  s.onCore n (fun c => { c with wet := rows.foldl (fun t r => tset t r ready) c.wet })

/-- Nothing that a core has stored, or loaded into its slot table, is still in flight (R171). -/
def Core.settled (c : Core) : Bool :=
  c.wet.all (fun e => decide (e.2 ≤ c.cclk)) && c.slotAt.all (fun e => decide (e.2 ≤ c.cclk))

/-- The bytes that an operation of the core sees in its own sill: free while a store into them is in flight (R171). -/
def State.seen (s : State) (n a len : Nat) : List Byte := if s.wetAt n a len then freeBytes s.free len else s.bytes a len

/-- Bytes read, those of uncorrectable codewords free (Table 6.4). -/
def State.smeared (s : State) (a : Nat) (bs : List Byte) : List Byte :=
  if s.grade a bs.length = 2 then
    bs.zipIdx.map (fun p => if s.grade (a + p.2) 1 = 2 then (Config.freeValue (s.free + p.2)).truncate 8 else p.1)
  else bs

/-- A scheduled read of the core's own sill, of whole rows (R183, Table 6.4): an uncorrectable codeword is reported, its data are
free and the job is torn down; data whose store is still in flight are free (R171). -/
def State.schedRead (s : State) (n a len : Nat) : State × List Byte :=
  let job := (s.core n).job
  match s.sillRead n a len 0 job (if job.isSome then 1 else 0) with
  | (s', bs, st) =>
    if s.wetAt n a len then
      let u : State := { s' with free := s'.free + len }
      (if st = 0x40 then u.tearJob job 1 else u, freeBytes s'.free len)
    else if st = 0x40 then (({ s' with free := s'.free + len }).tearJob job 1, s'.smeared a bs)
    else (s', bs)

/-- Whether a sill row lies in the buffer of a slot that is not the program's to touch: one in use, inbound and not FULL, or
outbound and FULL (R33, log 107). -/
def State.foreign (s : State) (n row : Nat) : Bool :=
  (s.core n).slots.any (fun e => sValid e.2 && sFull e.2 == sOut e.2 && decide (sBuf e.2 ≤ row) && decide (row < sBuf e.2 + sRows e.2))

/-- A scheduled read of data: free where a plain access reaches into a slot outside its protocol (R33). -/
def State.dataRead (s : State) (n : Nat) (plain : Bool) (a len : Nat) : State × List Byte :=
  match s.schedRead n a len with
  | (s', bs) =>
    if plain && s.foreign n (rowOf a) then ({ s' with free := s'.free + len }, freeBytes s'.free len) else (s', bs)

/-- Data that a plain store would leave in a row: free where the row lies in a slot outside its protocol (R33). -/
def State.storeBytes (s : State) (n : Nat) (plain : Bool) (a : Nat) (bs : List Byte) : State × List Byte :=
  if plain && s.foreign n (rowOf a) then ({ s with free := s.free + bs.length }, freeBytes s.free bs.length) else (s, bs)

/-- Whether a LOC names plain rows. -/
def plainLoc (loc : BitVec 14) : Bool := !bitAt loc.toNat 13

/-- A tensor format descriptor named by a register: the code of a failed check, and its fields (R58, R141). -/
def State.descOf (s : State) (n r : Nat) : Nat × TDesc :=
  let a := s.areg n r
  if inSill n a 64 64 then
    match parseTDesc (s.seen n a 64) with
    | some d => (0, d)
    | none => (5, ⟨.fp32, 0, false, 0, 0, 0, 0⟩)
  else (1, ⟨.fp32, 0, false, 0, 0, 0, 0⟩)

/-! ### Rows that a descriptor names anywhere in the job (R20, R141) -/

/-- The check code of a status (Table 15.12): an unmapped address, a denial, any other. -/
def statusCheck (st : Nat) : Nat := if st = 0x7F then 8 else if st = 0x60 then 9 else 0xFF

/-- Whether a core may reach a range for its program: its own sill, a sill of its job, its own quarry, or another through a
window; or the status of the refusal (R20, R22, R195, R247). -/
def State.coreEnter (s : State) (n a len : Nat) (op : WinOp) : State × Nat :=
  match quarryOf a, sillOf a, (s.core n).job with
  | some q, _, some j =>
    if q = n then s.directEnter n j a len
    else match s.winEnter .core op a len with
      | (s, st, _) => (s, st)
  | _, some o, job =>
    if o = n then (s, 0)
    else if s.sillShut o then (s, 0x10)
    else if (s.core o).job != job || job.isNone then (s.bump (.sill o) 0x70, 0x60)
    else (s, 0)
  | some _, _, none => (s, 0x60)
  | none, none, _ => (s, 0x7F)

/-- A read of bytes that a descriptor names in any quarry or sill of the job (R141): the state, the bytes and the status. An
uncorrectable codeword tears the job down (Tables 6.4 and 8.3). -/
def State.farRead (s : State) (n a len : Nat) : State × List Byte × Nat :=
  if sillOf a = some n then
    match s.schedRead n a len with
    | (s, bs) => (s, bs, 0)
  else
    match s.coreEnter n a len .read with
    | (s, 0) =>
      let job := (s.core n).job
      let (s, bs, st) := if a < quarryEnd then s.quarryRead (a / quarrySize) a len (if quarryOf a = some n then 0 else 1) job 1
        else s.sillRead ((a - 0x2000000000) / 0x400000) a len 1 job 1
      if st = 0x40 then (({ s with free := s.free + len }).tearJob job 1, freeBytes s.free len, 0x40) else (s, bs, 0)
    | (s, st) => (s, [], st)

/-- The channel list of a descriptor: none of its entries where PRIV_EN is 0; the code of a failed check (R20, R54, R55). -/
def State.chanOf (s : State) (n : Nat) (d : TDesc) : Nat × List Nat :=
  if d.priv then
    let st := (s.coreEnter n d.chanAddr 512 .read).2
    if d.chanAddr % 512 ≠ 0 then (5, [])
    else if st ≠ 0 then (statusCheck st, [])
    else match parseChan (s.seen n d.chanAddr 512) with
    | some es => (0, es)
    | none => (5, [])
  else (0, [])

/-- The list's row read, with what its code shows (R187, R240). -/
def State.readChan (s : State) (n : Nat) (d : TDesc) : State := if d.priv then (s.farRead n d.chanAddr 512).1 else s

/-! ### Holds -/

/-- Tags in use at the core's own quarry and remotely (R216, R217). -/
def State.ownTags (s : State) (n : Nat) : Nat :=
  s.flight.countP (fun r => r.core == n && r.space == 0 && decide (quarryOf r.addr = some n))
@[inherit_doc State.ownTags] def State.remoteTags (s : State) (n : Nat) : Nat :=
  s.flight.countP (fun r => r.core == n && !(r.space == 0 && decide (quarryOf r.addr = some n)))

/-- Space and class of the oldest started descriptor of a queue. -/
def SQ.space (q : SQ) : Option Nat := (q.run.head?).map (fun d => fld (byteFld d.raw 0 4) 26 25)

/-- The entry waited on: the first of k from CONS_POS that is not FULL, or the one at PROD_POS (R160, R175). -/
def State.waitedOn (s : State) (n h k : Nat) (write : Bool) : Nat × Nat × Bool :=
  let v := s.slot n h
  let pos := if write then sProd v else ((fromN (sCons v) k).find? (fun p => !s.slotFull n h p)).getD (sCons v)
  (h, h + pos % sLen v, write)

/-- The slots that a place waits on (R160): inbound slots not all FULL, or the slot filled first not empty. -/
def State.placeHold (s : State) (n : Nat) (loc : BitVec 14) (rows : Nat) (outbound : Bool) (d : TDesc) : List (Nat × Nat × Bool) :=
  match placeOf loc with
  | .rows _ => []
  | .ring h =>
    let v := s.slot n h
    let k := s.slotsOf n h rows
    let waits (h : Nat) : List (Nat × Nat × Bool) := [s.waitedOn n h k outbound]
    if outbound then
      if s.slotFull n h (sProd v) then waits h
      else if s.companion n h d && s.slotFull n (sComp v) (sProd (s.slot n (sComp v))) then waits (sComp v)
      else []
    else if !s.fullFrom n h (sCons v) k then waits h
    else if s.companion n h d && !s.fullFrom n (sComp v) (sCons (s.slot n (sComp v))) k then waits (sComp v)
    else []

/-! ### Slots taken and filled (R160) -/

/-- Changes of FULL to come for k slots of a ring from a position, the i-th in the CCLK given for it. -/
def State.schedule (s : State) (n head pos k : Nat) (when_ : Nat → Nat) (b : Bool) : State :=
  let len := sLen (s.slot n head)
  s.onCore n (fun c => { c with due := c.due ++ (List.range k).map (fun i => Due.mk (when_ i) (head + (pos + i) % len) b) })

/-- The slots of an inbound place taken: CONS_POS advances at issue, companion included, and FULL is cleared in the CCLK in which a
slot's last row is read: row r of the place at rowAt r, row r of the companion's at scaleAt r (R160). -/
def State.takeSlots (s : State) (n : Nat) (loc : BitVec 14) (rows : Nat) (d : TDesc) (rowAt scaleAt : Nat → Nat) : State :=
  match placeOf loc with
  | .rows _ => s
  | .ring h =>
    let k := s.slotsOf n h rows
    let one (s : State) (h : Nat) (at_ : Nat → Nat) : State :=
      let b := sRows (s.slot n h)
      (s.schedule n h (sCons (s.slot n h)) k (fun i => at_ ((i + 1) * b - 1)) false).advCons n h k
    let s' := if s.companion n h d then one (one s h rowAt) (sComp (s.slot n h)) scaleAt else one s h rowAt
    s'.bump (.core n) 0x68 k

/-- The slots of an outbound place filled: PROD_POS advances at issue, companion included, and FULL is set in the CCLK in which the
rows are written (R160). -/
def State.fillSlots (s : State) (n : Nat) (loc : BitVec 14) (rows : Nat) (d : TDesc) (when_ : Nat) : State :=
  match placeOf loc with
  | .rows _ => s
  | .ring h =>
    let k := s.slotsOf n h rows
    let one (s : State) (h : Nat) : State := (s.schedule n h (sProd (s.slot n h)) k (fun _ => when_) true).advProd n h k
    let s' := if s.companion n h d then one (one s h) (sComp (s.slot n h)) else one s h
    s'.bump (.core n) 0x68 k

/-- The changes of FULL whose CCLK has passed take place. -/
def Core.land (c : Core) : Core :=
  { c with
    slots := (c.due.filter (fun d => decide (d.at_ < c.cclk))).foldl
      (fun t d => tset t d.entry (putFld (tget 0 t d.entry) 63 63 (if d.full then 1 else 0))) c.slots
    due := c.due.filter (fun d => decide (c.cclk ≤ d.at_)) }

/-! ### Issue -/

/-- The half that holds a block, filled (R151). -/
def Core.half (c : Core) (block : Nat) : Option IHalf :=
  [c.h0, c.h1].findSome? (fun h => match h with
    | some x => if x.filled && x.block == block then some x else none
    | none => none)

/-- The block of the sub-bundle is resident and filled; of a resumed core, also those of the first sub-bundles of its active loops (R151,
R180). -/
def Core.fetched (c : Core) : Bool :=
  (c.half (c.pc / 1024)).isSome && (!c.refetch || c.loops.all (fun l => (c.half (l.first / 1024)).isSome))

/-- The sub-bundle at the PC, as its 32 bytes stand in the instruction buffer (R136, R151). -/
def Core.word (c : Core) : Nat :=
  match c.half (c.pc / 1024) with
  | some h => leNat (memRead h.code (32 * (c.pc % 1024)) 32)
  | none => 0

/-- Whether ARRAY issue is suppressed on a core (R411). -/
def State.suppressed (s : State) (n : Nat) : Bool :=
  bitAt (s.preg .power 0x100) 2 && decide (s.pwr.rows ≤ n / 16) && decide ((s.core n).alertAt ≤ (s.core n).cclk)

/-- Whether this CCLK of a core is a bubble (R408). -/
def State.bubble (s : State) (n : Nat) : Bool := decide (256 ≤ (s.core n).louvreAcc + s.pwr.b)

/-- Whether a core is waiting on the lintel that its last CTL.LINTEL named (R164). -/
def State.lintelHeld (s : State) (n : Nat) : Bool :=
  match (s.core n).lintWait, (s.core n).job with
  | some (id, ph), some j => decide ((s.lint j id).phase ≤ ph)
  | _, _ => false

/-- A core whose CCLK are counted: its job holds the cores and it has neither ended nor faulted (Table 5.15). -/
def State.counted (s : State) (n : Nat) : Bool :=
  let c := s.core n
  c.running && !c.ended && !c.faulted && c.life.st == .opened && c.job.isSome && s.runSlot == c.job

/-- Whether a core may evaluate sub-bundles (R150 to R155, R169, R376); when its job stops, its current one alone (R388). -/
def State.evaluates (s : State) (n : Nat) : Bool :=
  let c := s.core n
  c.running && !c.ended && !c.faulted && c.life.st == .opened && s.runSlot == c.job &&
    (match c.job with
     | some j => (s.job j).st == .running || ((s.job j).st == .parking && s.sw.phase == .drain && c.finishing)
     | none => false)

/-- Hold causes of an ARRAY operation (R408, R411). -/
def State.arrayHolds (s : State) (n : Nat) : List Nat :=
  (if s.suppressed n then [2] else []) ++ (if s.bubble n then [3] else [])

/-- Bank accesses of an evaluation, by absolute CCLK: those of one sub-bundle that meet (R191). -/
def State.bankClash (s : State) (n : Nat) (uses : List (Nat × Nat)) : Bool :=
  let seen := (s.core n).cur.uses
  uses.any (fun u => seen.contains u) || uses.any (fun u => decide (1 < uses.count u))

/-- Reserved accesses that an evaluation meets (R190). -/
def State.bankHolds (s : State) (n : Nat) (uses : List (Nat × Nat)) : List Resv :=
  (s.core n).resv.filter (fun r => uses.contains (r.when, r.bank))

/-- The fault code that stops a lane before it can hold (R168): its own checks; a ring or half that an earlier lane names (R137); a
bank that one has (R191). -/
def Eval.code (e : Eval) (s : State) (n : Nat) : Nat :=
  let c := (s.core n).cur
  if e.enc ≠ 0 then e.enc
  else if s.bankClash n e.uses || e.ring.any c.rings.contains || e.half.any c.halves.contains then 1
  else 0

/-- Whether a lane holds (R168). -/
def Eval.waits (e : Eval) (s : State) (n : Nat) : Bool := !e.holds.isEmpty || !e.slots.isEmpty || !(s.bankHolds n e.uses).isEmpty

/-- What a lane of the sub-bundle has named, for those after it (R137, R191). -/
def Eval.names (e : Eval) (s : State) (n : Nat) : State :=
  s.onCore n (fun c => { c with cur := { c.cur with
    rings := e.ring.toList ++ c.cur.rings, halves := e.half.toList ++ c.cur.halves, uses := e.uses ++ c.cur.uses } })

/-- An issued lane: its effect, what it leaves for its sub-bundle, one lane more issued. -/
def Eval.issued (e : Eval) (n : Nat) : State :=
  (e.names e.run n).onCore n (fun c => { c with cur := { c.cur with issued := c.cur.issued + 1 } })

/-- The end of the image reached without CTL.END (R155). -/
def Core.pastEnd (c : Core) : Bool := decide (c.codeLen / 32 ≤ c.pc)

/-! ### The close of a sub-bundle -/

/-- Values written in the sub-bundle take their places; bank accesses become reservations; those whose CCLK has passed are dropped,
as are marks of stores and loads that have settled (R138, R171, R189). -/
def Core.commit (c : Core) : Core :=
  let arr := { c.arr with acc := c.cur.acc.foldl (fun a e => tset a e.1 e.2) c.arr.acc }
  { c with
    vec := c.cur.vec.getD c.vec
    arr := arr
    resv := (c.resv ++ c.cur.uses.map (fun u => Resv.mk u.1 u.2 false)).filter (fun r => decide (c.cclk ≤ r.when + 1))
    wet := c.wet.filter (fun e => decide (c.cclk < e.2))
    slotAt := c.slotAt.filter (fun e => decide (c.cclk < e.2))
    cur := {} }

/-- One evaluated CCLK of a core (R9, R408, R410, R174). -/
def State.tick (s : State) (n : Nat) : State :=
  let d := (s.core n).droop
  let s := (s.bump (.core n) 0x40).bump (.core n) 0x50 d
  s.onCore n (fun c => { c with cclk := c.cclk + 1, louvreAcc := (c.louvreAcc + s.pwr.b) % 256 })

/-- The PC and the loop stack, innermost first, after the sub-bundle at a PC has issued (R152). -/
def stepLoops (pc : Nat) : List Loop → Nat × List Loop
  | [] => (pc + 1, [])
  | l :: rest =>
    if l.last = pc then
      if 1 < l.left then (l.first, { l with left := l.left - 1, index := l.index + 1 } :: rest)
      else stepLoops pc rest
    else (pc + 1, l :: rest)

/-- The refill of a half whose block issue has left (R151): not while it holds the first sub-bundle of an active loop,
nor beyond the image. -/
def Core.refill (c : Core) : Core :=
  let b := c.pc / 1024
  let free (h : Option IHalf) : Bool :=
    match h with
    | some x => decide (x.block < b) && !c.loops.any (fun l => l.first / 1024 == x.block)
    | none => true
  let has (k : Nat) : Bool := (c.h0.map IHalf.block) == some k || (c.h1.map IHalf.block) == some k
  let want := if has b then b + 1 else b
  if decide (c.codeLen ≤ 32768 * want) || has want then c
  else if free c.h0 then { c with h0 := some { block := want, filled := false } }
  else if free c.h1 then { c with h1 := some { block := want, filled := false } }
  else c

/-- The close of an issued sub-bundle: ISSUED, the CCLK, the loop stack (new loops last), the next PC, the fetch (R138,
R152, R172). -/
def State.closeSub (s : State) (n : Nat) (skip : Nat) (push : Option Loop) : State :=
  let s := (s.bump (.core n) 0x48).tick n
  s.onCore n (fun c =>
    let c := c.commit
    let (pc, loops) := stepLoops c.pc c.loops
    let pc := if skip = 0 then pc else c.pc + 1 + skip
    Core.refill { c with
      pc := pc, loops := push.toList ++ loops, hold := 0, slotHold := 0, lintHold := 0, waitMark := none, finishing := false
      refetch := false })

end Sys2Proof.Machine
end

