-- ==== Sys2Proof/Machine/Array.lean ====
section
/-! DEFINITION. The matrix array (chapter 03): tiles, staging, products, checksum column and probe row, accumulators,
output stage. -/

namespace Sys2Proof.Machine

/-! ### Numbers of the array -/

/-- A value rounded to a precision, to nearest with ties to even, with no exponent bound (R95). -/
def roundTo (p : Nat) (x : Num) : Num :=
  match x with
  | .fin n m e =>
    let l := if m = 0 then 0 else Nat.log2 m + 1
    if l ≤ p then .fin n m e else .fin n (rneShift m (l - p)) (e + (l - p : Nat))
  | v => v

/-- Exact sum of values; a sum of negative zeros alone is +0 (log 108). -/
def sumNum (xs : List Num) : Num := xs.foldl Num.add (.fin false 0 0)

/-- Biased FP32 exponent field of a magnitude, limited to 254 (R95). -/
def biasedExp (x : Num) : Nat :=
  match x with
  | .fin _ m _ => if m = 0 then 0 else min 254 (x.lg + 127).toNat
  | _ => 254

/-- Value of a block's scale: E8M0, or E4M3 for a privileged block, 1 where the format is unscaled (R53, R93). -/
def scaleVal (f : EFmt) (priv : Bool) (b : Nat) : Num :=
  match f with
  | .e4m3 | .e5m2 | .e2m1 => if scaleNan priv b then .nan else if priv then valE4m3 b else valE8m0 b
  | _ => .fin false 1 0

/-- A source element of the vector path: its exact value, its sign, and whether its block's scale decodes as NaN (R53, R88). -/
structure SrcElem where
  val : Num
  neg : Bool
  nanScale : Bool

/-- A new block quantised by the rule of R49; one that receives an element of a NaN block takes scale byte 0xFF (R88), and other values
that the format cannot hold follow Table 2.4. -/
def requant (f : EFmt) (xs : List SrcElem) : List Nat × Nat :=
  let bmax := xs.foldl (fun a x => if x.val.isFin then a.maxMag x.val else a) (.fin false 0 0)
  let x := scaleExp f bmax
  (xs.map (fun v => match v.val with
    | .fin n m e => (packSmall f n m (e - x)).1
    | w => (convSpecial f w v.neg).code),
   if xs.any (fun v => v.nanScale) || (f == .e2m1 && xs.any (fun v => !v.val.isFin)) then 0xFF else (x + 127).toNat)

/-! ### Tiles -/

/-- Blocks along the inputs of a vector: 32, or 64 in FP4 (R70). -/
def EFmt.blocks (f : EFmt) : Nat := if f == .e2m1 then 64 else 32
/-- Sill rows of a tile (Table 3.2). -/
def EFmt.tileRows (f : EFmt) : Nat := if f == .bf16 then 128 else 64
/-- Patches that the vector path reads: 64, or 128 in BF16 (R87). -/
def EFmt.transRows (f : EFmt) : Nat := if f == .bf16 then 128 else 64

/-- Element codes of a patch row of a sill row (R74). -/
def patchCodes (f : EFmt) (row : List Byte) (m : Nat) : List Nat :=
  f.codes ((row.drop (m * f.blockBytes)).take f.blockBytes)

/-- A column of the cells: element codes, block scales, whether its row is privileged, its factor's weight part (R70,
R91). -/
structure Col where
  codes : List Nat
  scales : List Nat
  priv : Bool
  fw : W32
  deriving DecidableEq, Repr

/-- Whether an element's code is negative. -/
def EFmt.codeNeg (f : EFmt) (code : Nat) : Bool := if f == .e2m1 then bitAt code 3 else bitAt code 7

/-- The exact value of a stored element of a BLOCK tensor: a zero code is a signed zero whatever its scale (R50, R88). -/
def srcElem (f : EFmt) (scale : Num) (code : Nat) : SrcElem :=
  { val := if scale.isNan then .nan else if (f.val code).isZero then f.val code else (f.val code).mul scale
    neg := f.codeNeg code, nanScale := scale.isNan }

/-- The scale of a source block of a transposed path (R88): the FP32 product p × T in a privileged row. -/
def srcScale (d : TDesc) (priv : Bool) (b : Nat) : Num :=
  if scaleNan priv b then .nan else if priv then val32 (fl ((valE4m3 b).mul (val32 d.t))) else valE8m0 b

/-- Columns built by a transposed path from the patches of one row-group column (R87, R88): one per element position,
each along the tensor rows. -/
def transCols (d : TDesc) (chan : List Nat) (trow : Nat) (rows : List (List Byte × List Byte)) : List Col :=
  let f := d.fmt
  let p := f.patchRows
  let src : List (List Nat × Num) :=
    rows.zipIdx.flatMap (fun r => (List.range p).map (fun m =>
      (patchCodes f r.1.1 m, srcScale d (chan.contains (trow + p * r.2 + m)) ((r.1.2.map BitVec.toNat).getD m 0))))
  (List.range 32).map (fun j =>
    match f with
    | .e4m3 | .e5m2 | .e2m1 =>
      let blocks := (chunks 32 (src.map (fun r => srcElem f r.2 (r.1.getD j 0)))).map (requant f)
      ⟨blocks.flatMap Prod.fst, blocks.map Prod.snd, false, fOne⟩
    | _ => ⟨src.map (fun r => r.1.getD j 0), [], false, if f == .int8 then d.t else fOne⟩)

/-- The 32 data columns of a loaded tile (R70, R78, R86, R91). -/
def Tile.cols (t : Tile) : List Col :=
  let f := t.desc.fmt
  let p := f.patchRows
  let kb := f.blocks
  if t.transposed then transCols t.desc t.chan t.trow t.rows
  else (List.range 32).map (fun j =>
    let rs := (t.rows.drop (j / p * kb)).take kb
    let pv := t.desc.priv && t.chan.contains (t.trow + j)
    ⟨rs.flatMap (fun r => patchCodes f r.1 (j % p)), rs.map (fun r => (r.2.map BitVec.toNat).getD (j % p) 0), pv,
      if pv || f == .int8 then t.desc.t else fOne⟩)

/-- Value of input i of a column, scale included (R95). -/
def Col.value (f : EFmt) (c : Col) (i : Nat) : Num :=
  (f.val (c.codes.getD i 0)).mul (scaleVal f c.priv (c.scales.getD (i / 32) 0))

/-- Row sums c_i over the 32 columns, rounded once to 48 bits; exact in INT8 mode (R95). -/
def rowSums (f : EFmt) (cols : List Col) : List Num :=
  (List.range (32 * f.blocks)).map (fun i =>
    let v := sumNum (cols.map (fun c => c.value f i))
    if f == .int8 then v else roundTo 48 v)

/-- Column sums L_0 to L_32 (R95). -/
def colSums (f : EFmt) (cols : List Col) : List Num :=
  let l := cols.map (fun c => sumNum ((List.range (32 * f.blocks)).map (c.value f)))
  l ++ [sumNum l]

/-! ### Products -/

/-- One column of a vector (R93, R95): the inputs' weights with their scales, the vector's codes and scales. Answers the
output and the bound exponent. -/
def dotColumn (f fv : EFmt) (w : Nat → Num) (sw : Nat → Num) (v : SVec) : Num × Nat :=
  let per := if f == .e2m1 then 64 else 32
  let prod (i : Nat) : Num := (w i).mul (fv.val (v.codes.getD i 0))
  let scale (b : Nat) : Num := (sw b).mul (scaleVal fv false (v.scales.getD b 0))
  let block (b : Nat) : Num := (sumNum ((List.range 32).map (fun e => prod (32 * b + e)))).mul (scale b)
  let dpu (r : Nat) : Num :=
    let x := sumNum ((List.range (per / 32)).map (fun h => block (r * (per / 32) + h)))
    if f == .int8 then x else val32 (fl x)
  let outs := (List.range 32).map dpu
  let add (a b : Num) : Num := if f == .int8 then a.add b else val32 (fl (a.add b))
  let parts := (outs.drop 1).scanl add (outs.headD (.fin false 0 0))
  let prods := (List.range (32 * f.blocks)).map (fun i => (prod i).mul (scale (i / 32)))
  (parts.getLastD (.fin false 0 0), maxOf ((prods ++ outs ++ parts).map biasedExp))

/-- The 33 outputs of a vector through a tile, with their bound exponents (R76, R93, R95). -/
def throughTile (t : Tile) (fv : EFmt) (v : SVec) : List (Num × Nat) :=
  let f := t.desc.fmt
  let cols := t.cols
  let c := rowSums f cols
  cols.map (fun k => dotColumn f fv (fun i => f.val (k.codes.getD i 0)) (fun b => scaleVal f k.priv (k.scales.getD b 0)) v) ++
    [dotColumn f fv (fun i => c.getD i .nan) (fun _ => .fin false 1 0) v]

/-- The probe vector: ones with scale byte 127 (R98). -/
def probeVec (f : EFmt) : SVec :=
  let one := match f with
    | .e4m3 => 0x38 | .e5m2 => 0x3C | .e2m1 => 2 | .bf16 => 0x3F80 | _ => 1
  ⟨List.replicate (32 * f.blocks) one, List.replicate f.blocks 127⟩

/-- The staged format and the tile's format work together (Table 3.2). -/
def modesMatch (w a : EFmt) : Bool :=
  match w, a with
  | .e4m3, .e4m3 | .e4m3, .e5m2 | .e5m2, .e4m3 | .e5m2, .e5m2 => true
  | .e2m1, .e2m1 | .int8, .int8 | .bf16, .bf16 => true
  | _, _ => false

/-! ### LD.TLOAD and the tile loader -/

/-- LD.TLOAD (R71, R72, R78, R80). -/
def evalTload (s : State) (n : Nat) (orient : Bool) (loc : BitVec 14) (wdesc : BitVec 6) (trow : BitVec 20) : Eval :=
  let s := s.earlyAt n loc
  let (dc, d) := s.descOf n wdesc.toNat
  let (cc, chan) := s.chanOf n d
  let rows := d.fmt.tileRows
  let ok := s.placeOk n loc rows false d
  let t := (s.core n).cclk
  let a := s.areg n wdesc.toNat
  let s1 := (s.schedRead n a 64).1.readChan n d
  let head := match placeOf loc with
    | .ring h => some h
    | .rows _ => none
  let pos := match head with
    | some h => sCons (s.slot n h)
    | none => 0
  let cpos := match head with
    | some h => sCons (s.slot n (sComp (s.slot n h)))
    | none => 0
  let adv (s : State) : State := match head with
    | some h =>
      let k := s.slotsOf n h rows
      let s' := (s.advCons n h k).bump (.core n) 0x68 k
      if s.companion n h d then s'.advCons n (sComp (s.slot n h)) k else s'
    | none => s
  let tile : Tile := { desc := d, transposed := orient, chan := chan, trow := trow.toNat, loc := loc.toNat, pos := pos, cpos := cpos
                       wet := ((s.core n).wet.filter (fun e => decide (t < e.2))).map Prod.fst, at_ := t }
  { enc := firstCode [dc, need 2 (d.fmt != .fp32), cc, need 1 ok]
    ring := head
    uses := [(t, bankOf (rowOf a))]
    timing := need 3 ((s.core n).arr.shadow.isNone && decide ((s.core n).arr.shadowFreeAt ≤ t))
    run := (adv s1).onCore n (fun c => { c with arr := { c.arr with shadow := some tile } }) }

/-- The next row of the shadow tile: its sill row, and the address of its scale bytes; none while its slot is not FULL
(R78, R160). On a ring without COMP_EN every row takes the bytes at SCALE_ADDR (log 26). -/
def State.loaderNext (s : State) (n : Nat) (t : Tile) : Option (Nat × Nat) :=
  let i := t.rows.length
  let loc := BitVec.ofNat 14 t.loc
  match placeOf loc with
  | .rows r => some (r + i, t.desc.scaleAddr + t.desc.scaleBytes * (r + i))
  | .ring h =>
    let v := s.slot n h
    let b := sRows v
    let p := t.pos + i / b
    let comp := s.companion n h t.desc
    let hc := sComp v
    let pc := t.cpos + i / b
    if s.slotFull n h p && (!comp || s.slotFull n hc pc) then
      some (sBuf (s.ringSlot n h p) + i % b,
        if comp then rowAddr n (sBuf (s.ringSlot n hc pc)) + t.desc.scaleBytes * (i % b) else t.desc.scaleAddr)
    else none

/-- The loader's slots emptied once their last row is read (R78, R160). -/
def State.loaderFree (s : State) (n : Nat) (t : Tile) : State :=
  let i := t.rows.length
  match placeOf (BitVec.ofNat 14 t.loc) with
  | .rows _ => s
  | .ring h =>
    let b := sRows (s.slot n h)
    if (i + 1) % b = 0 then
      let s' := s.setFull n h (t.pos + i / b) false
      if s.companion n h t.desc then s'.setFull n (sComp (s.slot n h)) (t.cpos + i / b) false else s'
    else s

/-- The loader's read of bytes, free where the LD.TLOAD came before their store had settled (R171). -/
def State.loaderRead (s : State) (n : Nat) (t : Tile) (a len : Nat) : State × List Byte :=
  match s.dataRead n (plainLoc (BitVec.ofNat 14 t.loc)) a len with
  | (s', bs) => if t.wet.contains (rowOf a) then ({ s' with free := s'.free + len }, freeBytes s'.free len) else (s', bs)

/-- Whether the loader must leave a bank in a CCLK: a reserved access has it, or an asynchronous access that the loader has deferred
in 16 consecutive CCLK (R192). -/
def Core.loaderLoses (c : Core) (at_ bank : Nat) : Bool :=
  c.resv.any (fun r => r.when == at_ && r.bank == bank) ||
    c.waits.any (fun w => w.bank == bank && decide (16 ≤ w.byLoader) && w.at_ + 1 == at_)

/-- What a tile holds with its next row taken in a CCLK (R78): a NORMAL tile is complete at the end of the CCLK of its last row, a
TRANSPOSED tile four later. -/
def Tile.withRow (t : Tile) (at_ : Nat) (row : List Byte × List Byte) : Tile :=
  { t with
    rows := t.rows ++ [row]
    at_ := at_ + 1
    completeAt := if t.rows.length + 1 = t.desc.fmt.tileRows then some (at_ + 1 + (if t.transposed then 4 else 0)) else none }

/-- The shadow tile of a core replaced, where it still has one. -/
def State.setShadow (s : State) (n : Nat) (t : Tile) : State :=
  s.onCore n (fun c => { c with arr := { c.arr with shadow := if c.arr.shadow.isSome then some t else none } })

/-- The tile loader's one try in its next CCLK, once that has passed: it takes the next row, waits for its slot, or loses the bank and
retries (R78, R192). -/
def State.loaderStep (s : State) (n : Nat) : State :=
  let c := s.core n
  match c.arr.shadow with
  | none => s
  | some t =>
    if t.completeAt.isSome || decide (c.cclk ≤ t.at_) then s
    else
      match s.loaderNext n t with
      | none => s.setShadow n { t with at_ := t.at_ + 1 }
      | some (row, sa) =>
        if c.loaderLoses t.at_ (bankOf row) then
          (s.bump (.sill n) (0x200 + 0x40 * bankOf row + 0x10)).setShadow n { t with at_ := t.at_ + 1 }
        else
          let (s1, bytes) := s.loaderRead n t (rowAddr n row) 512
          let (s2, sc) := if t.desc.scaleBytes = 0 then (s1, []) else s1.loaderRead n t sa t.desc.scaleBytes
          ((s2.loaderFree n t).onCore n (fun c => { c with busy := ⟨t.at_, bankOf row, true⟩ :: c.busy.filter (fun b => decide (t.at_ ≤ b.at_)) })).setShadow n
            (t.withRow t.at_ (bytes, sc))

/-- The loader's tries of a number of CCLK. -/
def State.loaderRun (s : State) (n : Nat) : Nat → State
  | 0 => s
  | k + 1 => State.loaderRun (s.loaderStep n) n k

/-! ### LD.STAGE -/

/-- Rows, with the address of each row's scales, that an LD.STAGE in ROWS or TRANSPOSED mode reads. -/
def State.stageRows (s : State) (n : Nat) (loc : BitVec 14) (d : TDesc) (rows : Nat) : List (Nat × Nat) :=
  (s.placeRows n loc rows false).zipIdx.map (fun r => (r.1, s.scaleAddrOf n loc false d r.2))

/-- Scheduled reads of rows with their scale bytes, plain rows or those of a slot. -/
def State.readRows (s : State) (n : Nat) (plain : Bool) (d : TDesc) : List (Nat × Nat) → State × List (List Byte × List Byte)
  | [] => (s, [])
  | (r, sa) :: rest =>
    let (s1, bs) := s.dataRead n plain (rowAddr n r) 512
    let (s2, sc) := if d.scaleBytes = 0 then (s1, []) else s1.dataRead n plain sa d.scaleBytes
    let (s3, more) := State.readRows s2 n plain d rest
    (s3, (bs, sc) :: more)

/-- Vector m of a patch set (R74, R81). -/
def setVec (f : EFmt) (set : List (List Byte × List Byte)) (m : Nat) : SVec :=
  ⟨set.flatMap (fun r => patchCodes f r.1 m), if f.scaleBytes = 0 then [] else set.map (fun r => (r.2.map BitVec.toNat).getD m 0)⟩

/-- A zero vector (R84). -/
def zeroVec (f : EFmt) : SVec := ⟨List.replicate (32 * f.blocks) 0, if f.scaleBytes = 0 then [] else List.replicate f.blocks 0⟩

/-- A window-list entry that LD.STAGE accepts for a format (R139, Table 3.6): no reserved bit; unless it is PAD, a patch row of the format
and rows within the sill. An entry with a reserved bit or such a patch row is an encoding fault (log 109). -/
def winEntryOk (f : EFmt) (e : Nat) : Bool :=
  fld e 30 18 == 0 && (bitAt e 31 || (decide (fld e 17 13 < f.patchRows) && decide (fld e 12 0 + f.patchSet ≤ 8192)))

/-- Distinct new rows that a window group reads, in order of first use: every ROW other than the carried set's (R85). -/
def newSets (carried : Option Nat) (es : List Nat) : List Nat :=
  ((es.filter (fun e => !bitAt e 31)).map (fun e => fld e 12 0)).foldl
    (fun acc r => if carried == some r || acc.contains r then acc else acc ++ [r]) []

/-- Whether the scale bytes of plain rows lie where an operation may have them (R75): SCALE_ADDR aligned in the own sill, and the bytes
of every row in it. -/
def TDesc.scalesOk (d : TDesc) (n : Nat) (rows : List Nat) : Bool :=
  d.scaleBytes == 0 || (d.scaleAddr % 512 == 0 && decide (sillBase n ≤ d.scaleAddr) &&
    rows.all (fun r => decide (d.scaleAddr + d.scaleBytes * (r + 1) ≤ sillBase n + 0x400000)))

/-- The place of a window-list ring. -/
def winLoc (wslot : BitVec 10) : BitVec 14 := BitVec.ofNat 14 (0x2000 + wslot.toNat)
/-- What a window list counts as for the checks of its ring: rows without scales. -/
def winDesc : TDesc := ⟨.bf16, 0, false, 0, 0, 0, 0⟩

/-- The rows of patch sets in plain rows, with the addresses of their scales. -/
def setRows (d : TDesc) (sets : List Nat) : List (Nat × Nat) :=
  sets.flatMap (fun r => (fromN r d.fmt.patchSet).map (fun x => (x, d.scaleAddr + d.scaleBytes * x)))

/-- Fill time of an LD.STAGE (R81, R85, Table 5.11) without the read latency: ROWS, WINDOW or TRANSPOSED. -/
def EFmt.fillTime (f : EFmt) (mode nsets : Nat) : Nat :=
  if mode = 0 then f.patchSet / 2 else if mode = 1 then nsets * (f.patchSet / 2) else f.transRows / 2

/-- The vectors of a window group (R84, R85). -/
def winVecs (f : EFmt) (es : List Nat) (setOf : Nat → List (List Byte × List Byte)) : List SVec :=
  es.map (fun e => if bitAt e 31 then zeroVec f else setVec f (setOf (fld e 12 0)) (fld e 17 13))

/-- LD.STAGE (R81 to R85, R87, R88). In TRANSPOSED mode the operation names no tensor row: rows meet the channel list from row 0
(log 110). -/
def evalStage (s : State) (n : Nat) (half : Bool) (loc : BitVec 14) (adesc : BitVec 6) (mode nsetsM1 : BitVec 2) (wslot : BitVec 10) : Eval :=
  let s := if mode = 1 then s.early n wslot.toNat else s.earlyAt n loc
  let (dc, d) := s.descOf n adesc.toNat
  let (cc, chan) := s.chanOf n d
  let f := d.fmt
  let c := s.core n
  let t := c.cclk
  let a := s.areg n adesc.toNat
  let w := mode.toNat
  let h := if half then c.arr.s1 else c.arr.s0
  let rows := if w = 2 then f.transRows else f.patchSet
  let wlen := sRows (s.slot n wslot.toNat)
  let wrow := sBuf (s.ringSlot n wslot.toNat (sCons (s.slot n wslot.toNat)))
  let es := (chunks 4 (s.seen n (rowAddr n wrow) (4 * f.patchRows))).map leNat
  let sets := newSets (c.arr.carried.map PatchSet.row) es
  let nsets := nsetsM1.toNat + 1
  let waits := if w = 1 then s.placeHold n (winLoc wslot) wlen false winDesc else s.placeHold n loc rows false d
  let srows : List (Nat × Nat) := if w = 1 then setRows d sets else s.stageRows n loc d rows
  let srcRows := srows.map Prod.fst
  let scaleRows := if d.scaleBytes = 0 then [] else (srows.map (fun r => rowOf r.2)).eraseDups
  let reads := srcRows.zipIdx.map (fun r => (t + 1 + r.2 / 2, r.1)) ++ scaleRows.zipIdx.map (fun r => (t + 1 + r.2, r.1))
  let uses := (t, bankOf (rowOf a)) :: ((if w = 1 then [(t, bankOf wrow)] else []) ++ reads.map (fun r => (r.1, bankOf r.2)))
  let fill := f.fillTime w nsets + farLat ((if w = 1 then [wrow] else []) ++ srcRows ++ scaleRows)
  let (s1, got) := ((s.schedRead n a 64).1.readChan n d).readRows n (w == 1 || plainLoc loc) d srows
  let s2 := if w = 1 then (s1.schedRead n (rowAddr n wrow) 512).1.takeSlots n (winLoc wslot) wlen winDesc (fun _ => t) (fun _ => t)
    else s1.takeSlots n loc rows d (fun r => t + 1 + r / 2) (fun r => t + 1 + r)
  let setOf (r : Nat) : List (List Byte × List Byte) :=
    match sets.idxOf? r with
    | some i => (got.drop (i * f.patchSet)).take f.patchSet
    | none => (c.arr.carried.map PatchSet.rows).getD []
  let vecs : List SVec :=
    if w = 0 then (List.range f.patchRows).map (setVec f got)
    else if w = 1 then winVecs f es setOf
    else (transCols d chan 0 got).map (fun k => ⟨k.codes, k.scales⟩)
  let st : Stage := { fmt := f, t := d.t, vecs := vecs, reads := reads, fillAt := t + fill, freeAt := 0, order := c.arr.stageCount }
  { enc := firstCode [need 1 (decide (w ≠ 3)), dc, need 2 (f != .fp32), need 2 (w == 2 || !d.priv), cc,
      if w = 1 then need 1 (s.placeOk n (winLoc wslot) wlen false winDesc) else need 1 (s.placeOk n loc rows false d),
      if w = 1 && waits.isEmpty then
        firstCode [need 1 (es.all (winEntryOk f)), need 2 (decide (sets.length ≤ nsets)), need 1 (d.scalesOk n srcRows)] else 0]
    slots := waits
    ring := if w = 1 then some wslot.toNat else match placeOf loc with
      | .ring r => some r
      | .rows _ => none
    half := some (if half then 1 else 0)
    uses := uses
    timing := need 3 (h.vecs.isEmpty && decide (h.freeAt ≤ t))
    run := s2.onCore n (fun c => { c with arr :=
      { c.arr with
        s0 := if half then c.arr.s0 else st
        s1 := if half then st else c.arr.s1
        stageCount := c.arr.stageCount + 1
        carried := if w = 1 then (match sets.getLast? with
          | some r => some ⟨r, setOf r⟩
          | none => c.arr.carried) else c.arr.carried } }) }

/-- A staged vector that no rule states. -/
def freeVec (k : Nat) (v : SVec) : SVec :=
  ⟨v.codes.zipIdx.map (fun e => (Config.freeValue (k + e.2)).toNat % 256),
   v.scales.zipIdx.map (fun e => (Config.freeValue (k + 2048 + e.2)).toNat % 256)⟩

/-- A store lands in rows, in a CCLK, that an LD.STAGE which issued before has still to read: what the half and the carried set take from
them is free (R194, log 111). -/
def State.ruffle (s : State) (n : Nat) (rows : List Nat) (at_ : Nat) : State :=
  let late (h : Stage) : Bool := h.reads.any (fun r => rows.contains r.2 && decide (at_ < r.1))
  let a := (s.core n).arr
  if late a.s0 || late a.s1 then
    let blur (h : Stage) (k : Nat) : Stage :=
      if late h then { h with vecs := h.vecs.zipIdx.map (fun v => freeVec (s.free + k + 4096 * v.2) v.1) } else h
    ({ s with free := s.free + 2 ^ 19 } : State).onCore n (fun c => { c with arr := { c.arr with
      s0 := blur c.arr.s0 0
      s1 := blur c.arr.s1 (2 ^ 17)
      carried := c.arr.carried.map (fun p => { p with rows := p.rows.zipIdx.map (fun r =>
        (freeBytes (s.free + 2 ^ 18 + 1024 * r.2) r.1.1.length, freeBytes (s.free + 2 ^ 18 + 1024 * r.2 + 512) r.1.2.length)) }) } })
  else s

/-! ### ARR.MUL and ARR.SWAP -/

/-- The iteration index of the innermost active loop (R149). -/
def Core.iter (c : Core) : Nat := (c.loops.headD ⟨0, 0, 0, 0⟩).index
/-- The accumulator row that an operation uses (R149). -/
def Core.accRow (c : Core) (row : BitVec 12) (iter : Bool) : Nat := (row.toNat + (if iter then c.iter else 0)) % 4096

/-- The oldest filled staging half (R82): which, and its contents. -/
def Core.oldest (c : Core) : Option (Bool × Stage) :=
  let ok (h : Stage) : Bool := !h.vecs.isEmpty && decide (h.fillAt ≤ c.cclk)
  match ok c.arr.s0, ok c.arr.s1 with
  | true, true => some (if c.arr.s0.order ≤ c.arr.s1.order then (false, c.arr.s0) else (true, c.arr.s1))
  | true, false => some (false, c.arr.s0)
  | false, true => some (true, c.arr.s1)
  | false, false => none

/-- A 32-bit word of a signed integer. -/
def toI32 (v : Int) : W32 := BitVec.ofNat 32 (v % 2 ^ 32).toNat
/-- The exact integer of an INT8-mode result. -/
def numInt (x : Num) : Int := roundInt x
/-- INT32 addition saturating at ±(2^31 − 1) (R89). -/
def satAdd (a b : Int) : Int × Bool :=
  let v := a + b
  if v > 2 ^ 31 - 1 then (2 ^ 31 - 1, true) else if v < -(2 ^ 31 - 1) then (-(2 ^ 31 - 1), true) else (v, false)

/-- An accumulator row after an ARR.MUL (R89). Its readiness is that of the last ARR.MUL, whatever earlier update is still in flight (R90,
log 112). -/
def accumulate (old : AccRow) (int8 add : Bool) (ys : List Num) (ready : Nat) : AccRow × Nat :=
  if int8 then
    let sums := (old.vals.zip ys).map (fun p => if add then satAdd p.1.toInt (numInt p.2) else (numInt p.2, false))
    ({ vals := sums.map (fun p => toI32 p.1), sat := (add && old.sat) || sums.any Prod.snd, int8 := true, readyAt := ready },
      sums.countP Prod.snd)
  else
    ({ vals := (old.vals.zip ys).map (fun p => if add then fl ((val32 p.1).add p.2) else fl p.2)
       sat := add && old.sat, int8 := false, readyAt := ready }, 0)

/-- An uncorrectable entry met in the accumulator bank (R99). -/
def State.accFault (s : State) (n r : Nat) (job : Option Nat) : State :=
  (s.fault 1 0x40 job (Page.core n).unit (if job.isSome then 1 else 0) (natLe 8 r ++ natLe 1 0 ++ natLe 1 0x10) 1).tearJob job 1

/-- The factor set latched for the active tile, as a mask (R91). -/
def Arr.setBit (a : Arr) : Nat :=
  match a.fset with
  | some k => 2 ^ k
  | none => 0

/-- Whether an ST.OUT of a row under a factor set writes unpredictable values: the set is not one latched for the tiles whose
results the row holds (R91, log 103), or a mismatch was let pass (R100, log 26). -/
def Arr.unsure (a : Arr) (row set : Nat) : Bool :=
  a.loose || (let m := (tget {} a.acc row).sets; m != 0 && !bitAt m set)

/-- 32 words that no rule states (R7, log 8). -/
def freeRow (k : Nat) : List W32 := (List.range 32).map (fun i => Config.freeValue (k + i))

/-- ARR.MUL (R72, R73, R76, R82, R89, R95); bad: with ADD, the row read is uncorrectable (R99, log 26). The vector count since the swap
that the checker records counts the vector itself (R100, log 113). -/
def evalMul (s : State) (n : Nat) (add iter : Bool) (row : BitVec 12) (bad : Bool := false) : Eval :=
  let c := s.core n
  let t := c.cclk
  let fmtCode : Nat := match c.arr.active, c.oldest with
    | none, _ => 3
    | _, none => 3
    | some tile, some (_, h) => if modesMatch tile.desc.fmt h.fmt then need 3 (decide (c.arr.nextAt ≤ t)) else 2
  let run : State := match c.arr.active, c.oldest with
    | some tile, some (which, h) =>
      let int8 := tile.desc.fmt == .int8
      let bf := tile.desc.fmt == .bf16
      let outs := throughTile tile h.fmt (h.vecs.headD ⟨[], []⟩)
      let ys := (outs.take 32).map Prod.fst
      let r := c.accRow row iter
      let hit := add && bad
      let old := tget {} c.arr.acc r
      let old := if hit then { old with vals := freeRow s.free } else old
      let (acc, sats) := accumulate old int8 add ys (t + (if bf then 132 else 36))
      let acc := { acc with sets := (if add then old.sets else 0) ||| c.arr.setBit }
      let left := h.vecs.drop 1
      let h' : Stage := { h with vecs := left, freeAt := if left.isEmpty then t + 1 else h.freeAt }
      let e : ChkEnt := { probe := false, int8 := int8, y := ys, c := (outs.getD 32 (.nan, 0)).1, sums := []
                          bounds := outs.map Prod.snd, tileSeq := c.arr.tileSeq, vec := c.arr.vecs + 1
                          at_ := t + (if bf then 131 else 35) }
      let s' : State := ((s.bump (.array n) 0x40).bump (.array n) 0x68 sats).onCore n (fun c => { c with
        cur := { c.cur with acc := c.cur.acc ++ [(r, acc)] }
        arr := { c.arr with
          s0 := if which then c.arr.s0 else h'
          s1 := if which then h' else c.arr.s1
          chkQ := c.arr.chkQ ++ [e]
          vecs := c.arr.vecs + 1
          nextAt := t + (if bf then 4 else 1) } })
      if hit then ({ s' with free := s.free + 32 } : State).accFault n r c.job else s'
    | _, _ => s
  { holds := s.arrayHolds n, timing := fmtCode, run := run }

/-- The probe row of a tile that is or becomes the active one, its result set at a CCLK (R98, R104, Table 3.5). -/
def probeEntry (tile : Tile) (seq t : Nat) : ChkEnt :=
  let f := tile.desc.fmt
  let outs := throughTile tile f (probeVec f)
  { probe := true, int8 := f == .int8, y := (outs.take 33).map Prod.fst, c := .nan, sums := colSums f tile.cols
    bounds := outs.map Prod.snd, tileSeq := seq, vec := 0, at_ := t + (if f == .bf16 then 131 else 35) }

/-- ARR.SWAP (R77, R79, R80, R91, R98). -/
def evalSwap (s : State) (n : Nat) (fset : BitVec 2) (adesc : BitVec 6) : Eval :=
  let (dc, d) := s.descOf n adesc.toNat
  let c := s.core n
  let t := c.cclk
  let a := s.areg n adesc.toNat
  let ready := match c.arr.shadow with
    | some x => (match x.completeAt with
      | some k => decide (k ≤ t)
      | none => false)
    | none => true
  let run : State := match c.arr.shadow with
    | none => s
    | some tile =>
      let f := tile.desc.fmt
      let fa := if d.fmt == .int8 then d.t else fOne
      let fs := tile.cols.map (fun k => fl ((val32 k.fw).mul (val32 fa)))
      (((s.schedRead n a 64).1.bump (.array n) 0x48).setPreg (.array n) 0x108 (c.arr.tileSeq + 1)).onCore n (fun c =>
        { c with arr := { c.arr with
          active := some tile, shadow := none, shadowFreeAt := t + 1
          fsets := tset c.arr.fsets fset.toNat fs
          fset := some fset.toNat
          chkQ := c.arr.chkQ ++ [probeEntry tile (c.arr.tileSeq + 1) t]
          tileSeq := c.arr.tileSeq + 1, vecs := 0
          nextAt := t + (if f == .bf16 then 4 else 1) } })
  { enc := dc
    holds := s.arrayHolds n ++ (if ready then [] else [5])
    uses := [(t, bankOf (rowOf a))]
    timing := need 3 (c.arr.shadow.isSome && decide (c.arr.nextAt ≤ t))
    run := run }

/-! ### Statistics, non-finite counting -/

/-- Kinds of unit that keep statistics (R61). -/
def kindArray : Nat := 1
@[inherit_doc kindArray] def kindVector : Nat := 2
@[inherit_doc kindArray] def kindBench : Nat := 3

/-- The kind of unit that a record at an address belongs to once one of a kind writes it over old bytes: a cleared record begins a new
period, and kind 0 stands for two kinds in one (R60, R61, log 105). -/
def State.recordKind (s : State) (a kind : Nat) (old : List Byte) : Nat :=
  if (Stats.ofBytes old) == ({} : Stats) then kind
  else match tfind s.recs a with
    | some k => if k = kind then kind else 0
    | none => kind

/-- A record's bytes once a pass is combined into it (R59, R60); of two kinds in one period they are unpredictable (R61). -/
def State.recordBytes (s : State) (a kind : Nat) (old : List Byte) (st : Stats) : List Byte :=
  if s.recordKind a kind old = kind then ((Stats.ofBytes old).join st).bytes else freeBytes s.free 32

/-- A record's kind noted, and the free values that its bytes take used. -/
def State.recordMark (s : State) (a kind : Nat) (old : List Byte) : State :=
  { s with recs := tset s.recs a (s.recordKind a kind old), free := s.free + (if s.recordKind a kind old = kind then 0 else 32) }

/-- A write of bytes that a descriptor names in any quarry or sill of the job (R141), and its status. -/
def State.farWrite (s : State) (n a : Nat) (bs : List Byte) : State × Nat :=
  match s.coreEnter n a bs.length .write with
  | (s, 0) =>
    if a < quarryEnd then
      let job := (s.core n).job
      match s.quarryWrite (a / quarrySize) a bs (if quarryOf a = some n then 0 else 1) job 1 with
      | (s, st) => (if st = 0x40 then s.tearJob job 1 else s, st)
    else (s.putRow a bs, 0)
  | (s, st) => (s, st)

/-- A pass of core n combined into its record of a statistics array (R59, R60). An array at an address that the program may not reach
is a program fault, and nothing is written (R20, R247). -/
def State.coreStats (s : State) (n addr kind : Nat) (st : Stats) : State :=
  let a := addr + 32 * n
  let refuse (s : State) (x : Nat) : State :=
    if x = 0 ∨ x = 0x40 then s
    else s.progFault (s.core n).job (Page.core n).unit x n (s.core n).pc (statusCheck x) 0xFF a
  match s.farRead n a 32 with
  | (s, old, 0) =>
    match (s.recordMark a kind old).farWrite n a (s.recordBytes a kind old st) with
    | (s, x) => refuse s x
  | (s, _, x) => refuse s x

/-- The non-finite monitor (R433): an increase of a counter of the running job's cores or quarries. -/
def State.nonfinite (s : State) (job : Option Nat) (unit who : Nat) : State :=
  if bitAt (s.preg .fault 0x100) 0 && !bitAt s.dsw.events evNonfinite then
    (s.event evNonfinite).fault 4 0 job unit 0 (natLe 2 0xFFFF ++ natLe 1 0 ++ zeros 1 ++ natLe 4 0 ++ natLe 4 0 ++ natLe 2 who)
  else s

/-- Elements counted non-finite by a core (R432, R433). -/
def State.countNonfinite (s : State) (n k : Nat) : State :=
  if k = 0 then s else (s.bump (.core n) 0x70 k).nonfinite (s.core n).job (Page.core n).unit n

/-! ### ST.OUT -/

/-- A row of FP32 values as the output stage takes it (R92): converted by its tag, multiplied by its factors. -/
def outValues (r : AccRow) (fs : List W32) : List W32 :=
  (r.vals.zip fs).map (fun p =>
    let x := if r.int8 then fl (.ofInt p.1.toInt 0) else p.1
    if p.2 = fOne then x else fmul x p.2)

/-- The bytes of a patch from its drained rows, unused positions zero (R74, R92). -/
def patchBytes (f : EFmt) (rows : List (List Nat)) : List Byte := fitTo 512 (rows.flatMap f.bytesOf)

/-- The scale bytes that the output stage holds, by address, with one more or one replaced (R92). -/
def holdScale (held : List (Nat × Nat)) (a v : Nat) : List (Nat × Nat) := held.filter (fun e => e.1 != a) ++ [(a, v)]

/-- The scale rows that the output stage writes (R75, R92): those of which it holds every byte, or all of them at a FLUSH. -/
def fullScaleRows (held : List (Nat × Nat)) (flush : Bool) : List Nat :=
  ((held.map (fun e => e.1 / 512)).eraseDups).filter (fun r => flush || decide (512 ≤ held.countP (fun e => e.1 / 512 == r)))

/-- Those scale rows written. -/
def State.putScales (s : State) (n : Nat) (plain : Bool) (held : List (Nat × Nat)) (rows : List Nat) : State :=
  rows.foldl (fun (s : State) r =>
    match s.storeBytes n plain (512 * r) ((List.range 512).map (fun i => BitVec.ofNat 8 ((tfind held (512 * r + i)).getD 0))) with
    | (s, line) => s.put (512 * r) line) s

/-- From here on the values that core n's array writes are unpredictable (R100). -/
def State.loosen (s : State) (n : Nat) : State := s.onCore n (fun c => { c with arr := { c.arr with loose := true } })

/-- A mismatch recorded in the array page, counted, reported and acted on (R100). -/
def State.arrayMismatch (s : State) (n : Nat) (e : ChkEnt) (kind ctr col eref : Nat) (a b : W32) : State :=
  let job := (s.core n).job
  let tear := !bitAt (s.preg (.array n) 0x100) 2
  let s := (((s.setPreg (.array n) 0x118 (eref % 256 * 2 ^ 16 + (if kind = 2 then 2 else 1) * 2 ^ 6 + col)).setPreg (.array n) 0x10C e.vec).setPreg
    (.array n) 0x110 a.toNat).setPreg (.array n) 0x114 b.toNat
  let s := (s.bump (.array n) ctr).setPreg (.array n) 0x104 (s.preg (.array n) 0x104 ||| (if kind = 2 then 8 else 4))
  let s := s.fault 2 0 job (Page.core n).unit (if tear && job.isSome then 1 else 0)
    (natLe 1 kind ++ natLe 1 col ++ natLe 1 eref ++ natLe 1 0 ++ natLe 4 e.tileSeq ++ natLe 4 e.vec ++ natLe 4 a.toNat ++ natLe 4 b.toNat)
  if tear then s.tearJob job 2 else s.loosen n

/-- The output stage's two conversions differ, which counts as a checksum mismatch (R99, R100): E_ref and the compared values
of such an event are not stated, and are free (log 26). -/
def State.stageDiffers (s : State) (n : Nat) : State :=
  let a := (s.core n).arr
  let e : ChkEnt := { probe := false, int8 := false, y := [], c := .nan, sums := [], bounds := [], tileSeq := a.tileSeq, vec := a.vecs, at_ := 0 }
  let f := fun (i : Nat) => Config.freeValue (s.free + i)
  ({ s with free := s.free + 3 } : State).arrayMismatch n e 4 0x58 0 ((f 0).toNat % 256) (f 1) (f 2)

/-- ST.OUT (R90, R92). The values are free where an error of the row or of the stage itself is met, after a mismatch that
ACTION 1 let pass, and where FSET names another set than the row's (R91, R99, R100, log 26). -/
def evalOut (s : State) (n : Nat) (row : BitVec 12) (fset : BitVec 2) (odesc : BitVec 6) (loc : BitVec 14) (flush iter : Bool) (u : OutUpset) : Eval :=
  let s := s.earlyAt n loc
  let (dc, d) := s.descOf n odesc.toNat
  let (cc, chan) := s.chanOf n d
  let c := s.core n
  let t := c.cclk
  let a := s.areg n odesc.toNat
  let r := c.accRow row iter
  let acc := tget {} c.arr.acc r
  let p := d.fmt.patchRows
  let mixed := match c.arr.patch with
    | some x => x.desc != a || x.loc != loc.toNat
    | none => false
  let prior := match c.arr.patch with
    | some x => x.rows
    | none => []
  let last := prior.length + 1 == p || flush
  let dstRow := (s.placeRows n loc 1 true).headD 0
  let sbase := s.scaleAddrOf n loc true d 0
  let scaled := d.scaleBytes != 0
  let hold (scale : Nat) : List (Nat × Nat) :=
    if scaled then
      let held := holdScale c.arr.scales (sbase + prior.length) scale
      if last then (fromN (prior.length + 1) (p - (prior.length + 1))).foldl (fun h m => holdScale h (sbase + m) 0) held else held
    else c.arr.scales
  let scaleRows := if last then fullScaleRows (hold 0) flush else []
  let run : State :=
    let s1 := (s.schedRead n a 64).1.readChan n d
    let loose := u != .none || c.arr.unsure r fset.toNat
    let xs := if loose then freeRow s1.free else outValues acc (tget (List.replicate 32 fOne) c.arr.fsets fset.toNat)
    let s1 : State := if loose then { s1 with free := s1.free + 32 } else s1
    let q := quantBlock d (d.priv && chan.contains r) xs
    let rows := prior ++ [q.elems.map Conv.code]
    let st0 := statsOf (32 * r) xs q.elems
    let st : Stats := { st0 with sat := st0.sat + (if acc.sat then 32 else 0) }
    let s2 := (s1.coreStats n d.statsAddr kindArray st).countNonfinite n st.nonfin
    let held := hold q.scale
    if last then
      let (s3, line) := s2.storeBytes n (plainLoc loc) (rowAddr n dstRow) (patchBytes d.fmt rows)
      let s4 := (s3.put (rowAddr n dstRow) line).putScales n (plainLoc loc) held scaleRows
      let landed := dstRow :: scaleRows.map (fun r => rowOf (512 * r))
      (((s4.fillSlots n loc 1 d (t + 4)).soak n landed (t + 5)).ruffle n landed (t + 4)).onCore n (fun c => { c with arr := { c.arr with
        patch := none, scales := held.filter (fun e => !scaleRows.contains (e.1 / 512)) } })
    else
      s2.onCore n (fun c => { c with arr := { c.arr with patch := some ⟨a, loc.toNat, rows⟩, scales := held } })
  let upsetRun (s : State) : State := match u with
    | .none => s
    | .accUncorrectable => s.accFault n r c.job
    | .stageDiffers => s.stageDiffers n
  { enc := firstCode [dc, cc, need 1 (s.placeOk n loc 1 true d), need 2 (!mixed)]
    slots := s.placeHold n loc 1 true d
    ring := match placeOf loc with
      | .ring h => some h
      | .rows _ => none
    uses := (t, bankOf (rowOf a)) :: (if last then (t + 4, bankOf dstRow) :: scaleRows.map (fun r => (t + 4, bankOf (rowOf (512 * r)))) else [])
    timing := need 3 (decide (acc.readyAt ≤ t))
    run := upsetRun run }

/-! ### The checker -/

/-- Difference of two values exceeds a tolerance in ULPs of a biased exponent (R96, R98). -/
def exceeds (a b : Num) (tol eref : Nat) : Bool :=
  ((Num.fin false tol 0).mul (pow2 ((max 1 eref : Nat) - 150))).lt (a.add b.neg).abs

/-- The outputs as the checker sees them: one column changed on its way. -/
def withUpset (ys : List Num) : ChkUpset → List Num
  | .column j v => ys.set j.toNat (val32 v)
  | _ => ys

/-- A vector's checksum comparison (R96, R99, R100). -/
def State.checkVector (s : State) (n : Nat) (e : ChkEnt) (u : ChkUpset) : State :=
  let ys := withUpset (e.y ++ [e.c]) u
  let y := ys.take 32
  let c := ys.getD 32 .nan
  let sum := sumNum y
  let eref := max 1 (maxOf e.bounds)
  let ctl := s.preg (.array n) 0x100
  if u = .pathParity then s.arrayMismatch n e 3 0x58 0 eref (fl c) (fl sum)
  else if !bitAt ctl 0 then s
  else if e.int8 then (if sum.eqv c then s else s.arrayMismatch n e 1 0x58 0 eref (fl c) (fl sum))
  else if !(y.all Num.isFin && c.isFin) then s.bump (.array n) 0x50
  else if exceeds c sum (fld ctl 27 16) eref then s.arrayMismatch n e 1 0x58 0 eref (fl c) (fl sum)
  else s

/-- A probe row's comparison, column by column (R98, R100). Of a path-parity error met on a probe row the compared values are recorded as 0
(log 26). -/
def State.checkProbe (s : State) (n : Nat) (e : ChkEnt) (u : ChkUpset) : State :=
  let ys := withUpset e.y u
  let ctl := s.preg (.array n) 0x100
  let cols := (List.range 33).map (fun j => (j, ys.getD j .nan, e.sums.getD j .nan, max 1 (e.bounds.getD j 0)))
  let skip := if e.int8 then 0 else cols.countP (fun p => !(p.2.1.isFin && p.2.2.1.isFin))
  let bad (p : Nat × Num × Num × Nat) : Bool :=
    if e.int8 then !(p.2.1.eqv p.2.2.1)
    else p.2.1.isFin && p.2.2.1.isFin && exceeds p.2.1 p.2.2.1 (fld ctl 15 8) p.2.2.2
  if u = .pathParity then s.arrayMismatch n e 3 0x58 0 (max 1 (maxOf e.bounds)) 0 0
  else if !bitAt ctl 1 then s
  else
    let s := s.bump (.array n) 0x50 skip
    match cols.find? bad with
    | some p => s.arrayMismatch n e 2 0x60 p.1 p.2.2.2 (fl p.2.1) (fl p.2.2.1)
    | none => s

/-- The checker's next result of a kind, once its CCLK has passed (R76, R96, R98, R100); a core that counts no CCLK lets it come at any time. -/
def State.checkNext (s : State) (n : Nat) (probe : Bool) (u : ChkUpset) : State :=
  match (s.core n).arr.chkQ.find? (fun e => e.probe == probe) with
  | none => s
  | some e =>
    if s.counted n && decide ((s.core n).cclk ≤ e.at_) then s
    else
      let s := s.onCore n (fun c => { c with arr := { c.arr with chkQ := removeFirst (fun x => x.probe == probe) c.arr.chkQ } })
      if probe then s.checkProbe n e u else s.checkVector n e u

/-- The checker's results whose CCLK has passed, in order, for as many as wait. -/
def State.checkRun (s : State) (n : Nat) : Nat → State
  | 0 => s
  | k + 1 =>
    match (s.core n).arr.chkQ.find? (fun e => decide (e.at_ < (s.core n).cclk)) with
    | none => s
    | some e => State.checkRun (s.checkNext n e.probe .none) n k

/-! ### What has come due (R29) -/

/-- Nothing of what issued operations do at their fixed times is due before a core's present CCLK: no change of FULL, no try of the tile
loader, no result of the checker. -/
def Core.current (c : Core) : Bool :=
  c.due.all (fun d => decide (c.cclk ≤ d.at_)) &&
  (match c.arr.shadow with
   | some t => t.completeAt.isSome || decide (c.cclk ≤ t.at_)
   | none => true) &&
  c.arr.chkQ.all (fun e => decide (c.cclk ≤ e.at_))

/-- What issued operations do before a core's present CCLK is done (R29, log 114). -/
def State.catchUp (s : State) (n : Nat) : State :=
  if (s.core n).current then s
  else
    let s := s.onCore n Core.land
    let tries := match (s.core n).arr.shadow with
      | some t => (s.core n).cclk - t.at_
      | none => 0
    let s := s.loaderRun n tries
    s.checkRun n (s.core n).arr.chkQ.length

end Sys2Proof.Machine
end

