-- ==== Sys2Proof/Machine/Digest.lean ====
section
/-! DEFINITION. SHAKE256 (R268, R470) and the CRC-32 of IEEE 802.3 (R331), as their standards define them. -/

namespace Sys2Proof.Machine

/-- Rotate a 64-bit lane left. -/
def rotl64 (x : BitVec 64) (n : Nat) : BitVec 64 := x.rotateLeft (n % 64)

/-- Lane (x, y) of a Keccak state of 25 lanes. -/
def keccakLane (s : List (BitVec 64)) (x y : Nat) : BitVec 64 := s.getD (x % 5 + 5 * (y % 5)) 0

/-- The 25 lanes built from a function of (x, y). -/
def lanesOf (f : Nat → Nat → BitVec 64) : List (BitVec 64) :=
  (List.range 25).map (fun i => f (i % 5) (i / 5))

/-- Rotation offset of lane (x, y) of Keccak's rho step. -/
def rhoOff (x y : Nat) : Nat :=
  ([0, 1, 62, 28, 27, 36, 44, 6, 55, 20, 3, 10, 43, 25, 39, 41, 45, 15, 21, 8, 18, 2, 61, 56, 14]).getD (x % 5 + 5 * (y % 5)) 0

/-- The round constants of Keccak-f[1600]. -/
def keccakRc : List (BitVec 64) :=
  [0x0000000000000001#64, 0x0000000000008082#64, 0x800000000000808A#64, 0x8000000080008000#64,
   0x000000000000808B#64, 0x0000000080000001#64, 0x8000000080008081#64, 0x8000000000008009#64,
   0x000000000000008A#64, 0x0000000000000088#64, 0x0000000080008009#64, 0x000000008000000A#64] ++
  [0x000000008000808B#64, 0x800000000000008B#64, 0x8000000000008089#64, 0x8000000000008003#64,
   0x8000000000008002#64, 0x8000000000000080#64, 0x000000000000800A#64, 0x800000008000000A#64,
   0x8000000080008081#64, 0x8000000000008080#64, 0x0000000080000001#64, 0x8000000080008008#64]

/-- One round of Keccak-f[1600]: theta, rho, pi, chi, iota. -/
def keccakRound (s : List (BitVec 64)) (rc : BitVec 64) : List (BitVec 64) :=
  let c (x : Nat) := keccakLane s x 0 ^^^ keccakLane s x 1 ^^^ keccakLane s x 2 ^^^ keccakLane s x 3 ^^^ keccakLane s x 4
  let cs := (List.range 5).map c
  let d (x : Nat) := cs.getD ((x + 4) % 5) 0 ^^^ rotl64 (cs.getD ((x + 1) % 5) 0) 1
  let ds := (List.range 5).map d
  let t := lanesOf (fun x y => keccakLane s x y ^^^ ds.getD x 0)
  let b := lanesOf (fun x y => rotl64 (keccakLane t (x + 3 * y) x) (rhoOff (x + 3 * y) x))
  let e := lanesOf (fun x y => keccakLane b x y ^^^ (~~~(keccakLane b (x + 1) y) &&& keccakLane b (x + 2) y))
  match e with
  | [] => []
  | h :: r => (h ^^^ rc) :: r

/-- The permutation Keccak-f[1600]. -/
def keccakF (s : List (BitVec 64)) : List (BitVec 64) := keccakRc.foldl keccakRound s

/-- XOR one 136-byte block into the state and permute. -/
def absorb (s : List (BitVec 64)) (blk : List Byte) : List (BitVec 64) :=
  let ws := (chunks 8 blk).map (fun b => BitVec.ofNat 64 (leNat b))
  keccakF (s.mapIdx (fun i v => v ^^^ ws.getD i 0))

/-- The bytes of SHAKE256 padding for a message of a length: 0x1F, zeros, 0x80 in the last byte. -/
def shakePad (n : Nat) : List Byte :=
  let k := 136 - n % 136
  if k = 1 then [0x9F#8] else [0x1F#8] ++ zeros (k - 2) ++ [0x80#8]

/-- The state's first 136 bytes. -/
def squeeze (s : List (BitVec 64)) : List Byte := (s.take 17).flatMap (fun w => natLe 8 w.toNat)

/-- The first n bytes (n at most 136) of SHAKE256 of a message. -/
def shake256 (n : Nat) (msg : List Byte) : List Byte :=
  (squeeze ((chunks 136 (msg ++ shakePad msg.length)).foldl absorb (List.replicate 25 0))).take n

/-- A digest of the manual: the first 32 bytes of SHAKE256 (R268, R470). -/
def digest (msg : List Byte) : List Byte := shake256 32 msg

/-- The ASCII string OARIC-IDKEY-1. -/
def idKeyTag : List Byte := [0x4F, 0x41, 0x52, 0x49, 0x43, 0x2D, 0x49, 0x44, 0x4B, 0x45, 0x59, 0x2D, 0x31]

/-- The seed of the identity key, which the ROM derives from the fused SEED (R474). -/
@[irreducible] def idKeySeed : List Byte := shake256 48 (idKeyTag ++ natLe 32 Config.seed.toNat)

/-- The identity public key (R474). -/
def identityKey : List Byte := Config.falconPublic idKeySeed

/-- A signature under the identity key (R478). -/
def identitySign (msg : List Byte) : List Byte := Config.falconSign idKeySeed msg

/-- One bit step of the reflected CRC-32. -/
def crcBit (c : BitVec 32) : BitVec 32 :=
  if c.getLsbD 0 then (c >>> 1) ^^^ 0xEDB88320#32 else c >>> 1

/-- One byte of the reflected CRC-32. -/
def crcByte (c : BitVec 32) (b : Byte) : BitVec 32 :=
  crcBit (crcBit (crcBit (crcBit (crcBit (crcBit (crcBit (crcBit (c ^^^ b.setWidth 32))))))))

/-- The CRC-32 of IEEE 802.3 (R331). -/
def crc32 (bs : List Byte) : BitVec 32 := ~~~(bs.foldl crcByte 0xFFFFFFFF#32)

end Sys2Proof.Machine
end

