-- ==== Sys2Proof/Machine/Control.lean ====
section
/-! DEFINITION. The CONTROL and STREAM lanes (Tables 5.2 and 5.3): loops, skips, lintels, slots, registers, the end of a
core's job, stream issue. A CONTROL operation closes its sub-bundle, after its other lanes. -/

namespace Sys2Proof.Machine

/-! ### Loops and registers -/

/-- The blocks resident or being filled (R151). -/
def Core.blocks (c : Core) : List Nat := (c.h0.map IHalf.block).toList ++ (c.h1.map IHalf.block).toList

/-- CTL.LOOP's new entry (R152): the body begins with the next sub-bundle. -/
def Core.newLoop (c : Core) (last count : Nat) : Loop := ⟨c.pc + 1, c.pc + 1 + last, count, 0⟩

/-- CTL.LOOP (R152, R153). -/
def evalLoop (s : State) (n : Nat) (last : BitVec 11) (count : BitVec 20) : Eval :=
  let c := s.core n
  let all := c.newLoop last.toNat count.toNat :: c.loops
  { enc := need 1 (count != 0 && decide (c.loops.length < 8) &&
      all.all (fun l => c.blocks.contains (l.first / 1024) && c.blocks.contains (l.last / 1024)))
    run := s }

/-- Whether COND of CTL.SKIP holds for a loop's iteration (Table 5.2). -/
def skipCond (l : Loop) (cond : BitVec 2) : Bool :=
  match cond.toNat with
  | 0 => l.index == 0
  | 1 => l.left == 1
  | 2 => l.index != 0
  | _ => l.left != 1

/-- The loop at a level, 0 the outermost (Table 5.2). -/
def Core.loopAt (c : Core) (level : Nat) : Option Loop := c.loops.reverse[level]?

/-- CTL.SKIP's checks (R154): an active LEVEL, COUNT not 0, no active loop's last sub-bundle passed (log 20). -/
def evalSkip (s : State) (n : Nat) (level : BitVec 3) (count : BitVec 11) : Eval :=
  let c := s.core n
  { enc := need 1 ((c.loopAt level.toNat).isSome && count != 0 && c.loops.all (fun l => decide (c.pc + 1 + count.toNat ≤ l.last)))
    run := s }

/-- Sub-bundles that CTL.SKIP passes over (R154). -/
def Core.skips (c : Core) (level : BitVec 3) (cond : BitVec 2) (count : BitVec 11) : Nat :=
  match c.loopAt level.toNat with
  | some l => if skipCond l cond then count.toNat else 0
  | none => 0

/-- CTL.SETA (R140): one half of an address register. -/
def evalSeta (s : State) (n : Nat) (r : BitVec 6) (half : Bool) (imm : BitVec 24) : Eval :=
  let v := s.areg n r.toNat
  let v' := if half then putFld v 47 24 imm.toNat else putFld v 23 0 imm.toNat
  { run := s.onCore n (fun c => { c with areg := tset c.areg r.toNat v' }) }

/-! ### Slots -/

/-- A slot-table entry that CTL.SLOTLD may load (R156, Table 5.8, log 21): bit 20 is 0, AGENT_ID in the range of its
AGENT, a head's positions within its ring. -/
def slotEntryOk (v : Nat) : Bool :=
  !bitAt v 20 &&
  (match sAgent v with
   | 0 => decide (sAgentId v < 160)
   | 1 => decide (sAgentId v < 128 ∨ sAgentId v = 0xFF)
   | 2 => decide (sAgentId v < 32)
   | _ => true) &&
  (!sHead v || (decide (sProd v < sLen v) && decide (sCons v < sLen v)))

/-- CTL.SLOTLD (R156, R171). -/
def evalSlotld (s : State) (n : Nat) (first : BitVec 10) (countM1 : BitVec 6) (row : BitVec 13) : Eval :=
  let k := countM1.toNat + 1
  let a := rowAddr n row.toNat
  let raw := (chunks 8 (s.seen n a (8 * k))).map leNat
  let (s1, bs) := s.schedRead n a (8 * k)
  let got := (chunks 8 bs).map leNat
  { enc := need 1 (decide (first.toNat + countM1.toNat ≤ 1023) && raw.all slotEntryOk)
    uses := [((s.core n).cclk + 1, bankOf row.toNat)]
    run := s1.onCore n (fun c => { c with
      slots := got.zipIdx.foldl (fun t e => tset t (first.toNat + e.2) e.1) c.slots
      slotAt := (fromN first.toNat k).foldl (fun t e => tset t e (c.cclk + latOf row.toNat + 2)) c.slotAt }) }

/-- CTL.SWAIT (R162). -/
def evalSwait (s : State) (n : Nat) (empty : Bool) (head : BitVec 10) : Eval :=
  let s := s.early n head.toNat
  let h := head.toNat
  let v := s.slot n h
  let held := if empty then s.slotFull n h (sProd v) else !s.slotFull n h (sCons v)
  { enc := need 1 (s.ringOk n h && sOut v == empty)
    slots := if held then [s.waitedOn n h 1 empty] else []
    ring := some h
    run := s }

/-- CTL.SDROP (R162). -/
def evalSdrop (s : State) (n : Nat) (countM1 : BitVec 6) (head : BitVec 10) : Eval :=
  let s := s.early n head.toNat
  let h := head.toNat
  let k := countM1.toNat + 1
  let v := s.slot n h
  let held := !s.fullFrom n h (sCons v) k
  { enc := need 1 (s.ringOk n h && !sOut v)
    slots := if held then [s.waitedOn n h k false] else []
    ring := some h
    run := (((List.range k).foldl (fun s i => s.setFull n h (sCons v + i) false) s).advCons n h k).bump (.core n) 0x68 k }

/-! ### Lintels (R163 to R166) -/

/-- The LINTEL message of a phase (Table 11.5). -/
def lintelMsg (key id phase : Nat) : Msg := { kind := 0x11, key := key, data := natLe 8 (phase % 4 * 256 + id) }

/-- A participant arrives (R164); the last local arrival sends the message (R166). -/
def State.arrive (s : State) (n j id : Nat) : State :=
  let s := (s.onLint j id (fun l => { l with arrived := l.arrived ||| 2 ^ n, last := tset l.last n l.phase })).bump (.core n) 0x58
  let l := s.lint j id
  if l.arrived &&& l.mask == l.mask && l.notify != 0xFF then
    s.sendGroup 0 l.notify (lintelMsg (s.keyOf j) id l.phase)
  else s

/-- CTL.ARRIVE; CTL.LINTEL also waits before the next sub-bundle (R164). -/
def evalArrive (s : State) (n : Nat) (id : BitVec 8) (wait : Bool) : Eval :=
  let j := (s.core n).job.getD 0
  let l := s.lint j id.toNat
  { enc := need 1 (l.valid && bitAt l.mask n)
    holds := if bitAt l.arrived n then [4] else []
    lint := some id.toNat
    run :=
      let s' := s.arrive n j id.toNat
      if wait then s'.onCore n (fun c => { c with lintWait := some (id.toNat, l.phase) }) else s' }

/-- CTL.WAIT (R164): the release of the phase in which its core last arrived; of the current phase for a core that never
did. -/
def evalWait (s : State) (n : Nat) (id : BitVec 8) : Eval :=
  let c := s.core n
  let l := s.lint (c.job.getD 0) id.toNat
  let arrivedIn := if bitAt l.mask n then tfind l.last n else none
  let mark : Nat := match arrivedIn, c.waitMark with
    | some p, _ => p
    | none, some (i, p) => if i = id.toNat then p else l.phase
    | none, none => l.phase
  { enc := need 1 l.valid
    holds := if l.phase ≤ mark then [4] else []
    lint := some id.toNat
    mark := some (id.toNat, mark)
    run := s }

/-! ### CTL.END -/

/-- The job ends once every core of it has raised its end flag, and its cores run it no more (R155, R172, R382); during a drain it becomes
ENDED instead of PARKED (R392). -/
def State.jobEnded (s : State) (n : Nat) : State :=
  match (s.core n).job with
  | none => s
  | some j =>
    if (coresOf (s.job j).placed).all (fun k => (s.core k).ended) then
      let s : State := (coresOf (s.job j).placed).foldl (fun (s : State) k => s.onCore k (fun c => { c with running := false })) s
      let s : State := s.onJob j (fun x => { x with st := .ended })
      let s : State := if s.runSlot = some j then { s with runSlot := none, lastSlot := j } else s
      s.post (s.job j).cqEvent 0 0x05 (some j) 0xFFFF 0 (jobDetail 0x10 j 0 0 0 0 0)
    else s

/-! ### The STREAM lane -/

/-- Descriptors that a queue has accepted and not completed (R144). -/
def SQ.count (q : SQ) : Nat := q.run.length + q.pend.length

/-- STR.ISSUE (R144, R203): the queue copies the descriptor whole. A full or stopping queue holds as Slot full (R170, R205). -/
def evalIssue (s : State) (n : Nat) (queue : BitVec 8) (r : BitVec 6) : Eval :=
  let a := s.areg n r.toNat
  let q := s.sq n queue.toNat
  let (s1, bs) := s.schedRead n a 128
  { enc := need 1 (decide (queue.toNat < 160) && inSill n a 128 128)
    holds := if 8 ≤ q.count || q.stopping then [13] else []
    uses := [((s.core n).cclk, bankOf (rowOf a))]
    run := if (s1.core n).job = (s.core n).job then s1.onSq n queue.toNat (fun q => { q with pend := q.pend ++ [bs] }) else s1 }

/-- STR.STOP (R205). -/
def evalStop (s : State) (n : Nat) (queue : BitVec 8) : Eval :=
  { enc := need 1 (decide (queue.toNat < 160)), run := s.stopQueue n queue.toNat }

end Sys2Proof.Machine
end

