-- ==== Sys2Proof/Machine/Special.lean ====
section
/-! DEFINITION. The functions of Table 4.4 (R118). The manual bounds the error of a result and does not state the result: the
function is computed here in fixed point to far below a unit in the last place, and the device's result is one of the FP32 values within
the bound, the same for the same input: which one is open. -/

namespace Sys2Proof.Machine

/-! ### Fixed point: an integer v stands for v / 2^512 -/

/-- One. -/
def fixOne : Nat := 2 ^ 512
/-- A product. -/
def fixMul (a b : Nat) : Nat := a * b / fixOne
/-- A quotient. -/
def fixDiv (a b : Nat) : Nat := a * fixOne / b
/-- A fixed-point number as a value with a sign. -/
def fixNum (neg : Bool) (v : Nat) : Num := .fin neg v (-512)
/-- The magnitude of a finite FP32 value, 512 where it is larger: beyond that no function of Table 4.4 that uses it changes. -/
def fixMag : Num → Nat
  | .fin _ m e => if 9 ≤ (Num.fin false m e).lg then 512 * fixOne else m * 2 ^ (e + 512).toNat
  | _ => 0

/-- An accumulator and k terms, the first given, each later one found from its place and the term before. -/
def series (ratio : Nat → Nat → Nat) : Nat → Nat → Nat → Nat → Nat
  | 0, _, _, acc => acc
  | k + 1, i, t, acc => series ratio k (i + 1) (ratio i t) (acc + t)

/-- z + z³/3 + z⁵/5 + …, for z up to 1/3. -/
def fixAtanh (z : Nat) : Nat :=
  let q := fixMul z z
  ((List.range 170).foldl (fun (acc : Nat × Nat) k => (acc.1 + acc.2 / (2 * k + 1), fixMul acc.2 q)) (0, z)).1

/-- The natural logarithm of 2. -/
def fixLn2 : Nat := 2 * fixAtanh (fixOne / 3)

/-- The arc tangent of 1/n, alternating. -/
def fixAtanInv (n : Nat) : Int :=
  ((List.range 260).foldl (fun (acc : Int × Nat) k =>
    (acc.1 + (if k % 2 = 0 then 1 else -1) * ((acc.2 / (2 * k + 1) : Nat) : Int), acc.2 / (n * n))) (0, fixOne / n)).1

/-- π, by Machin's formula. -/
def fixPi : Nat := (16 * fixAtanInv 5 - 4 * fixAtanInv 239).toNat
/-- The square root. -/
def fixSqrt (v : Nat) : Nat := Nat.sqrt (v * fixOne)

/-- e to a power in [0, 1). -/
def fixExpSmall (r : Nat) : Nat := series (fun i t => fixMul t r / (i + 1)) 120 0 fixOne 0
/-- e to a power. -/
def fixExp (v : Nat) : Nat := fixExpSmall (v % fixLn2) * 2 ^ (v / fixLn2)
/-- e to the negative of a power, which acts as 512 where it is larger. -/
def fixExpNeg (v : Nat) : Nat :=
  let v := min v (512 * fixOne)
  fixExpSmall (fixLn2 - v % fixLn2) / 2 ^ (v / fixLn2 + 1)

/-- The natural logarithm of a positive finite value: sign and magnitude. -/
def fixLn (m : Nat) (e : Int) : Int :=
  let k := Nat.log2 m
  let y := m * fixOne / 2 ^ k
  2 * (fixAtanh (fixDiv (y - fixOne) (y + fixOne)) : Int) + (e + k) * fixLn2

/-- 1/(1 + e^−v), of v or of −v. -/
def fixSigmoid (neg : Bool) (v : Nat) : Nat :=
  let t := fixExpNeg v
  fixDiv (if neg then t else fixOne) (fixOne + t)

/-- e^(−q/2)·(1 + q/3 + q²/(3·5) + …), by which the normal distribution function is 1/2 + x·that of x²/√(2π). -/
def fixBell (q : Nat) : Nat :=
  fixMul (fixExpNeg (q / 2)) (series (fun i t => fixMul t q / (2 * i + 3)) 800 0 fixOne 0)

/-- The error function's magnitude at z; 1 from 13 on. -/
def fixErf (z : Nat) : Nat :=
  if 13 * fixOne ≤ z then fixOne else fixDiv (2 * fixMul z (fixBell (2 * fixMul z z))) (fixSqrt fixPi)

/-- The normal distribution function at x, of x or of −x. -/
def fixPhi (neg : Bool) (x : Nat) : Nat :=
  let h := if 16 * fixOne ≤ x then fixOne / 2 else fixDiv (fixMul x (fixBell (fixMul x x))) (fixSqrt (2 * fixPi))
  if neg then fixOne / 2 - h else fixOne / 2 + h

/-- 2·√(2/π)·(x + 0.044715·x³), of which GELU_TANH takes the sigmoid. -/
def fixGeluArg (x : Nat) : Nat :=
  2 * fixMul (fixSqrt (fixDiv (2 * fixOne) fixPi)) (x + 44715 * fixMul x (fixMul x x) / 1000000)

/-! ### The functions -/

/-- A signed fixed-point number as a value. -/
def fixInt (v : Int) : Num := .fin (v < 0) v.natAbs (-512)

/-- A function of Table 4.4 at a finite value for which the manual bounds the result alone: the value, to far below a unit in the last
place; and the greatest error, in units in the last place. -/
def sfuExact (fn : Nat) (x : Num) : Num × Nat :=
  let neg := x.sign
  let v := fixMag x
  let expOf (v : Nat) : Num := fixNum false (if neg then fixExpNeg v else fixExp v)
  match fn, x with
  | 0, _ => (expOf v, 1)
  | 1, _ => (expOf (fixMul v fixLn2), 1)
  | 2, .fin _ m e => (fixInt (fixLn m e), 1)
  | 3, .fin _ m e => (fixInt (fixLn m e * fixOne / fixLn2), 1)
  | 6, y => ((Num.fin false 1 0).div y.sqrt, 1)
  | 7, _ => (fixNum false (fixSigmoid neg v), 2)
  | 8, _ => (let u := fixExpNeg (2 * v); fixNum neg (fixDiv (fixOne - u) (fixOne + u)), 2)
  | 9, _ => (fixNum neg (fixErf v), 2)
  | 10, y => (y.mul (fixNum false (fixSigmoid neg v)), 3)
  | 11, y => (y.mul (fixNum false (fixPhi neg v)), 3)
  | 12, y => (y.mul (fixNum false (fixSigmoid neg (fixGeluArg v))), 3)
  | _, y => (y, 0)

/-- The value of an FP32 word, an infinity as the next value after the largest finite one. -/
def sfuVal (w : W32) : Num :=
  match val32 w with
  | .inf neg => .fin neg 1 128
  | y => y

/-- Whether a word lies within k units in the last place of a value; the unit is that of the value's binade (R43, Table 2.1). -/
def withinUlp (k : Nat) (a : Num) (w : W32) : Bool := ((sfuVal w).add a.neg).abs.le (.fin false k (max (a.lg - 23) (-149)))

/-- A word within k units in the last place of a value: the nearest, or another of the value's sign where a pick names one. -/
def pickNear (k : Nat) (pick : Nat) (a : Num) : W32 :=
  let b := (fl a).toNat
  let w := BitVec.ofNat 32 (b / 2 ^ 31 * 2 ^ 31 + min 0x7F800000 (b % 2 ^ 31 + pick % (2 * k + 1) - k))
  if withinUlp k a w then w else fl a

/-- The device's fixed value where the manual bounds the result alone (R118, log 10). -/
def sfuBounded (fn : Nat) (w : W32) : W32 :=
  let (a, k) := sfuExact fn (val32 w)
  pickNear k (Config.sfuPick fn w).toNat a

end Sys2Proof.Machine
end

