-- ==== Sys2Proof/Machine/Vector.lean ====
section
/-! DEFINITION. The vector unit (R110 to R124): loads and stores of registers, the operation classes, the scoreboard. -/

namespace Sys2Proof.Machine

/-! ### Registers and masks -/

/-- Lanes of a register. -/
def Vec.reg (x : Vec) (r : Nat) : List W32 := tget (List.replicate 256 0) x.v r
/-- A mask register: M0 reads all ones (R110). -/
def Vec.mask (x : Vec) (m : Nat) : Nat := if m = 0 then 2 ^ 256 - 1 else tget 0 x.m m
/-- A mask register written: M0 ignores writes (R110). -/
def Vec.setMask (x : Vec) (m v ready : Nat) : Vec :=
  if m = 0 then x else { x with m := tset x.m m v, mready := tset x.mready m ready }
/-- A register written, readable at a CCLK. -/
def Vec.setReg (x : Vec) (r : Nat) (ls : List W32) (ready : Nat) : Vec :=
  { x with v := tset x.v r ls, ready := tset x.ready r ready }
/-- Registers and masks without a write in flight at a CCLK (R114). -/
def Vec.idle (x : Vec) (t : Nat) (regs masks : List Nat) : Bool :=
  regs.all (fun r => decide (tget 0 x.ready r ≤ t)) && masks.all (fun m => decide (tget 0 x.mready m ≤ t))
/-- New lanes where a mask has a 1, the old ones elsewhere (R110). -/
def masked (mask : Nat) (old new : List W32) : List W32 :=
  (old.zip new).zipIdx.map (fun p => if bitAt mask p.2 then p.1.2 else p.1.1)

/-- What the vector unit of core n will hold when its sub-bundle closes. -/
def Core.vecNext (c : Core) : Vec := c.cur.vec.getD c.vec
/-- A write of the vector unit, visible from the next sub-bundle (R138). -/
def State.onVec (s : State) (n : Nat) (f : Vec → Vec) : State :=
  s.onCore n (fun c => { c with cur := { c.cur with vec := some (f c.vecNext) } })

/-- The lanes that an operation gives: unpredictable once a mismatch of the duplicate pipelines was let pass (R100, R119). -/
def State.vecLanes (s : State) (n : Nat) (ls : List W32) : List W32 :=
  if (s.core n).vec.loose then ls.zipIdx.map (fun e => Config.freeValue (s.free + e.2)) else ls
/-- The free values that those lanes take used. -/
def State.vecFree (s : State) (n : Nat) : State := if (s.core n).vec.loose then { s with free := s.free + 256 } else s

/-! ### LD.VEC and ST.VEC (R111 to R113) -/

/-- Sill rows of one register. -/
def EFmt.vecRows (f : EFmt) : Nat := if f == .fp32 then 2 else 1
/-- Parts of a row, each of one register (Table 4.2). -/
def EFmt.parts : EFmt → Nat
  | .fp32 | .bf16 => 1
  | .e2m1 => 4
  | _ => 2
/-- Bytes of one register. -/
def EFmt.vecBytes (f : EFmt) : Nat := 8 * f.blockBytes

/-- Whether block k of a part of a register is privileged: not without a list. The manual does not say which tensor rows the vector unit
takes its blocks for, so with one the answer is the part's own, the same at every operation (R107, R113, log 22). -/
def vecPriv (d : TDesc) (chan : List Nat) (part k : Nat) : Bool := d.priv && !chan.isEmpty && Config.vecPriv chan part k

/-- The eight scale bytes of a register's part, one for each block: on a ring without COMP_EN they stand at SCALE_ADDR (log 26). -/
def State.vecScaleAddr (s : State) (n : Nat) (loc : BitVec 14) (outbound : Bool) (d : TDesc) (part : Nat) : Nat :=
  s.scaleAddrOf n loc outbound d 0 + 8 * part

/-- The widened lanes of a register's bytes (R112, R113). -/
def widenLanes (d : TDesc) (chan : List Nat) (part : Nat) (bs : List Byte) (scales : List Nat) : List W32 :=
  (d.fmt.codes bs).zipIdx.map (fun e => widen d (vecPriv d chan part (e.2 / 32)) (scales.getD (e.2 / 32) 0) e.1)

/-- Checks common to LD.VEC and ST.VEC. -/
def State.vecEnc (s : State) (n : Nat) (part : BitVec 2) (loc : BitVec 14) (desc : BitVec 6) (outbound : Bool) : Nat :=
  let (dc, d) := s.descOf n desc.toNat
  firstCode [dc, (s.chanOf n d).1, need 1 (decide (part.toNat < d.fmt.parts)), need 1 (s.placeOk n loc d.fmt.vecRows outbound d)]

/-- Ring named by a LOC. -/
def placeRing (loc : BitVec 14) : Option Nat :=
  match placeOf loc with
  | .ring h => some h
  | .rows _ => none

/-- LD.VEC (R111, R112). -/
def evalLdVec (s : State) (n : Nat) (vreg : BitVec 5) (part : BitVec 2) (loc : BitVec 14) (desc : BitVec 6) : Eval :=
  let s := s.earlyAt n loc
  let d := (s.descOf n desc.toNat).2
  let chan := (s.chanOf n d).2
  let f := d.fmt
  let c := s.core n
  let t := c.cclk
  let a := s.areg n desc.toNat
  let rows := s.placeRows n loc f.vecRows false
  let sa := s.vecScaleAddr n loc false d part.toNat
  let s1 := (s.schedRead n a 64).1.readChan n d
  let (s2, got) := s1.readRows n (plainLoc loc) { d with mode := 0 } (rows.map (fun r => (r, 0)))
  let (s3, sc) := if d.scaleBytes = 0 then (s2, []) else s2.dataRead n (plainLoc loc) sa 8
  let bytes := ((got.flatMap Prod.fst).drop (part.toNat * f.vecBytes)).take f.vecBytes
  let ls := widenLanes d chan part.toNat bytes (sc.map BitVec.toNat)
  let bad := if f == .fp32 then 0 else ls.countP (fun w => !(val32 w).isFin)
  let far := farLat (rows ++ (if d.scaleBytes = 0 then [] else [rowOf sa]))
  { enc := s.vecEnc n part loc desc false
    slots := s.placeHold n loc f.vecRows false d
    ring := placeRing loc
    uses := (t, bankOf (rowOf a)) :: rows.map (fun r => (t + 1, bankOf r))
    timing := need 4 (c.vec.idle t [vreg.toNat] [])
    run := (((s3.takeSlots n loc f.vecRows d (fun _ => t + 1) (fun _ => t + 1)).bump (.vector n) 0x58 bad).countNonfinite n bad).onVec n
      (fun v => v.setReg vreg.toNat ls (t + far + 2)) }

/-- Bytes stored over rows, 512 to a row after the first piece's place. -/
def State.storeRows (s : State) (n : Nat) (plain : Bool) (off : Nat) (bs : List Byte) : List Nat → State
  | [] => s
  | r :: rs =>
    let (s1, b) := s.storeBytes n plain (rowAddr n r + off) (bs.take 512)
    State.storeRows (s1.put (rowAddr n r + off) b) n plain off (bs.drop 512) rs

/-- A scale row rewritten whole with new bytes in it (R75, R183). -/
def State.storeScales (s : State) (n : Nat) (plain : Bool) (sa : Nat) (bs : List Byte) : State :=
  let (s1, line) := s.storeBytes n plain (rowStart sa) (spliceAt (s.bytes (rowStart sa) 512) (sa % 512) bs)
  s1.put (rowStart sa) line

/-- ST.VEC (R112): the converted register, its scale bytes in their scale row, statistics. The manual does not say which
element index the unit records for a non-finite element, so that value is free (log 22). -/
def evalStVec (s : State) (n : Nat) (vreg : BitVec 5) (part : BitVec 2) (loc : BitVec 14) (desc : BitVec 6) : Eval :=
  let s := s.earlyAt n loc
  let d := (s.descOf n desc.toNat).2
  let chan := (s.chanOf n d).2
  let f := d.fmt
  let c := s.core n
  let t := c.cclk
  let a := s.areg n desc.toNat
  let rows := s.placeRows n loc f.vecRows true
  let sa := s.vecScaleAddr n loc true d part.toNat
  let s1 := (s.schedRead n a 64).1.readChan n d
  let xs := c.vec.reg vreg.toNat
  let q := (chunks 32 xs).zipIdx.map (fun b => quantBlock d (vecPriv d chan part.toNat b.2) b.1)
  let elems := q.flatMap (fun b => b.elems)
  let st0 := statsOf 0 xs elems
  let st : Stats := { st0 with first := if st0.nonfin = 0 then st0.first else s1.freeWord.toNat }
  let s2 := (s1.useFree.coreStats n d.statsAddr kindVector st).countNonfinite n st.nonfin
  let s3 := s2.storeRows n (plainLoc loc) (part.toNat * f.vecBytes) (f.bytesOf (elems.map (fun e => e.code))) rows
  let s4 := if d.scaleBytes = 0 then s3 else s3.storeScales n (plainLoc loc) sa (q.map (fun b => BitVec.ofNat 8 b.scale))
  let landed := rows ++ (if d.scaleBytes = 0 then [] else [rowOf sa])
  { enc := s.vecEnc n part loc desc true
    slots := s.placeHold n loc f.vecRows true d
    ring := placeRing loc
    uses := (t, bankOf (rowOf a)) :: rows.map (fun r => (t + 2, bankOf r))
    timing := need 4 (c.vec.idle t [vreg.toNat] [])
    run := ((s4.fillSlots n loc f.vecRows d (t + 2)).soak n landed (t + 3)).ruffle n landed (t + 2) }

/-! ### VEC.ALU (R116) -/

/-- MAX, or MIN: exact, NaN if either input is; of two zeros of different sign, one of them (log 24). -/
def fpick (wantMax : Bool) (a b : W32) : W32 :=
  let x := val32 a
  let y := val32 b
  if x.isNan || y.isNan then fl .nan
  else if x.isZero && y.isZero && a != b then (if Config.zeroSign wantMax a b then 0x80000000#32 else 0#32)
  else if wantMax then (if x.lt y then b else a) else (if y.lt x then b else a)

/-- CMP (R116, Table 5.7): unordered compares false. -/
def fcmp (cond : Nat) (a b : W32) : Bool :=
  let x := val32 a
  let y := val32 b
  match cond with
  | 0 => x.eqv y
  | 1 => !x.isNan && !y.isNan && !x.eqv y
  | 2 => x.lt y
  | 3 => x.le y
  | 4 => y.lt x
  | _ => y.le x

/-- One lane of an ALU operation that gives a value (R116). -/
def aluLane (fn : Nat) (a b c : W32) : W32 :=
  match fn with
  | 0 => fadd a b
  | 1 => fsub a b
  | 2 => fmul a b
  | 3 => ffma a b c
  | 4 => fpick true a b
  | 5 => fpick false a b
  | 6 => fl (val32 a).abs
  | _ => fneg a

/-- A BF16 immediate widened exactly (R116). -/
def immWord (imm : BitVec 16) : W32 := BitVec.ofNat 32 (imm.toNat * 65536)

/-- A lane that an operation passes on: a NaN becomes the canonical one (R118, log 115). -/
def quiet (w : W32) : W32 := if (val32 w).isNan then fl .nan else w

/-- Sources of an ALU function: how many. -/
def aluArity (fn : Nat) : Nat := if fn = 3 then 3 else if fn = 6 ∨ fn = 7 ∨ fn = 0xA then 1 else 2

/-- VEC.ALU (R116). -/
def evalAlu (s : State) (n : Nat) (l : AluLane) : Eval :=
  let c := s.core n
  let t := c.cclk
  let x := c.vec
  let fn := l.fn.toNat
  let k := aluArity fn
  let imm : List W32 := List.replicate 256 (immWord l.imm16)
  let src (i : Nat) (r : BitVec 5) : List W32 := if l.imm && i == k then imm else x.reg r.toNat
  let va := src 1 l.va
  let vb := src 2 l.vb
  let vc := src 3 l.vc
  let regs := ([l.va, l.vb, l.vc].zipIdx.filter (fun p => decide (p.2 < k) && !(l.imm && p.2 + 1 == k))).map (fun p => p.1.toNat)
  let wm := x.mask l.mask.toNat
  let isCmp := fn = 8
  let masks := [l.mask.toNat] ++ (if isCmp then [l.md.toNat] else []) ++ (if fn = 9 then [l.msel.toNat] else [])
  let lanes : List W32 :=
    if fn = 9 then ((va.zip vb).zipIdx.map (fun p => quiet (if bitAt (x.mask l.msel.toNat) p.2 then p.1.1 else p.1.2)))
    else if fn = 0xA then List.replicate 256 (quiet (va.getD l.lane.toNat 0))
    else ((va.zip vb).zip vc).map (fun p => aluLane fn p.1.1 p.1.2 p.2)
  let cmp (i : Nat) : Bool := if x.loose then bitAt (Config.freeValue (s.free + i)).toNat 0 else fcmp l.cond.toNat (va.getD i 0) (vb.getD i 0)
  let bits := (List.range 256).foldl (fun acc i =>
    let b := if bitAt wm i then cmp i else bitAt (x.mask l.md.toNat) i
    if b then acc + 2 ^ i else acc) 0
  { enc := need 1 (decide (fn ≤ 0xA) && (!isCmp || (decide (l.cond.toNat ≤ 5) && l.md != 0)))
    timing := need 4 (x.idle t (regs ++ (if isCmp then [] else [l.vd.toNat])) masks)
    run := ((s.vecFree n).bump (.vector n) 0x40).onVec n (fun v =>
      if isCmp then v.setMask l.md.toNat bits (t + 4)
      else v.setReg l.vd.toNat (masked wm (v.reg l.vd.toNat) (s.vecLanes n lanes)) (t + 4)) }

/-! ### VEC.SFU (R118) -/

/-- +∞ as FP32. -/
def fInf : W32 := 0x7F800000#32

/-- A function of Table 4.4: its special inputs, the correctly rounded ones, and the device's fixed value elsewhere. -/
def sfu (fn : Nat) (w : W32) : W32 :=
  let x := val32 w
  if x.isNan then fl .nan
  else match fn, x with
  | 0, .inf neg | 1, .inf neg => if neg then 0#32 else fInf
  | 2, .inf neg | 3, .inf neg => if neg then fl .nan else fInf
  | 2, .fin neg m _ | 3, .fin neg m _ => if m = 0 then fl (.inf true) else if neg then fl .nan else sfuBounded fn w
  | 4, y => fl ((Num.fin false 1 0).div y)
  | 5, y => fl y.sqrt
  | 6, .inf neg => if neg then fl .nan else 0#32
  | 6, .fin neg m _ => if m = 0 then fl (.inf neg) else if neg then fl .nan else sfuBounded fn w
  | 7, .inf neg => if neg then 0#32 else fOne
  | 8, .inf neg | 9, .inf neg => if neg then fneg fOne else fOne
  | 10, .inf neg | 11, .inf neg | 12, .inf neg => if neg then 0x80000000#32 else fInf
  | _, _ => sfuBounded fn w

/-- The SFU taken until a CCLK (R115). -/
def Vec.takeSfu (x : Vec) (until_ : Nat) : Vec := { x with sfuFree := until_ }

/-- VEC.SFU (R118). -/
def evalSfu (s : State) (n : Nat) (l : FnLane) : Eval :=
  let c := s.core n
  let t := c.cclk
  let x := c.vec
  { enc := need 1 (decide (l.fn.toNat ≤ 0xC))
    timing := need 4 (x.idle t [l.va.toNat, l.vd.toNat] [l.mask.toNat] && decide (x.sfuFree ≤ t))
    run := (((s.vecFree n).bump (.vector n) 0x40).bump (.vector n) 0x48).onVec n (fun v =>
      (v.setReg l.vd.toNat (masked (x.mask l.mask.toNat) (v.reg l.vd.toNat) (s.vecLanes n ((x.reg l.va.toNat).map (sfu l.fn.toNat)))) (t + 12)).takeSfu (t + 4)) }

/-! ### VEC.RED (R117) -/

/-- One level of the tree: adjacent values joined. -/
def redLevel (f : W32 → W32 → W32) (xs : List W32) : List W32 :=
  (chunks 2 xs).map (fun p => match p with
    | [a, b] => f a b
    | _ => p.headD 0)

/-- A segment of 2^k lanes reduced (R117). -/
def redTree (f : W32 → W32 → W32) : Nat → List W32 → W32
  | 0, xs => xs.headD 0
  | k + 1, xs => redTree f k (redLevel f xs)

/-- The lanes of a register with results written from a lane on, where the write mask has a 1 (R110, R117). -/
def writeFrom (mask base : Nat) (ls res : List W32) : List W32 :=
  res.zipIdx.foldl (fun ls e => if bitAt mask (base + e.2) then ls.set (base + e.2) e.1 else ls) ls

/-- VEC.RED (R117). Its mask chooses the lanes that enter and the results that are written (R110, log 25). -/
def evalRed (s : State) (n : Nat) (l : FnLane) : Eval :=
  let c := s.core n
  let t := c.cclk
  let x := c.vec
  let k := 5 + l.seg.toNat
  let isMax := l.fn = 1
  let wm := x.mask l.mask.toNat
  let ins := (x.reg l.va.toNat).zipIdx.map (fun p => if bitAt wm p.2 then p.1 else if isMax then 0xFF800000#32 else 0#32)
  let res := (chunks (2 ^ k) ins).map (redTree (if isMax then fpick true else fadd) k)
  { enc := need 1 (decide (l.fn.toNat ≤ 1) && decide (l.dbase.toNat + 256 / 2 ^ k - 1 ≤ 255))
    timing := need 4 (x.idle t [l.va.toNat, l.vd.toNat] [l.mask.toNat])
    run := ((s.vecFree n).bump (.vector n) 0x40).onVec n (fun v =>
      v.setReg l.vd.toNat (writeFrom wm l.dbase.toNat (v.reg l.vd.toNat) (s.vecLanes n res)) (t + 10)) }

/-! ### VEC.DACT (R122) -/

/-- The FP32 constants of R122: one half, 1/√2, 1/√(2π), √(2/π), 0.044715, 0.134145. -/
def fHalf : W32 := 0x3F000000#32
@[inherit_doc fHalf] def fInvSqrt2 : W32 := 0x3F3504F3#32
@[inherit_doc fHalf] def fInvSqrt2Pi : W32 := 0x3ECC422A#32
@[inherit_doc fHalf] def fK0 : W32 := 0x3F4C422A#32
@[inherit_doc fHalf] def fC1 : W32 := 0x3D372713#32
@[inherit_doc fHalf] def fC2 : W32 := 0x3E095D4F#32

/-- One lane of VEC.DACT (R122). -/
def dact (fn : Nat) (x dy : W32) : W32 :=
  if fn ≤ 3 then
    if (val32 x).isNan then fl .nan
    else match fn with
    | 0 => if (Num.fin false 0 0).lt (val32 x) then quiet dy else 0#32
    | 1 => fmul dy (fmul x (fsub fOne x))
    | 2 => fmul dy (ffma (fneg x) x fOne)
    | _ => fmul dy x
  else match fn with
  | 4 =>
    let s := sfu 7 x
    fmul dy (fmul s (ffma x (fsub fOne s) fOne))
  | 5 =>
    let cdf := fmul fHalf (fadd fOne (sfu 9 (fmul x fInvSqrt2)))
    let pdf := fmul fInvSqrt2Pi (sfu 0 (fmul (fneg fHalf) (fmul x x)))
    fmul dy (ffma x pdf cdf)
  | _ =>
    let x2 := fmul x x
    let t := sfu 8 (fmul (fmul fK0 x) (ffma fC1 x2 fOne))
    let du := fmul fK0 (ffma fC2 x2 fOne)
    fmul dy (ffma (fmul (fmul fHalf x) (ffma (fneg t) t fOne)) du (fmul fHalf (fadd fOne t)))

/-- Latency and SFU occupancy of VEC.DACT (Table 4.3). -/
def dactTime (fn : Nat) : Nat × Nat := if fn ≤ 3 then (8, 0) else if fn = 4 then (20, 4) else (24, 8)

/-- VEC.DACT (R122). -/
def evalDact (s : State) (n : Nat) (l : FnLane) : Eval :=
  let c := s.core n
  let t := c.cclk
  let x := c.vec
  let fn := l.fn.toNat
  let (lat, occ) := dactTime fn
  let lanes := ((x.reg l.va.toNat).zip (x.reg l.vb.toNat)).map (fun p => dact fn p.1 p.2)
  let s0 := s.vecFree n
  let s1 := if occ = 0 then s0.bump (.vector n) 0x40 else (s0.bump (.vector n) 0x40).bump (.vector n) 0x48
  { enc := need 1 (decide (fn ≤ 6))
    timing := need 4 (x.idle t [l.va.toNat, l.vb.toNat, l.vd.toNat] [l.mask.toNat] && (occ == 0 || decide (x.sfuFree ≤ t)))
    run := s1.onVec n (fun v =>
      let v := v.setReg l.vd.toNat (masked (x.mask l.mask.toNat) (v.reg l.vd.toNat) (s.vecLanes n lanes)) (t + lat)
      if occ = 0 then v else v.takeSfu (t + occ)) }

/-! ### Duplicate pipelines (R119) -/

/-- The two pipelines differ at a lane: recorded, counted, reported and acted on, while DUP_EN is 1. With ACTION 1 the lanes that the
operation writes, and those of every later one, are unpredictable (R100, R119). -/
def State.vecMismatch (s : State) (n cls ln : Nat) : State :=
  let ctl := s.preg (.vector n) 0x100
  if !bitAt ctl 0 then s
  else
    let job := (s.core n).job
    let tear := !bitAt ctl 1 && job.isSome
    let s := (s.setPreg (.vector n) 0x104 (ln * 256 + cls)).bump (.vector n) 0x50
    let s := s.fault 2 0 job (Page.core n).unit (if tear then 1 else 0) (natLe 1 5 ++ natLe 1 ln) 1
    if tear then s.tearJob job 2 else s

/-- The vector unit of a core from a mismatch that ACTION 1 lets pass. -/
def State.vecLoosen (s : State) (n : Nat) : State :=
  let ctl := s.preg (.vector n) 0x100
  if bitAt ctl 0 && bitAt ctl 1 then s.onCore n (fun c => { c with
    vec := { c.vec with loose := true }, cur := { c.cur with vec := c.cur.vec.map (fun v => { v with loose := true }) } }) else s

end Sys2Proof.Machine
end

