-- ==== Sys2Proof/Machine/CoreEvents.lean ====
section
/-! DEFINITION. The sub-bundle as a word (Tables 5.1 to 5.7), its evaluation as a whole (R168), and a held CCLK (R34, R174). -/

namespace Sys2Proof.Machine

/-! ### Decoding a sub-bundle (R136, R137) -/

/-- Bits [hi:lo] of a lane as a field. -/
def bits (v hi lo : Nat) : BitVec (hi - lo + 1) := BitVec.ofNat _ (fld v hi lo)

/-- The CONTROL lane (Table 5.2): none where a reserved opcode or bit is met. -/
def decodeCtl (v : Nat) : Option LaneOp :=
  let ok (res : Bool) (o : LaneOp) : Option LaneOp := if res then some o else none
  match fld v 47 42 with
  | 0x00 => ok (v == 0) .ctlNop
  | 0x01 => ok (fld v 41 31 == 0) (.ctlLoop (bits v 30 20) (bits v 19 0))
  | 0x02 => ok (fld v 36 11 == 0) (.ctlSkip (bits v 41 39) (bits v 38 37) (bits v 10 0))
  | 0x04 => ok (fld v 41 8 == 0) (.ctlArrive (bits v 7 0))
  | 0x05 => ok (fld v 41 8 == 0) (.ctlWait (bits v 7 0))
  | 0x06 => ok (fld v 41 8 == 0) (.ctlLintel (bits v 7 0))
  | 0x08 => ok (fld v 40 10 == 0) (.ctlSwait (bitAt v 41) (bits v 9 0))
  | 0x09 => ok (fld v 41 16 == 0) (.ctlSdrop (bits v 15 10) (bits v 9 0))
  | 0x0C => ok (fld v 34 24 == 0) (.ctlSeta (bits v 41 36) (bitAt v 35) (bits v 23 0))
  | 0x0D => ok (fld v 25 13 == 0) (.ctlSlotld (bits v 41 32) (bits v 31 26) (bits v 12 0))
  | 0x10 => ok (fld v 41 0 == 0) .ctlEnd
  | _ => none

/-- A lane other than CONTROL: a NOP gives no operation. -/
abbrev LaneDec := Option (Option LaneOp)

/-- One lane's answer: its operation where its reserved bits are 0. -/
def laneOk (res : Bool) (o : LaneOp) : LaneDec := if res then some (some o) else none

/-- The STREAM lane (Table 5.3). -/
def decodeStr (v : Nat) : LaneDec :=
  match fld v 23 20 with
  | 0 => if v = 0 then some none else none
  | 1 => laneOk (fld v 11 6 == 0) (.strIssue (bits v 19 12) (bits v 5 0))
  | 2 => laneOk (fld v 11 0 == 0) (.strStop (bits v 19 12))
  | _ => none

/-- The LOAD lane (Table 5.4). -/
def decodeLoad (v : Nat) : LaneDec :=
  match fld v 47 44 with
  | 0 => if v = 0 then some none else none
  | 1 => laneOk (fld v 22 20 == 0) (.ldTload (bitAt v 43) (bits v 42 29) (bits v 28 23) (bits v 19 0))
  | 2 => laneOk (fld v 8 0 == 0)
      (.ldStage (bitAt v 43) (bits v 42 29) (bits v 28 23) (bits v 22 21) (bits v 20 19) (bits v 18 9))
  | 3 => laneOk (fld v 16 0 == 0) (.ldVec (bits v 43 39) (bits v 38 37) (bits v 36 23) (bits v 22 17))
  | _ => none

/-- The STORE lane (Table 5.5). -/
def decodeStore (v : Nat) : LaneDec :=
  match fld v 47 44 with
  | 0 => if v = 0 then some none else none
  | 1 => laneOk (fld v 7 0 == 0)
      (.stOut (bits v 43 32) (bits v 31 30) (bits v 29 24) (bits v 23 10) (bitAt v 9) (bitAt v 8))
  | 2 => laneOk (fld v 16 0 == 0) (.stVec (bits v 43 39) (bits v 38 37) (bits v 36 23) (bits v 22 17))
  | _ => none

/-- The ARRAY lane (Table 5.6). -/
def decodeArr (v : Nat) : LaneDec :=
  match fld v 23 20 with
  | 0 => if v = 0 then some none else none
  | 1 => laneOk (fld v 17 12 == 0) (.arrMul (bitAt v 19) (bitAt v 18) (bits v 11 0))
  | 2 => laneOk (fld v 11 0 == 0) (.arrSwap (bits v 19 18) (bits v 17 12))
  | _ => none

/-- The fields of a VECTOR operation other than VEC.ALU. -/
def fnLane (v : Nat) : FnLane :=
  { fn := bits v 59 56, mask := bits v 55 54, vd := bits v 53 49, va := bits v 48 44, vb := bits v 43 39
    seg := bits v 9 8, dbase := bits v 7 0 }

/-- The VECTOR lane (Table 5.7). -/
def decodeVec (v : Nat) : LaneDec :=
  match fld v 63 60 with
  | 0 => if v = 0 then some none else none
  | 1 => laneOk (!bitAt v 32 && !bitAt v 8) (.vecAlu
      { fn := bits v 59 56, mask := bits v 55 54, vd := bits v 53 49, va := bits v 48 44, vb := bits v 43 39
        vc := bits v 38 34, imm := bitAt v 33, imm16 := bits v 31 16, cond := bits v 15 13, msel := bits v 12 11
        md := bits v 10 9, lane := bits v 7 0 })
  | 2 => laneOk (fld v 33 0 == 0) (.vecSfu (fnLane v))
  | 3 => laneOk (fld v 33 10 == 0) (.vecRed (fnLane v))
  | 4 => laneOk (fld v 33 0 == 0) (.vecDact (fnLane v))
  | _ => none

/-- A sub-bundle's operations in the order in which the model takes them, CONTROL last, which closes it; none at an encoding fault of a
lane's own bits (Table 5.1, R137). -/
def decodeSub (sb : BitVec 256) : Option (List LaneOp) :=
  let w := sb.toNat
  match decodeCtl (fld w 255 208), decodeStr (fld w 207 184), decodeLoad (fld w 183 136), decodeStore (fld w 135 88),
    decodeArr (fld w 87 64), decodeVec (fld w 63 0) with
  | some c, some a, some b, some d, some e, some f =>
    some (a.toList ++ b.toList ++ d.toList ++ e.toList ++ f.toList ++ [c])
  | _, _, _, _, _, _ => none

/-- The evaluation of a lane's operation. -/
def evalOp (s : State) (n : Nat) : LaneOp → Eval
  | .ctlNop => { run := s }
  | .ctlLoop l k => evalLoop s n l k
  | .ctlSkip l _ k => evalSkip s n l k
  | .ctlArrive i => evalArrive s n i false
  | .ctlWait i => evalWait s n i
  | .ctlLintel i => evalArrive s n i true
  | .ctlSwait e h => evalSwait s n e h
  | .ctlSdrop k h => evalSdrop s n k h
  | .ctlSeta r h i => evalSeta s n r h i
  | .ctlSlotld f k r => evalSlotld s n f k r
  | .ctlEnd => { run := s }
  | .strIssue q r => evalIssue s n q r
  | .strStop q => evalStop s n q
  | .ldTload o l w t => evalTload s n o l w t
  | .ldStage h l a m k w => evalStage s n h l a m k w
  | .ldVec v p l d => evalLdVec s n v p l d
  | .stOut a f o l fl i => evalOut s n a f o l fl i .none
  | .stVec v p l d => evalStVec s n v p l d
  | .arrMul a i r => evalMul s n a i r
  | .arrSwap f a => evalSwap s n f a
  | .vecAlu l => evalAlu s n l
  | .vecSfu l => evalSfu s n l
  | .vecRed l => evalRed s n l
  | .vecDact l => evalDact s n l

/-! ### Evaluation (R168) -/

/-- The lanes of a sub-bundle evaluated together: each sees the rings, halves and banks of those before it (R137, R191). -/
def evalAll (s : State) (n : Nat) : List LaneOp → List (Eval × Nat)
  | [] => []
  | o :: os =>
    let e := evalOp s n o
    (e, e.code s n) :: evalAll (e.names s n) n os

/-- What the evaluation of a sub-bundle answers (R168). -/
inductive Verdict where
  | fault (check : Nat) | hold | issue
  deriving DecidableEq, Repr

/-- The answer of evaluated lanes: an encoding fault of any, else a hold of any, else a timing fault of any (R168). -/
def verdict (s : State) (n : Nat) (es : List (Eval × Nat)) : Verdict :=
  match es.find? (fun e => e.2 != 0) with
  | some e => .fault e.2
  | none =>
    if s.lintelHeld n || es.any (fun e => e.1.waits s n) then .hold
    else match es.find? (fun e => e.1.timing != 0) with
      | some e => .fault e.1.timing
      | none => .issue

/-- The evaluation of a sub-bundle's operations (R32, R168). -/
def State.judge (s : State) (n : Nat) (ops : List LaneOp) : Verdict := verdict s n (evalAll s n ops)

/-- Whether the slot count of R175 advances: not at a stream that has reported its halt for a page fault or a parked
destination (R175, R228). -/
def State.slotCounts (s : State) (n head : Nat) : Bool :=
  let v := s.slot n head
  let q := s.sq n (sAgentId v)
  bitAt (s.preg (.core n) 0x100) 0 && !(sAgent v == 0 && !q.halting && (q.halt == 0x50 || q.halt == 0x51))

/-- A held CCLK (R34, R170, R174 to R176): counted under the cause that stands first, and by the detectors. -/
def State.heldFor (s : State) (n cause : Nat) (slot : Option (Nat × Nat)) (lint : Option Nat) (mark : Option (Nat × Nat)) : State :=
  let s := (s.bump (.core n) (0x200 + 8 * (cause - 1))).tick n
  let lwd := bitAt (s.preg (.core n) 0x100) 1
  s.onCore n (fun c => { c with
    hold := cause
    waitMark := if mark.isSome then mark else c.waitMark
    slotHold := match slot with
      | some (h, _) => if s.slotCounts n h then c.slotHold + 1 else c.slotHold
      | none => 0
    heldSlot := match slot with
      | some (h, e) => 1024 * h + e
      | none => c.heldSlot
    lintHold := match lint with
      | some _ => if lwd then c.lintHold + 1 else c.lintHold
      | none => 0
    heldLint := lint.getD c.heldLint })

/-- The bank conflict counter of a held sub-bundle: of the lowest-numbered bank concerned (R190). -/
def State.countConflict (s : State) (n : Nat) (rs : List Resv) : State :=
  match rs.foldl (fun (acc : Option Resv) r => match acc with
      | some a => if r.bank < a.bank then some r else acc
      | none => some r) none with
  | some r => s.bump (.sill n) (0x200 + 0x40 * r.bank + (if r.scrub then 8 else 0))
  | none => s

end Sys2Proof.Machine
end

