-- ==== Sys2Proof/Machine/Lanes.lean ====
section
/-! DEFINITION. The lanes of the sub-bundle at the PC, one command for each, CONTROL last, which closes it (R32, R136, R168); the events of
the array that come in its CCLK (R78, R96, R98). -/

namespace Sys2Proof.Machine

/-- A lane's operation issued: with the CONTROL lane the sub-bundle closes. -/
abbrev Finish := State → State

/-- A lane of the sub-bundle at a core's PC. It acts where the operation is the next lane of the sub-bundle as it stands in the instruction
buffer. The first lane issues only if the whole sub-bundle does: a fault of any lane tears the job down, and a hold of any leaves the core
as it is (R32, R137, R168); the lanes after it issue with it. -/
def lane (s : State) (n : Nat) (op : LaneOp) (e : Eval) (fin : Finish := id) : State :=
  let c := s.core n
  if !s.evaluates n then s
  else if c.pastEnd then s.coreFault n 0x0D 0xFF 0
  else if !c.fetched then s
  else match decodeSub (BitVec.ofNat 256 c.word) with
  | none => s.coreFault n 1 0xFF 0
  | some ops =>
    if ops[c.cur.issued]? ≠ some op then s
    else if c.cur.issued ≠ 0 then fin (e.issued n)
    else match s.judge n ops with
      | .fault k => s.coreFault n k 0xFF 0
      | .hold => s
      | .issue => fin (e.issued n)

/-- A lane that the operation's own evaluation describes. -/
def opLane (s : State) (n : Nat) (op : LaneOp) : State := lane s n op (evalOp s n op)

/-- A CONTROL operation: its lane, and the close of the sub-bundle. -/
def ctlLane (s : State) (n : Nat) (op : LaneOp) (skip : Nat := 0) (push : Option Loop := none) : State :=
  lane s n op (evalOp s n op) (fun s => s.closeSub n skip push)

/-- A meaning of a core's operation: what is due by its CCLK first (R29). -/
def actCore (s : State) (n : Nat) (f : State → State) : Host.Outcome State Fault Refusal := act s (fun s => f (s.catchUp n))

/-! ### CONTROL and STREAM -/

/-- CTL.NOP (R142): the sub-bundle closes. -/
def execCtlNop (c : CoreId) (s : State) : Host.Outcome State Fault Refusal := actCore s c (fun s => ctlLane s c .ctlNop)
/-- CTL.LOOP (R152). -/
def execCtlLoop (c : CoreId) (last : BitVec 11) (count : BitVec 20) (s : State) : Host.Outcome State Fault Refusal :=
  actCore s c (fun s => ctlLane s c (.ctlLoop last count) 0 (some ((s.core c).newLoop last.toNat count.toNat)))
/-- CTL.SKIP (R154). -/
def execCtlSkip (c : CoreId) (level : BitVec 3) (cond : BitVec 2) (count : BitVec 11) (s : State) : Host.Outcome State Fault Refusal :=
  actCore s c (fun s => ctlLane s c (.ctlSkip level cond count) ((s.core c).skips level cond count))
/-- CTL.ARRIVE (R164). -/
def execCtlArrive (c : CoreId) (id : BitVec 8) (s : State) : Host.Outcome State Fault Refusal := actCore s c (fun s => ctlLane s c (.ctlArrive id))
/-- CTL.WAIT (R164). -/
def execCtlWait (c : CoreId) (id : BitVec 8) (s : State) : Host.Outcome State Fault Refusal := actCore s c (fun s => ctlLane s c (.ctlWait id))
/-- CTL.LINTEL (R164). -/
def execCtlLintel (c : CoreId) (id : BitVec 8) (s : State) : Host.Outcome State Fault Refusal := actCore s c (fun s => ctlLane s c (.ctlLintel id))
/-- CTL.SWAIT (R162). -/
def execCtlSwait (c : CoreId) (cond : Bool) (head : BitVec 10) (s : State) : Host.Outcome State Fault Refusal :=
  actCore s c (fun s => ctlLane s c (.ctlSwait cond head))
/-- CTL.SDROP (R162). -/
def execCtlSdrop (c : CoreId) (countM1 : BitVec 6) (head : BitVec 10) (s : State) : Host.Outcome State Fault Refusal :=
  actCore s c (fun s => ctlLane s c (.ctlSdrop countM1 head))
/-- CTL.SETA (R140). -/
def execCtlSeta (c : CoreId) (areg : BitVec 6) (half : Bool) (imm : BitVec 24) (s : State) : Host.Outcome State Fault Refusal :=
  actCore s c (fun s => ctlLane s c (.ctlSeta areg half imm))
/-- CTL.SLOTLD (R156). -/
def execCtlSlotld (c : CoreId) (first : BitVec 10) (countM1 : BitVec 6) (row : BitVec 13) (s : State) : Host.Outcome State Fault Refusal :=
  actCore s c (fun s => ctlLane s c (.ctlSlotld first countM1 row))
/-- The end flag of a core raised; with the last of them the job ends (R155). -/
def State.raiseEnd (s : State) (n : Nat) : State := (s.onCore n (fun k => { k with ended := true })).jobEnded n
/-- CTL.END (R155). -/
def execCtlEnd (c : CoreId) (s : State) : Host.Outcome State Fault Refusal :=
  actCore s c (fun s => lane s c .ctlEnd (evalOp s c .ctlEnd) (fun s => (s.closeSub c 0 none).raiseEnd c))
/-- STR.ISSUE (R203). -/
def execStrIssue (c : CoreId) (queue : BitVec 8) (areg : BitVec 6) (s : State) : Host.Outcome State Fault Refusal :=
  actCore s c (fun s => opLane s c (.strIssue queue areg))
/-- STR.STOP (R205). -/
def execStrStop (c : CoreId) (queue : BitVec 8) (s : State) : Host.Outcome State Fault Refusal :=
  actCore s c (fun s => opLane s c (.strStop queue))

/-! ### LOAD, STORE, ARRAY -/

/-- LD.TLOAD (R78). -/
def execLdTload (c : CoreId) (orient : Bool) (loc : BitVec 14) (wdesc : BitVec 6) (trow : BitVec 20) (s : State) : Host.Outcome State Fault Refusal :=
  actCore s c (fun s => opLane s c (.ldTload orient loc wdesc trow))
/-- LD.STAGE (R81). -/
def execLdStage (c : CoreId) (half : Bool) (loc : BitVec 14) (adesc : BitVec 6) (mode nsetsM1 : BitVec 2) (wslot : BitVec 10) (s : State) : Host.Outcome State Fault Refusal :=
  actCore s c (fun s => opLane s c (.ldStage half loc adesc mode nsetsM1 wslot))
/-- LD.VEC (R111). -/
def execLdVec (c : CoreId) (vreg : BitVec 5) (part : BitVec 2) (loc : BitVec 14) (desc : BitVec 6) (s : State) : Host.Outcome State Fault Refusal :=
  actCore s c (fun s => opLane s c (.ldVec vreg part loc desc))
/-- ST.OUT (R92). -/
def execStOut (c : CoreId) (accRow : BitVec 12) (fset : BitVec 2) (odesc : BitVec 6) (loc : BitVec 14) (flush iter : Bool) (u : OutUpset) (s : State) : Host.Outcome State Fault Refusal :=
  actCore s c (fun s => lane s c (.stOut accRow fset odesc loc flush iter) (evalOut s c accRow fset odesc loc flush iter u))
/-- ST.VEC (R112). -/
def execStVec (c : CoreId) (vreg : BitVec 5) (part : BitVec 2) (loc : BitVec 14) (desc : BitVec 6) (s : State) : Host.Outcome State Fault Refusal :=
  actCore s c (fun s => opLane s c (.stVec vreg part loc desc))
/-- ARR.MUL (R89). -/
def execArrMul (c : CoreId) (add iter : Bool) (accRow : BitVec 12) (bad : Bool) (s : State) : Host.Outcome State Fault Refusal :=
  actCore s c (fun s => lane s c (.arrMul add iter accRow) (evalMul s c add iter accRow bad))
/-- ARR.SWAP (R79). -/
def execArrSwap (c : CoreId) (fset : BitVec 2) (adesc : BitVec 6) (s : State) : Host.Outcome State Fault Refusal :=
  actCore s c (fun s => opLane s c (.arrSwap fset adesc))

/-! ### VECTOR -/

/-- An operation of the vector unit with what its duplicate shows (R119): where they differ and ACTION lets it pass, the lanes that it
writes are unpredictable. -/
def vecLane (s : State) (n : Nat) (op : LaneOp) (cls : Nat) (u : Option (BitVec 8)) : State :=
  match u with
  | none => opLane s n op
  | some ln =>
    let e := evalOp (s.vecLoosen n) n op
    lane s n op { e with run := e.run.vecMismatch n cls ln.toNat }

/-- VEC.ALU (R116). -/
def execVecAlu (c : CoreId) (l : AluLane) (u : Option (BitVec 8)) (s : State) : Host.Outcome State Fault Refusal :=
  actCore s c (fun s => vecLane s c (.vecAlu l) 1 u)
/-- VEC.SFU (R118). -/
def execVecSfu (c : CoreId) (l : FnLane) (u : Option (BitVec 8)) (s : State) : Host.Outcome State Fault Refusal :=
  actCore s c (fun s => vecLane s c (.vecSfu l) 2 u)
/-- VEC.RED (R117). -/
def execVecRed (c : CoreId) (l : FnLane) (u : Option (BitVec 8)) (s : State) : Host.Outcome State Fault Refusal :=
  actCore s c (fun s => vecLane s c (.vecRed l) 3 u)
/-- VEC.DACT (R122). -/
def execVecDact (c : CoreId) (l : FnLane) (u : Option (BitVec 8)) (s : State) : Host.Outcome State Fault Refusal :=
  actCore s c (fun s => vecLane s c (.vecDact l) 4 u)

/-! ### The loader and the checker -/

/-- The changes of FULL that are due, and the tile loader's tries of the CCLK that have passed before its present one. -/
def State.loadUp (s : State) (n : Nat) : State :=
  let s := s.onCore n Core.land
  let tries := match (s.core n).arr.shadow with
    | some t => (s.core n).cclk - 1 - t.at_
    | none => 0
  s.loaderRun n tries

/-- TILE_LOADER_ROW (R78): the loader of a core in service takes a row. -/
def execTileLoaderRow (c : CoreId) (s : State) : Host.Outcome State Fault Refusal :=
  act s (fun s => if (s.core c).life.st == .opened then (s.loadUp c).loaderStep c else s)
/-- ARRAY_CHECK_RESULT (R96). -/
def execArrayCheckResult (c : CoreId) (u : ChkUpset) (s : State) : Host.Outcome State Fault Refusal :=
  act s (fun s => s.checkNext c false u)
/-- PROBE_CHECK_RESULT (R98). -/
def execProbeCheckResult (c : CoreId) (u : ChkUpset) (s : State) : Host.Outcome State Fault Refusal :=
  act s (fun s => s.checkNext c true u)

end Sys2Proof.Machine
end

