-- ==== Sys2Proof/Machine/Regs.lean ====
section
/-! DEFINITION. What a read of a control-page register returns (R13, R443 to R448): the header, the registers computed
from the state, the stored ones, the counters. -/

namespace Sys2Proof.Machine

/-- A page's lifecycle (R397): a core's four pages, a quarry's two, a port's; every other page reads OPEN. -/
def State.pageLife (s : State) : Page → Life
  | .core n | .array n | .vector n | .sill n => s.coreLife n
  | .quarry n | .bench n => (s.quarry n).life
  | .port p => (s.port p).life
  | _ => {}

/-- PAGE_STATE (Table 13.9). -/
def State.pageState (s : State) (p : Page) : Nat :=
  let l := s.pageLife p
  (if l.epoch then 128 else 0) + l.st.code

/-- The pages of a commit group (Table 16.9). -/
def groupPages (g : Nat) : List Page :=
  if g = 1 then (List.range 8).map Page.port ++ [.links] else if g = 2 then [.power, .thermal] else []

/-- Where the last result of a group stands: STAGE_STATUS of its first page. -/
def groupBase (g : Nat) : Nat := if g = 1 then (Page.port 0).base + 0x14 else Page.power.base + 0x14

/-- STAGE_STATUS (Table 16.6). -/
def State.stageStatus (s : State) (p : Page) : Nat :=
  match p.group with
  | none => 0
  | some g =>
    let here (t : Tab W32) : Bool := t.any (fun e => e.1 / 0x1000 == p.base / 0x1000)
    g * 2 ^ 24 + fld (s.reg (groupBase g)) 23 16 * 2 ^ 16 + (if s.commit.busy && s.commit.group == g then 2 else 0) +
      (if here s.staged || here s.commit.taken then 1 else 0)

/-- The unacknowledged fault records. -/
def State.unacked (s : State) : List (List Byte) :=
  (List.range s.flt.unack).map (fun i => tget [] s.flt.ring ((s.flt.oldest + i) % 32))

/-- FAULT_SUMMARY (Table 16.7). -/
def State.faultSummary (s : State) (p : Page) : Nat :=
  let cs := (s.unacked.filter (fun r => byteFld r 0x10 4 == p.unit)).map (fun r => byteFld r 0 1)
  cs.foldl (fun acc c => acc ||| 2 ^ c ||| 1) 0

/-- The header registers (Table 16.1). -/
def State.headerReg (s : State) (p : Page) (o : Nat) : Nat :=
  match o with
  | 0x00 => p.id
  | 0x04 => 0x00B00100
  | 0x08 => s.dswWord
  | 0x0C => s.pageState p
  | 0x14 => s.stageStatus p
  | 0x20 => s.faultSummary p
  | _ => 0

/-- A word of a 64-bit value. -/
def half (v o : Nat) : Nat := if o % 8 = 0 then v % 2 ^ 32 else v / 2 ^ 32 % 2 ^ 32

/-- One bit for each of 32 blocks. -/
def bits32 (base : Nat) (f : Nat → Bool) : Nat :=
  (List.range 32).foldl (fun acc i => if f (base + i) then acc + 2 ^ i else acc) 0

/-- The slot whose loss state the health page shows (Table 15.10). -/
def State.lossSlot (s : State) : Nat := s.runSlot.getD s.lastSlot
/-- The loss monitor of a slot. -/
def State.lossOf (s : State) (j : Nat) : Loss := tget {} s.loss j

/-- The identity registers (Table 16.17). -/
def State.identReg (s : State) (o : Nat) : Nat :=
  match o with
  | 0x100 => if Config.isOA1200 then 0x0A78 else 0x0A80
  | 0x104 => 0xB0
  | 0x108 => Config.serial.toNat % 2 ^ 32
  | 0x10C => Config.serial.toNat / 2 ^ 32
  | 0x120 => Config.romVer.toNat
  | 0x124 => s.preg .identity 0x124
  | _ => if 0x110 ≤ o ∧ o < 0x120 then bits32 (8 * (o - 0x110)) fused else 0

/-- The commit registers (Table 16.10). -/
def State.commitReg (s : State) (o : Nat) : Nat :=
  match o with
  | 0x104 => s.preg .commit 0x104 + (if s.commit.applying then 2 ^ 31 else if s.commit.busy then 2 ^ 30 else 0)
  | _ => s.preg .commit o

/-- The fault registers and the fault ring (Tables 15.3 and 15.8). -/
def State.faultReg (s : State) (o : Nat) : Nat :=
  if 0x800 ≤ o then byteFld (tget [] s.flt.ring ((o - 0x800) / 64)) (o % 64) 4
  else if o = 0x104 then s.flt.unack * 256 + s.flt.oldest
  else if 0x120 ≤ o ∧ o < 0x130 then bits32 (8 * (o - 0x120)) (fun n => (s.coreLife n).retired)
  else if 0x140 ≤ o ∧ o < 0x150 then bits32 (8 * (o - 0x140)) (fun n => (s.quarry n).life.retired)
  else s.preg .fault o

/-- HIF_STATUS (Table 12.9). -/
def State.hifStatus (s : State) : Nat :=
  let h := s.hif
  let b (c : Bool) (n : Nat) : Nat := if c then 2 ^ n else 0
  if h.up then h.rate * 2 ^ 28 + h.width * 2 ^ 16 + b h.flit 8 + b h.tenBit 4 + b h.pri 3 + b h.ats 2 + b h.pasid 1 + 1
  else 0

/-- The health registers (Table 15.10). -/
def State.healthReg (s : State) (o : Nat) : Nat :=
  let l := s.lossOf s.lossSlot
  match o with
  | 0x108 | 0x10C => half (uInt64 l.mean) o
  | 0x110 | 0x114 => half (uInt64 l.dev) o
  | 0x118 | 0x11C => half (uInt64 l.spikeVal) o
  | 0x120 => l.spikeSample
  | 0x124 => s.lossSlot
  | _ => s.preg .health o

/-- The job registers (Table 13.12). -/
def State.jobReg (s : State) (o : Nat) : Nat :=
  if o = 0x104 then (match s.runSlot with
    | some j => 2 ^ 31 + j
    | none => 0)
  else if o < 0x200 then s.preg .job o
  else
    let j := s.job ((o - 0x200) / 0x40)
    let k := o % 0x40
    if k = 0 then (if j.st = .empty then 0 else j.st.code * 2 ^ 28 + (j.ncores - 1) * 2 ^ 16 + j.key)
    else if k = 4 then j.seq
    else if 0x10 ≤ k ∧ k < 0x20 then j.placed / 2 ^ (8 * (k - 0x10)) % 2 ^ 32
    else if 0x20 ≤ k ∧ k < 0x30 then j.extra / 2 ^ (8 * (k - 0x20)) % 2 ^ 32
    else 0

/-- Shards of a bucket (Table 9.1). -/
def bucketShards (d : List Byte) : Nat := fld (byteFld d 8 4) 12 0

/-- RED_TAG_INFO (Table 9.11). -/
def State.redTagInfo (s : State) : Nat :=
  let sel := s.preg .red 0x108
  let t := s.tag (fld sel 13 12) (fld sel 11 0)
  let absent := match t.st with
    | .armed | .reducing => bucketShards (s.bucket (fld sel 13 12) (fld sel 11 0)) - t.shards.countP (fun e => e.2.headers)
    | _ => 0
  t.st.code * 2 ^ 28 + t.step * 2 ^ 20 + (if t.poisoned then 2 ^ 19 else 0) + (if t.skipped then 2 ^ 18 else 0) + absent

/-- PAGE_BYTES (Table 10.5). -/
def State.kvPageBytes (s : State) : Nat :=
  let k := s.preg .att 0x124
  roundUp (256 * fld k 23 16 * fld k 10 0) 4096
/-- Pages pinned by requests (R314). -/
def State.pinned (s : State) : List Nat := s.att.reqs.flatMap (fun r => r.pins)
/-- Pool pages free and unpinned, ascending. -/
def State.freePages (s : State) : List Nat :=
  (List.range (fld (s.preg .att 0x120) 16 0)).filter (fun p => !(s.att.used.any (fun e => e.1 == p)) && !s.pinned.contains p)

/-- The attention registers and the sequence table (Tables 10.5 and 10.6). -/
def State.attReg (s : State) (o : Nat) : Nat :=
  if 0x800 ≤ o then
    let q := s.seq ((o - 0x800) / 0x20)
    match o % 0x20 with
    | 0x00 => if q.st = 0 then 0 else q.st * 2 ^ 28 + q.job * 2 ^ 26 + q.prio * 2 ^ 16
    | 0x04 => q.id
    | 0x08 => q.len
    | 0x0C => q.pages
    | _ => q.age
  else match o with
    | 0x130 => s.kvPageBytes
    | 0x134 => s.freePages.length
    | 0x138 => fld (s.preg .att 0x12C) 23 0 - s.att.swapUsed.length
    | _ => s.preg .att o

/-- The host-queue registers (Table 12.4). -/
def State.hqReg (s : State) (k o : Nat) : Nat :=
  let h := 64 * k + (o - 0x800) / 0x20
  let q := s.hq h
  match o % 0x20 with
  | 0x10 => q.head
  | 0x14 => q.tail
  | 0x18 => q.st * 2 ^ 30 + q.err * 2 ^ 16 + s.hqHeld h
  | _ => s.preg (.hq k) o

/-- QUEUE_STATE (Table 7.8). -/
def State.queueState (s : State) (n q : Nat) : Nat :=
  let x := s.sq n q
  let st := if x.stopping then 3 else if x.halt ≠ 0 ∧ !x.halting then 2 else if x.count = 0 then 0 else 1
  st * 2 ^ 30 + (if st = 2 then x.halt * 2 ^ 16 else 0) + x.count

/-- The core registers (Tables 5.13, 5.14 and 7.8). -/
def State.coreReg (s : State) (n o : Nat) : Nat :=
  let c := s.core n
  match o with
  | 0x104 => c.hold * 2 ^ 28 + c.loops.length * 2 ^ 24 + (if c.ended then 2 else 0) + (if c.running then 1 else 0)
  | 0x108 => c.pc % 2 ^ 32
  | 0x308 => s.remoteTags n * 256 + s.ownTags n
  | _ => if 0x800 ≤ o then s.queueState n ((o - 0x800) / 4) else s.preg (.core n) o

/-- The array registers (Table 3.10). -/
def State.arrayReg (s : State) (n o : Nat) : Nat :=
  let a := (s.core n).arr
  let loading := match a.shadow with
    | some t => t.completeAt.isNone
    | none => false
  if o = 0x104 then s.preg (.array n) o + (if a.active.isSome then 2 else 0) + (if loading then 1 else 0)
  else s.preg (.array n) o

/-- The sill registers (Table 6.8). -/
def State.sillReg (s : State) (n o : Nat) : Nat :=
  match o with
  | 0x108 => (s.core n).scrubPos
  | 0x110 => (s.core n).repairQ.length
  | _ => s.preg (.sill n) o

/-- Whether a quarry refreshes in the hot mode (R242). -/
def State.hotMode (s : State) (n : Nat) : Bool := (s.quarry n).hot || bitAt (s.preg (.quarry n) 0x100) 0

/-- The quarry controller's registers (Table 8.13). -/
def State.quarryReg (s : State) (n o : Nat) : Nat :=
  match o with
  | 0x108 => (s.quarry n).scrubPos
  | 0x10C => s.preg (.quarry n) o % 2 ^ 16 + (if s.hotMode n then 2 ^ 31 else 0)
  | 0x118 => (s.quarry n).repairQ.length
  | _ => s.preg (.quarry n) o

/-- The bench registers (Tables 8.6 and 8.15). -/
def State.benchReg (s : State) (n o : Nat) : Nat :=
  if 0x400 ≤ o ∧ o < 0x600 ∧ o % 0x10 = 0xC then
    let q := s.bq n ((o - 0x400) / 0x10)
    q.st * 2 ^ 30 + q.pos
  else s.preg (.bench n) o

/-- The port registers (Table 11.12). -/
def State.portReg (s : State) (p o : Nat) : Nat :=
  let q := s.port p
  match o with
  | 0x104 => q.link.code * 2 ^ 30 + q.width * 2 ^ 24 + q.active * 2 ^ 16 + q.failed * 2 ^ 8 + (if q.reversed then 2 else 0) +
      (if q.epoch then 1 else 0)
  | 0x108 => q.peer
  | _ => s.preg (.port p) o

/-- The power registers (Table 14.6). -/
def State.powerReg (s : State) (o : Nat) : Nat :=
  let w := s.pwr
  match o with
  | 0x108 => Config.vcoreFused.toNat
  | 0x10C => (if w.sat then 2 ^ 31 else 0) + w.b * 2 ^ 16 + w.pTerm * 2 ^ 8 + w.tTerm
  | 0x110 => w.pavg % 2 ^ 21
  | 0x114 => w.pnow % 2 ^ 21
  | 0x118 | 0x11C => half (w.energy / 1000) o
  | _ => s.preg .power o

/-- MBOX_BUSY: a mailbox command runs (R472). -/
def State.mboxBusy (s : State) : Bool := decide (s.time < s.boot.busyTill)

/-- The Stavuf registers (Table 17.5). -/
def State.stavufReg (s : State) (o : Nat) : Nat :=
  let b := s.boot
  if o = 0x100 then b.error * 2 ^ 24 + b.result * 2 ^ 16 + (if b.keyReady then 256 else 0) + (if s.mboxBusy then 16 else 0) + b.stage
  else s.preg .stavuf o

/-- The value of a register that is no counter. -/
def State.pageReg (s : State) (p : Page) (o : Nat) : Nat :=
  if o < 0x100 then s.headerReg p o
  else match p with
  | .identity => s.identReg o
  | .commit => s.commitReg o
  | .state => if o = 0x100 then s.dswWord else if o = 0x108 ∨ o = 0x10C then half s.time o else 0
  | .interrupt => if o = 0xC00 ∨ o = 0xC04 then half s.hif.msixPend o else s.preg p o
  | .fault => s.faultReg o
  | .hif => if o = 0x100 then s.hifStatus else s.preg p o
  | .health => s.healthReg o
  | .job => s.jobReg o
  | .red => if o = 0x10C then s.redTagInfo else s.preg p o
  | .att => s.attReg o
  | .hq k => s.hqReg k o
  | .core n => s.coreReg n o
  | .array n => s.arrayReg n o
  | .vector _ => s.preg p o
  | .sill n => s.sillReg n o
  | .quarry n => s.quarryReg n o
  | .bench n => s.benchReg n o
  | .port q => s.portReg q o
  | .links => s.preg p o
  | .power => s.powerReg o
  | .thermal => s.preg p o
  | .stavuf => s.stavufReg o
  | .security => s.preg p o

/-- A counter's value: the loss counters are those of the slot shown (Table 15.11). -/
def State.counter (s : State) (p : Page) (o : Nat) : Nat :=
  if p = .health then
    let l := s.lossOf s.lossSlot
    match o with
    | 0x40 => l.samples
    | 0x48 => l.spikes
    | 0x50 => l.nonfinite
    | _ => s.ctr p o
  else s.ctr p o

/-- Whether an offset holds a counter of a page, its low word. -/
def isCtr (p : Page) (o : Nat) : Bool := p.isCounter o || (p == .health && (o == 0x40 || o == 0x48 || o == 0x50))

/-- Whether a BAR0 offset lies among the doorbells (R449). -/
def isBell (off : Nat) : Bool := decide (0x500000 ≤ off) && decide (off < 0x540000)

/-- What a 32-bit read returns, the latch of a counter aside (R13): staged values of a register of ST fields, WO fields and doorbells as 0
(R362). -/
def State.readReg (s : State) (off : Nat) : Nat :=
  match pageOf off with
  | none => if isBell off then 0 else all32
  | some p =>
    let o := off % 0x1000
    if isCtr p o then s.counter p o % 2 ^ 32
    else if o % 8 = 4 && isCtr p (o - 4) then s.counter p (o - 4) / 2 ^ 32
    else match regDef p o with
      | none => 0
      | some d =>
        let mask := d.rw ||| d.w1c ||| d.st ||| d.ro
        if d.st = 0 then s.pageReg p o &&& mask
        else match tfind s.staged off with
          | some v => v.toNat &&& mask
          | none => match tfind s.commit.taken off with
            | some v => v.toNat &&& mask
            | none => s.pageReg p o &&& mask

end Sys2Proof.Machine
end

