-- ==== Sys2Proof/Machine/Windows.lean ====
section
/-! DEFINITION. Writes of window entries (R249 to R253), the loss monitor (R434), and the program's accesses to the
control-page mirror (R21, R460, R461). -/

namespace Sys2Proof.Machine

/-! ### Windows -/

/-- Reserved bits of the words of a window entry (Table 8.4). -/
def winReserved (k : Nat) : Nat := all32 - ([0xF07F0F00, 0xFFFF, 0x3FFFF000, 0x3FFFF000].getD k 0)

/-- The check of R251 over a window entry as its words were last written, reserved bits included (log 13). -/
def State.winOk (s : State) (n w : Nat) : Bool :=
  let lo := fld (s.winWord n w 2) 29 12 * 4096
  let hi := fld (s.winWord n w 3) 29 12 * 4096
  let j := fld (s.winWord n w 0) 29 28
  (List.range 4).all (fun k => s.winWord n w k &&& winReserved k == 0) && decide (lo < hi) && decide (hi ≤ quarrySize) && (s.job j).st.isLoaded &&
    (fused n || (s.coreLife n).retired || s.inAlloc n j (quarryBase n + lo) (hi - lo))

/-- A window write that counts as a rejected open: of the program it is a program fault (R251). -/
def State.winReject (s : State) (n w : Nat) (prog : Option Nat) : State :=
  let s := s.bump (.quarry n) 0x90
  match prog with
  | some c => s.progFault s.runSlot (Page.core c).unit 0 c (s.core c).pc 9 w ((Page.quarry n).base + 0x800 + 0x20 * w)
  | none => s

/-- Word k of a window written, STATE kept; reserved bits set are counted (R16), and read as 0. -/
def State.winFields (s : State) (n w k v : Nat) : State :=
  let off := 0x800 + 0x20 * w + 4 * k
  let keep := if k = 0 then fld (s.preg (.quarry n) off) 31 30 else 0
  let s := if v &&& winReserved k = 0 then s else s.bump (.quarry n) 0xF8
  s.setPreg (.quarry n) off (if k = 0 then putFld v 31 30 keep else v)

/-- STATE of a window written. -/
def State.winState (s : State) (n w st : Nat) : State :=
  s.setPreg (.quarry n) (0x800 + 0x20 * w) (putFld (s.winWord n w 0) 31 30 st)

/-- A write of word 0 of a window (R251): other fields that it would change of one that is not CLOSED are ignored and counted. -/
def State.writeWin0 (s : State) (n w v : Nat) (prog : Option Nat) : State :=
  let st := fld (s.winWord n w 0) 31 30
  match fld v 31 30 with
  | 0 =>
    if st = 0 then s.winFields n w 0 v
    else
      let s := if v % 2 ^ 30 = s.winWord n w 0 % 2 ^ 30 then s else s.bump (.quarry n) 0x90
      if st = 1 then s.winState n w 2 else s
  | 1 =>
    if st = 0 then
      let s := s.winFields n w 0 v
      if s.winOk n w then s.winState n w 1 else s.winReject n w prog
    else s.bump (.quarry n) 0x90
  | _ => (if st = 0 then s.winFields n w 0 v else s).winReject n w prog

/-- A write of word k of a window entry by an agent; prog names the core whose stream writes it, for the program
(R251, R252). -/
def State.writeWin (s : State) (n w k v : Nat) (prog : Option Nat) : State :=
  if k = 0 then s.writeWin0 n w v prog
  else if fld (s.winWord n w 0) 31 30 = 0 then s.winFields n w k v
  else s.bump (.quarry n) 0x90

/-- A CLOSING window with no request in flight becomes CLOSED (R251). -/
def State.winClosed (s : State) (n w : Nat) : State :=
  if fld (s.winWord n w 0) 31 30 = 2 ∧ !s.winBusy n w then s.winState n w 0 else s

/-- Whether the program may write word k of window w of quarry n (R252, R461): core n placed, JOB the running slot and
left so. -/
def State.progWin (s : State) (n w k v : Nat) : Bool :=
  match s.runSlot with
  | some j => bitAt (s.job j).placed n && fld (s.winWord n w 0) 29 28 == j && (k != 0 || fld v 29 28 == j)
  | none => false

/-! ### The loss monitor (R434) -/

/-- A value of signed 64-bit fixed point; where a sum falls outside it, the manual states none (log 8). -/
def fit64 (k : Nat) (v : Int) : Int :=
  if -(2 ^ 63) ≤ v ∧ v < 2 ^ 63 then v
  else sInt64 ((Config.freeValue k).toNat * 2 ^ 32 + (Config.freeValue (k + 1)).toNat)

/-- A finite loss in fixed point with 24 fraction bits, saturated (R434). -/
def lossFix (v : W32) : Int := max (-(2 ^ 63)) (min (2 ^ 63 - 1) (roundInt ((val32 v).mul (pow2 24))))

/-- SHIFT of LOSS_CTRL: 0 acts as 1, above 8 as 8 (Table 15.9). -/
def lossShift (c : Nat) : Nat := max 1 (min 8 (fld c 7 4))

/-- One finite sample (R434): the monitor, and whether it is a spike. -/
def lossStep (free ctl : Nat) (m : Loss) (x : Int) : Loss × Bool :=
  if m.samples = 0 then ({ m with samples := 1, mean := x, dev := 0 }, false)
  else
    let n := m.samples + 1
    let thr := fit64 free (m.mean + ((fld ctl 19 8 : Nat) : Int) * m.dev / 16)
    let spike := decide (fld ctl 31 24 < n) && decide (thr < x)
    let y := if spike then thr else x
    let d := fit64 (free + 2) (y - m.mean)
    let k : Int := ((2 ^ lossShift ctl : Nat) : Int)
    let mean := fit64 (free + 4) (m.mean + d / k)
    let dev := fit64 (free + 6) (m.dev + (fit64 (free + 8) (((d.natAbs : Nat) : Int) - m.dev)) / k)
    let m' : Loss := { m with samples := n, mean := mean, dev := dev }
    (if spike then { m' with spikes := m.spikes + 1, spikeVal := x, spikeSample := n } else m', spike)

/-- A loss monitor replaced. -/
def State.setLoss (s : State) (j : Nat) (m : Loss) : State := { s with loss := tset s.loss j m }

/-- A write of LOSS_IN of core n's page: one sample of the running job (R434). -/
def State.lossSample (s : State) (n : Nat) (v : W32) : State :=
  match s.runSlot with
  | none => s
  | some j =>
    if !bitAt (s.job j).placed n || !bitAt (s.preg .health 0x100) 0 then s
    else
      let m := s.lossOf j
      if (val32 v).isFin then
        let (m', spike) := lossStep s.free (s.preg .health 0x100) m (lossFix v)
        let s := ({ s with free := s.free + 10 }).setLoss j m'
        if spike then s.event evSpike else s
      else (s.setLoss j { m with nonfinite := m.nonfinite + 1 }).nonfinite (some j) (Page.core n).unit n

/-! ### The mirror (R460, R461) -/

/-- Whether a page is one that R21 admits: of a core that the running job holds (R252: the two pages of a quarry count
as pages of its core). -/
def State.mirrorPage (s : State) (off : Nat) : Bool :=
  let placed (n : Nat) : Bool := match s.runSlot with
    | some j => bitAt (s.job j).placed n
    | none => false
  match pageOf off with
  | some (.core n) | some (.array n) | some (.vector n) | some (.sill n) | some (.quarry n) | some (.bench n) => placed n
  | _ => false

/-- A read of a 64-byte unit of the mirror (R460). -/
def State.mirrorRead (s : State) (off : Nat) : List Byte :=
  (List.range 16).flatMap (fun i => natLe 4 (s.readReg (off / 64 * 64 + 4 * i)))

/-- One entry of a write list of core n's stream (Table 16.15): the state, or none where R461 forbids it. -/
def State.mirrorEntry (s : State) (c e : Nat) : Option State :=
  let off := fld e 24 0
  let v := fld e 63 32
  if e = 0 then some s
  else if fld e 31 25 ≠ 0 ∨ off % 4 ≠ 0 then none
  else match pageOf off with
    | some (.core n) => if off % 0x1000 = 0x11C ∧ s.mirrorPage off then some (s.lossSample n (BitVec.ofNat 32 v)) else none
    | some (.quarry n) =>
      let o := off % 0x1000
      let k := o % 0x20 / 4
      let w := (o - 0x800) / 0x20
      if 0x800 ≤ o ∧ k < 4 ∧ s.progWin n w k v then some (s.writeWin n w k v (some c)) else none
    | _ => none

/-- A write list: its entries act in order until one is forbidden (R460); whether one was. -/
def State.mirrorWrite (s : State) (c : Nat) : List Nat → State × Bool
  | [] => (s, false)
  | e :: es =>
    match s.mirrorEntry c e with
    | some s' => State.mirrorWrite s' c es
    | none => (s, true)

end Sys2Proof.Machine
end

