-- ==== Sys2Proof/Machine/Banks.lean ====
section
/-! DEFINITION. Asynchronous accesses to a core's sill and their share of its banks (R188, R192, R193). -/

namespace Sys2Proof.Machine

/-- Requesters of asynchronous accesses beside the four stream engines 0 to 3: the mesh port, the bench reply path (R192). -/
def meshPort : Nat := 4
@[inherit_doc meshPort] def benchPath : Nat := 5

/-- A requester's place in the round robin of a bank after the one that it served last (R192). -/
def turnPlace (last who : Nat) : Nat := (who + 5 - last) % 6

/-- What an asynchronous access to a bank in a CCLK meets (R192): 0 nothing, 1 an access of order 1 that is reserved, 2 the tile loader, 3 an
asynchronous access that has the bank or that stands before it in the round robin. -/
def Core.asyncMeets (c : Core) (at_ bank who : Nat) : Nat :=
  let last := tget 5 c.turn bank
  if c.resv.any (fun r => r.when == at_ && r.bank == bank) then 1
  else if c.busy.any (fun b => b.loader && b.at_ == at_ && b.bank == bank) then 2
  else if c.busy.any (fun b => b.at_ == at_ && b.bank == bank) ||
      c.waits.any (fun w => w.bank == bank && w.who != who && decide (at_ ≤ w.at_ + 1) && decide (turnPlace last w.who < turnPlace last who)) then 3
  else 0

/-- What is known of an access that has lost a bank (R192). -/
def Core.loses (c : Core) (at_ bank who : Nat) (byLoader : Bool) : Core :=
  let run := match c.waits.find? (fun w => w.bank == bank && w.who == who) with
    | some w => if w.at_ + 1 = at_ then w.byLoader else 0
    | none => 0
  { c with waits := ⟨bank, who, at_, if byLoader then run + 1 else 0⟩ :: c.waits.filter (fun w => !(w.bank == bank && w.who == who)) }

/-- What is known of an access that has taken a bank (R192). -/
def Core.takes (c : Core) (at_ bank who : Nat) : Core :=
  { c with
    waits := c.waits.filter (fun w => !(w.bank == bank && w.who == who))
    busy := ⟨at_, bank, false⟩ :: c.busy.filter (fun b => decide (at_ ≤ b.at_))
    turn := tset c.turn bank who }

/-- An asynchronous access of whole rows to core n's sill (R192): whether its requester has their banks in the CCLK that has just been
evaluated. Where it loses one, it is counted once in that CCLK and takes none. A core that counts no CCLK reserves nothing: its banks are free
(log 114). -/
def State.asyncTry (s : State) (n who : Nat) (rows : List Nat) : State × Bool :=
  let c := s.core n
  let at_ := c.cclk - 1
  let banks := (rows.map bankOf).eraseDups
  if !s.counted n || c.cclk == 0 then (s, true)
  else match banks.find? (fun b => c.asyncMeets at_ b who != 0) with
    | none => (s.onCore n (fun c => banks.foldl (fun c b => c.takes at_ b who) c), true)
    | some b =>
      if c.waits.any (fun w => w.bank == b && w.who == who && w.at_ == at_) then (s, false)
      else
        let m := c.asyncMeets at_ b who
        ((s.bump (.sill n) (0x200 + 0x40 * b + (if m = 3 then 0x20 else 0x18))).onCore n (fun c => c.loses at_ b who (m == 2)), false)

/-- The rows of a byte range of a sill. -/
def sillRows (a len : Nat) : List Nat := fromN (a % 0x400000 / 512) ((a + len - 1) / 512 + 1 - a / 512)

/-- A try of the bench of quarry n for what a command touches of sills (R192): its own core's by the bench path, another's by the mesh port. The
accesses of one command to one bank take it once (log 114). -/
def State.benchTries (s : State) (n : Nat) (ranges : List (Nat × Nat)) : State × Bool :=
  ((ranges.filterMap (fun r => sillOf r.1)).eraseDups).foldl (fun acc o =>
    if acc.2 then
      (acc.1.catchUp o).asyncTry o (if o = n then benchPath else meshPort)
        ((ranges.filter (fun r => sillOf r.1 == some o)).flatMap (fun r => sillRows r.1 r.2))
    else acc) (s, true)

/-- The first CCLK, from one on, in which a bank of a core has no scrub reservation (fuel: the reservations). -/
def Core.freeFor (c : Core) (bank : Nat) : Nat → Nat → Nat
  | 0, t => t
  | k + 1, t => if c.resv.any (fun r => r.when == t && r.bank == bank) then Core.freeFor c bank k (t + 1) else t

/-- A scrub access of a bank, reserved at least 130 CCLK ahead on a core whose CCLK are counted (R188). -/
def State.scrubReserve (s : State) (n bank : Nat) : State :=
  if s.counted n then
    s.onCore n (fun c => { c with resv := c.resv ++ [⟨c.freeFor bank c.resv.length (c.cclk + 130), bank, true⟩] })
  else s

end Sys2Proof.Machine
end

