-- ==== Sys2Proof/Machine/StreamOps.lean ====
section
/-! DEFINITION. Stream descriptors and their byte sequences (R206 to R215), what a stream asks for next and whether it may
(R216 to R224), and the filling and draining of its ring (R211, R212). -/

namespace Sys2Proof.Machine

/-! ### Progress -/

/-- The least offset not covered by completed pieces (fuel: their number). -/
def gapFrom (got : List (Nat × Nat)) : Nat → Nat → Nat
  | 0, off => off
  | k + 1, off =>
    match got.find? (fun g => g.1 == off) with
    | some g => gapFrom got k (off + g.2)
    | none => off

/-- The position of R226: the lowest offset not completed. -/
def Strm.position (x : Strm) : Nat := gapFrom x.got x.got.length 0

/-- The requests of a started stream that are in flight. -/
def State.strmFlight (s : State) (n : Nat) (x : Strm) (k : ReqKind) : List Req :=
  s.flight.filter (fun r => r.core == n && r.serial == x.serial && r.kind == k)

/-- The lowest offset neither completed nor in flight. -/
def State.nextOff (s : State) (n : Nat) (x : Strm) : Nat :=
  let all := x.got ++ (s.strmFlight n x .data).map (fun r => (r.off, r.len))
  gapFrom all all.length 0

/-- The format descriptor of a SCALE_EN stream, read at its start. -/
def Strm.fmt (x : Strm) : Option TDesc := parseTDesc x.tdesc

/-- Scale bytes per ring row of a SCALE_EN stream: S of R208. -/
def Strm.scales (x : Strm) : Nat :=
  match x.fmt with
  | some d => max 1 d.fmt.scaleBytes
  | none => 1

/-- Scale bytes that a stream carries in all, numbered S to a ring row (R212). -/
def Strm.scaleTotal (x : Strm) : Nat := scaleRows x.raw * x.scales

/-- The lowest scale byte not completed. -/
def Strm.scaleDone (x : Strm) : Nat := gapFrom (x.scaleGot.map (fun r => (r, 1))) x.scaleGot.length 0

/-- The lowest scale byte neither completed nor in flight. -/
def State.nextScale (s : State) (n : Nat) (x : Strm) : Nat :=
  let all := x.scaleGot.map (fun r => (r, 1)) ++ (s.strmFlight n x .scale).map (fun r => (r.off, 1))
  gapFrom all all.length 0

/-- Whether a started stream has issued its last request (R204). -/
def State.allIssued (s : State) (n : Nat) (x : Strm) : Bool :=
  if dMode x.raw = 2 then decide (dTotal x.raw ≤ 512 * x.win)
  else decide (dTotal x.raw ≤ s.nextOff n x) && decide (x.scaleTotal ≤ s.nextScale n x)

/-! ### What comes next -/

/-- What a stream's next offset asks for: bytes at an address, zeros up to the end of a row, an index fetch, or nothing that may be read
(R210, R213). -/
inductive Want where
  | bytes (off len addr : Nat)
  | zeros (off len : Nat)
  | index (first addr : Nat)
  | overrun (off addr : Nat)
  deriving DecidableEq, Repr

/-- The piece of a position at an address that holds an offset: cut at 512-byte boundaries of the address (R216). -/
def pieceAt (span base off : Nat) : Want :=
  let w := off % span
  let a := base + w
  let back := if a % 512 ≤ w then a % 512 else w
  .bytes (off - back) (min (512 - (a - back) % 512) (span - (w - back))) (a - back)

/-- What offset off of a LINEAR or GATHER stream asks for (R210, R213). -/
def Strm.want (x : Strm) (off : Nat) : Want :=
  let r := x.raw
  let span := dSpan r
  let p := off / span
  let at_ (base : Nat) : Want :=
    if dAddr r ≤ base ∧ base + span ≤ dLimit r then
      if dScale r && !(decide (dTbase r ≤ base) && (base + off % span - dTbase r) % 512 == off % 512) then .overrun off base
      else pieceAt span base off
    else .overrun off base
  if dMode r = 0 then at_ (linAddr r p)
  else
    let per := 64 / dIdxSize r
    let first := p / per * per
    if x.idxBase = some first then
      let v := x.idx.getD (p - first) 0
      if v = 2 ^ (8 * dIdxSize r) - 1 then .zeros off (min (512 - off % 512) (span - off % span)) else at_ (dAddr r + v * dStride r 0)
    else .index first (dStride r 1 + first * dIdxSize r)

/-- W of R212: SCALE_KB rounded up to a multiple of 64. -/
def dPitch (r : List Byte) : Nat := roundUp (dKb r) 64

/-- Address of the first scale byte of ring row k (R212); the others follow at the pitch. -/
def Strm.scaleAddr (x : Strm) (d : TDesc) (k : Nat) : Nat :=
  let off := 512 * k
  let a := linAddr x.raw (off / dSpan x.raw) + off % dSpan x.raw
  let i := (a - dTbase x.raw) / 512
  d.scaleAddr + d.fmt.scaleBytes * (i / dKb x.raw) * dPitch x.raw + i % dKb x.raw

/-! ### Ring positions, demand, deadline -/

/-- The ring position, uncounted by its length, of the next slot of a ring that a queue fills or drains. -/
def SQ.front (q : SQ) (head : Nat) : Nat :=
  match q.run.find? (fun x => x.head == head) with
  | some x => x.start + x.slots
  | none => 0

/-- The same of a companion ring. -/
def SQ.cfront (q : SQ) (head : Nat) : Nat :=
  match q.run.find? (fun x => dScale x.raw && dComp x.raw == head) with
  | some x => x.cstart + x.cslots
  | none => 0

/-- Ring slots that bytes of a descriptor touch: first and last, as uncounted positions. -/
def State.slotSpan (s : State) (n : Nat) (x : Strm) (off len : Nat) : Nat × Nat :=
  let b := s.slotBytes n x.head
  (x.start + off / b, x.start + (off + len - 1) / b)

/-- Whether the slots that bytes touch may be written or read (R224): within one lap of the ring, empty or FULL. -/
def State.slotsReady (s : State) (n : Nat) (q : SQ) (x : Strm) (off len : Nat) : Bool :=
  let (lo, hi) := s.slotSpan n x off len
  decide (hi < q.front x.head + sLen (s.slot n x.head)) &&
    (fromN lo (hi + 1 - lo)).all (fun p => s.slotFull n x.head p == dOut x.raw)

/-- Whether any of some bytes of a descriptor stand at the demand position (R223): outbound always; inbound in the slot at CONS_POS while it is
not FULL, which is then the next that the ring's streams fill. -/
def State.atDemand (s : State) (n : Nat) (q : SQ) (x : Strm) (off len : Nat) : Bool :=
  if dOut x.raw then true
  else
    let (lo, hi) := s.slotSpan n x off len
    decide (lo ≤ q.front x.head) && decide (q.front x.head ≤ hi) && !s.slotFull n x.head (sCons (s.slot n x.head))

/-- Whether a scale byte stands at the demand position: one of the companion slot at CONS_POS while that is not FULL. -/
def State.scaleDemand (s : State) (n : Nat) (q : SQ) (x : Strm) (k : Nat) : Bool :=
  let h := dComp x.raw
  x.cstart + k / x.scales / sRows (s.slot n x.head) == q.cfront h && !s.slotFull n h (sCons (s.slot n h))

/-- Whether an index fetch stands at the demand position: an element that it serves does (R223). -/
def State.indexDemand (s : State) (n : Nat) (q : SQ) (x : Strm) (first : Nat) : Bool :=
  let span := dSpan x.raw
  s.atDemand n q x (first * span) (min (64 / dIdxSize x.raw * span) (dTotal x.raw - first * span))

/-- Whether a request of a kind, with an offset of its own and a length, stands at the demand position (R223). -/
def State.kindDemand (s : State) (n : Nat) (q : SQ) (x : Strm) (k : ReqKind) (off len : Nat) : Bool :=
  match k with
  | .data => s.atDemand n q x off len
  | .scale => s.scaleDemand n q x off
  | .index => s.indexDemand n q x off
  | .fetch => true

/-- FULL slots that stand before the next slot of an inbound ring. -/
def State.fullAhead (s : State) (n : Nat) (q : SQ) (head : Nat) : Nat :=
  let v := s.slot n head
  if s.slotFull n head (sCons v) then
    let d := (q.front head % sLen v + sLen v - sCons v) % sLen v
    if d = 0 then sLen v else d
  else 0

/-- Empty slots of a ring. -/
def State.emptySlots (s : State) (n head : Nat) : Nat :=
  (List.range (sLen (s.slot n head))).countP (fun p => !s.slotFull n head p)

/-- The deadline of a request for bytes at an offset (R220). -/
def State.deadline (s : State) (n : Nat) (q : SQ) (x : Strm) (off : Nat) : Nat :=
  let now := s.time
  if dRate x.raw = 0 || !bitAt (s.preg (.core n) 0x300) 1 then (now + 32767) % 65536
  else
    let rows := sRows (s.slot n x.head)
    let ahead := if dOut x.raw then s.emptySlots n x.head * rows
      else s.fullAhead n q x.head * rows + (x.start * rows + off / 512 - q.front x.head * rows)
    (now + min (ahead * dRate x.raw / 32) 32767) % 65536

/-- The order of deadlines at a time (R220): ticks still to go, none for one that has passed. -/
def untilDue (now d : Nat) : Nat :=
  let t := (d + 65536 - now % 65536) % 65536
  if t < 32768 then t else 0

/-! ### Gates, tags, credits -/

/-- Whether a bucket tag's gate is open to quarry reads (R222, Table 9.6). -/
def State.gateOpen (s : State) (j t : Nat) : Bool := (s.tag j t).st == .idle || (s.tag j t).st == .armed

/-- Global number of a stream queue (Table 7.6). -/
def gq (n q : Nat) : Nat := 224 * n + q

/-- Host reads that may be outstanding (R354). -/
def State.readCredits (s : State) : Nat := if s.hif.tenBit || s.hif.flit then 1024 else 256

/-- A free transaction number of a port (R335). -/
def Port.freeTxn (p : Port) : Option Nat := (List.range 512).find? (fun k => (tfind p.txns k).isNone)

/-- A request accepted by a port under a free transaction number (R335). -/
def State.sendTxn (s : State) (p k : Nat) (o : TxnOwner) (m : Msg) : State :=
  (s.onPort p (fun q => { q with txns := tset q.txns k { owner := o, dst := m.dst, epoch := q.epoch, at_ := s.time } })).queueMsg p
    { m with txn := k + (if (s.port p).epoch then 2 ^ 15 else 0) }

/-- What stands between a request and its issue (R216 to R218): 0 nothing, 1 a tag or a credit alone, 2 a bank's quota alone, 3 both, 4
that a remote sill request left within 4 CCLK (R196). -/
def State.lacks (s : State) (n q space peer : Nat) (write : Bool) (addr : Nat) : Nat :=
  let own (r : Req) : Bool := r.core == n && r.space == 0 && quarryOf r.addr == some n
  if space = 0 ∧ quarryOf addr = some n then
    (if 64 ≤ s.ownTags n then 1 else 0) + (if 16 ≤ s.flight.countP (fun r => own r && qBank r.addr == qBank addr) then 2 else 0)
  else if space = 1 ∧ s.counted n ∧ (s.core n).cclk < (s.core n).remoteAt then 4
  else if 32 ≤ s.remoteTags n then 1
  else if space = 2 ∧ !write ∧ s.readCredits ≤ s.flight.countP (fun r => r.space == 2 && !r.write) then 1
  else if space = 3 then
    match s.routePort (gq n q) peer with
    | some p => if ((s.port p).freeTxn).isNone then 1 else 0
    | none => 0
  else 0

/-- The tag number of a new request of core n: the least not in use. -/
def State.newTag (s : State) (n : Nat) : Nat :=
  ((List.range 97).find? (fun k => !s.flight.any (fun r => r.core == n && r.tag == k))).getD 96

/-! ### Rings: bytes in and out -/

/-- Address in the sill of a byte of a descriptor's sequence (R211). -/
def State.seqAddr (s : State) (n : Nat) (x : Strm) (off : Nat) : Nat :=
  let b := s.slotBytes n x.head
  rowAddr n (sBuf (s.ringSlot n x.head (x.start + off / b))) + off % b

/-- Sequence bytes cut at ring rows: offset within the bytes, sill address, length (fuel: more than the rows). -/
def State.seqPieces (s : State) (n : Nat) (x : Strm) (off len : Nat) : List (Nat × Nat × Nat) :=
  (List.range (len / 512 + 2)).filterMap (fun k =>
    let lo := if k = 0 then off else off / 512 * 512 + 512 * k
    let hi := min (off / 512 * 512 + 512 * (k + 1)) (off + len)
    if lo < hi then some (lo - off, s.seqAddr n x lo, hi - lo) else none)

/-- Sill rows that sequence bytes lie in. -/
def State.seqRows (s : State) (n : Nat) (x : Strm) (off len : Nat) : List Nat := (s.seqPieces n x off len).map (fun p => rowOf p.2.1)

/-- Sequence bytes written into the ring's buffers, in whole rows (R183). -/
def State.seqPut (s : State) (n : Nat) (x : Strm) (off : Nat) (bs : List Byte) : State :=
  (s.seqPieces n x off bs.length).foldl (fun (s : State) p => s.putRow p.2.1 ((bs.drop p.1).take p.2.2)) s

/-- Sequence bytes read from the ring's buffers by an engine (R187): state, bytes, worst status. -/
def State.seqGet (s : State) (n : Nat) (x : Strm) (off len : Nat) : State × List Byte × Nat :=
  (s.seqPieces n x off len).foldl (fun acc p =>
    let (s, bs, st) := acc
    let (s, b, t) := s.sillRead n p.2.1 p.2.2 1 (s.core n).job (if (s.core n).job.isSome then 1 else 0)
    (s, bs ++ b, max st t)) (s, [], 0)

/-- Address of scale byte k in the companion ring (R48, R75). -/
def State.scaleAt (s : State) (n : Nat) (x : Strm) (k : Nat) : Nat :=
  let rows := sRows (s.slot n x.head)
  let row := k / x.scales
  let e := s.ringSlot n (dComp x.raw) (x.cstart + row / rows)
  rowAddr n (sBuf e) + x.scales * (row % rows) + k % x.scales

/-- A started stream of a queue updated. -/
def State.onStrm (s : State) (n q serial : Nat) (f : Strm → Strm) : State :=
  s.onSq n q (fun x => { x with run := x.run.map (fun d => if d.serial = serial then f d else d) })

/-- Slots of the first stream of a queue set FULL or cleared, as far as its bytes are completed, in ring order (R211). -/
def State.fillRing (s : State) (n q : Nat) : Nat → State
  | 0 => s
  | k + 1 =>
    match (s.sq n q).run with
    | [] => s
    | x :: _ =>
      let b := s.slotBytes n x.head
      let total := dTotal x.raw
      let hi := min ((x.slots + 1) * b) total
      if x.slots < s.slotTotal n x ∧ hi ≤ x.position then
        let at_ := x.start + x.slots
        let s : State :=
          if dOut x.raw then (s.setFull n x.head at_ false).advCons n x.head 1
          else
            let s : State := if total < (x.slots + 1) * b then
                s.put (s.seqAddr n x hi) (zeros ((x.slots + 1) * b - hi)) else s
            (s.setFull n x.head at_ true).advProd n x.head 1
        State.fillRing (s.onStrm n q x.serial (fun d => { d with slots := d.slots + 1 })) n q k
      else s

/-- Companion slots of the first stream of a queue set FULL (R212). -/
def State.fillComp (s : State) (n q : Nat) : Nat → State
  | 0 => s
  | k + 1 =>
    match (s.sq n q).run with
    | [] => s
    | x :: _ =>
      let rows := sRows (s.slot n x.head)
      let total := scaleRows x.raw
      let done := x.scaleDone / x.scales
      let hi := min ((x.cslots + 1) * rows) total
      if x.cslots * rows < total ∧ hi ≤ done then
        let h := dComp x.raw
        let at_ := x.cstart + x.cslots
        let w := s.ringSlot n h at_
        let used := 512 * sRows w * (hi - x.cslots * rows) / rows
        let s : State := if hi < (x.cslots + 1) * rows then s.put (rowAddr n (sBuf w) + used) (zeros (512 * sRows w - used)) else s
        let s : State := (s.setFull n h at_ true).advProd n h 1
        State.fillComp (s.onStrm n q x.serial (fun d => { d with cslots := d.cslots + 1 })) n q k
      else s

/-! ### Records and completion (R211, R229) -/

/-- Detail of a stream record (Table 7.6). -/
def strmDetail (n q seq pos addr : Nat) : List Byte :=
  natLe 2 (gq n q) ++ zeros 2 ++ natLe 4 seq ++ natLe 8 (pos % 2 ^ 40) ++ natLe 8 addr

/-- A stream record. -/
def State.strmRecord (s : State) (n q status seq pos addr : Nat) : State :=
  match (s.core n).job with
  | some j => s.post (s.job j).cqStream status 0x01 (some j) 0xFFFF 0 (strmDetail n q seq pos addr)
  | none => s

/-- Whether a stream has filled or drained its last slot. -/
def State.strmDone (s : State) (n : Nat) (x : Strm) : Bool :=
  decide (s.slotTotal n x ≤ x.slots) && decide (scaleRows x.raw ≤ x.cslots * sRows (s.slot n x.head))

/-- Streams of a queue whose last slot is done complete, oldest first (R204, R211). -/
def State.completeStrms (s : State) (n q : Nat) : Nat → State
  | 0 => s
  | k + 1 =>
    let s : State := (s.fillRing n q 64).fillComp n q 64
    match (s.sq n q).run with
    | [] => s
    | x :: rest =>
      if s.strmDone n x then
        let s : State := (s.onSq n q (fun v => { v with run := rest })).bump (.core n) 0x400
        let s : State := if dNotify x.raw then s.strmRecord n q (if x.corr then 1 else 0) (dSeq x.raw) (dTotal x.raw) 0 else s
        State.completeStrms s n q k
      else s

/-- A stream's descriptor completes with a failing status (R208, R210, R225): its record, the queue's other descriptors
as they stand. One whose predecessor has not completed does not complete before the teardown that follows (R204, log 118). -/
def State.failStrm (s : State) (n q : Nat) (x : Strm) (status addr : Nat) : State :=
  if ((s.sq n q).run.head?).map Strm.serial != some x.serial then s
  else ((s.onSq n q (fun v => { v with run := v.run.filter (fun d => d.serial != x.serial) })).bump (.core n) 0x400).strmRecord n q
    status (dSeq x.raw) x.position addr

/-- A stream fails with INTERNAL: the descriptor completes, class 14, the job is torn down (R208, R210, R225). -/
def State.strmFault (s : State) (n q : Nat) (x : Strm) (check addr : Nat) : State :=
  let job := (s.core n).job
  (s.failStrm n q x 0x7F addr).progFault job (Page.core n).unit 0x7F n (s.core n).pc check q addr

end Sys2Proof.Machine
end

