-- ==== Sys2Proof/Machine/Streams.lean ====
section
/-! DEFINITION. The stream engines (chapter 07): descriptor start and checks, issue, window entries, replies, halt and
resume, page requests and translations (R372 to R374), doorbells (R230). -/

namespace Sys2Proof.Machine

/-! ### Start and checks (R204, R208, R214, R215, R460) -/

/-- Whether the engines of a core issue: its job holds it and is not stopped (R232). -/
def State.engineOn (s : State) (n : Nat) : Bool :=
  (s.core n).life.st == .opened &&
  match (s.core n).job with
  | some j => (s.job j).st == .running || (s.job j).st == .ended
  | none => false

/-- Whether every bit of a descriptor that its mode reserves is 0 (R206, R213, R215). -/
def strmReserved (r : List Byte) : Bool :=
  let z (off n : Nat) : Bool := byteFld r off n == 0
  let hi (off : Nat) : Bool := z (off + 6) 2
  fld (dCtrl r) 19 0 == 0 && fld (byteFld r 4 4) 31 26 == 0 && fld (byteFld r 4 4) 15 10 == 0 && fld (byteFld r 8 4) 31 12 == 0 &&
  match dMode r with
  | 2 => z 0x10 0x20 && fld (byteFld r 0x34 4) 31 24 == 0 && fld (byteFld r 0x44 4) 31 29 == 0 &&
      fld (byteFld r 0x44 4) 15 13 == 0 && fld (byteFld r 0x48 4) 31 13 == 0 && z 0x4C 0x34
  | m =>
    (dSpace r == 2 || (hi 0x10 && hi 0x18)) && fld (byteFld r 0x20 8) 63 28 == 0 && z 0x7C 4 &&
    (if m = 1 then z 0x38 0x10 && hi 0x48 && hi 0x50 && z 0x58 0x18 && z 0x28 8 && z 0x70 8 && z 0x78 4
     else hi 0x28 && hi 0x48 && hi 0x50 && hi 0x58 && hi 0x60 && hi 0x68 && hi 0x70 && fld (byteFld r 0x78 4) 31 20 == 0)

/-- Whether a descriptor's range lies in the mirror. -/
def dMirror (r : List Byte) : Bool := dSpace r == 0 && decide (mirrorBase ≤ dAddr r)

/-- The bound of Table 7.3 and, in the mirror, of R460. -/
def State.rangeOk (s : State) (n : Nat) (r : List Byte) : Bool :=
  let a := dAddr r
  let l := dLimit r
  match dSpace r with
  | 0 =>
    if mirrorBase ≤ a then
      decide (l ≤ mirrorEnd) && dMode r == 0 && dSpan r == 64 && !dLc r && !dGate r && !dScale r &&
        (List.range ((l - 1) / 0x1000 + 1 - a / 0x1000)).all (fun i => s.mirrorPage ((a / 0x1000 + i) * 0x1000 - mirrorBase))
    else decide (l ≤ quarryEnd)
  | 1 => sillOf a != none && sillOf a == sillOf (l - 1) && sillOf a != some n
  | 2 => true
  | _ => decide (l ≤ 2 ^ 48)

/-- The ring checks of R208. -/
def State.strmRing (s : State) (n q : Nat) (r : List Byte) : Bool :=
  let v := s.slot n (dHead r)
  s.ringOk n (dHead r) && sOut v == dOut r && sAgent v == 0 && sAgentId v == q

/-- The SCALE_EN checks of R208, the format descriptor given, read at its address as it stands, aligned or not (log 130). -/
def State.strmScale (s : State) (n : Nat) (r td : List Byte) : Bool :=
  let v := s.slot n (dHead r)
  let w := s.slot n (dComp r)
  dMode r == 0 && !dOut r && dSpace r == 0 && sCompEn v && sComp v == dComp r && s.ringOk n (dComp r) &&
  match parseTDesc td with
  | some d => d.scaleBytes != 0 && sRows w * 512 == sRows v * d.scaleBytes && decide (0 < dKb r)
  | none => false

/-- Every check of R208 and R215. -/
def State.strmOk (s : State) (n q : Nat) (r td : List Byte) : Bool :=
  strmReserved r && s.strmRing n q r &&
  match dMode r with
  | 2 =>
    let g := byteFld r 0x40 4
    !dOut r && dSpace r == 0 && !dScale r && sRows (s.slot n (dHead r)) == 1 && (wP r == 8 || wP r == 16 || wP r == 32) &&
      wNpix r != 0 && fld g 15 12 != 0 && fld g 11 8 != 0 && fld g 7 4 != 0 && fld g 3 0 != 0
  | m =>
    let unit := if dSpace r = 1 then 512 else 64
    decide (m ≤ 1) && (m == 0 || !dOut r) && decide (0 < dSpan r) && decide (dSpan r ≤ 65536) && dSpan r % unit == 0 &&
      (if m = 1 then dCount r 0 != 0 else (List.range 5).all (fun d => dCount r d != 0)) &&
      decide (dAddr r < dLimit r) && dAddr r % unit == 0 && dLimit r % unit == 0 && s.rangeOk n r &&
      (!dScale r || s.strmScale n r td)

/-- A direct request of a core's engines in admission at its own quarry: of the running job alone (R247). -/
def State.ownEnter (s : State) (n a len : Nat) : State × Nat :=
  if (s.quarry n).life.st ≠ .opened then (s, 0x10)
  else if s.runSlot.isSome && s.runSlot == (s.core n).job then s.directEnter n (s.runSlot.getD 4) a len
  else (s.bump (.quarry n) 0x80, 0x60)

/-- A read by a core's engine of its own sill, its own quarry or a window: state, status, bytes (R209, R247, R250). -/
def State.coreRead (s : State) (n a len : Nat) : State × Nat × List Byte :=
  let job := (s.core n).job
  if sillOf a = some n then
    let (s, bs, st) := s.sillRead n a len 1 job 1
    (s, st, bs)
  else if quarryOf a = some n then
    match s.ownEnter n a len with
    | (s, 0) =>
      let (s, bs, st) := s.quarryRead n a len 0 job 1
      (s, st, bs)
    | (s, st) => (s, st, [])
  else if (quarryOf a).isSome then s.winRead .core a len
  else (s, 0x7F, [])

/-- The gather contexts of an engine not in use (R214). -/
def State.freeCtx (s : State) (n q : Nat) : Option Nat :=
  let used := (s.core n).sq.flatMap (fun e => e.2.run.filterMap Strm.ctx)
  (fromN (4 * (q % 4)) 4).find? (fun c => !used.contains c)

/-- The started form of a descriptor (R204): on each of its rings it continues after the slots of the last started descriptor of the queue
that uses the ring. -/
def State.newStrm (s : State) (n q : Nat) (r td : List Byte) : Strm :=
  let run := (s.sq n q).run.reverse
  let h := dHead r
  let v := s.slot n h
  let c := dComp r
  let start := match run.find? (fun p => p.head == h) with
    | some p => p.start + s.slotTotal n p
    | none => if dOut r then sCons v else sProd v
  let cstart := match run.find? (fun p => dScale p.raw && dComp p.raw == c) with
    | some p => p.cstart + ceilDiv (scaleRows p.raw) (sRows (s.slot n p.head))
    | none => sProd (s.slot n c)
  { serial := (s.core n).serial, raw := r, head := h, start := start, tdesc := td, cstart := cstart
    ctx := if dMode r = 1 then s.freeCtx n q else none }

/-- STREAM_DESCRIPTOR_START (R204, R208, R214). -/
def State.startStrm (s : State) (n q : Nat) : State :=
  let x := s.sq n q
  match x.pend with
  | [] => s
  | r :: rest =>
    let ready := match x.run.getLast? with
      | some p => s.allIssued n p
      | none => true
    if !s.engineOn n || x.halt != 0 || x.stopping || !ready || (dMode r == 1 && (s.freeCtx n q).isNone) then s
    else
      let (s1, st, td) := if dScale r then s.coreRead n (dTdesc r) 64 else (s, 0, [])
      let bad := decide (1 < st) || !s.strmOk n q r td
      if bad && !x.run.isEmpty then s
      else
        let d := s1.newStrm n q r td
        let s2 : State := (s1.onSq n q (fun v => { v with pend := rest, run := v.run ++ [d] })).onCore n (fun c => { c with serial := c.serial + 1 })
        if st = 0x40 then (s2.failStrm n q d 0x40 (dTdesc r)).tearJob (s2.core n).job 1
        else if bad then s2.strmFault n q d 6 (dAddr r)
        else s2

/-! ### Issue (R214, R216 to R218, R224) -/

/-- A request that a stream or the instruction fetch could make now: its queue and stream, what it carries, its deadline, and what stands
between it and its issue. -/
structure Cand where
  q : Nat
  x : Strm
  kind : ReqKind
  zero : Bool := false
  off : Nat
  len : Nat
  addr : Nat
  space : Nat := 0
  due : Nat := 0
  lc : Bool := false
  block : Nat := 0
  deriving DecidableEq, Repr

/-- Offset in the byte sequence of what a request of a stream carries. -/
def Strm.posOf (x : Strm) (k : ReqKind) (off : Nat) : Nat :=
  match k with
  | .data => off
  | .scale => 512 * (off / x.scales)
  | .index => off * dSpan x.raw
  | .fetch => off

/-- Whether R224 allows a request that is at the demand position or not: run-ahead, unless an earlier one was dropped that has not since
become the demand position. -/
def State.aheadOk (s : State) (n : Nat) (q : SQ) (x : Strm) (demand : Bool) (pos : Nat) : Bool :=
  demand || (bitAt (s.preg (.core n) 0x300) 0 &&
    !x.dropped.any (fun d => decide (d.pos ≤ pos) && !s.kindDemand n q x d.kind d.off 1))

/-- Whether a stream's gate is shut to a quarry read (R222). -/
def State.gateShut (s : State) (n : Nat) (x : Strm) : Bool := dGate x.raw && !s.gateOpen ((s.core n).job.getD 0) (dGateTag x.raw)

/-- The data or index request of a started stream (R224). An index list in the core's own sill needs no tag (R216). -/
def State.dataCand (s : State) (n qn : Nat) (q : SQ) (x : Strm) : List Cand :=
  let off := s.nextOff n x
  let r := x.raw
  let due := s.deadline n q x off
  if dMode r = 2 ∨ dTotal r ≤ off then []
  else match x.want off with
    | .bytes o l a =>
      let gated := s.gateShut n x && dSpace r == 0 && !dOut r && (quarryOf a).isSome
      if !gated && s.slotsReady n q x o l && s.aheadOk n q x (s.atDemand n q x o l) o &&
          (x.ctx.isNone || decide ((s.strmFlight n x .data).length < 8)) then
        [{ q := qn, x := x, kind := .data, off := o, len := l, addr := a, space := dSpace r, due := due, lc := dLc r
           block := s.lacks n qn (dSpace r) (dPeer r) (dOut r) a }]
      else []
    | .zeros o l =>
      if s.slotsReady n q x o l then [{ q := qn, x := x, kind := .data, zero := true, off := o, len := l, addr := 0, due := due, lc := dLc r }] else []
    | .index f a =>
      let own := sillOf a == some n
      if !(s.gateShut n x && !own) && (s.strmFlight n x .index).isEmpty && s.slotsReady n q x off 1 &&
          s.aheadOk n q x (s.indexDemand n q x f) (x.posOf .index f) then
        [{ q := qn, x := x, kind := .index, off := f, len := 64, addr := a, due := due, lc := dLc r
           block := if own then 0 else s.lacks n qn 0 0 false a }]
      else []
    | .overrun _ _ => []

/-- The scale request of a started stream (R212, R216, R224): the 64-byte unit of its next scale byte (log 119). -/
def State.scaleCand (s : State) (n qn : Nat) (q : SQ) (x : Strm) : List Cand :=
  let k := s.nextScale n x
  let row := k / x.scales
  let h := dComp x.raw
  let at_ := x.cstart + row / sRows (s.slot n x.head)
  match x.fmt with
  | none => []
  | some d =>
    let past := match x.want (512 * row) with
      | .overrun _ _ => true
      | _ => false
    if x.scaleTotal ≤ k || s.gateShut n x || past then []
    else if decide (at_ < q.cfront h + sLen (s.slot n h)) && !s.slotFull n h at_ &&
        s.aheadOk n q x (s.scaleDemand n q x k) (x.posOf .scale k) then
      let a := x.scaleAddr d row + k % x.scales * dPitch x.raw
      [{ q := qn, x := x, kind := .scale, off := k, len := 64, addr := unitStart a, due := s.deadline n q x (512 * row), lc := dLc x.raw
         block := s.lacks n qn 0 0 false a }]
    else []

/-- The queue number that requests of the instruction fetch carry: none of the 160 (R202). -/
def fetchQueue : Nat := 160

/-- The half of the instruction buffer that is being filled: of two, that of the PC's block. -/
def Core.filling (c : Core) : Option IHalf :=
  let hs := (c.h0.toList ++ c.h1.toList).filter (fun h => !h.filled && h.bad.isNone && decide (h.sent < 64))
  match hs.find? (fun h => h.block == c.pc / 1024) with
  | some h => some h
  | none => hs.head?

/-- The next request of the instruction fetch (R151, R202, R216, R221); it has no rate, and its deadline is the least urgent (log 120). -/
def State.fetchCand (s : State) (n : Nat) : List Cand :=
  match (s.core n).filling with
  | some h =>
    let a := (s.core n).code + 32768 * h.block + 512 * h.sent
    [{ q := fetchQueue, x := { serial := h.block, raw := [], head := 0, start := 0 }, kind := .fetch, off := 512 * h.sent, len := 512, addr := a
       due := (s.time + 32767) % 65536, lc := true, block := s.lacks n fetchQueue 0 0 false a }]
  | none => []

/-- What the started streams of a queue could ask for now; nothing while it is halted or stops (R205, R226). -/
def State.queueCands (s : State) (n q : Nat) : List Cand :=
  let x := s.sq n q
  if x.halt != 0 || x.stopping then [] else x.run.flatMap (fun d => s.dataCand n q x d ++ s.scaleCand n q x d)

/-- The candidates of an engine: the fetch's on engine 0, then by ascending queue (R202, R218). -/
def State.cands (s : State) (n e : Nat) : List Cand :=
  (if e = 0 then s.fetchCand n else []) ++ (s.core n).sq.flatMap (fun ent => if ent.1 % 4 != e then [] else s.queueCands n ent.1)

/-- The context that an engine's gather port serves: round robin among those with an eligible request (R214, log 121). -/
def State.gatherTurn (s : State) (n e : Nat) (cs : List Cand) : Option Nat :=
  let last := tget 3 (s.core n).gport e
  let ready := (cs.filter (fun c => c.block == 0)).filterMap (fun c => c.x.ctx)
  ((List.range 4).map (fun i => 4 * e + (last + 1 + i) % 4)).find? ready.contains

/-- The eligible requests of an engine: those of its streams, and that of the context whose turn it is. -/
def State.eligible (s : State) (n e : Nat) (cs : List Cand) : List Cand :=
  let turn := s.gatherTurn n e cs
  cs.filter (fun c => c.block == 0 && (c.x.ctx.isNone || c.x.ctx == turn))

/-- Whether one candidate goes before another: earlier deadline, then the latency-critical class (R218). -/
def Cand.before (now : Nat) (a b : Cand) : Bool :=
  decide (untilDue now a.due < untilDue now b.due) || (untilDue now a.due == untilDue now b.due && a.lc && !b.lc)

/-- The candidate served: the first of the best (R218). -/
def bestCand (now : Nat) : List Cand → Option Cand
  | [] => none
  | c :: cs =>
    match bestCand now cs with
    | none => some c
    | some d => if d.before now c then some d else some c

/-- The overrun that an engine meets at a demand position: queue, stream, address (R210). -/
def State.overrun (s : State) (n e : Nat) : Option (Nat × Strm × Nat) :=
  (s.core n).sq.findSome? (fun ent =>
    if ent.1 % 4 != e || ent.2.halt != 0 || ent.2.stopping then none
    else match ent.2.run with
      | [] => none
      | x :: _ =>
        let off := s.nextOff n x
        if dMode x.raw = 2 || decide (dTotal x.raw ≤ off) || x.position != off || !s.atDemand n ent.2 x off 1 || !s.slotsReady n ent.2 x off 1 then none
        else match x.want off with
          | .overrun _ a => some (ent.1, x, a)
          | _ => none)

/-- The request of a candidate. -/
def State.reqOf (s : State) (n : Nat) (c : Cand) (data : List Byte) : Req :=
  { core := n, tag := s.newTag n, queue := c.q, serial := c.x.serial, kind := c.kind, off := c.off, len := c.len, addr := c.addr
    space := c.space, write := c.kind == .data && dOut c.x.raw, lc := c.lc, deadline := c.due, epoch := (s.core n).epoch, data := data }

/-- A request put in flight. -/
def State.fly (s : State) (r : Req) : State := { s with flight := s.flight ++ [r] }

/-- The translation of a HOST address under a PASID (R373). -/
def State.translated (s : State) (pasid addr : Nat) (write : Bool) : Bool :=
  s.hif.tlb.any (fun t => t.pasid == pasid && t.page == addr / 4096 && (if write then t.w else t.r))

/-- A HOST request leaves (R372, R373): denied without a PASID, translated from the cache, or a translation asked for. -/
def State.flyHost (s : State) (r : Req) : State :=
  match (s.core r.core).job.bind s.pasidOf with
  | none => s.fly { r with st := .served, status := 0x60 }
  | some p =>
    if s.translated p r.addr r.write then
      let s : State := s.fly { r with st := .admitted }
      if r.write then s else s.send (.hostRead r.addr (some p) r.len)
    else ((s.fly r).bump .hif 0x40).send (.translation p (r.addr / 4096))

/-- A PEER request leaves by its port (R335, R341, R344): a hand-off to a sill, a write or a read. -/
def State.flyPeer (s : State) (r : Req) (dst : Nat) : State :=
  match s.routePort (gq r.core r.queue) dst with
  | none => (s.bump (.port 0) 0xB0).fly { r with st := .served, status := 0x10 }
  | some p =>
    match (s.port p).freeTxn with
    | none => s
    | some k =>
      let hand := r.write && (sillOf r.addr).isSome
      let m : Msg := {
        kind := if hand then 4 else if r.write then 1 else 2
        sub := if hand then (Config.handoffChannel (gq r.core r.queue)).toNat else 0
        key := s.keyOf ((s.core r.core).job.getD 0), src := s.chipId, dst := dst, deadline := r.deadline
        rlen := if r.write then 0 else r.len, addr := r.addr, data := r.data }
      (s.sendTxn p k (.stream r.core r.tag) m).fly { r with via := some (p, k) }

/-- The index buffer of a stream filled (R214). -/
def Strm.takeIndex (x : Strm) (first : Nat) (bs : List Byte) : Strm :=
  { x with idxBase := some first, idx := (chunks (dIdxSize x.raw) bs).map leNat }

/-- A request that reads nothing of the core's own sill sent on its way (R196, R209). -/
def State.sendReq (s : State) (n : Nat) (c : Cand) (data : List Byte) : State :=
  match c.space with
  | 2 => s.flyHost (s.reqOf n c data)
  | 3 => s.flyPeer (s.reqOf n c data) (dPeer c.x.raw)
  | 1 => (s.fly (s.reqOf n c data)).onCore n (fun k => { k with remoteAt := k.cclk + 4 })
  | _ => s.fly (s.reqOf n c data)

/-- Sill rows of the core that a request reads as it is issued. -/
def State.issueRows (s : State) (n : Nat) (c : Cand) : List Nat :=
  if c.kind == .index && sillOf c.addr == some n then sillRows c.addr 64
  else if c.kind == .data && dOut c.x.raw then s.seqRows n c.x c.off c.len else []

/-- One more request of a block issued (R151). -/
def Core.fetchSent (c : Core) (block : Nat) : Core :=
  let f (h : Option IHalf) : Option IHalf := h.map (fun x => if x.block = block ∧ !x.filled then { x with sent := x.sent + 1 } else x)
  { c with h0 := f c.h0, h1 := f c.h1 }

/-- A request issued (R216, R217): where it goes. -/
def State.issueReq (s : State) (n : Nat) (c : Cand) : State :=
  let s : State := s.onStrm n c.q c.x.serial (fun x => { x with dropped := x.dropped.filter (fun d => !(d.kind == c.kind && d.off == c.off)) })
  let s : State := if c.lc then s.bump (.core n) 0x418 c.len else s
  let s : State := if c.x.ctx.isSome then s.bump (.core n) 0x448 else s
  match c.kind with
  | .fetch => (s.fly (s.reqOf n c [])).onCore n (fun k => k.fetchSent c.x.serial)
  | .index =>
    if (quarryOf c.addr).isSome then s.fly (s.reqOf n c [])
    else match s.coreRead n c.addr 64 with
      | (s1, st, bs) =>
        if st ≤ 1 then s1.onStrm n c.q c.x.serial (fun x => { x.takeIndex c.off bs with corr := x.corr || st == 1 })
        else if st = 0x40 then (s1.failStrm n c.q c.x 0x40 c.addr).tearJob (s1.core n).job 1
        else s1.strmFault n c.q c.x 8 c.addr
  | _ =>
    if c.kind == .data && dOut c.x.raw then
      let (s, bs, st) := s.seqGet n c.x c.off c.len
      if st = 0x40 then (s.failStrm n c.q c.x 0x40 (s.seqAddr n c.x c.off)).tearJob (s.core n).job 1
      else
        let s : State := if st = 1 then s.onStrm n c.q c.x.serial (fun x => { x with corr := true }) else s
        s.sendReq n c bs
    else s.sendReq n c []

/-- Zeros written for an index that selects nothing (R213). -/
def State.putZeros (s : State) (n : Nat) (c : Cand) : State :=
  (((s.seqPut n c.x c.off (zeros c.len)).onStrm n c.q c.x.serial (fun x => { x with got := x.got ++ [(c.off, c.len)] })).bump (.core n) 0x408 c.len).completeStrms n c.q 8

/-- The waits of an engine's CCLK counted (R218). -/
def State.countWaits (s : State) (n : Nat) (cs : List Cand) : State :=
  let s : State := if cs.any (fun c => c.block == 1) then s.bump (.core n) 0x438 else s
  if cs.any (fun c => c.block == 2) && !cs.any (fun c => c.block == 0) then s.bump (.core n) 0x440 else s

/-- STREAM_REQUEST_ISSUE (R210, R213, R214, R218): the eligible request of an engine with the earliest deadline; the waits are counted. One that
moves rows of the core's sill first takes their banks (R192). -/
def State.engineIssue (s : State) (n e : Nat) : State :=
  let s : State := s.catchUp n
  if !s.engineOn n then s
  else match s.overrun n e with
  | some (q, x, a) => s.strmFault n q x 7 a
  | none =>
    let cs := s.cands n e
    let s : State := s.countWaits n cs
    match bestCand s.time (s.eligible n e cs) with
    | none => s
    | some c =>
      match s.asyncTry n e (if c.zero then s.seqRows n c.x c.off c.len else s.issueRows n c) with
      | (s, false) => s
      | (s, true) =>
        let s : State := match c.x.ctx with
          | some k => s.onCore n (fun y => { y with gport := tset y.gport e (k % 4) })
          | none => s
        if c.zero then s.putZeros n c else s.issueReq n c

/-! ### Window lists (R215) -/

/-- The entry of output pixel o of a WINDOW descriptor: none on a limit overrun. With OUT_W 0 its value is not stated, and
is free (log 8). -/
def windowEntry (free : Nat) (r : List Byte) (o : Nat) : Option Nat :=
  let g := byteFld r 0x40 4
  let inw := fld (byteFld r 0x30 4) 31 16
  let inh := fld (byteFld r 0x30 4) 15 0
  let outw := fld (byteFld r 0x34 4) 15 0
  let kb := fld (byteFld r 0x44 4) 28 16
  let base := fld (byteFld r 0x44 4) 12 0
  let kb0 := fld (byteFld r 0x48 4) 12 0
  let i (v : Nat) : Int := (v : Int)
  let hi : Int := i (o / outw) * i (fld g 3 0) + i (fld g 27 24) * i (fld g 11 8) - i (fld g 19 16)
  let wi : Int := i (o % outw) * i (fld g 7 4) + i (fld g 31 28) * i (fld g 15 12) - i (fld g 23 20)
  if outw = 0 then some (Config.freeValue (free + o)).toNat
  else if hi < 0 || i inh ≤ hi || wi < 0 || i inw ≤ wi then some (2 ^ 31)
  else
    let t := hi.toNat * inw + wi.toNat
    let row := base + t / wP r * kb + kb0
    if 8191 < row then none else some (t % wP r * 8192 + row)

/-- The entries of one slot (R215): P pixels, PAD beyond the last. -/
def windowSlot (free : Nat) (r : List Byte) (k : Nat) : List (Option Nat) :=
  (List.range (wP r)).map (fun i =>
    let o := k * wP r + i
    if o < wNpix r then windowEntry free r (byteFld r 0x38 4 + o) else some (2 ^ 31))

/-- WINDOW_ENTRY_GENERATE (R215): the next slot of a queue's WINDOW stream, its row zero beyond the entries. -/
def State.genWindow (s : State) (n q : Nat) : State :=
  let s : State := s.catchUp n
  let x := s.sq n q
  match x.run.find? (fun d => dMode d.raw == 2 && decide (512 * d.win < dTotal d.raw)) with
  | none => s
  | some d =>
    if !s.engineOn n || x.halt != 0 || x.stopping || !s.slotsReady n x d (512 * d.win) 512 then s
    else
      let es := windowSlot s.free d.raw d.win
      if es.any Option.isNone then
        (if s.atDemand n x d (512 * d.win) 512 then s.strmFault n q d 7 0 else s)
      else match s.asyncTry n (q % 4) (s.seqRows n d (512 * d.win) 512) with
      | (s, false) => s
      | (s, true) =>
        let s : State := if fld (byteFld d.raw 0x34 4) 15 0 = 0 then { s with free := s.free + 2 ^ 33 } else s
        let s : State := s.seqPut n d (512 * d.win) (fitTo 512 (es.flatMap (fun e => natLe 4 (e.getD 0))))
        ((s.onStrm n q d.serial (fun y => { y with win := y.win + 1, got := y.got ++ [(512 * d.win, 512)] })).bump (.core n) 0x408 512).completeStrms n q 8

/-! ### Replies (R151, R219, R225, Table 7.5) -/

/-- Sill rows that the data of a request are written to. -/
def State.replyRows (s : State) (r : Req) : List Nat :=
  let n := r.core
  match (s.sq n r.queue).run.find? (fun d => d.serial == r.serial) with
  | none => []
  | some x =>
    match r.kind with
    | .data => if r.write then [] else s.seqRows n x r.off r.len
    | .scale => [rowOf (s.scaleAt n x r.off)]
    | _ => []

/-- Data or a write accepted. -/
def State.acceptReply (s : State) (r : Req) (st : Nat) (bs : List Byte) : State :=
  let n := r.core
  match (s.sq n r.queue).run.find? (fun d => d.serial == r.serial) with
  | none => s
  | some x =>
    let s : State := if st = 1 then s.onStrm n r.queue r.serial (fun d => { d with corr := true }) else s
    let s : State := match r.kind with
      | .scale =>
        let d := (x.fmt).getD ⟨.fp32, 0, false, 0, 0, 0, 0⟩
        let a := x.scaleAddr d (r.off / x.scales) + r.off % x.scales * dPitch x.raw
        ((s.putRow (s.scaleAt n x r.off) [bs.getD (a % 64) 0]).bump (.core n) 0x408).onStrm n r.queue r.serial
          (fun d => { d with scaleGot := d.scaleGot ++ [r.off] })
      | .index => s.onStrm n r.queue r.serial (fun d => d.takeIndex r.off bs)
      | _ =>
        let s : State := if r.write then s.bump (.core n) 0x410 r.len else (s.seqPut n x r.off bs).bump (.core n) 0x408 r.len
        s.onStrm n r.queue r.serial (fun d => { d with got := d.got ++ [(r.off, r.len)] })
    s.completeStrms n r.queue 8

/-- Whether a request stands at the demand position (R223). -/
def State.reqDemand (s : State) (r : Req) (x : Strm) : Bool := s.kindDemand r.core (s.sq r.core r.queue) x r.kind r.off r.len

/-- A queue halts on a status (R226, steps 1 and 4): it issues nothing more; the record follows once its requests in flight
complete. A queue that halts already keeps its first halt. -/
def State.haltQueue (s : State) (r : Req) (st : Nat) : State :=
  s.onSq r.core r.queue (fun q => if q.halt ≠ 0 then q else { q with halt := st, haltAddr := r.addr, halting := true })

/-- A reply's status dealt with (Table 7.5); np: the translation is not present. -/
def State.takeReply (s : State) (r : Req) (st : Nat) (np : Bool) (check : Nat) (bs : List Byte) : State :=
  let n := r.core
  match (s.sq n r.queue).run.find? (fun d => d.serial == r.serial) with
  | none => s
  | some x =>
    if st ≤ 1 && !np then s.acceptReply r st bs
    else if np || st == 0x60 || st == 0x10 || st == 0x30 then
      if s.reqDemand r x then s.haltQueue r (if np then 0x50 else st)
      else (s.onStrm n r.queue r.serial (fun d => { d with dropped := ⟨r.kind, r.off, x.posOf r.kind r.off⟩ :: d.dropped })).bump (.core n) 0x420
    else if st == 0x51 then s.haltQueue r 0x51
    else if st == 0x40 then (s.failStrm n r.queue x 0x40 r.addr).tearJob (s.core n).job 1
    else s.strmFault n r.queue x check r.addr

/-- A stopping queue with nothing left in flight is idle (R205). -/
def State.settleStop (s : State) (n q : Nat) : State :=
  if (s.sq n q).stopping && !(s.sq n q).halting && (s.inFlight n q).isEmpty then s.onSq n q (fun _ => {}) else s

/-- A request removed from flight. -/
def State.land (s : State) (r : Req) : State :=
  { s with flight := s.flight.filter (fun x => !(x.core == r.core && x.tag == r.tag)) }

/-- An answered request of the instruction fetch (R151): its bytes stand in its half, or its status is kept. -/
def Core.fetchGot (c : Core) (block off st addr : Nat) (bs : List Byte) : Core :=
  let f (h : Option IHalf) : Option IHalf := h.map (fun x =>
    if x.block ≠ block ∨ x.filled then x
    else if st ≤ 1 then { x with got := x.got ++ [off], code := memWrite x.code off bs }
    else { x with bad := if x.bad.isSome then x.bad else some (st, addr) })
  { c with h0 := f c.h0, h1 := f c.h1 }

/-- A request completed with a status (R219, R225). -/
def State.complete (s : State) (r : Req) (st : Nat) (np : Bool) (check : Nat) (bs : List Byte) : State :=
  let s : State := s.land r
  if r.epoch != (s.core r.core).epoch then s.bump (.core r.core) 0x450
  else if r.kind == .fetch then s.onCore r.core (fun c => c.fetchGot r.serial r.off st r.addr bs)
  else (s.takeReply r st np check bs).settleStop r.core r.queue

/-- A mirror request acts as its reply returns (R460). -/
def State.mirrorReply (s : State) (r : Req) : State :=
  let off := r.addr - mirrorBase
  if r.write then
    let s1 : State := s.land r
    match s1.mirrorWrite r.core ((chunks 8 r.data).map leNat) with
    | (s2, true) => s2.complete r 0x7F false 8 []
    | (s2, false) => s2.complete r 0 false 0 []
  else s.complete r 0 false 0 (s.mirrorRead off)

/-- A HOST reply (R373, Table 7.5): a write leaves as it completes. -/
def State.hostReply (s : State) (r : Req) (ext : ExtReply) : State :=
  match ext with
  | .notPresent => if r.st = .issued then s.complete r 0 true 0 [] else s
  | .status code data =>
    if r.st ≠ .admitted then s
    else
      let p := (s.core r.core).job.bind s.pasidOf
      let s : State := if r.write && code == 0 then s.send (.hostWrite r.addr p r.data) else s
      s.complete r code.toNat false 0xE (fitTo r.len data)

/-- A reply ready to be taken: that of a request served, of the mirror, or of the host. -/
def State.replyNow (s : State) (r : Req) (ext : ExtReply) : State :=
  if r.st = .served then s.complete r r.status false 0xE r.data
  else if r.space = 0 ∧ r.kind ≠ .scale ∧ mirrorBase ≤ r.addr then s.mirrorReply r
  else if r.space = 2 then s.hostReply r ext
  else s

/-- Whether a reply brings data for the core's sill. -/
def Req.brings (r : Req) (ext : ExtReply) : Bool :=
  match r.st with
  | .served => decide (r.status ≤ 1)
  | .admitted => r.space == 2 && (match ext with
    | .status code _ => decide (code.toNat ≤ 1)
    | .notPresent => false)
  | _ => r.space == 0 && decide (mirrorBase ≤ r.addr)

/-- STREAM_REPLY (R219, R225): a reply with a tag and its epoch bit. One whose epoch is not that of a request in flight is discarded and counted;
one that brings data first takes the banks of their rows (R192). -/
def State.streamReply (s : State) (n tag : Nat) (epoch : Bool) (ext : ExtReply) : State :=
  let s : State := s.catchUp n
  match s.flight.find? (fun r => r.core == n && r.tag == tag && r.epoch == epoch) with
  | none => s.bump (.core n) 0x450
  | some r =>
    match s.asyncTry n (r.queue % 4) (if r.brings ext && r.epoch == (s.core n).epoch then s.replyRows r else []) with
    | (s, false) => s
    | (s, true) => s.replyNow r ext

/-- INSTRUCTION_FETCH (R151): a block whose 64 requests are answered stands filled; one of whose requests failed tears the job down. -/
def State.fetchBlock (s : State) (n block : Nat) : State :=
  let c := s.core n
  match (c.h0.toList ++ c.h1.toList).find? (fun h => h.block == block && !h.filled) with
  | none => s
  | some h =>
    if !c.running || c.faulted then s
    else match h.bad with
    | some (st, a) =>
      if st = 0x40 then s.tearJob c.job 1
      else s.progFault c.job (Page.core n).unit st n c.pc (if st = 0x60 then 9 else 0xFF) 0xFF a
    | none =>
      if h.got.length < 64 then s
      else
        let f (x : Option IHalf) : Option IHalf := x.map (fun y => if y = h then { y with filled := true } else y)
        (s.bump (.core n) 0x60).onCore n (fun c => { c with h0 := f c.h0, h1 := f c.h1 })

/-! ### Halt and resume (R226, R227, R231, R374) -/

/-- Page requests outstanding: of the running cores and of parked jobs. -/
def State.prgOut (s : State) : Nat :=
  let count (cs : Tab Core) : Nat := (cs.flatMap (fun e => e.2.sq)).countP (fun e => e.2.prg == .sent)
  count s.cores + (s.jobs.map (fun e => count e.2.saved)).sum

/-- A waiting page request sent while the host's allocation and the PRI state allow it (R374). -/
def State.sendPrg (s : State) (n q : Nat) : State :=
  let x := s.sq n q
  match (s.core n).job.bind s.pasidOf with
  | some p =>
    if x.prg == .waiting && s.hif.pri && !s.hif.prgFailed && s.hif.up && decide (s.prgOut < min 1024 s.hif.priAlloc) then
      let w := match x.run with
        | d :: _ => dOut d.raw
        | [] => false
      (((s.onSq n q (fun v => { v with prg := .sent })).event evPage).bump .hif 0x50).send (.pageRequest n q p (x.haltAddr / 4096) w)
    else s
  | none => s

/-- STREAM_HALT (R226): steps 3 to 5, once the queue has nothing in flight; a stop that came meanwhile follows (R231). -/
def State.strmHalt (s : State) (n q : Nat) : State :=
  let x := s.sq n q
  match x.run with
  | [] => s
  | d :: _ =>
    if !x.halting || !(s.inFlight n q).isEmpty then s
    else
      let s : State := (s.bump (.core n) 0x428).setPreg (.core n) 0x304 (x.halt * 2 ^ 24 + q)
      let s : State := s.onSq n q (fun v => { v with halting := false, haltPos := d.position, prg := if x.halt = 0x50 then .waiting else .none })
      let s : State := (s.strmRecord n q x.halt (dSeq d.raw) d.position x.haltAddr).sendPrg n q
      if x.stopping then (x.run.foldl (fun (s : State) d => s.loseStrm n d) s).onSq n q (fun _ => {}) else s

/-- A started stream begins again at a position: scales of companion slots already FULL are kept; rows is the ring's buffer
length. -/
def Strm.restart (d : Strm) (pos rows : Nat) : Strm :=
  { d with
    got := d.got.filter (fun g => decide (g.1 < pos)), dropped := []
    scaleGot := d.scaleGot.filter (fun k => decide (k < d.scales * (pos / 512)) || decide (k < d.scales * (rows * d.cslots)))
    win := min d.win (ceilDiv pos 512), idxBase := none, idx := [] }

/-- A halted queue starts again from its saved position (R227). -/
def SQ.resumed (q : SQ) (rows : Nat) : SQ :=
  match q.run with
  | [] => { q with halt := 0, haltAddr := 0, prg := .none }
  | d :: rest => { q with run := d.restart q.haltPos rows :: rest, halt := 0, haltAddr := 0, prg := .none }

/-- A halted stream resumed and counted (R227). -/
def State.resumeQueue (s : State) (n q : Nat) : State :=
  let rows := match (s.sq n q).run with
    | d :: _ => sRows (s.slot n d.head)
    | [] => 1
  (s.onSq n q (fun x => x.resumed rows)).bump (.core n) 0x430

/-- The parked job whose saved core n has a page request outstanding on queue q (R232). -/
def State.parkedPrg (s : State) (n q : Nat) : Option Nat :=
  (List.range 4).find? (fun j => match tfind (s.job j).saved n with
    | some c => (tget {} c.sq q).prg == .sent
    | none => false)

/-- A queue of a parked job's saved core updated. -/
def State.onSaved (s : State) (j n q : Nat) (f : SQ → SQ) : State :=
  s.onJob j (fun x => { x with saved := x.saved.map (fun e =>
    if e.1 = n then (n, { e.2 with sq := tset e.2.sq q (f (tget {} e.2.sq q)) }) else e) })

/-- Every page request outstanding fails (R374, R375). -/
def State.failPrgs (s : State) : State :=
  let one (q : SQ) : SQ := if q.prg == .sent then { q with prg := .failed } else q
  let all (cs : Tab Core) : Tab Core := cs.map (fun e => (e.1, { e.2 with sq := e.2.sq.map (fun x => (x.1, one x.2)) }))
  { s with cores := all s.cores, jobs := s.jobs.map (fun e => (e.1, { e.2 with saved := all e.2.saved })) }

/-- PAGE_REQUEST_RESPONSE (R227, R231, R232, R374). -/
def State.prgResponse (s : State) (n q : Nat) (r : PriResp) : State :=
  let live := (s.sq n q).prg == .sent
  match r with
  | .success =>
    if live then s.resumeQueue n q
    else match s.parkedPrg n q with
      | some j => s.onSaved j n q (fun x => { x with prg := .success })
      | none => s
  | .invalidRequest =>
    let s : State := s.bump .hif 0x58
    if live then s.onSq n q (fun x => { x with prg := .failed })
    else match s.parkedPrg n q with
      | some j => s.onSaved j n q (fun x => { x with prg := .failed })
      | none => s
  | .responseFailure =>
    let s : State := (s.bump .hif 0x58).failPrgs
    { s with hif := { s.hif with prgFailed := true } }

/-! ### Translations (R373) -/

/-- ATS_TRANSLATION_RESPONSE: the cache filled, at most 4,096 pages; reads that waited for it leave. -/
def State.atsResponse (s : State) (pasid page : Nat) (r w : Bool) : State :=
  if !r && !w then s
  else
    let s : State := { s with hif := { s.hif with
      tlb := (⟨pasid, page, r, w⟩ :: s.hif.tlb.filter (fun t => !(t.pasid == pasid && t.page == page))).take 4096 } }
    let waits (x : Req) : Bool := x.space == 2 && x.st == .issued && x.addr / 4096 == page &&
      (s.core x.core).job.bind s.pasidOf == some pasid && (if x.write then w else r)
    let reads := s.flight.filter (fun x => waits x && !x.write)
    let s : State := { s with flight := s.flight.map (fun x => if waits x then { x with st := .admitted } else x) }
    reads.foldl (fun (s : State) x => s.send (.hostRead x.addr (some pasid) x.len)) s

/-- ATS_INVALIDATION: the translation leaves the cache; the request completes once nothing in flight uses it. -/
def State.atsInvalidate (s : State) (pasid page : Nat) : State :=
  let used (x : Req) : Bool := x.space == 2 && x.st == .admitted && x.addr / 4096 == page &&
    (s.core x.core).job.bind s.pasidOf == some pasid
  let s' : State := { s with hif := { s.hif with tlb := s.hif.tlb.filter (fun t => !(t.pasid == pasid && t.page == page)) } }
  if s.flight.any used then s' else (s'.bump .hif 0x48).send (.invalidated pasid page)

/-! ### Doorbells (R230) -/

/-- A stream doorbell's reserved bits counted (R16, R362). -/
def State.strmRsvd (s : State) (n : Nat) (rsvd : Bool) : State := if rsvd then s.bump (.core n) 0xF8 else s

/-- RESUME by doorbell: of a halted queue of the running job; otherwise ignored and counted. -/
def State.bellResume (s : State) (n q : Nat) (rsvd : Bool) : State :=
  let x := s.sq n q
  let s : State := s.strmRsvd n rsvd
  if q < 160 && (s.core n).job.isSome && x.halt != 0 && !x.halting then s.resumeQueue n q else s.bump (.core n) 0x458

/-- STOP by doorbell. -/
def State.bellStop (s : State) (n q : Nat) (rsvd : Bool) : State :=
  let s : State := s.strmRsvd n rsvd
  if q < 160 && (s.core n).job.isSome then s.stopQueue n q else s

/-! ### Meanings -/

/-- STREAM_DESCRIPTOR_START (R204, R208). -/
def execStreamDescriptorStart (c : CoreId) (queue : BitVec 8) (s : State) : Host.Outcome State Fault Refusal :=
  act s (fun s => s.startStrm c queue.toNat)
/-- STREAM_REQUEST_ISSUE (R218). -/
def execStreamRequestIssue (c : CoreId) (engine : BitVec 2) (s : State) : Host.Outcome State Fault Refusal :=
  act s (fun s => s.engineIssue c engine.toNat)
/-- WINDOW_ENTRY_GENERATE (R215). -/
def execWindowEntryGenerate (c : CoreId) (queue : BitVec 8) (s : State) : Host.Outcome State Fault Refusal :=
  act s (fun s => s.genWindow c queue.toNat)
/-- STREAM_REPLY (R225). -/
def execStreamReply (c : CoreId) (tag : Nat) (ans : StreamAnswer) (s : State) : Host.Outcome State Fault Refusal :=
  act s (fun s => s.streamReply c tag ans.epoch ans.ext)
/-- INSTRUCTION_FETCH (R151). -/
def execInstructionFetch (c : CoreId) (block : Nat) (s : State) : Host.Outcome State Fault Refusal :=
  act s (fun s => s.fetchBlock c block)
/-- STREAM_HALT (R226). -/
def execStreamHalt (c : CoreId) (queue : BitVec 8) (s : State) : Host.Outcome State Fault Refusal :=
  act s (fun s => s.strmHalt c queue.toNat)
/-- PAGE_REQUEST_SEND (R374). -/
def execPageRequestSend (c : CoreId) (queue : BitVec 8) (s : State) : Host.Outcome State Fault Refusal :=
  act s (fun s => s.sendPrg c queue.toNat)
/-- PAGE_REQUEST_RESPONSE (R374). -/
def execPageRequestResponse (c : CoreId) (queue : BitVec 8) (r : PriResp) (s : State) : Host.Outcome State Fault Refusal :=
  act s (fun s => s.prgResponse c queue.toNat r)
/-- ATS_TRANSLATION_RESPONSE (R373). -/
def execAtsTranslationResponse (pasid : BitVec 20) (page : BitVec 52) (readable writable : Bool) (s : State) : Host.Outcome State Fault Refusal :=
  act s (fun s => s.atsResponse pasid.toNat page.toNat readable writable)
/-- ATS_INVALIDATION (R373). -/
def execAtsInvalidation (pasid : BitVec 20) (page : BitVec 52) (s : State) : Host.Outcome State Fault Refusal :=
  act s (fun s => s.atsInvalidate pasid.toNat page.toNat)
/-- RESUME (R230). -/
def execResume (c : CoreId) (queue : BitVec 8) (rsvd : Bool) (s : State) : Host.Outcome State Fault Refusal :=
  act s (fun s => s.bellResume c queue.toNat rsvd)
/-- STOP (R230). -/
def execStop (c : CoreId) (queue : BitVec 8) (rsvd : Bool) (s : State) : Host.Outcome State Fault Refusal :=
  act s (fun s => s.bellStop c queue.toNat rsvd)

end Sys2Proof.Machine
end

