-- ==== Sys2Proof/Machine/Sill.lean ====
section
/-! DEFINITION. The sill controller's own work (R186, R188), requests that reach another core's sill (R195, R199), and
mesh parity (R427). -/

namespace Sys2Proof.Machine

/-- A row read by the scrubber (R185 to R188): what it corrects enters the repair queue, what it cannot correct is poisoned. -/
def State.scrubRead (s : State) (n row : Nat) : State :=
  let a := rowAddr n row
  let bad := s.badCws a 512
  let s : State := bad.foldl (fun (s : State) e => s.sillEvent n 2 none 0 e) (s.bump (.sill n) 0x50)
  let s : State := (bad.filter (fun e => e.2.grade == 2)).foldl (fun (s : State) e => s.poison (32 * e.1) 32) s
  s.scrubReserve n (bankOf row)

/-- Rows of a patrol step: one of every bank, at the next BANK_ROW (R188). -/
def patrolRows (pos : Nat) : List Nat := (List.range 16).map (fun b => b / 4 * 2048 + pos * 4 + b % 4)

/-- Codewords of a sill. -/
def sillCws : Nat := 131072

/-- Errors that have come into the codewords of a sill, anywhere in it, since the last patrol (R184). -/
def State.sillUpsets (s : State) (n : Nat) (errs : List CwUpset) : State :=
  errs.foldl (fun (s : State) u => s.upset (sillBase n) { u with codeword := u.codeword % sillCws }) s

/-- SILL_PATROL_SCRUB (R186, R188): the next row of every bank, once the repair queue is empty. -/
def State.sillPatrol (s : State) (n : Nat) (errs : List CwUpset) : State :=
  let s : State := s.sillUpsets n errs
  if bitAt (s.preg (.sill n) 0x100) 0 && (s.coreLife n).st == .opened && (s.core n).repairQ.isEmpty then
    ((patrolRows (s.core n).scrubPos).foldl (fun (s : State) r => s.scrubRead n r) s).onCore n (fun c => { c with scrubPos := (c.scrubPos + 1) % 512 })
  else s

/-- SILL_REPAIR (R186): the row at the head of the repair queue is reread, and written back if a correction is again needed. -/
def State.sillRepair (s : State) (n : Nat) : State :=
  match (s.core n).repairQ with
  | [] => s
  | r :: rest =>
    let a := rowAddr n r
    let fix := (s.badCws a 512).any (fun e => e.2.grade == 1)
    let s : State := (s.scrubRead n r).onCore n (fun c => { c with repairQ := rest })
    if fix then ((s.scrubbed a 512).bump (.sill n) 0x58).scrubReserve n (bankOf r) else s

/-- Whether a switch is saving or restoring the sill of a core (R199). -/
def State.sillMoves (s : State) (o : Nat) : Bool :=
  let held (j : Option Nat) : Bool := match j with
    | some j => bitAt (s.job j).placed o
    | none => false
  match s.sw.phase with
  | .save => held s.sw.outgoing
  | .restore => held s.sw.incoming || held s.sw.outgoing
  | _ => false

/-- Whether a request stands behind another of its core on the same path: one to the same sill, issued before it and not yet there (R197). -/
def State.behind (s : State) (r : Req) (o : Nat) : Bool :=
  match (s.flight.filter (fun x => x.core == r.core && x.space == 1 && x.st == .issued && sillOf x.addr == some o)).head? with
  | some x => x.tag != r.tag
  | none => false

/-! ### Slots whose agent is a core or a port (R161, R211, R341) -/

/-- The 64-byte units of a slot's buffer that bytes cover. -/
def unitMask (base a len n : Nat) : Nat :=
  (List.range n).foldl (fun acc u => if a ≤ base + 64 * u ∧ base + 64 * u + 64 ≤ a + len then acc ||| 2 ^ u else acc) 0

/-- Slots of a ring, in ring order, whose every unit has been moved change FULL: an inbound one is filled, an outbound one drained (R211). -/
def State.handMoved (s : State) (n head : Nat) : Nat → State
  | 0 => s
  | k + 1 =>
    let v := s.slot n head
    let out := sOut v
    let pos := if out then sCons v else sProd v
    let e := head + pos
    if sFull (s.slot n e) == out && tget 0 (s.core n).hand e == 2 ^ (8 * sRows (s.slot n e)) - 1 then
      let t : State := s.setFull n head pos !out
      let t : State := if out then t.advCons n head 1 else t.advProd n head 1
      State.handMoved (t.onCore n (fun c => { c with hand := tset c.hand e 0 })) n head k
    else s

/-- Bytes of a slot's buffer moved by the agent of its ring. -/
def State.handUnits (s : State) (n head entry a len : Nat) : State :=
  let units := unitMask (rowAddr n (sBuf (s.slot n entry))) a len (8 * sRows (s.slot n entry))
  (s.onCore n (fun c => { c with hand := tset c.hand entry (tget 0 c.hand entry ||| units) })).handMoved n head 64

/-- The slot of core o, of a ring whose agent is core n, that a row lies in: its ring and entry (Table 5.8, log 123). -/
def State.coreSlot (s : State) (o n row : Nat) (out : Bool) : Option (Nat × Nat) :=
  (s.core o).slots.findSome? (fun e =>
    if sValid e.2 && sHead e.2 && sOut e.2 == out && sAgent e.2 == 1 && sAgentId e.2 == n then
      ((fromN e.1 (sLen e.2)).find? (fun k => decide (sBuf (s.slot o k) ≤ row) && decide (row < sBuf (s.slot o k) + sRows (s.slot o k)))).map
        (fun k => (e.1, k))
    else none)

/-- What a remote request has moved of a slot whose agent is its core (log 123). -/
def State.coreMoved (s : State) (o : Nat) (r : Req) : State :=
  match s.coreSlot o r.core (rowOf r.addr) (!r.write) with
  | some (h, e) => s.handUnits o h e r.addr r.len
  | none => s

/-- Whether a remote request must wait for a slot whose agent is its core: it fills only an empty slot, and drains only a FULL one (R161,
log 123). -/
def State.coreWaits (s : State) (o : Nat) (r : Req) : Bool :=
  match s.coreSlot o r.core (rowOf r.addr) (!r.write) with
  | some (_, e) => sFull (s.slot o e) == r.write
  | none => false

/-- REMOTE_SILL_REQUEST (R22, R192, R195, R197, R199). -/
def State.remoteSill (s : State) (n tag : Nat) : State :=
  match s.flight.find? (fun r => r.core == n && r.tag == tag) with
  | none => s
  | some r =>
    match sillOf r.addr with
    | none => s
    | some o =>
      if r.space ≠ 1 ∨ r.st ≠ .issued ∨ s.behind r o then s
      else
        let job := (s.core n).job
        if s.sillShut o || s.sillMoves o then s.serve r 0x10 []
        else if (s.core o).job != s.runSlot || job != s.runSlot || job.isNone then (s.bump (.sill o) 0x70).serve r 0x60 []
        else if (s.catchUp o).coreWaits o r then s.catchUp o
        else match (s.catchUp o).asyncTry o meshPort [rowOf r.addr] with
          | (s, false) => s
          | (s, true) =>
            if r.write then (((s.putRow r.addr r.data).coreMoved o r).bump (.sill o) 0x68).serve r 0 []
            else
              let (s, bs, st) := s.sillRead o r.addr r.len 1 job 1
              ((s.coreMoved o r).bump (.sill o) 0x68).serve r st (if st = 0x40 then [] else bs)

/-- MESH_PARITY_ERROR (R427): the packet or queue entry is discarded, its request completes with INTERNAL, and its stream with it (Table 7.5);
class 11, teardown. Which
parity groups failed the command does not say: free (log 8). -/
def State.meshParity (s : State) (n tag : Nat) : State :=
  match s.flight.find? (fun r => r.core == n && r.tag == tag) with
  | none => s
  | some r =>
    let job := (s.core n).job
    let d := natLe 4 s.freeWord.toNat ++ natLe 4 (Config.freeValue (s.free + 1)).toNat
    let s : State := (s.useFree.useFree.land r).fault 11 0 job (Page.core n).unit 1 d 1
    let s : State := match (s.sq n r.queue).run.find? (fun x => x.serial == r.serial) with
      | some x => (s.failStrm n r.queue x 0x7F r.addr).fault 14 0x7F job (Page.core n).unit 1 (progDetail n (s.core n).pc 0xFF r.queue r.addr)
      | none => s
    s.tearJob job 11

/-- SILL_PATROL_SCRUB (R188). -/
def execSillPatrolScrub (c : CoreId) (errs : List CwUpset) (s : State) : Host.Outcome State Fault Refusal :=
  act s (fun s => s.sillPatrol c errs)
/-- SILL_REPAIR (R186). -/
def execSillRepair (c : CoreId) (s : State) : Host.Outcome State Fault Refusal := act s (fun s => s.sillRepair c)
/-- REMOTE_SILL_REQUEST (R195). -/
def execRemoteSillRequest (c : CoreId) (tag : Nat) (s : State) : Host.Outcome State Fault Refusal :=
  act s (fun s => s.remoteSill c tag)
/-- MESH_PARITY_ERROR (R427). -/
def execMeshParityError (c : CoreId) (tag : Nat) (s : State) : Host.Outcome State Fault Refusal :=
  act s (fun s => s.meshParity c tag)

end Sys2Proof.Machine
end

