-- ==== Sys2Proof/Machine/Quarry.lean ====
section
/-! DEFINITION. The quarry controller (R235 to R253): admission and service of stream requests, refresh, patrol and repair,
the sensors and the hot mode (R242, R415 to R418), windows. -/

namespace Sys2Proof.Machine

/-! ### Admission (R245 to R253) -/

/-- A request in admission: of the owning core direct, else through a window of class CORE. -/
def State.admitRange (s : State) (r : Req) : State × Nat × Option Nat :=
  if quarryOf r.addr = some r.core then
    (let (s, st) := s.ownEnter r.core r.addr r.len
     (s, st, none))
  else s.winEnter .core (if r.write then .write else .read) r.addr r.len

/-- Entries of a channel's reorder queue that requests of the owning core's streams, or of others, hold (R245). -/
def State.entries (s : State) (q : Nat) (ch own : Bool) : Nat :=
  (s.admitted q).countP (fun r => qChan r.addr == ch && (r.core == q) == own)

/-- Whether a channel has an entry for a request: 8 entries for the owning core alone, 24 that all share (R245). -/
def State.entryFree (s : State) (q : Nat) (r : Req) : Bool :=
  let mine := s.entries q (qChan r.addr) true
  let other := s.entries q (qChan r.addr) false
  if r.core = q then decide (other + (mine + 1 - 8) ≤ 24) else decide (other + 1 + (mine - 8) ≤ 24)

/-- The requests of the streams on their way to a quarry through the port that a request takes: the owning core's own, or the mesh (R246). -/
def State.portQueue (s : State) (q : Nat) (r : Req) : List Req :=
  s.flight.filter (fun x => x.space == 0 && (x.st == .issued || x.st == .waiting) && quarryOf x.addr == some q && (x.core == q) == (r.core == q))

/-- Whether a request is the next to enter at its port: none waits there before it, and none of its core, which takes the same path, was
issued before it (R246, log 122). -/
def State.nextAtPort (s : State) (q : Nat) (r : Req) : Bool :=
  let xs := s.portQueue q r
  match xs.find? (fun x => x.st == .waiting) with
  | some x => x.core == r.core && x.tag == r.tag
  | none => ((xs.find? (fun x => x.core == r.core)).map Req.tag) == some r.tag

/-- A request replaced in flight. -/
def State.onReq (s : State) (r : Req) (f : Req → Req) : State :=
  { s with flight := s.flight.map (fun x => if x.core = r.core ∧ x.tag = r.tag then f x else x) }

/-- QUARRY_ADMISSION (R245, R246, R253): the next request at its input port enters, once its channel has an entry for it; it waits there
otherwise. -/
def State.admission (s : State) (n tag : Nat) : State :=
  match s.flight.find? (fun r => r.core == n && r.tag == tag) with
  | none => s
  | some r =>
    match quarryOf r.addr with
    | none => if r.space = 0 ∧ r.st = .issued ∧ (r.addr < mirrorBase ∨ r.kind = .scale) then s.serve r 0x7F [] else s
    | some q =>
      if r.space ≠ 0 ∨ (r.st ≠ .issued ∧ r.st ≠ .waiting) ∨ !s.nextAtPort q r then s
      else if !s.entryFree q r then s.onReq r (fun x => { x with st := .waiting })
      else match s.admitRange r with
        | (s, 0, w) =>
          let k := (s.quarry q).arrivals
          (s.onQuarry q (fun y => { y with arrivals := y.arrivals + 1 })).onReq r (fun x => { x with st := .admitted, arrival := k, win := w })
        | (s, st, _) => s.serve r st []

/-! ### Service (R244, R246) -/

/-- Requests waiting at a channel of a quarry. -/
def State.waiting (s : State) (q : Nat) (ch : Bool) : List Req := (s.admitted q).filter (fun r => qChan r.addr == ch)

/-- Whether the row of a request stands open. -/
def State.rowOpen (s : State) (q : Nat) (r : Req) : Bool := tfind (s.quarry q).open_ (qBank r.addr) == some (qRow r.addr)

/-- Service order (R244): latency-critical within the budget, then the deadline, an open row, the oldest. -/
def State.serveBefore (s : State) (q budget : Nat) (a b : Req) : Bool :=
  let key (r : Req) : Nat × Nat × Nat × Nat :=
    let lc := r.lc && decide (r.len ≤ budget)
    (if lc then 0 else 1, untilDue s.time r.deadline, if s.rowOpen q r then 0 else 1, r.arrival)
  let (a1, a2, a3, a4) := key a
  let (b1, b2, b3, b4) := key b
  decide (a1 < b1) || (a1 == b1 && (decide (a2 < b2) || (a2 == b2 && (decide (a3 < b3) || (a3 == b3 && decide (a4 < b4))))))

/-- The request that a channel serves next: of those that touch one unit the first to arrive (R246). -/
def State.chosen (s : State) (q : Nat) (ch : Bool) (budget : Nat) : Option Req :=
  let rs := s.waiting q ch
  let free := rs.filter (fun r => !rs.any (fun o => decide (o.arrival < r.arrival) && o.touches r.addr r.len))
  free.foldl (fun (best : Option Req) r => match best with
    | none => some r
    | some b => if s.serveBefore q budget r b then some r else some b) none

/-- QUARRY_COMMAND_ISSUE (R221, R244): one request served; its bank's row stands open. A budget's 32 bytes per QCLK are
gained at channel 0 (log 30). -/
def State.commandIssue (s : State) (q : Nat) (ch : Bool) (errs : List CwUpset) : State :=
  let s : State := if ch then s else s.onQuarry q (fun y => { y with budget := min 4096 (y.budget + 32) })
  let budget := (s.quarry q).budget
  match s.chosen q ch budget with
  | none => s
  | some r =>
    let s : State := errs.foldl (fun (s : State) u => s.upset r.addr u) s
    let s : State := if r.lc && decide (r.len ≤ budget) then
        (s.bump (.quarry q) 0x78 r.len).onQuarry q (fun y => { y with budget := y.budget - r.len }) else s
    s.serveReq q r

/-- ROW_IDLE_CLOSE (R244). -/
def State.rowIdle (s : State) (q bank : Nat) : State := s.onQuarry q (fun y => { y with open_ := tdel y.open_ bank })

/-! ### Refresh, patrol, repair (R238, R241, R243) -/

/-- REFRESH (R241): a bank's interval expires; while a request of the bank is late the refresh is postponed, at most four
times, and the fifth is forced; postponed refreshes follow when none is late (log 31). -/
def State.refresh (s : State) (q bank : Nat) : State :=
  let late := s.flight.any (fun r => r.space == 0 && r.st == .admitted && quarryOf r.addr == some q && qBank r.addr == bank &&
    untilDue s.time r.deadline == 0)
  let debt := tget 0 (s.quarry q).postponed bank
  let rows (k : Nat) (s : State) : State := (s.bump (.quarry q) 0x60 k).onQuarry q (fun y => { y with
    refRow := tset y.refRow bank ((tget 0 y.refRow bank + k) % 3072) })
  let owe (k : Nat) (s : State) : State := s.onQuarry q (fun y => { y with postponed := tset y.postponed bank k })
  if late then
    if debt < 4 then owe (debt + 1) (s.bump (.quarry q) 0x68) else rows 1 s
  else owe 0 (rows (debt + 1) s)

/-- Units read by the scrubber (R238, R239, R243), after what arrived before: what it corrects enters the repair queue, what it cannot correct
is written back poisoned. -/
def State.scrubUnits (s : State) (q a len : Nat) : State :=
  let s : State := (s.settle q a len).openRow q a
  let bad := s.unitEvents a len
  let s : State := bad.foldl (fun (s : State) e => s.quarryEvent q 3 none 0 e) ((s.bump (.quarry q) 0x98).bump (.quarry q) 0x40 (units a len))
  (bad.filter (fun e => e.2.grade == 2)).foldl (fun (s : State) e => s.poison (64 * (e.1 / 2)) 64) s

/-- Errors that have come into the codewords of a quarry, anywhere in it, since the last patrol (R237). -/
def State.quarryUpsets (s : State) (q : Nat) (errs : List CwUpset) : State :=
  errs.foldl (fun (s : State) u => s.upset (quarryBase q) { u with codeword := u.codeword % (quarrySize / 32) }) s

/-- QUARRY_PATROL_SCRUB (R238, R243): the next 512-byte block, once the repair queue is empty. -/
def State.quarryPatrol (s : State) (q : Nat) (errs : List CwUpset) : State :=
  let s : State := s.quarryUpsets q errs
  if bitAt (s.preg (.quarry q) 0x100) 1 && (s.quarry q).life.st == .opened && (s.quarry q).repairQ.isEmpty then
    let a := quarryBase q + 512 * (s.quarry q).scrubPos
    (s.scrubUnits q a 512).onQuarry q (fun y => { y with scrubPos := (y.scrubPos + 1) % 1572864 })
  else s

/-- QUARRY_REPAIR (R186, R238): the unit at the head of the repair queue is reread, and written back where it is again corrected whole. -/
def State.quarryRepair (s : State) (q : Nat) : State :=
  match (s.quarry q).repairQ with
  | [] => s
  | u :: rest =>
    let a := quarryBase q + 64 * u
    let fix := s.grade a 64 == 1
    let s : State := (s.scrubUnits q a 64).onQuarry q (fun y => { y with repairQ := rest })
    if fix then (s.scrubbed a 64).bump (.quarry q) 0xA0 else s

/-! ### Sensors (R242, R415 to R418) -/

/-- A reading as a signed number of sixteenths; none where the sensor fails (R416). -/
def sensorOk (r : Option (BitVec 16)) : Option Int :=
  match r with
  | some b => if -640 ≤ b.toInt ∧ b.toInt ≤ 2400 then some b.toInt else none
  | none => none

/-- The largest of some readings. -/
def hottest : List Int → Option Int
  | [] => none
  | x :: xs => some (xs.foldl max x)

/-- A reading with failed sensors replaced (R416): the highest of the neighbours that work, else of the working sensors at
the least distance, else the kind's maximum. dist gives the distance of two sensors, near whether they are neighbours. -/
def replaced (vals : List (Option Int)) (dist : Nat → Nat → Nat) (near : Nat → Nat → Bool) (top : Int) (k : Nat) : Int :=
  match vals.getD k none with
  | some v => v
  | none =>
    let work := (List.range vals.length).filterMap (fun i => (vals.getD i none).map (fun v => (i, v)))
    let close := work.filter (fun e => near k e.1)
    let best := if close.isEmpty then
        let d := minOf 0 (work.map (fun e => dist k e.1))
        work.filter (fun e => dist k e.1 == d)
      else close
    (hottest (best.map Prod.snd)).getD top

/-- Distance of two numbers. -/
def absDiff (a b : Nat) : Nat := (a - b) + (b - a)
/-- Manhattan distance of two mesh positions (R416). -/
def meshDist (a b : Nat) : Nat := absDiff (a % 16) (b % 16) + absDiff (a / 16) (b / 16)
/-- Neighbours of a DRAM sensor (R416): the same row, the next column. -/
def dramNear (a b : Nat) : Bool := a / 16 == b / 16 && absDiff (a % 16) (b % 16) == 1
/-- Neighbours of a logic sensor (R416). -/
def logicNear (a b : Nat) : Bool := absDiff a b == 1

/-- A signed reading as 16 bits. -/
def enc16 (v : Int) : Nat := (v % 65536).toNat

/-- Index of the first greatest value. -/
def hotIndex (vs : List Int) : Nat := (vs.zipIdx.foldl (fun (b : Int × Nat) e => if b.1 < e.1 then e else b) (vs.headD 0, 0)).2

/-- Sensors that fail now and did not before: counted, flagged, class 10 (R416). -/
def State.newFails (s : State) (kind : Nat) (old : List (Option Nat)) (vals : List (Option Int)) (raw : List (Option (BitVec 16))) : State :=
  (List.range vals.length).foldl (fun (s : State) k =>
    if (vals.getD k none).isNone && (old.getD k (some 0)).isSome then
      let s : State := (s.bump .thermal 0x50).setPreg .thermal 0x10C (s.preg .thermal 0x10C ||| 4)
      s.fault 10 0 none Page.thermal.unit 0 (natLe 1 2 ++ natLe 1 kind ++ natLe 2 k ++ natLe 2 (((raw.getD k none).map BitVec.toNat).getD 0))
    else s) s

/-- A maximum exceeded for the first time (R418). -/
def State.overMax (s : State) (kind : Nat) (was : Bool) (max : Int) (vs : List Int) : State :=
  let k := hotIndex vs
  let v := vs.getD k 0
  if !was && decide (max < v) then
    ((s.bump .thermal 0x48).setPreg .thermal 0x10C (s.preg .thermal 0x10C ||| 2 ^ kind)).fault 10 0 none Page.thermal.unit 0
      (natLe 1 1 ++ natLe 1 kind ++ natLe 2 k ++ natLe 2 (enc16 v))
  else s

/-- A quarry's reading taken (R242): QTEMP, the hot mode entered above 83 °C, readings at or below 80 °C counted. -/
def State.quarryTemp (s : State) (n : Nat) (v : Int) : State :=
  let s : State := s.setPreg (.quarry n) 0x10C (enc16 v)
  let was := s.hotMode n
  let s : State := s.onQuarry n (fun q => { q with hot := q.hot || decide (1328 < v), cool := if v ≤ 1280 then q.cool + 1 else 0 })
  if s.hotMode n && !was then s.bump .thermal 0x58 else s

/-- SENSOR_READ's effect (R242, R415, R416, R418). -/
def State.sensorsTaken (s : State) (dram logic : List (Option (BitVec 16))) : State :=
  let dv := dram.map sensorOk
  let lv := logic.map sensorOk
  let de := (List.range 128).map (replaced dv meshDist dramNear 1520)
  let le := (List.range 64).map (replaced lv absDiff logicNear 1680)
  let s : State := (s.newFails 0 s.pwr.dram dv dram).newFails 1 s.pwr.logic lv logic
  let keep (xs : List (Option Int)) : List (Option Nat) := xs.map (fun v => v.map enc16)
  let s : State := de.zipIdx.foldl (fun (s : State) e => s.quarryTemp e.2 e.1) s
  let s : State := le.zipIdx.foldl (fun (s : State) e => s.setPreg .thermal (0x200 + 4 * e.2) (enc16 e.1)) s
  let s : State := s.setPreg .thermal 0x104 (enc16 (de.getD (hotIndex de) 0) * 65536 + hotIndex de)
  let s : State := s.setPreg .thermal 0x108 (enc16 (le.getD (hotIndex le) 0) * 65536 + hotIndex le)
  let s : State := (s.overMax 0 s.pwr.dramOver 1520 de).overMax 1 s.pwr.logicOver 1680 le
  { s with pwr := { s.pwr with
    dram := keep dv, logic := keep lv, dramOver := de.any (fun v => decide (1520 < v)), logicOver := le.any (fun v => decide (1680 < v)) } }

/-- SENSOR_READ: Stavuf reads the sensors unless it is held in reset (R415, R435). -/
def State.sensors (s : State) (dram logic : List (Option (BitVec 16))) : State :=
  if s.boot.svcHeld then s else s.sensorsTaken dram logic

/-- HOT_MODE_EXIT (R242): after 10,000 consecutive readings at or below 80 °C. -/
def State.hotExit (s : State) (n : Nat) : State :=
  if 10000 ≤ (s.quarry n).cool then s.onQuarry n (fun q => { q with hot := false }) else s

/-! ### Windows by command -/

/-- A write of word 0 of a window by an agent (R251, R252). The program's write of a window that it may not write has no
effect; it is a program fault (R21). -/
def State.winWord0Write (s : State) (n w v : Nat) (who : Agent) : State :=
  match who with
  | .program =>
    if s.progWin n w 0 v then s.writeWin n w 0 v (some n)
    else s.progFault s.runSlot (Page.core n).unit 0x7F n (s.core n).pc 8 w ((Page.quarry n).base + 0x800 + 0x20 * w)
  | _ => s.writeWin n w 0 v none

/-! ### Meanings -/

/-- QUARRY_ADMISSION (R253). -/
def execQuarryAdmission (c : CoreId) (tag : Nat) (s : State) : Host.Outcome State Fault Refusal := act s (fun s => s.admission c tag)
/-- QUARRY_COMMAND_ISSUE (R244). -/
def execQuarryCommandIssue (q : CoreId) (channel : Bool) (errs : List CwUpset) (s : State) : Host.Outcome State Fault Refusal :=
  act s (fun s => s.commandIssue q channel errs)
/-- ROW_IDLE_CLOSE (R244). -/
def execRowIdleClose (q : CoreId) (bank : BitVec 7) (s : State) : Host.Outcome State Fault Refusal :=
  act s (fun s => s.rowIdle q bank.toNat)
/-- REFRESH (R241). -/
def execRefresh (q : CoreId) (bank : BitVec 7) (s : State) : Host.Outcome State Fault Refusal :=
  act s (fun s => s.refresh q bank.toNat)
/-- QUARRY_PATROL_SCRUB (R243). -/
def execQuarryPatrolScrub (q : CoreId) (errs : List CwUpset) (s : State) : Host.Outcome State Fault Refusal :=
  act s (fun s => s.quarryPatrol q errs)
/-- QUARRY_REPAIR (R238). -/
def execQuarryRepair (q : CoreId) (s : State) : Host.Outcome State Fault Refusal := act s (fun s => s.quarryRepair q)
/-- SENSOR_READ (R415). -/
def execSensorRead (dram logic : List (Option (BitVec 16))) (s : State) : Host.Outcome State Fault Refusal :=
  act s (fun s => s.sensors dram logic)
/-- HOT_MODE_EXIT (R242). -/
def execHotModeExit (q : CoreId) (s : State) : Host.Outcome State Fault Refusal := act s (fun s => s.hotExit q)
/-- WINDOW_OPEN (R251): a write of word 0 with STATE 0b01. -/
def execWindowOpen (q : CoreId) (w : BitVec 6) (word0 : W32) (who : Agent) (s : State) : Host.Outcome State Fault Refusal :=
  act s (fun s => s.winWord0Write q w.toNat (putFld word0.toNat 31 30 1) who)
/-- WINDOW_CLOSE (R251): a write of STATE 0b00, the other fields as they stand. -/
def execWindowClose (q : CoreId) (w : BitVec 6) (who : Agent) (s : State) : Host.Outcome State Fault Refusal :=
  act s (fun s => s.winWord0Write q w.toNat (putFld (s.winWord q w.toNat 0 &&& (all32 - winReserved 0)) 31 30 0) who)
/-- WINDOW_CLOSED (R251). -/
def execWindowClosed (q : CoreId) (w : BitVec 6) (s : State) : Host.Outcome State Fault Refusal :=
  act s (fun s => s.winClosed q w.toNat)

end Sys2Proof.Machine
end

