-- ==== Sys2Proof/Machine/Holds.lean ====
section
/-! DEFINITION. A held CCLK, its causes (R34, R170), and the deadlock detectors (R175 to R179). -/

namespace Sys2Proof.Machine

/-! ### Causes (R34, R170) -/

/-- The cause of a wait on a stream queue of the core, the first of 7 to 11 that its state satisfies, or the last (Table 5.10). -/
def State.queueCause (s : State) (n q last : Nat) : Nat :=
  let x := s.sq n q
  let cands := s.queueCands n q
  let mesh (r : Req) : Bool := r.space == 1 || (r.space == 0 && (quarryOf r.addr).isSome && quarryOf r.addr != some n)
  if x.halt ≠ 0 then last
  else if x.space = some 3 then 7
  else if (s.inFlight n q).any mesh then 8
  else if cands.any (fun c => c.block == 1 || c.block == 3) then 9
  else if cands.any (fun c => c.block == 2) then 10
  else if (s.inFlight n q).any (fun r => r.space == 0 && quarryOf r.addr == some n) then 11
  else last

/-- The cause of a wait on a slot, to be filled or to be read, by the agent of its ring (Table 5.10). -/
def State.slotCause (s : State) (n : Nat) (w : Nat × Nat × Bool) : Nat :=
  let v := s.slot n w.1
  let last := if w.2.2 then 13 else 12
  match sAgent v with
  | 0 => s.queueCause n (sAgentId v) last
  | 1 => 8
  | 2 => 7
  | _ => 11

/-- The cause of a wait on the instruction buffer (R170). -/
def State.fetchCause (s : State) (n : Nat) : Nat :=
  let cs := s.fetchCand n
  if cs.any (fun c => c.block == 1 || c.block == 3) then 9 else if cs.any (fun c => c.block == 2) then 10 else 11

/-! ### A CCLK evaluated (R32, R34, R168) -/

/-- A held CCLK: the cause counted; the slot or the lintel waited on where that is the cause; a phase to remember; the reserved banks met. -/
structure Held where
  cause : Nat
  slot : Option (Nat × Nat) := none
  lint : Option Nat := none
  mark : Option (Nat × Nat) := none
  banks : List Resv := []
  deriving DecidableEq, Repr

/-- What the evaluation of the sub-bundle at a core's PC answers. -/
inductive Evaluation where
  | fault (check : Nat) | held (h : Held) | issue
  deriving DecidableEq, Repr

/-- Whether the job of a core is being drained for a pre-emption (Table 1.7). -/
def State.draining (s : State) (n : Nat) : Bool := s.sw.phase == .drain && (s.core n).job.isSome && s.sw.outgoing == (s.core n).job

/-- The hold of evaluated lanes: of their causes, those of the gates among them, the one that stands first (R34). -/
def State.heldBy (s : State) (n : Nat) (es : List Eval) : Held :=
  let gate := if s.lintelHeld n then (s.core n).lintWait.map Prod.fst else none
  let waits := es.flatMap Eval.slots
  let banks := es.flatMap (fun e => s.bankHolds n e.uses)
  let cause := minOf 13 ((if s.draining n then [1] else []) ++ (if gate.isSome then [4] else []) ++ es.flatMap Eval.holds ++
    waits.map (s.slotCause n) ++ (if banks.isEmpty then [] else [6]))
  { cause := cause
    slot := (waits.find? (fun w => s.slotCause n w == cause)).map (fun w => (w.1, w.2.1))
    lint := if cause ≠ 4 then none else if gate.isSome then gate else es.findSome? Eval.lint
    mark := es.findSome? Eval.mark
    banks := banks }

/-- The evaluation of a counted core's CCLK (R155, R168). -/
def State.evaluation (s : State) (n : Nat) : Evaluation :=
  let c := s.core n
  if !s.evaluates n then .held { cause := 1 }
  else if c.pastEnd then .fault 0x0D
  else if !c.fetched then
    let h := s.heldBy n []
    let cause := min (s.fetchCause n) h.cause
    .held { h with cause := cause, lint := if cause = 4 then h.lint else none }
  else match decodeSub (BitVec.ofNat 256 c.word) with
  | none => .fault 1
  | some ops =>
    match s.judge n ops with
    | .fault k => .fault k
    | .hold => .held (s.heldBy n ((evalAll s n ops).map Prod.fst))
    | .issue => .issue

/-- SUB_BUNDLE_HOLD: a CCLK in which the sub-bundle at the PC does not issue: its fault, or its hold counted. Where it can issue nothing
changes: it issues by its lanes' commands (R168). -/
def State.holdSub (s : State) (n : Nat) : State :=
  let s : State := s.catchUp n
  if !s.counted n || (s.core n).cur.issued != 0 then s
  else match s.evaluation n with
  | .fault k => s.coreFault n k 0xFF 0
  | .held h => (s.countConflict n h.banks).heldFor n h.cause h.slot h.lint h.mark
  | .issue => s

/-- Whether a sub-bundle is the one that a core has before it: the one at its PC, and any one where none stands there, past the image or in a
block not yet fetched. -/
def Core.faces (c : Core) (sb : BitVec 256) : Bool := c.pastEnd || !c.fetched || BitVec.ofNat 256 c.word == sb

/-! ### Deadlock detectors (R175 to R179) -/

/-- Pairs of core and entry, and all ones (Table 15.4, classes 6 and 7). -/
def slotPairs (ps : List (Nat × Nat)) : List Byte :=
  let xs := ps.take 8
  xs.flatMap (fun p => natLe 4 (p.1 * 65536 + p.2)) ++ List.replicate (32 - 4 * xs.length) 0xFF

/-- A limit in CCLK: values below 0x1_0000 act as 0x1_0000 (Table 5.14). -/
def State.dlLimit (s : State) (n o : Nat) : Nat := max 0x10000 (s.preg (.core n) o)

/-- The detector of a core that stands at its limit while the wait that it counts still holds: not in a CCLK in which an event ends the wait
(R175, R176, R179). Its value of DL_INFO (Table 5.14). -/
def State.fires (s : State) (n : Nat) : Option Alarm :=
  let s : State := s.catchUp n
  let c := s.core n
  match c.job, s.evaluation n with
  | some j, .held h =>
    if !s.counted n || c.cur.issued != 0 then none
    else match h.slot, h.lint with
    | some (head, e), _ =>
      let v := s.slot n head
      if bitAt (s.preg (.core n) 0x100) 0 && decide (s.dlLimit n 0x10C ≤ c.slotHold) then
        some ⟨false, j, 2 ^ 30 + sAgent v * 2 ^ 26 + e * 2 ^ 16 + sAgentId v * 2 ^ 8⟩
      else none
    | none, some id =>
      if bitAt (s.preg (.core n) 0x100) 1 && decide (s.dlLimit n 0x110 ≤ c.lintHold) then some ⟨true, j, 2 ^ 31 + id * 2 ^ 16⟩ else none
    | none, none => none
  | _, _ => none

/-- What a detector that has fired writes: DL_INFO and its record, of class 8 or 6 (R175, R176). -/
def State.sounded (s : State) (n : Nat) (a : Alarm) : State :=
  let s : State := s.setPreg (.core n) 0x118 a.info
  if a.lint then s.fault 8 0 (some a.job) (Page.core n).unit 1 (natLe 2 1 ++ natLe 2 (fld a.info 23 16) ++ natLe 2 n)
  else s.fault 6 0 (some a.job) (Page.core n).unit 1 (slotPairs [(n, fld a.info 25 16)])

/-- The detectors of a job's other cores that have fired too keep what they will record (R179). -/
def State.alarmed (s : State) (j : Nat) (but : Option Nat) : State :=
  ((coresOf (s.job j).placed).filter (fun m => some m != but)).foldl (fun (t : State) m =>
    match s.fires m with
    | some a => t.onCore m (fun c => { c with alarm := some a })
    | none => t) s

/-- A detector of one kind at its limit: its record and the teardown of the job; of one whose job another has torn down, its record alone
(R175, R176, R179). -/
def State.detector (s : State) (n : Nat) (lint : Bool) : State :=
  let s : State := s.catchUp n
  match (s.core n).alarm.filter (fun a => a.lint == lint) with
  | some a => (s.onCore n (fun c => { c with alarm := none })).sounded n a
  | none =>
    match (s.fires n).filter (fun a => a.lint == lint) with
    | some a => ((s.alarmed a.job (some n)).sounded n a).tearDown a.job (if lint then 8 else 6)
    | none => s

/-- The slot that the active stream of a queue waits on (R177), ring and entry: its next slot to fill is FULL, or its next slot to drain is
not; in its companion ring too. A halted queue is not blocked (R228). -/
def State.blockedOn (s : State) (n q : Nat) : Option (Nat × Nat) :=
  let x := s.sq n q
  if x.halt != 0 || x.stopping then none
  else match x.run with
  | [] => none
  | d :: _ =>
    let pos := d.start + d.slots
    let cpos := d.cstart + d.cslots
    let h := dComp d.raw
    if d.slots < s.slotTotal n d ∧ s.slotFull n d.head pos ≠ dOut d.raw then some (d.head, d.head + pos % sLen (s.slot n d.head))
    else if dScale d.raw && decide (d.cslots * sRows (s.slot n d.head) < scaleRows d.raw) && s.slotFull n h cpos then
      some (h, h + cpos % sLen (s.slot n h))
    else none

/-- The stream queue at the other end of a ring that queue q waits on, with its core: none where the walk ends, at a program, a port or the
bench (R177). Of another core it is the queue whose active stream addresses the slot's buffer (log 123). -/
def State.otherEnd (s : State) (n q head entry : Nat) : Option (Nat × Nat) :=
  let v := s.slot n head
  let at_ := rowAddr n (sBuf (s.slot n entry))
  match sAgent v with
  | 0 => if sAgentId v ≠ q ∧ sAgentId v < 160 then some (n, sAgentId v) else none
  | 1 =>
    let m := sAgentId v
    (List.range 160).findSome? (fun p => match (s.sq m p).run with
      | d :: _ =>
        if dSpace d.raw == 1 && dOut d.raw == !sOut v && decide (dAddr d.raw ≤ at_) && decide (at_ < dLimit d.raw) then some (m, p) else none
      | [] => none)
  | _ => none

/-- The walk of R177 from a queue: the slots of a cycle that returns to it within 16 edges. -/
def State.walk (s : State) (from_ : Nat × Nat) : Nat → Nat × Nat → List (Nat × Nat) → Option (List (Nat × Nat))
  | 0, _, _ => none
  | k + 1, node, path =>
    match s.blockedOn node.1 node.2 with
    | none => none
    | some (h, e) =>
      let path := path ++ [(node.1, e)]
      match s.otherEnd node.1 node.2 h e with
      | none => none
      | some m => if (s.blockedOn m.1 m.2).isNone then none else if m = from_ then some path else State.walk s from_ k m path

/-- The cycles of blocked queues that pass through a core, each from one of its queues (R177). -/
def State.cycles (s : State) (n : Nat) : List (List (Nat × Nat)) := (List.range 160).filterMap (fun q => s.walk (n, q) 16 (n, q) [])

/-- Whether a core's engines sample now (R177, Table 5.14): its job holds the chip, and SWD_PERIOD has passed of the CCLK that it counts. -/
def State.samples (s : State) (n : Nat) : Bool :=
  let c := s.core n
  bitAt (s.preg (.core n) 0x100) 2 && c.life.st == .opened && c.job.isSome && s.runSlot == c.job &&
    (!s.counted n || decide (c.swdAt + s.dlLimit n 0x114 ≤ c.cclk))

/-- STREAM_WATCHDOG_SAMPLE (R177): a cycle found at two consecutive samples is reported by its lowest core. -/
def State.watchdogSample (s : State) (n : Nat) : State :=
  let s : State := s.catchUp n
  if !s.samples n then s
  else
    let c := s.core n
    let found := s.cycles n
    let t : State := s.onCore n (fun c => { c with swdLast := found, swdAt := c.cclk })
    match found.find? (fun p => c.swdLast.contains p && p.all (fun x => decide (n ≤ x.1))), c.job with
    | some p, some j => ((t.alarmed j none).fault 7 0 c.job (Page.core n).unit 1 (slotPairs p)).tearDown j 7
    | _, _ => t

/-! ### Meanings -/

/-- SUB_BUNDLE_HOLD (R32, R34, R168): of the sub-bundle that the core has before it, as a lane's command is of one of its operations. -/
def execSubBundleHold (c : CoreId) (sb : BitVec 256) (s : State) : Host.Outcome State Fault Refusal :=
  act s (fun s => if (s.core c).faces sb then s.holdSub c else s)
/-- SLOT_DEADLOCK (R175). -/
def execSlotDeadlock (c : CoreId) (s : State) : Host.Outcome State Fault Refusal := act s (fun s => s.detector c false)
/-- LINTEL_WATCHDOG (R176). -/
def execLintelWatchdog (c : CoreId) (s : State) : Host.Outcome State Fault Refusal := act s (fun s => s.detector c true)
/-- STREAM_WATCHDOG_SAMPLE (R177). -/
def execStreamWatchdogSample (c : CoreId) (s : State) : Host.Outcome State Fault Refusal :=
  act s (fun s => s.watchdogSample c)

end Sys2Proof.Machine
end

