-- ==== Sys2Proof/Machine/Bench.lean ====
section
/-! DEFINITION. The bench (R254 to R276): its commands, their checks and start, and their operations. -/

namespace Sys2Proof.Machine

/-! ### Commands (Tables 8.7 and 8.8) -/

/-- A bench command with its quarry, its queue (none for a host-submitted command) and its job. -/
structure Bc where
  n : Nat
  b : Option Nat
  job : Option Nat
  cmd : List Byte
  deriving DecidableEq, Repr

/-- CTRL. -/
def Bc.ctrl (k : Bc) : Nat := byteFld k.cmd 0 4
/-- OP. -/
def Bc.op (k : Bc) : Nat := fld k.ctrl 31 24
/-- DTYPE. -/
def Bc.dtype (k : Bc) : Nat := fld k.ctrl 23 20
/-- REPLY. -/
def Bc.reply (k : Bc) : Bool := bitAt k.ctrl 19
/-- NOTIFY. -/
def Bc.notify (k : Bc) : Bool := bitAt k.ctrl 18
/-- GATE_EN. -/
def Bc.gateEn (k : Bc) : Bool := bitAt k.ctrl 17
/-- TAG_DONE. -/
def Bc.tagDone (k : Bc) : Bool := bitAt k.ctrl 16
/-- TRIG. -/
def Bc.trig (k : Bc) : Bool := bitAt k.ctrl 15
/-- MASK_EN. -/
def Bc.maskEn (k : Bc) : Bool := bitAt k.ctrl 14
/-- SEQ. -/
def Bc.seq (k : Bc) : Nat := byteFld k.cmd 4 4
/-- COUNT. -/
def Bc.count (k : Bc) : Nat := byteFld k.cmd 8 4
/-- AUX. -/
def Bc.aux (k : Bc) : Nat := byteFld k.cmd 0xC 4
/-- GATE_TAG. -/
def Bc.tag (k : Bc) : Nat := fld k.aux 27 16
/-- DST. -/
def Bc.dst (k : Bc) : Nat := byteFld k.cmd 0x10 6
/-- SRC; a 64-bit address for a HOST remote address. -/
def Bc.src (k : Bc) : Nat := byteFld k.cmd 0x18 8
/-- HDR. -/
def Bc.hdr (k : Bc) : Nat := byteFld k.cmd 0x20 6
/-- HDR2. -/
def Bc.hdr2 (k : Bc) : Nat := byteFld k.cmd 0x28 6
/-- MASK. -/
def Bc.mask (k : Bc) : Nat := byteFld k.cmd 0x30 6
/-- TBASE or REGION_ID. -/
def Bc.tbase (k : Bc) : Nat := byteFld k.cmd 0x38 8
/-- Bytes of an element. -/
def Bc.size (k : Bc) : Nat := [4, 2, 4, 8].getD k.dtype 4
/-- Whether the command is an optimizer step. -/
def Bc.isOpt (k : Bc) : Bool := k.op == 8 || k.op == 9 || k.op == 0xA

/-- The job whose bench queues of core n run (R254). -/
def State.benchJob (s : State) (n : Nat) : Option Nat :=
  match s.runSlot with
  | some j => if (s.job j).st = .running ∧ bitAt (s.job j).placed n then some j else none
  | none => none

/-- Word k of a bench queue's registers (Table 8.6). -/
def State.bqWord (s : State) (n b k : Nat) : Nat := s.preg (.bench n) (0x400 + 0x10 * b + 4 * k)
/-- LEN of a bench queue. -/
def State.bqLen (s : State) (n b : Nat) : Nat := fld (s.bqWord n b 1) 31 16
/-- IN_HEAD. -/
def State.inHead (s : State) (n b : Nat) : Nat := fld (s.bqWord n b 2) 9 0
/-- OUT_HEAD. -/
def State.outHead (s : State) (n b : Nat) : Nat := fld (s.bqWord n b 2) 25 16

/-! ### Access -/

/-- An access of a command in admission (R5, R247, R250, R254): direct, through a window of class BENCH, or a host command's, in its own quarry
outside every shutter range, in that of a fused core or another through a window of class HOST. A sill is no target (R4, R22); unmapped
addresses and the mirror: INTERNAL (R20, R21). -/
def State.benchEnter (s : State) (k : Bc) (a len : Nat) (op : WinOp) : State × Nat :=
  match quarryOf a with
  | none => (s, match sillOf a with
    | some o => if s.sillShut o then 0x10 else 0x60
    | none => 0x7F)
  | some q =>
    match k.job with
    | some j =>
      if q = k.n then s.directEnter k.n j a len
      else
        let (s, st, _) := s.winEnter .bench op a len
        (s, st)
    | none =>
      if (s.quarry k.n).life.st ≠ .opened then (s, 0x10)
      else if q = k.n && !fused q then
        (s, if quarryOf (a + len - 1) == some q && !s.inShutter q a len then 0 else 0x60)
      else
        let (s, st, _) := s.winEnter .host op a len
        (s, st)

/-- Ranges cut at 64-byte units (R216). -/
def unitCut (a len : Nat) : List (Nat × Nat) :=
  (List.range (if len = 0 then 0 else units a len)).map (fun i =>
    let lo := max a ((a / 64 + i) * 64)
    (lo, min (a + len) ((a / 64 + i + 1) * 64) - lo))

/-- Flags and job of the records of a command's memory faults (Table 8.3). -/
def Bc.flags (k : Bc) : Nat := if k.job.isSome then 1 else 0

/-- A read of a command, unit by unit: state, status, bytes, the address that failed. -/
def State.benchGet (s : State) (k : Bc) (source : Nat) : List (Nat × Nat) → State × Nat × List Byte × Nat
  | [] => (s, 0, [], 0)
  | (a, len) :: rest =>
    match s.benchEnter k a len .read with
    | (s, 0) =>
      let (s, bs, st) := s.quarryRead (a / quarrySize) a len source (if source = 4 then none else k.job) (if source = 4 then 0 else k.flags)
      if st = 0x40 then (s, 0x40, [], a)
      else
        let (s, st', more, f) := State.benchGet s k source rest
        (s, st', bs ++ more, f)
    | (s, st) => (s, st, [], a)

/-- A write of a command, unit by unit: state, status, the address that failed. -/
def State.benchPut (s : State) (k : Bc) (op : WinOp) : List (Nat × Nat) → List Byte → State × Nat × Nat
  | [], _ => (s, 0, 0)
  | (a, len) :: rest, bs =>
    match s.benchEnter k a len op with
    | (s, 0) =>
      let (s, st) := s.quarryWrite (a / quarrySize) a (bs.take len) 2 k.job k.flags
      if st = 0x40 then (s, 0x40, a) else State.benchPut s k op rest (bs.drop len)
    | (s, st) => (s, st, a)

/-- A write of bytes at an address. -/
def State.bput (s : State) (k : Bc) (a : Nat) (bs : List Byte) : State × Nat × Nat := s.benchPut k .write (unitCut a bs.length) bs
/-- A read of bytes at an address. -/
def State.bget (s : State) (k : Bc) (a len : Nat) : State × Nat × List Byte × Nat := s.benchGet k 2 (unitCut a len)

/-- Uncorrectable units of a range that a command would have written are written back poisoned (Table 8.3). -/
def State.poisonBad (s : State) (a len : Nat) : State :=
  ((unitCut a len).filter (fun u => s.grade (u.1 / 64 * 64) 64 == 2)).foldl (fun (s : State) u => s.poison (u.1 / 64 * 64) 64) s

/-- A read of what a descriptor names in any quarry or sill of the job (R54, R59, R141): state, status, bytes, the address that failed. -/
def State.benchFar (s : State) (k : Bc) (a len : Nat) : State × Nat × List Byte × Nat :=
  match sillOf a with
  | none => s.bget k a len
  | some o =>
    if s.sillShut o then (s, 0x10, [], a)
    else if k.job.isNone || (s.core o).job != k.job then (s.bump (.sill o) 0x70, 0x60, [], a)
    else
      let (s, bs, st) := s.sillRead o a len 1 k.job k.flags
      (s, if st = 0x40 then 0x40 else 0, bs, a)

/-- A write of what a descriptor names in any quarry or sill of the job: state, status, the address that failed. -/
def State.benchFarPut (s : State) (k : Bc) (a : Nat) (bs : List Byte) : State × Nat × Nat :=
  match sillOf a with
  | none => s.bput k a bs
  | some o =>
    if s.sillShut o then (s, 0x10, a)
    else if k.job.isNone || (s.core o).job != k.job then (s.bump (.sill o) 0x70, 0x60, a)
    else (s.putRow a bs, 0, 0)

/-! ### Masks (R129 to R131) -/

/-- A discard mask: its header and its bitmaps. -/
structure Mask where
  rows : Nat
  cols : Nat
  rowMap : Option (List Byte)
  colMap : Option (List Byte)
  deriving DecidableEq, Repr

/-- Bit i of a bitmap. -/
def mapBit (m : List Byte) (i : Nat) : Bool := bitAt (m.getD (i / 8) 0).toNat (i % 8)

/-- Whether every bit of a bitmap is 0 from bit n on. -/
def mapTail (m : List Byte) (n : Nat) : Bool := (fromN n (8 * m.length - n)).all (fun i => !mapBit m i)

/-- Whether a mask's header passes R131. -/
def maskHdrOk (h : List Byte) : Bool :=
  let r := byteFld h 0 4
  let c := byteFld h 4 4
  byteFld h 8 4 / 4 == 0 && byteFld h 0xC 52 == 0 && decide (1 ≤ r) && decide (r ≤ 1048576) && decide (1 ≤ c) && decide (c ≤ 1048576)

/-- Bytes of the row bitmap and of the column bitmap that a header tells of (Table 4.8). -/
def maskMaps (h : List Byte) : Nat × Nat :=
  let f := byteFld h 8 4
  (if bitAt f 0 then roundUp (ceilDiv (byteFld h 0 4) 8) 64 else 0, if bitAt f 1 then roundUp (ceilDiv (byteFld h 4 4) 8) 64 else 0)

/-- Bytes of a mask by its header: of one that fails its checks, the header alone. -/
def maskSize (h : List Byte) : Nat := if maskHdrOk h then 64 + (maskMaps h).1 + (maskMaps h).2 else 64

/-- A mask from its bytes: none where a check of R131 fails. -/
def parseMask (bs : List Byte) : Option Mask :=
  let h := bs.take 64
  let f := byteFld h 8 4
  let (rb, cb) := maskMaps h
  let r := (bs.drop 64).take rb
  let c := (bs.drop (64 + rb)).take cb
  if maskHdrOk h && mapTail r (byteFld h 0 4) && mapTail c (byteFld h 4 4) then
    some ⟨byteFld h 0 4, byteFld h 4 4, if bitAt f 0 then some r else none, if bitAt f 1 then some c else none⟩
  else none

/-- Whether element (i, k) of a tensor is discarded (R129). -/
def discards (m : Option Mask) (i k : Nat) : Bool :=
  match m with
  | none => false
  | some m =>
    (match m.rowMap with
     | some x => decide (i < m.rows) && mapBit x i
     | none => false) ||
    (match m.colMap with
     | some x => decide (k < m.cols) && mapBit x k
     | none => false)

/-- Whether elements of a size from an address map to a mask's tensor under TBASE (R259, R260). -/
def maps (m : Mask) (base a size count : Nat) : Bool :=
  decide (base ≤ a) && (a - base) % size == 0 && decide ((a - base) / size + count ≤ m.rows * m.cols)

/-- Whether the element at an address, counted from TBASE, is discarded. -/
def discardsAt (k : Bc) (m : Option Mask) (a size : Nat) : Bool :=
  match m with
  | none => false
  | some x => let i := (a - k.tbase) / size; discards m (i / x.cols) (i % x.cols)

/-! ### What a command reads at its start (R132, R263, R266) -/

/-- Part i of what a started command has read: 0 the mask, 1 the operand block, 2 the hyperparameters, 3 WDESC, 4 its channel list. -/
def BQ.part (q : BQ) (i : Nat) : List Byte := (q.snap.getD i (0, [])).2

/-- Whether what a command has read at its start still stands in memory. -/
def State.steady (s : State) (q : BQ) : Bool := q.snap.all (fun e => s.bytes e.1 e.2.length == e.2)

/-- Values that a command writes: free where what it has read has changed since (R132, R266). -/
def State.unsure (s : State) (loose : Bool) (bs : List Byte) : State × List Byte :=
  if loose then ({ s with free := s.free + bs.length }, freeBytes s.free bs.length) else (s, bs)

/-- The mask of a started command. -/
def Bc.maskOf (k : Bc) (q : BQ) : Option Mask := if k.maskEn then parseMask (q.part 0) else none

/-! ### Optimizer operands (Tables 8.9 and 8.10) -/

/-- An optimizer step's operands. -/
structure OptArgs where
  blk : List Byte
  hyp : List Byte
  wd : Option TDesc
  chan : List Nat
  deriving DecidableEq, Repr

/-- ROWS. -/
def OptArgs.rows (o : OptArgs) : Nat := byteFld o.blk 0x40 4
/-- KB. -/
def OptArgs.kb (o : OptArgs) : Nat := byteFld o.blk 0x44 4
/-- ROW0. -/
def OptArgs.row0 (o : OptArgs) : Nat := byteFld o.blk 0x4C 4
/-- An address field of the operand block. -/
def OptArgs.addr (o : OptArgs) (off : Nat) : Nat := byteFld o.blk off 6
/-- MOM_BF16. -/
def OptArgs.bf16 (o : OptArgs) : Bool := bitAt (byteFld o.blk 0x48 4) 0
/-- WORK_EN. -/
def OptArgs.workEn (o : OptArgs) : Bool := bitAt (byteFld o.blk 0x48 4) 2
/-- Bytes of a stored moment. -/
def OptArgs.msz (o : OptArgs) : Nat := if o.bf16 then 2 else 4
/-- An FP32 hyperparameter. -/
def OptArgs.h (o : OptArgs) (off : Nat) : W32 := BitVec.ofNat 32 (byteFld o.hyp off 4)

/-- Operands from the bytes of the operand block, the hyperparameters, WDESC and its channel list. -/
def optOf (blk hyp wd chan : List Byte) : OptArgs :=
  let o : OptArgs := { blk := blk, hyp := hyp, wd := none, chan := [] }
  if o.workEn then
    match parseTDesc wd with
    | some d => { o with wd := some d, chan := if d.priv then (parseChan chan).getD [] else [] }
    | none => o
  else o

/-- The operands of a started command, as it read them (R263). -/
def BQ.args (q : BQ) : OptArgs := optOf (q.part 1) (q.part 2) (q.part 3) (q.part 4)

/-- The operands as they stand in memory, no access made. -/
def State.optArgs (s : State) (k : Bc) : OptArgs :=
  let blk := s.bytes (k.src % 2 ^ 48) 128
  let wd := s.bytes (byteFld blk 0x30 6) 64
  optOf blk (s.bytes (byteFld blk 0x38 6) 64) wd (match parseTDesc wd with
    | some d => s.bytes d.chanAddr 512
    | none => [])

/-- W of R264. -/
def OptArgs.pitch (o : OptArgs) : Nat := roundUp o.kb 64

/-- The ranges of the working copy that a step writes: its patches, and its rows of scale bytes (R264). -/
def OptArgs.work (o : OptArgs) : List (Nat × Nat) :=
  match o.wd with
  | some d =>
    let p := d.fmt.patchRows
    (o.addr 0x28 + o.row0 / p * o.kb * 512, o.addr 0x28 + ((o.row0 + o.rows - 1) / p + 1) * o.kb * 512) ::
      (if d.scaleBytes ≠ 0 then [(d.scaleAddr + o.row0 * o.pitch, d.scaleAddr + (o.row0 + o.rows) * o.pitch)] else [])
  | none => []

/-- Whether two ranges overlap. -/
def overlap (a b c d : Nat) : Bool := decide (a < d) && decide (c < b)

/-- The interlock of R271. -/
def State.locked (s : State) (k : Bc) : Bool :=
  let o := s.optArgs k
  let els := o.rows * o.kb * 32
  let regs := [(o.addr 0, o.addr 0 + 4 * els), (o.addr 8, o.addr 8 + o.msz * els)] ++
    (if k.op = 9 then [(o.addr 0x10, o.addr 0x10 + o.msz * els)] else []) ++ o.work
  k.isOpt && (s.quarry k.n).locks.any (fun l => regs.any (fun r => overlap r.1 r.2 l.lo l.hi))

/-- The checks of an optimizer's operands (R256, R262, R264). The tensor format descriptor is read at its address as it stands, aligned or not
(log 130). -/
def OptArgs.ok (o : OptArgs) (op : Nat) (chanOk : Bool) : Bool :=
  let z (off : Nat) : Bool := byteFld o.blk (off + 6) 2 == 0
  let f := byteFld o.blk 0x48 4
  [0, 8, 0x10, 0x18, 0x20, 0x28, 0x30, 0x38].all z && byteFld o.blk 0x50 48 == 0 && byteFld o.hyp 0x20 32 == 0 &&
    f / 8 == 0 && (!bitAt f 1 || op == 8) && (op == 9 || byteFld o.blk 0x10 8 == 0) && decide (1 ≤ o.rows) &&
    o.addr 0 % 4 == 0 && o.addr 8 % o.msz == 0 && o.addr 0x10 % o.msz == 0 && o.addr 0x38 % 4 == 0 &&
    (if o.addr 0x20 = 0 then o.addr 0x18 % 4 == 0 else o.addr 0x18 % 256 == 0 && o.addr 0x20 % 4 == 0) &&
    (!o.workEn || (o.addr 0x28 % 512 == 0 && chanOk && (match o.wd with
      | some d => d.fmt != .fp32
      | none => false)))

/-! ### Checks at start (R256) -/

/-- A ring that a command needs. -/
def State.benchRing (s : State) (n b head : Nat) (outbound : Bool) : Bool :=
  let v := s.slot n head
  bitAt (s.bqWord n b 2) 31 && s.ringOk n head && sAgent v == 3 && sAgentId v == b && sOut v == outbound

/-- OP and the fields that it reserves. -/
def Bc.fieldsOk (k : Bc) : Bool :=
  let dataOp := k.op == 1 || k.op == 2 || k.op == 3
  let remote := k.op == 0xC || k.op == 0xD
  let hi (off : Nat) : Bool := byteFld k.cmd (off + 6) 2 == 0
  let sp := fld k.aux 29 28
  [1, 2, 3, 4, 5, 8, 9, 0xA, 0xC, 0xD].contains k.op && k.ctrl % 2 ^ 14 == 0 && fld k.aux 31 30 == 0 &&
    (if dataOp then decide (k.dtype ≤ 3) else k.dtype == 0) &&
    (!k.maskEn || k.op == 1 || k.op == 4 || k.isOpt) && (!k.isOpt || k.count == 0) &&
    (k.isOpt || hi 0x10) && (!(k.op == 4 || k.op == 5 || k.isOpt) || hi 0x18) &&
    (!(k.op == 4 || k.op == 5 || remote) || hi 0x20) && (!(k.op == 4 || k.op == 5) || hi 0x28) &&
    (!k.maskEn || (hi 0x30 && k.mask % 64 == 0)) && (!(k.maskEn && !k.isOpt) || hi 0x38) &&
    (!remote || ((sp == 2 || (sp == 3 && hi 0x18)) && k.count % 4096 == 0 && k.dst % 4096 == 0)) &&
    (!dataOp || k.dst % k.size == 0) &&
    (k.op != 4 || (k.src % 4 == 0 && k.dst % 256 == 0 && k.hdr % 4 == 0 && k.hdr2 % 8 == 0)) &&
    (k.op != 5 || (k.src % 256 == 0 && k.dst % 256 == 0 && k.hdr % 4 == 0 && k.hdr2 % 4 == 0)) &&
    (!k.isOpt || k.src % 64 == 0)

/-- The ring checks of a bench queue's command. -/
def State.ringsOk (s : State) (k : Bc) (b : Nat) : Bool :=
  let needIn := k.trig || k.op == 1 || k.op == 2
  (!needIn || s.benchRing k.n b (s.inHead k.n b) true) &&
    (!k.reply || (s.benchRing k.n b (s.outHead k.n b) false &&
      decide ((if k.op = 2 then 64 + k.count * k.size else 64) ≤ s.slotBytes k.n (s.outHead k.n b))))

/-- Whether an EXPORT's or IMPORT's region lies within its quarry (R256). -/
def Bc.regionOk (k : Bc) : Bool :=
  !(k.op == 0xC || k.op == 0xD) ||
    (decide (quarryBase k.n ≤ k.dst) && decide (k.dst + k.count ≤ quarryBase k.n + quarrySize))

/-- The mask checks, its bytes read: sound, and mapping every element (R131, R256). -/
def Bc.maskOk (k : Bc) (bs : List Byte) : Bool :=
  !k.maskEn || match parseMask bs with
    | none => false
    | some m => match k.op with
      | 1 => maps m k.tbase k.dst k.size k.count
      | 4 => maps m k.tbase k.src 4 (32 * k.count)
      | _ => true

/-! ### Ends of commands -/

/-- The record of a command: a host entry's always, a queue's with NOTIFY (R255, Table 12.7). -/
def State.benchRecord (s : State) (k : Bc) (status done addr first : Nat) : State :=
  match k.b with
  | some b =>
    match k.job with
    | some j =>
      if k.notify then s.post (s.job j).cqBench status 0x02 (some j) 0xFFFF 0
        (benchDetail (224 * k.n + 160 + b) k.n k.op k.seq done addr first) else s
    | none => s
  | none =>
    match (s.quarry k.n).host with
    | h :: _ => s.postSq h.sq status 0x02 none (benchDetail 0xFFFF k.n k.op k.seq done addr first)
    | [] => s

/-- Where the reply of a command goes: the head of its ring, where that is bound and its next slot empty (R160, R258). -/
def State.replyAt (s : State) (k : Bc) : Option Nat :=
  match k.b with
  | some b =>
    let h := s.outHead k.n b
    if k.reply && s.benchRing k.n b h false && !s.slotFull k.n h (sProd (s.slot k.n h)) then some h else none
  | none => none

/-- The reply slot of a command (R258); a command that fails for want of one has none. -/
def State.benchReply (s : State) (k : Bc) (status done first : Nat) (old : List Byte) : State :=
  match s.replyAt k with
  | some h =>
    let pos := sProd (s.slot k.n h)
    let bytes := fitTo (s.slotBytes k.n h) (natLe 1 status ++ zeros 3 ++ natLe 4 k.seq ++ natLe 8 done ++ natLe 8 first ++ zeros 40 ++ old)
    ((s.put (rowAddr k.n (sBuf (s.ringSlot k.n h pos))) bytes).setFull k.n h pos true).advProd k.n h 1
  | none => s

/-- Whether a command's reply, where it has one, finds its slot empty. -/
def State.replyFree (s : State) (k : Bc) : Bool := !k.reply || k.b.isNone || (s.replyAt k).isSome

/-- The bytes of the sill that a command's reply writes. -/
def State.replyRange (s : State) (k : Bc) : List (Nat × Nat) :=
  match s.replyAt k with
  | some h => [(rowAddr k.n (sBuf (s.ringSlot k.n h (sProd (s.slot k.n h)))), s.slotBytes k.n h)]
  | none => []

/-- What ends a command, once its reply finds its slot empty and the banks of its rows free (R160, R192). -/
def State.withReply (s : State) (k : Bc) (f : State → State) : State :=
  if !s.replyFree k then s
  else match s.benchTries k.n (s.replyRange k) with
    | (s, true) => f s
    | (s, false) => s

/-- An optimizer command counted toward its tag (R282): beyond OPT_EXPECT the tag fails. -/
def State.countTagDone (s : State) (j t : Nat) : State :=
  let n := (s.tag j t).optDone + 1
  let s : State := s.onTag j t (fun x => { x with optDone := n })
  if byteFld (s.bucket j t) 0x4C 2 < n then s.failTag j t 0x7F 14 (progDetail 0xFFFF 0 0x0B (t % 256) 0) else s

/-- A command completes (R254 to R258): counted, its reply and record written, the queue's next command at POS. -/
def State.benchDone (s : State) (k : Bc) (status done addr first : Nat) (old : List Byte) : State :=
  let s : State := s.bump (.bench k.n) 0x40
  let s : State := if 0x10 ≤ status then s.setPreg (.bench k.n) 0x104 (status * 2 ^ 24 + k.op * 2 ^ 16 + k.b.getD 0) else s
  let s : State := (s.benchReply k status done first old).benchRecord k status done addr first
  match k.b with
  | some b =>
    let pos := (s.bq k.n b).pos + 1
    let len := s.bqLen k.n b
    let s : State := s.onBq k.n b (fun q => { q with st := 0, cmd := none, done := 0, old := [], snap := [], work := [], pos := if len ≤ pos then 0 else pos })
    let s : State := s.onQuarry k.n (fun q => { q with locks := q.locks.filter (fun l => l.queue != some b) })
    (match k.job with
     | some j => if k.tagDone then s.countTagDone j k.tag else s
     | none => s)
  | none => s.onQuarry k.n (fun q => { q with host := q.host.drop 1, locks := q.locks.filter (fun l => l.queue.isSome) })

/-- A command stops at a status that faults its job (R256, Table 8.3): an uncorrectable unit, a refusal, a failed check.
A host command tears down nothing. -/
def State.benchStop (s : State) (k : Bc) (status check done addr first : Nat) : State :=
  let s : State := s.benchDone { k with cmd := spliceAt k.cmd 2 [(BitVec.ofNat 8 (byteFld k.cmd 2 1)) &&& 0xFE] } status done addr first []
  match k.job with
  | none => s
  | some j =>
    if status = 0x40 then s.tearDown j 1
    else s.progFault (some j) (Page.quarry k.n).unit status k.n (s.core k.n).pc check (k.b.getD 0xFF) addr

/-- The check code of a refused access (Table 15.12). -/
def stopCheck (st : Nat) : Nat := if st = 0x7F then 8 else if st = 0x60 then 9 else 0xFF

/-- A duplicate mismatch (R276): counted, class 2, then by ACTION. -/
def State.benchDup (s : State) (k : Bc) : State :=
  let ctl := s.preg (.bench k.n) 0x100
  let tear := !bitAt ctl 1 && k.job.isSome
  let s : State := (s.bump (.bench k.n) 0x90).fault 2 0 k.job (Page.quarry k.n).unit (if tear then 1 else 0) (natLe 1 6)
  if tear then s.tearJob k.job 2 else s

/-- Elements counted non-finite by a bench (R432, R433). -/
def State.benchNonfinite (s : State) (k : Bc) (c : Nat) : State :=
  if c = 0 then s else (s.bump (.bench k.n) 0x80 c).nonfinite k.job (Page.quarry k.n).unit k.n

/-! ### Start (R254, R256, R257) -/

/-- The bench queue's command, read where none is held: state, status, command, address. -/
def State.nextCmd (s : State) (n j b : Nat) : State × Nat × List Byte × Nat :=
  match (s.bq n b).cmd with
  | some c => (s, 0, c, 0)
  | none =>
    let a := fld (s.bqWord n b 0) 31 6 * 64 + fld (s.bqWord n b 1) 15 0 * 2 ^ 32 + 64 * (s.bq n b).pos
    s.bget ⟨n, some b, some j, []⟩ a 64

/-- Whether a command waits on its trigger or gate (R257). -/
def State.benchWaits (s : State) (k : Bc) (b : Nat) : Bool :=
  let h := s.inHead k.n b
  (k.trig && s.benchRing k.n b h true && !s.slotFull k.n h (sCons (s.slot k.n h))) ||
    (k.gateEn && (s.tag (k.job.getD 0) k.tag).st != .reduced)

/-- Reads of a command's start in turn: state, status, what was read with its address, the address that failed. -/
def State.startReads (s : State) (k : Bc) : List (Nat × Nat) → State × Nat × List (Nat × List Byte) × Nat
  | [] => (s, 0, [], 0)
  | (a, len) :: rest =>
    match (if len = 0 then (s, 0, [], a) else s.benchFar k a len) with
    | (s, st, bs, f) =>
      if 1 < st then (s, st, [], f)
      else
        let (s, st, more, f) := State.startReads s k rest
        (s, st, (a, bs) :: more, f)

/-- What a command reads at its start (R130, R256, R263): its mask, and an optimizer step's operands; where each next one stands is read from
those before it. -/
def State.startRanges (s : State) (k : Bc) : List (Nat × Nat) :=
  let o := s.optArgs k
  let chan := match o.wd with
    | some d => if d.priv then (d.chanAddr, 512) else (0, 0)
    | none => (0, 0)
  [if k.maskEn then (k.mask, maskSize (s.bytes k.mask 64)) else (0, 0)] ++
    (if k.isOpt then [(k.src % 2 ^ 48, 128), (o.addr 0x38, 64), if o.workEn then (o.addr 0x30, 64) else (0, 0), chan] else [])

/-- Whether the channel list of an optimizer's descriptor, as read, passes R55. -/
def OptArgs.chanOk (o : OptArgs) (chan : List Byte) : Bool :=
  match o.wd with
  | some d => !d.priv || (d.chanAddr % 512 == 0 && (parseChan chan).isSome)
  | none => false

/-- The checks of what a command has read (R131, R256, R262, R264). -/
def BQ.readsOk (q : BQ) (k : Bc) : Bool :=
  k.maskOk (q.part 0) && (!k.isOpt || q.args.ok k.op (q.args.chanOk (q.part 4)))

/-- A command that passes its checks runs: its trigger slot is taken, an EXPORT or IMPORT holds its region (R257, R271). -/
def State.benchRun (s : State) (n b : Nat) (k : Bc) (q : BQ) : State :=
  let s : State := if k.trig then
      (let h := s.inHead n b
       (s.setFull n h (sCons (s.slot n h)) false).advCons n h 1)
    else s
  let s : State := if k.op = 0xC ∨ k.op = 0xD then
      s.onQuarry n (fun q => { q with locks := ⟨some b, k.dst, k.dst + k.count⟩ :: q.locks }) else s
  s.onBq n b (fun _ => q)

/-- BENCH_COMMAND_START (R254, R256, R257, R263). -/
def State.benchStart (s : State) (n b : Nat) : State :=
  match s.benchJob n with
  | none => s
  | some j =>
    let q := s.bq n b
    if s.bqLen n b = 0 ∨ 1 = q.st ∨ 3 = q.st then s
    else match s.nextCmd n j b with
    | (s, st, c, f) =>
      let k : Bc := ⟨n, some b, some j, c⟩
      let wait (s : State) : State := s.onBq n b (fun q => { q with st := 2, cmd := some c })
      if 0x40 = st then
        ({ s with free := s.free + 64 } : State).benchStop { k with cmd := freeBytes s.free 64 } 0x40 0xFF 0 f ones64
      else if 1 < st then s.progFault (some j) (Page.quarry n).unit st n (s.core n).pc (stopCheck st) b f
      else if s.benchWaits k b then (wait s).bump (.bench n) 0x78
      else if k.isOpt && s.locked k then (wait s).bump (.bench n) 0x70
      else if !(k.fieldsOk && k.regionOk && s.ringsOk k b) then s.benchStop k 0x7F 0xA 0 0 ones64
      else match s.benchTries n (s.startRanges k) with
      | (s, false) => wait s
      | (s, true) =>
        match s.startReads k (s.startRanges k) with
        | (s, st, snap, f) =>
          let q : BQ := { s.bq n b with st := 1, cmd := some c, done := 0, old := [], snap := snap }
          if 1 < st then s.benchStop k st (stopCheck st) 0 f ones64
          else if !q.readsOk k then s.benchStop k 0x7F 0xA 0 0 ones64
          else s.benchRun n b k { q with work := if k.isOpt then q.args.work else [] }

/-- The command that an operation runs: a started queue command, or the host command at the head, of that OP. -/
def State.bcOf (s : State) (n : Nat) (b : Option Nat) (op : Nat) : Option Bc :=
  match b with
  | some b =>
    match s.benchJob n, (s.bq n b).cmd with
    | some j, some c =>
      let k : Bc := ⟨n, some b, some j, c⟩
      if (s.bq n b).st = 1 ∧ k.op = op then some k else none
    | _, _ => none
  | none =>
    match (s.quarry n).host with
    | h :: _ =>
      let k : Bc := ⟨n, none, none, h.cmd⟩
      if k.op = op then some k else none
    | [] => none

/-- Bytes or elements that a command has done, and the bytes that it keeps of them. -/
def State.progress (s : State) (k : Bc) : Nat × List Byte :=
  match k.b with
  | some b => ((s.bq k.n b).done, (s.bq k.n b).old)
  | none => match (s.quarry k.n).host with
    | h :: _ => (h.done, h.old)
    | [] => (0, [])

/-- The progress of a command kept. -/
def State.advance (s : State) (k : Bc) (done : Nat) (old : List Byte) : State :=
  match k.b with
  | some b => s.onBq k.n b (fun q => { q with done := done, old := old })
  | none => s.onQuarry k.n (fun q => { q with host := match q.host with
    | h :: t => { h with done := done, old := old } :: t
    | [] => [] })

/-- A host command's checks as it begins (R256); a queue's were made at its start. -/
def Bc.hostOk (k : Bc) : Bool := k.b.isSome || k.fieldsOk

/-- Whether the bench's two pipelines differ and it compares them (R276). -/
def State.benchDiffers (s : State) (n : Nat) (mismatch : Bool) : Bool := mismatch && bitAt (s.preg (.bench n) 0x100) 0

/-! ### Element operations (R259) -/

/-- One element of ADD: the new code, and whether it wrapped. -/
def addElem (dtype old new : Nat) : Nat × Bool :=
  match dtype with
  | 0 => ((fadd (BitVec.ofNat 32 old) (BitVec.ofNat 32 new)).toNat, false)
  | 1 => ((flBf16 ((valBf16 (BitVec.ofNat 16 old)).add (valBf16 (BitVec.ofNat 16 new)))).toNat, false)
  | d =>
    let w := if d = 2 then 32 else 64
    let r := (old + new) % 2 ^ w
    (r, bitAt old (w - 1) == bitAt new (w - 1) && bitAt r (w - 1) != bitAt old (w - 1))

/-- Whether an element's code stands for a finite value. -/
def codeFin (dtype code : Nat) : Bool :=
  match dtype with
  | 0 => (val32 (BitVec.ofNat 32 code)).isFin
  | 1 => (valBf16 (BitVec.ofNat 16 code)).isFin
  | _ => true

/-- What a run over elements has done. -/
structure ElemRun where
  s : State
  status : Nat := 0
  addr : Nat := 0
  done : Nat := 0
  old : List Byte := []

/-- Elements of ADD (1), XCHG (2) or FILL (3) from e up to hi, one 64-byte unit at a time (R236, R246): data holds the
bytes of the elements from lo; elements before skip are not written (R276); loose values are free (R132). -/
def State.elemRun (s : State) (k : Bc) (m : Option Mask) (loose : Bool) (data : List Byte) (lo hi skip : Nat) (old : List Byte) : Nat → Nat → ElemRun
  | 0, e => { s := s, done := e, old := old }
  | f + 1, e =>
    if hi ≤ e then { s := s, done := e, old := old }
    else
      let a := k.dst + e * k.size
      let cnt := min (hi - e) ((64 - a % 64) / k.size)
      match s.benchEnter k a (cnt * k.size) (if k.op = 3 then .write else .atomic) with
      | (s, 0) =>
        let q := a / quarrySize
        let (s, was, st) := if k.op = 3 then (s, s.bytes a (cnt * k.size), 0) else s.quarryRead q a (cnt * k.size) 2 k.job k.flags
        if st = 0x40 then { s := s.poisonBad a (cnt * k.size), status := 0x40, addr := a, done := e, old := old }
        else
          let (s, lost) := s.unsure loose (zeros (cnt * k.size))
          let els := (List.range cnt).map (fun i =>
            let o := byteFld was (i * k.size) k.size
            let d := byteFld data ((e + i - lo) * k.size) k.size
            if decide (e + i < skip) || (k.op == 1 && discardsAt k m (a + i * k.size) k.size) then (o, false, false)
            else
              let r := if k.op = 1 then addElem k.dtype o d else if k.op = 2 then (d, false) else (0, false)
              (if loose then byteFld lost (i * k.size) k.size else r.1, r.2, true))
          let (s, wst) := s.quarryWrite q a (els.flatMap (fun x => natLe k.size x.1)) 2 k.job k.flags
          let s : State := (s.bump (.bench k.n) 0x48 (els.countP (fun x => x.2.2))).bump (.bench k.n) 0x88 (els.countP (fun x => x.2.1))
          let s : State := s.benchNonfinite k (if k.op = 1 then els.countP (fun x => x.2.2 && !codeFin k.dtype x.1) else 0)
          if wst = 0x40 then { s := s, status := 0x40, addr := a, done := e, old := old }
          else State.elemRun s k m loose data lo hi skip (if k.op = 2 then old ++ was else old) f (e + cnt)
      | (s, st) => { s := s, status := st, addr := a, done := e, old := old }

/-- A mismatch's first block ends here: elements before it are not written. -/
def skipTo (mismatch : Bool) (ctl e : Nat) : Nat := if mismatch && bitAt ctl 0 then e + 32 else 0

/-- The data slot of a command at CONS_POS read (R258): none while it is not FULL; state, bytes, status. -/
def State.dataSlot (s : State) (k : Bc) (b len : Nat) : Option (State × List Byte × Nat) :=
  let h := s.inHead k.n b
  let v := s.slot k.n h
  if s.slotFull k.n h (sCons v) then
    let (s, bs, st) := s.sillRead k.n (rowAddr k.n (sBuf (s.ringSlot k.n h (sCons v)))) len 1 k.job k.flags
    some ((s.setFull k.n h (sCons v) false).advCons k.n h 1, bs, st)
  else none

/-- The bytes of the sill that the data slot of a command at CONS_POS gives. -/
def State.dataRange (s : State) (k : Bc) (b len : Nat) : Nat × Nat :=
  let h := s.inHead k.n b
  (rowAddr k.n (sBuf (s.ringSlot k.n h (sCons (s.slot k.n h)))), len)

/-- The elements of one data slot, from the command's progress on, up to hi; with the last of them the command completes. -/
def State.elemSlot (s : State) (k : Bc) (b hi : Nat) (mismatch : Bool) : State :=
  let q := s.bq k.n b
  match s.dataSlot k b (roundUp ((hi - q.done) * k.size) 32) with
  | none => s
  | some (s, data, st) =>
    if st = 0x40 then s.benchStop k 0x40 0 q.done 0 ones64
    else
      let r := s.elemRun k (k.maskOf q) (!s.steady q) data q.done hi (skipTo mismatch (s.preg (.bench k.n) 0x100) q.done) q.old (hi - q.done + 1) q.done
      if r.status ≠ 0 then r.s.benchStop k r.status (stopCheck r.status) r.done r.addr ones64
      else
        let t : State := r.s.advance k r.done r.old
        let t : State := if r.done = k.count then t.benchDone k 0 r.done 0 ones64 r.old else t
        if s.benchDiffers k.n mismatch then t.benchDup k else t

/-- ADD and XCHG (R258, R259): one data slot's elements, once their rows' banks are free, and with the last of them the reply's (R192). -/
def State.benchElem (s : State) (n b op : Nat) (mismatch : Bool) : State :=
  match s.bcOf n (some b) op with
  | none => s
  | some k =>
    let q := s.bq n b
    let hi := min k.count (q.done + s.slotBytes n (s.inHead n b) / k.size)
    if k.count ≤ q.done then s.withReply k (fun s => s.benchDone k 0 k.count 0 ones64 q.old)
    else if !s.slotFull n (s.inHead n b) (sCons (s.slot n (s.inHead n b))) || (hi = k.count && !s.replyFree k) then s
    else match s.benchTries n (s.dataRange k b ((hi - q.done) * k.size) :: (if hi = k.count then s.replyRange k else [])) with
    | (s, false) => s
    | (s, true) => s.elemSlot k b hi mismatch

/-- FILL (R259). -/
def State.benchFill (s : State) (n : Nat) (b : Option Nat) (mismatch : Bool) : State :=
  match s.bcOf n b 3 with
  | none => s
  | some k =>
    if !k.hostOk then s.benchStop k 0x7F 0xA 0 0 ones64
    else s.withReply k (fun s =>
      let r := s.elemRun k none false [] 0 k.count (skipTo mismatch (s.preg (.bench n) 0x100) 0) [] (k.count + 1) 0
      if r.status ≠ 0 then r.s.benchStop k r.status (stopCheck r.status) r.done r.addr ones64
      else
        let t : State := r.s.benchDone k 0 r.done 0 ones64 []
        if s.benchDiffers n mismatch then t.benchDup k else t)

/-! ### TOXF and XFADD (R260, R261) -/

/-- The sum of 64-bit values, modulo 2^64 (R260). -/
def blockSum (bs : List Byte) : Nat := ((chunks 8 bs).map leNat).sum % 2 ^ 64

/-- One block of TOXF: elements, header, marks of non-finite inputs (R65, R130). -/
def toxfBlock (hdr : Nat) (xs : List W32) (disc : List Bool) : List Nat × Nat × List Bool :=
  let e := fld hdr 7 0
  let rs := (xs.zip disc).map (fun p => if p.2 then ((0 : Int), false, false) else toXf e p.1)
  let fin := (xs.zip disc).filterMap (fun p => if !p.2 && (val32 p.1).isFin then some (expField p.1) else none)
  (rs.map (fun r => uInt64 r.1),
   maxOf fin * 2 ^ 24 + (if rs.any (fun r => r.2.2) then 2 ^ 9 else 0) + (if rs.any (fun r => r.2.1) then 2 ^ 8 else 0) + e,
   rs.map (fun r => r.2.2))

/-- What a run over blocks has done. -/
structure BlkRun where
  s : State
  status : Nat := 0
  addr : Nat := 0
  done : Nat := 0
  sum : Nat := 0
  first : Nat := ones64

/-- Blocks of TOXF from i, c of them left; blocks below skip are not written; loose elements are free (R132). -/
def State.toxfRun (s : State) (k : Bc) (m : Option Mask) (loose : Bool) (skip : Nat) : Nat → Nat → Nat → Nat → BlkRun
  | 0, i, sum, first => { s := s, done := i, sum := sum, first := first }
  | c + 1, i, sum, first =>
    let src := k.src % 2 ^ 48 + 128 * i
    let stop (s : State) (st a : Nat) : BlkRun := { s := s, status := st, addr := a, done := i, sum := sum, first := first }
    match s.bget k src 128 with
    | (s, st, bs, f) =>
      if 1 < st then stop s st f
      else match s.bget k (k.hdr + 4 * i) 4 with
      | (s, st, hb, f) =>
        if 1 < st then stop (s.poisonBad f 4) st f
        else
          let xs := (chunks 4 bs).map (fun b => BitVec.ofNat 32 (leNat b))
          let disc := (List.range 32).map (fun j => discardsAt k m (src + 4 * j) 4)
          let (vs, h, nf) := toxfBlock (leNat hb) xs disc
          if i < skip then State.toxfRun s k m loose skip c (i + 1) sum first
          else
            let (s, out) := s.unsure loose (vs.flatMap (natLe 8))
            let s : State := s.benchNonfinite k (nf.countP id)
            let first := match nf.findIdx? id with
              | some x => min first (32 * i + x)
              | none => first
            match s.bput k (k.dst + 256 * i) out with
            | (s, st, f) =>
              if 1 < st then stop s st f
              else match s.bput k (k.hdr + 4 * i) (natLe 4 h) with
              | (s, st, f) =>
                if 1 < st then stop s st f
                else State.toxfRun (s.bump (.bench k.n) 0x50) k m loose skip c (i + 1) ((sum + blockSum out) % 2 ^ 64) first

/-- TOXF (R260). -/
def State.benchToxf (s : State) (n b : Nat) (mismatch : Bool) : State :=
  match s.bcOf n (some b) 4 with
  | none => s
  | some k => s.withReply k (fun s =>
    let q := s.bq n b
    let r := s.toxfRun k (k.maskOf q) (!s.steady q) (if s.benchDiffers n mismatch then 1 else 0) k.count 0 0 ones64
    if r.status ≠ 0 then r.s.benchStop k r.status (stopCheck r.status) r.done r.addr r.first
    else match r.s.bput k k.hdr2 (natLe 8 r.sum) with
    | (t, st, f) =>
      if 1 < st then t.benchStop k st (stopCheck st) r.done f r.first
      else
        let t : State := t.benchDone k 0 r.done 0 r.first []
        if s.benchDiffers n mismatch then t.benchDup k else t)

/-- One block at a, in quarry q, and its header at h added (R66): differing EXP fields form no sum. Answers the status. -/
def State.xfAddAt (s : State) (q a h : Nat) (blk : List Byte) (hdr source : Nat) (job : Option Nat) (flags : Nat) : State × Nat :=
  let (s, was, st) := s.quarryRead q a 256 source job flags
  if st = 0x40 then (s.poisonBad a 256, 0x40)
  else
    let (s, hb, st) := s.quarryRead (h / quarrySize) h 4 source job flags
    if st = 0x40 then (s.poisonBad h 4, 0x40)
    else if fld (leNat hb) 7 0 ≠ fld hdr 7 0 then (s, 0x41)
    else
      let (s, _) := s.quarryWrite q a (xfAdd was blk) source job flags
      s.quarryWrite (h / quarrySize) h (natLe 4 (xfJoinHdr (leNat hb) hdr)) source job flags

/-- The two admissions of an XFADD request of an engine or a peer (R261): block and header, in one quarry. -/
def State.xfEnter (s : State) (enter : State → Nat → Nat → State × Nat) (a h : Nat) : State × Nat :=
  if (quarryOf a).isNone || quarryOf a != quarryOf h then (s, 0x60)
  else match enter s a 256 with
    | (s, 0) => enter s h 4
    | (s, st) => (s, st)

/-- Detail of a class 3 record outside a tag (Table 15.4). -/
def xfDetail (chip : Nat) : List Byte := natLe 2 0xFFFF ++ natLe 1 0 ++ zeros 1 ++ natLe 2 0xFFFF ++ natLe 2 chip ++ zeros 16

/-- Blocks of XFADD from i, c of them left. -/
def State.xfaddRun (s : State) (k : Bc) (skip : Nat) : Nat → Nat → BlkRun
  | 0, i => { s := s, done := i }
  | c + 1, i =>
    let a := k.dst + 256 * i
    let stop (s : State) (st a : Nat) : BlkRun := { s := s, status := st, addr := a, done := i }
    match s.bget k (k.src % 2 ^ 48 + 256 * i) 256 with
    | (s, st, bs, f) =>
      if 1 < st then stop s st f
      else match s.bget k (k.hdr2 + 4 * i) 4 with
      | (s, st, hb, f) =>
        if 1 < st then stop s st f
        else match s.benchEnter k a 256 .xfadd with
        | (s, 0) =>
          (match s.benchEnter k (k.hdr + 4 * i) 4 .xfadd with
           | (s, 0) =>
             if i < skip then State.xfaddRun s k skip c (i + 1)
             else (match s.xfAddAt (a / quarrySize) a (k.hdr + 4 * i) bs (leNat hb) 2 k.job k.flags with
               | (s, 0) => State.xfaddRun (s.bump (.bench k.n) 0x50) k skip c (i + 1)
               | (s, st) => stop s st a)
           | (s, st) => stop s st (k.hdr + 4 * i))
        | (s, st) => stop s st a

/-- XFADD (R261). -/
def State.benchXfadd (s : State) (n b : Nat) (mismatch : Bool) : State :=
  match s.bcOf n (some b) 5 with
  | none => s
  | some k => s.withReply k (fun s =>
    let r := s.xfaddRun k (if s.benchDiffers n mismatch then 1 else 0) k.count 0
    if r.status = 0x41 then
      (r.s.benchDone k 0x41 r.done r.addr ones64 []).fault 3 0x41 k.job (Page.quarry n).unit 0 (xfDetail 0xFFFF)
    else if r.status ≠ 0 then r.s.benchStop k r.status (stopCheck r.status) r.done r.addr ones64
    else
      let t : State := r.s.benchDone k 0 r.done 0 ones64 []
      if s.benchDiffers n mismatch then t.benchDup k else t)

/-! ### Optimizer steps (R262 to R265) -/

/-- The sign of Lion's update: +1, −1, 0 for zero, NaN for NaN. -/
def fsign (x : W32) : W32 :=
  let v := val32 x
  if v.isNan then 0x7FC00000#32 else if v.isZero then 0#32 else if v.sign then 0xBF800000#32 else fOne

/-- One element of an optimizer step (R263): master, first and second moment. -/
def optElem (op : Nat) (o : OptArgs) (w m1 m2 g0 : W32) : W32 × W32 × W32 :=
  let lr := fneg (o.h 0)
  let wd := o.h 4
  let b1 := o.h 0xC
  let b2 := o.h 0x10
  let c1 := fadd fOne (fneg b1)
  let c2 := fadd fOne (fneg b2)
  let g := fmul g0 (o.h 8)
  match op with
  | 8 =>
    let g := ffma wd w g
    let m := ffma b1 m1 g
    let d := if bitAt (byteFld o.blk 0x48 4) 1 then ffma b1 m g else m
    (ffma lr d w, m, m2)
  | 9 =>
    let m := ffma b1 m1 (fmul c1 g)
    let v := ffma b2 m2 (fmul c2 (fmul g g))
    let u := fdiv (fmul m (o.h 0x18)) (fadd (fsqrt (fmul v (o.h 0x1C))) (o.h 0x14))
    (ffma lr (ffma wd w u) w, m, v)
  | _ =>
    let u := fsign (ffma b1 m1 (fmul c1 g))
    (ffma lr (ffma wd w u) w, ffma b2 m1 (fmul c2 g), m2)

/-- A stored moment widened. -/
def OptArgs.momIn (o : OptArgs) (bs : List Byte) (i : Nat) : W32 :=
  if o.bf16 then BitVec.ofNat 32 (byteFld bs (2 * i) 2 * 65536) else BitVec.ofNat 32 (byteFld bs (4 * i) 4)
/-- A moment in its stored format. -/
def OptArgs.momOut (o : OptArgs) (w : W32) : List Byte := if o.bf16 then natLe 2 (flBf16 (val32 w)).toNat else natLe 4 w.toNat

/-- Several reads of a command in turn: state, status, bytes of each, address that failed. -/
def State.bgets (s : State) (k : Bc) : List (Nat × Nat) → State × Nat × List (List Byte) × Nat
  | [] => (s, 0, [], 0)
  | (a, len) :: rest =>
    match s.bget k a len with
    | (s, st, bs, f) =>
      if 1 < st then (s, st, [], f)
      else
        let (s, st, more, f) := State.bgets s k rest
        (s, st, bs :: more, f)

/-- Several writes of a command in turn. -/
def State.bputs (s : State) (k : Bc) : List (Nat × List Byte) → State × Nat × Nat
  | [] => (s, 0, 0)
  | (a, bs) :: rest =>
    match s.bput k a bs with
    | (s, st, f) => if 1 < st then (s, st, f) else State.bputs s k rest

/-- The working copy of an updated block (R264): its elements as converted, those of discarded non-finite masters not counted (R130). -/
def OptArgs.quantised (o : OptArgs) (d : TDesc) (i : Nat) (ws : List W32) (disc : List Bool) : QBlock :=
  let q := quantBlock d (o.chan.contains (o.row0 + i)) ws
  { q with elems := (q.elems.zip (ws.zip disc)).map (fun p => if p.2.2 && !(val32 p.2.1).isFin then { p.1 with nonfin := false } else p.1) }

/-- The writes of the working copy of an updated block (R47, R264): its elements, its scale byte, and with a row's last block the row's
padding. -/
def OptArgs.workPuts (o : OptArgs) (d : TDesc) (i kb : Nat) (q : QBlock) : List (Nat × List Byte) :=
  let r := o.row0 + i
  let p := d.fmt.patchRows
  let sa := d.scaleAddr + r * o.pitch
  [(o.addr 0x28 + (r / p * o.kb + kb) * 512 + r % p * d.fmt.blockBytes, d.fmt.bytesOf (q.elems.map (·.code)))] ++
    (if d.scaleBytes = 0 then []
     else if kb + 1 = o.kb then [(sa + kb, natLe 1 q.scale ++ zeros (o.pitch - o.kb))]
     else [(sa + kb, natLe 1 q.scale)])

/-- The bench's statistics record with a block's statistics combined (R59, R60). -/
def State.benchStats (s : State) (k : Bc) (addr : Nat) (st : Stats) : State × Nat × Nat :=
  let a := addr + 32 * k.n
  match s.benchFar k a 32 with
  | (s, x, old, f) =>
    if 1 < x then (s, x, f)
    else (s.recordMark a kindBench old).benchFarPut k a (s.recordBytes a kindBench old st)

/-- A block of an optimizer step as it stands, read: master, moments, gradient. -/
structure OptBlock where
  w : List W32
  m1 : List W32
  m2 : List W32
  g : List W32

/-- What an optimizer step reads of block x: master, first moment, gradient, its header, second moment. -/
def OptArgs.reads (o : OptArgs) (op x : Nat) : List (Nat × Nat) :=
  let ms := o.msz
  let xf := o.addr 0x20 != 0
  [(o.addr 0 + 128 * x, 128), (o.addr 8 + 32 * ms * x, 32 * ms),
      if xf then (o.addr 0x18 + 256 * x, 256) else (o.addr 0x18 + 128 * x, 128)] ++
    (if xf then [(o.addr 0x20 + 4 * x, 4)] else []) ++ (if op = 9 then [(o.addr 0x10 + 32 * ms * x, 32 * ms)] else [])

/-- A block from what was read of it (R68, R263). -/
def OptArgs.block (o : OptArgs) (op : Nat) (got : List (List Byte)) : OptBlock :=
  let xf := o.addr 0x20 != 0
  let hdr := leNat (got.getD 3 [])
  let g := got.getD 2 []
  let m2s := got.getD (if xf then 4 else 3) []
  { w := (List.range 32).map (fun j => BitVec.ofNat 32 (byteFld (got.getD 0 []) (4 * j) 4))
    m1 := (List.range 32).map (o.momIn (got.getD 1 []))
    m2 := (List.range 32).map (fun j => if op = 9 then o.momIn m2s j else 0#32)
    g := (List.range 32).map (fun j => if xf then fromXf hdr (sInt64 (byteFld g (8 * j) 8)) else BitVec.ofNat 32 (byteFld g (4 * j) 4)) }

/-- The update of a block (R263, R265): a discarded element keeps its values (R130). -/
def OptArgs.update (o : OptArgs) (op : Nat) (x : OptBlock) (disc : List Bool) : List (W32 × W32 × W32) :=
  (List.range 32).map (fun j =>
    let old := (x.w.getD j 0, x.m1.getD j 0, x.m2.getD j 0)
    if disc.getD j false then old else optElem op o old.1 old.2.1 old.2.2 (x.g.getD j 0))

/-- A block's results in their stored formats: master, first moment, second moment. -/
def OptArgs.stored (o : OptArgs) (op : Nat) (rs : List (W32 × W32 × W32)) : List Byte × List Byte × List Byte :=
  (rs.flatMap (fun r => natLe 4 r.1.toNat), rs.flatMap (fun r => o.momOut r.2.1), if op = 9 then rs.flatMap (fun r => o.momOut r.2.2) else [])

/-- Whether element j of a block counts as non-finite as it is updated (R265): its gradient, or a result. -/
def OptArgs.updateNonfin (o : OptArgs) (op : Nat) (x : OptBlock) (bytes : List Byte × List Byte × List Byte) (j : Nat) : Bool :=
  !((val32 (x.g.getD j 0)).isFin && (val32 (BitVec.ofNat 32 (byteFld bytes.1 (4 * j) 4))).isFin && (val32 (o.momIn bytes.2.1 j)).isFin &&
    (op != 9 || (val32 (o.momIn bytes.2.2 j)).isFin))

/-- The writes of a block with its working copy and statistics, and its non-finite elements counted (R52, R264, R265): state, status, the
address that failed. -/
def State.optPut (s : State) (k : Bc) (o : OptArgs) (x : Nat) (blk : OptBlock) (disc : List Bool) (bytes : List Byte × List Byte × List Byte) : State × Nat × Nat :=
  let i := x / o.kb
  let ws := (chunks 4 bytes.1).map (fun b => BitVec.ofNat 32 (leNat b))
  let upd (j : Nat) : Bool := !disc.getD j false && o.updateNonfin k.op blk bytes j
  let puts := [(o.addr 0 + 128 * x, bytes.1), (o.addr 8 + 32 * o.msz * x, bytes.2.1)] ++
    (if k.op = 9 then [(o.addr 0x10 + 32 * o.msz * x, bytes.2.2)] else [])
  match o.wd with
  | none =>
    match s.bputs k puts with
    | (s, st, f) => if 1 < st then (s, st, f) else (s.benchNonfinite k ((List.range 32).countP upd), 0, 0)
  | some d =>
    let q := o.quantised d i ws disc
    match s.bputs k (puts ++ o.workPuts d i (x % o.kb) q) with
    | (s, st, f) =>
      if 1 < st then (s, st, f)
      else match s.benchStats k d.statsAddr (statsOf ((o.row0 + i) * (32 * o.kb) + 32 * (x % o.kb)) ws q.elems) with
      | (s, st, f) =>
        if 1 < st then (s, st, f)
        else (s.benchNonfinite k ((List.range 32).countP (fun j => upd j || (q.elems.map (·.nonfin)).getD j false)), 0, 0)

/-- The units that a failed read of a block leaves poisoned: those that the step would have written (Table 8.3). -/
def State.optPoison (s : State) (o : OptArgs) (op x : Nat) : State :=
  let t : State := (s.poisonBad (o.addr 0 + 128 * x) 128).poisonBad (o.addr 8 + 32 * o.msz * x) (32 * o.msz)
  if op = 9 then t.poisonBad (o.addr 0x10 + 32 * o.msz * x) (32 * o.msz) else t

/-- Blocks of an optimizer step from x, c of them left, in ascending row and then block order (R263); loose values are free (R132, R266). -/
def State.optRun (s : State) (k : Bc) (o : OptArgs) (m : Option Mask) (loose : Bool) (skip : Nat) : Nat → Nat → BlkRun
  | 0, x => { s := s, done := x }
  | c + 1, x =>
    match s.bgets k (o.reads k.op x) with
    | (s, st, got, f) =>
      if 1 < st then { s := if st = 0x40 then s.optPoison o k.op x else s, status := st, addr := f, done := x }
      else if x < skip then State.optRun s k o m loose skip c (x + 1)
      else
        let blk := o.block k.op got
        let disc := (List.range 32).map (fun j => discards m (o.row0 + x / o.kb) (32 * (x % o.kb) + j))
        let b := o.stored k.op (o.update k.op blk disc)
        let (s, w) := s.unsure loose b.1
        let (s, m1) := s.unsure loose b.2.1
        let (s, m2) := s.unsure loose b.2.2
        match s.optPut k o x blk disc (w, m1, m2) with
        | (s, st, f) =>
          if 1 < st then { s := s, status := st, addr := f, done := x }
          else State.optRun (s.bump (.bench k.n) 0x48 (disc.countP (fun d => !d))) k o m loose skip c (x + 1)

/-- The bytes of sills that an optimizer step touches: its reply slot, its statistics record. -/
def State.optRange (s : State) (k : Bc) (o : OptArgs) : List (Nat × Nat) :=
  s.replyRange k ++ (match o.wd with
    | some d => [(d.statsAddr + 32 * k.n, 32)]
    | none => [])

/-- SGD, ADAMW and LION (R262 to R265). -/
def State.benchOpt (s : State) (n b op : Nat) (mismatch : Bool) : State :=
  match s.bcOf n (some b) op with
  | none => s
  | some k =>
    let q := s.bq n b
    let o := q.args
    if !s.replyFree k then s
    else match s.benchTries n (s.optRange k o) with
    | (s, false) => s
    | (s, true) =>
      if k.gateEn && (s.tag (k.job.getD 0) k.tag).skipped then s.benchDone k 0x42 0 0 ones64 []
      else
        let r := s.optRun k o (k.maskOf q) (!s.steady q) (if s.benchDiffers n mismatch then 1 else 0) (o.rows * o.kb) 0
        if r.status ≠ 0 then r.s.benchStop k r.status (stopCheck r.status) (32 * r.done) r.addr ones64
        else
          let t : State := r.s.benchDone k 0 (32 * r.done) 0 ones64 []
          if s.benchDiffers n mismatch then t.benchDup k else t

/-! ### EXPORT and IMPORT (R267 to R270) -/

/-- The digest of a region (R268). -/
def regionDigest (count id : Nat) (bs : List Byte) : List Byte := digest (natLe 8 count ++ natLe 8 id ++ bs)

/-- How a remote side ends: status and remote address (R270). -/
def remoteStatus : RemoteEnd → Nat × Nat
  | .done => (0, 0)
  | .notPresent a => (0x50, a)
  | .denied a => (0x60, a)
  | .parked a => (0x51, a)
  | .aborted a => (0x30, a)

/-- The unit that sends a command's messages (R344): its bench queue, or its bench. -/
def Bc.sender (k : Bc) : Nat :=
  match k.b with
  | some b => 224 * k.n + 160 + b
  | none => (Page.bench k.n).unit

/-- A remote address after some bytes of a command. -/
def Bc.remote (k : Bc) (done : Nat) : Nat := k.src + done

/-- How the remote side of a command's next bytes ends (R270, R344, R372): for SPACE HOST without a valid PASID, denied at its first
access; for SPACE PEER without a route, refused. -/
def State.remoteEnd (s : State) (k : Bc) (done : Nat) (r : RemoteEnd) : Nat × Nat :=
  if fld k.aux 29 28 = 2 then
    match k.job with
    | some j => if s.pasidOf j = none then (0x60, k.remote done) else remoteStatus r
    | none => remoteStatus r
  else if (s.routePort k.sender (k.aux % 65536)).isNone then (0x10, k.remote done)
  else remoteStatus r

/-- Of the next bytes of a command, those that move before the remote side ends. -/
def Bc.moved (k : Bc) (done len : Nat) (r : Nat × Nat) : Nat := if r.1 = 0 then len else min len (r.2 - k.remote done)

/-- The block that a command moves at a time (R273). -/
def regionBlock : Nat := 4096

/-- A remote range cut at 512-byte boundaries: offset, address, length. -/
def remoteCut (a len : Nat) : List (Nat × Nat × Nat) :=
  (List.range (len / 512 + 2)).filterMap (fun i =>
    let lo := if i = 0 then a else a / 512 * 512 + 512 * i
    let hi := min (a / 512 * 512 + 512 * (i + 1)) (a + len)
    if lo < hi then some (lo - a, lo, hi - lo) else none)

/-- One message of a command to its peer, with a transaction of the port (R267, R335). A host command has no job: its key is free (log 8). -/
def State.benchMsg (s : State) (k : Bc) (p : Nat) (write : Bool) (addr rlen : Nat) (data : List Byte) : State :=
  match (s.port p).freeTxn with
  | none => s
  | some t =>
    let (s, key) : State × Nat := match k.job with
      | some j => (s, s.keyOf j)
      | none => (s.useFree, fld s.freeWord.toNat 15 0)
    let m : Msg := {
      kind := if write then 1 else 2, key := key, src := s.chipId, dst := k.aux % 65536, deadline := (s.time + 32767) % 65536
      rlen := if write then 0 else rlen, addr := addr % 2 ^ 48, data := data }
    s.sendTxn p t (.bench k.sender) m

/-- The remote side of a command's bytes: for a write, the bytes; for a read, their number (R267). -/
def State.remoteMove (s : State) (k : Bc) (write : Bool) (done len : Nat) (bs : List Byte) : State :=
  if len = 0 then s
  else if fld k.aux 29 28 = 2 then
    let p := k.job.bind s.pasidOf
    s.send (if write then .hostWrite (k.remote done) p bs else .hostRead (k.remote done) p len)
  else match s.routePort k.sender (k.aux % 65536) with
  | none => s
  | some p => (remoteCut (k.remote done) len).foldl (fun (s : State) c =>
      s.benchMsg k p write c.2.1 c.2.2 (if write then (bs.drop c.1).take c.2.2 else [])) s

/-- Whether a command's port has the transactions that its next bytes need (R335). -/
def State.remoteReady (s : State) (k : Bc) (done len : Nat) : Bool :=
  fld k.aux 29 28 == 2 || (match s.routePort k.sender (k.aux % 65536) with
    | none => true
    | some p => decide ((remoteCut (k.remote done) len).length + (s.port p).txns.length ≤ 512))

/-- A command that ends for its remote side: its record carries the remote address, nothing is torn down (R270). -/
def State.remoteStop (s : State) (k : Bc) (e : Nat × Nat) (done : Nat) : State :=
  (if e.1 = 0x10 then s.bump (.port 0) 0xB0 else s).benchDone k e.1 done e.2 ones64 []

/-- Whether a host command's region lies in its bench's quarry (R254, R267); a queue's was checked at its start. -/
def Bc.hostRegion (k : Bc) : Bool := k.b.isSome || k.regionOk

/-- The region of a host command is held while it moves (R271). -/
def State.hostLock (s : State) (k : Bc) : State :=
  if k.b.isNone && !(s.quarry k.n).locks.any (fun l => l.queue.isNone) then
    s.onQuarry k.n (fun q => { q with locks := ⟨none, k.dst, k.dst + k.count⟩ :: q.locks })
  else s

/-- The next bytes of a region command: its checks, then an operation on the progress, the bytes kept and the length of the block. -/
def State.regionStep (s : State) (n : Nat) (b : Option Nat) (op : Nat) (f : State → Bc → Nat → List Byte → Nat → State) : State :=
  match s.bcOf n b op with
  | none => s
  | some k =>
    let (done, old) := s.progress k
    let len := min regionBlock (k.count - done)
    if !k.hostOk then s.benchStop k 0x7F 0xA 0 0 ones64
    else if !k.hostRegion then s.benchStop k 0x60 9 0 k.dst ones64
    else if !s.remoteReady k done len then s
    else s.withReply k (fun s => f (s.hostLock k) k done old len)

/-- EXPORT (R267, R268, R270, R273): its next 4 KiB; with the last of them the digest is written and the command completes. -/
def State.doExport (s : State) (n : Nat) (b : Option Nat) (r : RemoteEnd) : State :=
  s.regionStep n b 0xC (fun s k done old len =>
    let e := s.remoteEnd k done r
    let go := k.moved done len e
    match s.benchGet k 4 (unitCut (k.dst + done) go) with
    | (s, st, bs, f) =>
      if st = 0x40 then s.benchDone k 0x40 (f - k.dst) f ones64 []
      else if 1 < st then s.benchStop k st (stopCheck st) (f - k.dst) f ones64
      else
        let s : State := (s.bump (.bench n) 0x58 go).remoteMove k true done go bs
        if e.1 ≠ 0 then s.remoteStop k e (done + go)
        else if done + len < k.count then s.advance k (done + len) (old ++ bs)
        else match s.bput k k.hdr (regionDigest k.count k.tbase (old ++ bs)) with
        | (s, st, f) => if 1 < st then s.benchStop k st (stopCheck st) (done + len) f ones64 else s.benchDone k 0 (done + len) 0 ones64 [])

/-- IMPORT (R267 to R270, R273): its next 4 KiB; the bytes received stand in quarry n whatever their digest. -/
def State.doImport (s : State) (n : Nat) (b : Option Nat) (r : RemoteEnd) (data : List Byte) : State :=
  s.regionStep n b 0xD (fun s k done old len =>
    let e := s.remoteEnd k done r
    let go := k.moved done len e
    let bs := fitTo go data
    match (s.remoteMove k false done len []).bput k (k.dst + done) bs with
    | (s, st, f) =>
      if 1 < st then s.benchStop k st (stopCheck st) (f - k.dst) f ones64
      else
        let s : State := s.bump (.bench n) 0x60 go
        if e.1 ≠ 0 then s.remoteStop k e (done + go)
        else if done + len < k.count then s.advance k (done + len) (old ++ bs)
        else match s.bget k k.hdr 32 with
        | (s, st, want, f) =>
          if 1 < st then s.benchStop k st (stopCheck st) (done + len) f ones64
          else if want = regionDigest k.count k.tbase (old ++ bs) then s.benchDone k 0 (done + len) 0 ones64 []
          else (s.bump (.bench n) 0x68).benchDone k 0x41 (done + len) 0 ones64 [])

/-! ### Meanings -/

/-- BENCH_COMMAND_START (R257). -/
def execBenchCommandStart (q : CoreId) (b : BitVec 5) (s : State) : Host.Outcome State Fault Refusal :=
  actCore s q (fun s => s.benchStart q b.toNat)
/-- ADD (R259). -/
def execAdd (q : CoreId) (b : BitVec 5) (mismatch : Bool) (s : State) : Host.Outcome State Fault Refusal :=
  actCore s q (fun s => s.benchElem q b.toNat 1 mismatch)
/-- XCHG (R259). -/
def execXchg (q : CoreId) (b : BitVec 5) (mismatch : Bool) (s : State) : Host.Outcome State Fault Refusal :=
  actCore s q (fun s => s.benchElem q b.toNat 2 mismatch)
/-- FILL (R259). -/
def execFill (q : CoreId) (b : Option (BitVec 5)) (mismatch : Bool) (s : State) : Host.Outcome State Fault Refusal :=
  actCore s q (fun s => s.benchFill q (b.map BitVec.toNat) mismatch)
/-- TOXF (R260). -/
def execToxf (q : CoreId) (b : BitVec 5) (mismatch : Bool) (s : State) : Host.Outcome State Fault Refusal :=
  actCore s q (fun s => s.benchToxf q b.toNat mismatch)
/-- XFADD (R261). -/
def execXfadd (q : CoreId) (b : BitVec 5) (mismatch : Bool) (s : State) : Host.Outcome State Fault Refusal :=
  actCore s q (fun s => s.benchXfadd q b.toNat mismatch)
/-- SGD (R263). -/
def execSgd (q : CoreId) (b : BitVec 5) (mismatch : Bool) (s : State) : Host.Outcome State Fault Refusal :=
  actCore s q (fun s => s.benchOpt q b.toNat 8 mismatch)
/-- ADAMW (R263). -/
def execAdamw (q : CoreId) (b : BitVec 5) (mismatch : Bool) (s : State) : Host.Outcome State Fault Refusal :=
  actCore s q (fun s => s.benchOpt q b.toNat 9 mismatch)
/-- LION (R263). -/
def execLion (q : CoreId) (b : BitVec 5) (mismatch : Bool) (s : State) : Host.Outcome State Fault Refusal :=
  actCore s q (fun s => s.benchOpt q b.toNat 0xA mismatch)
/-- EXPORT (R267). -/
def execBenchExport (q : CoreId) (b : Option (BitVec 5)) (r : RemoteEnd) (s : State) : Host.Outcome State Fault Refusal :=
  actCore s q (fun s => s.doExport q (b.map BitVec.toNat) r)
/-- IMPORT (R267). -/
def execBenchImport (q : CoreId) (b : Option (BitVec 5)) (r : RemoteEnd) (data : List Byte) (s : State) : Host.Outcome State Fault Refusal :=
  actCore s q (fun s => s.doImport q (b.map BitVec.toNat) r data)

end Sys2Proof.Machine
end

