-- ==== Sys2Proof/Machine/Reduction.lean ====
section
/-! DEFINITION. The reduction engine (R278 to R303) and the release of a lintel (R164, R281). -/

namespace Sys2Proof.Machine

/-! ### Descriptors (Tables 9.1 to 9.5) -/

/-- CTRL of a bucket descriptor. -/
def bkCtrl (d : List Byte) : Nat := byteFld d 0 4
/-- Parameter mode. -/
def bkMode (d : List Byte) : Bool := bitAt (bkCtrl d) 30
/-- POLICY. -/
def bkPolicy (d : List Byte) : Nat := fld (bkCtrl d) 29 28
/-- VERDICT. -/
def bkVerdict (d : List Byte) : Bool := bitAt (bkCtrl d) 27
/-- COMPRESS. -/
def bkCompress (d : List Byte) : Nat := fld (bkCtrl d) 26 25
/-- History length H. -/
def bkHist (d : List Byte) : Nat := fld (bkCtrl d) 19 16 + 1
/-- NBLK. -/
def bkBlocks (d : List Byte) : Nat := byteFld d 4 4
/-- VERDICT_TAG. -/
def bkVerdictTag (d : List Byte) : Nat := fld (byteFld d 8 4) 27 16
/-- GROUP. -/
def bkGroup (d : List Byte) : Nat := byteFld d 0xC 1
/-- An address field of a descriptor or shard entry. -/
def bkAddr (d : List Byte) (off : Nat) : Nat := byteFld d off 6
/-- Shard entry i of a bucket. -/
def State.shardEnt (s : State) (d : List Byte) (i : Nat) : List Byte := s.bytes (bkAddr d 0x10 + 64 * i) 64
/-- FIRST of a shard entry. -/
def seFirst (e : List Byte) : Nat := byteFld e 0 4
/-- NBLK of a shard entry. -/
def seBlocks (e : List Byte) : Nat := byteFld e 4 4
/-- ROLE: 0 NONE, 1 LEAF, 2 COMBINE, 3 ROOT. -/
def seRole (e : List Byte) : Nat := fld (byteFld e 8 4) 31 30
/-- OWN. -/
def seOwn (e : List Byte) : Bool := bitAt (byteFld e 8 4) 29
/-- EXPECT. -/
def seExpect (e : List Byte) : Nat := fld (byteFld e 8 4) 28 16
/-- UPD_GROUP. -/
def seUpd (e : List Byte) : Nat := fld (byteFld e 8 4) 15 8
/-- The parent's chip. -/
def seParent (e : List Byte) : Nat := byteFld e 0x16 2

/-- Sum area of a shard: its range of RES and RHDR at a ROOT, SUM and SUM_HDR at a COMBINE (Table 9.5). -/
def sumArea (d e : List Byte) : Option (Nat × Nat) :=
  if seRole e = 3 then some (bkAddr d 0x28 + 256 * seFirst e, bkAddr d 0x30 + 4 * seFirst e)
  else if seRole e = 2 then some (bkAddr e 0x20, bkAddr e 0x28)
  else none

/-- EXP of block b from the history and RHDR (R69, R285, R286). -/
def State.expOf (s : State) (d : List Byte) (b : Nat) : Nat :=
  nextExp ((s.bytes (bkAddr d 0x38 + 16 * b) (bkHist d)).map BitVec.toNat) (bitAt (s.num (bkAddr d 0x30 + 4 * b) 4) 8)

/-- The reserved fields of a descriptor, reserved codes of its fields among them (R280, log 40). -/
def bkReserved (d : List Byte) : Bool :=
  fld (byteFld d 8 4) 31 28 == 0 && fld (byteFld d 8 4) 15 13 == 0 && byteFld d 0xD 3 == 0 &&
    [0x10, 0x18, 0x20, 0x28, 0x30, 0x38, 0x40].all (fun o => byteFld d (o + 6) 2 == 0) && byteFld d 0x48 4 / 16 == 0 &&
    byteFld d 0x4E 2 == 0 && byteFld d 0x50 48 == 0 && decide (bkPolicy d ≤ 1) && bkCompress d != 3

/-- The reserved fields of a shard entry. -/
def seReserved (e : List Byte) : Bool :=
  byteFld e 8 1 == 0 && byteFld e 0xD 3 == 0 && [0x18, 0x20, 0x28, 0x30].all (fun o => byteFld e (o + 6) 2 == 0) &&
    byteFld e 0x38 8 / 2 ^ 51 == 0

/-- Shards from a block on: each begins where the one before ends (R279). -/
def coversFrom (nblk : Nat) : Nat → List (List Byte) → Bool
  | at_, [] => at_ == nblk
  | at_, e :: es => seFirst e == at_ && decide (1 ≤ seBlocks e) && coversFrom nblk (at_ + seBlocks e) es

/-- The check of R280. -/
def bucketOk (d : List Byte) (es : List (List Byte)) : Bool :=
  bkReserved d && es.all seReserved && decide (1 ≤ bkBlocks d) && decide (bkBlocks d ≤ 1048576) &&
    decide (1 ≤ bucketShards d) && decide (bucketShards d ≤ 4096) && coversFrom (bkBlocks d) 0 es &&
    es.all (fun e => (seRole e != 1 || seOwn e) && (decide (seRole e < 2) || seExpect e != 0) && (!bkMode d || seUpd e == 0xFF)) &&
    (!bkVerdict d || (bkBlocks d == 1 && bucketShards d == 1 && bkPolicy d == 0 && bkCompress d == 0)) && bkCtrl d % 256 != 0

/-! ### Accesses: through windows of class RED (R247, Table 8.5); the loader's arming through none (log 41) -/

/-- A range cut at 512-byte boundaries. -/
def pieces (a len : Nat) : List (Nat × Nat) :=
  (List.range (if len = 0 then 0 else (a + len + 511) / 512 - a / 512)).map (fun i =>
    let lo := max a ((a / 512 + i) * 512)
    (lo, min (a + len) ((a / 512 + i + 1) * 512) - lo))

/-- One access of an engine in admission: through windows of its class; of the loader, none. -/
def State.engEnter (s : State) (who : Option Requester) (op : WinOp) (a len : Nat) : State × Nat :=
  match who with
  | none => (s, if (quarryOf a).isSome then 0 else 0x60)
  | some r =>
    let (s, st, _) := s.winEnter r op a len
    (s, st)

/-- An engine reads ranges: the status of the first that fails. -/
def State.engGet (s : State) (who : Option Requester) : List (Nat × Nat) → State × Nat
  | [] => (s, 0)
  | (a, len) :: rest =>
    match s.engEnter who .read a len with
    | (s, 0) =>
      let (s, _, st) := s.quarryRead (a / quarrySize) a len 1 (who.bind (fun _ => s.runSlot)) (if who.isSome then 1 else 0)
      if st = 0x40 then (s, 0x40) else State.engGet s who rest
    | (s, st) => (s, st)

/-- An engine writes bytes over ranges: the status of the first that fails. -/
def State.engPut (s : State) (who : Option Requester) : List (Nat × Nat) → List Byte → State × Nat
  | [], _ => (s, 0)
  | (a, len) :: rest, bs =>
    match s.engEnter who .write a len with
    | (s, 0) =>
      let (s, st) := s.quarryWrite (a / quarrySize) a (bs.take len) 1 (who.bind (fun _ => s.runSlot)) (if who.isSome then 1 else 0)
      if st = 0x40 then (s, 0x40) else State.engPut s who rest (bs.drop len)
    | (s, st) => (s, st)

/-- Who the reduction engine is in admission: the loader while it arms. -/
def redWho (load : Bool) : Option Requester := if load then none else some .red
/-- The reduction engine reads ranges. -/
def State.redGet (s : State) (load : Bool) (rs : List (Nat × Nat)) : State × Nat := s.engGet (redWho load) rs
/-- The reduction engine writes bytes over ranges. -/
def State.redPut (s : State) (load : Bool) (rs : List (Nat × Nat)) (bs : List Byte) : State × Nat := s.engPut (redWho load) rs bs

/-! ### Failure (R300, Table 9.8) -/

/-- Detail of a class 3 record of a tag (Table 15.4). -/
def redDetail (t step shard chip sum elems : Nat) : List Byte :=
  natLe 2 t ++ natLe 1 step ++ zeros 1 ++ natLe 2 shard ++ natLe 2 chip ++ natLe 8 sum ++ natLe 8 elems

/-- A tag fails on a status. A local uncorrectable unit has had its record (R240); a status that Table 9.8 does not list
takes class 5 (log 42). -/
def State.redFail (s : State) (j t shard st : Nat) (here : Bool) (peer : Nat) : State :=
  if st = 0x40 then
    (if here then ((s.markFailed j t st s.chipId).sendAbort j t st 1 s.chipId).tearDown j 1
     else (s.useFree.useFree).failTag j t st 1 (natLe 4 s.freeWord.toNat ++ natLe 4 (Config.freeValue (s.free + 1)).toNat ++ [0, 1]))
  else if st = 0x41 then s.failTag j t st 3 (redDetail t (s.tag j t).step shard peer 0 0)
  else if st = 0x60 ∨ st = 0x7F then s.failTag j t st 14 (progDetail 0xFFFF 0 0x0B (t % 256) 0)
  else s.failTag j t st 5 (natLe 1 0xFF ++ natLe 1 (if st = 0x31 then 6 else 2) ++ natLe 2 peer)

/-- Whether the engine acts locally for a job: not while it is parked, nor while no window of class RED admits it
(R301, Table 8.5, log 43). -/
def State.redLocal (s : State) (j : Nat) : Bool := s.runSlot == some j && (s.job j).st == .running

/-- A shard's progress. -/
def State.shard (s : State) (j t i : Nat) : ShardSt := tget {} (s.tag j t).shards i
/-- A shard's progress updated. -/
def State.onShard (s : State) (j t i : Nat) (f : ShardSt → ShardSt) : State :=
  s.onTag j t (fun x => { x with shards := tset x.shards i (f (tget {} x.shards i)) })
/-- Whether a tag may take part in a step: ARMED or REDUCING. -/
def TagSt.inStep : TagSt → Bool
  | .armed => true
  | .reducing => true
  | _ => false

/-! ### Arming (R280 to R282, R286) -/

/-- The sum area of a shard written: elements 0, each header its EXP. -/
def State.armShard (s : State) (load : Bool) (d e : List Byte) : State × Nat :=
  match sumArea d e with
  | none => (s, 0)
  | some (a, h) =>
    let n := seBlocks e
    let b := seFirst e
    match s.redGet load (pieces (bkAddr d 0x38 + 16 * b) (16 * n) ++ pieces (bkAddr d 0x30 + 4 * b) (4 * n)) with
    | (s, 0) =>
      let hdrs := (List.range n).flatMap (fun i => natLe 4 (s.expOf d (b + i)))
      (match s.redPut load (pieces a (256 * n)) (zeros (256 * n)) with
       | (s, 0) => s.redPut load (pieces h (4 * n)) hdrs
       | (s, st) => (s, st))
    | (s, st) => (s, st)

/-- The sum areas of shards in turn. -/
def State.armShards (s : State) (load : Bool) (d : List Byte) : List (List Byte) → State × Nat
  | [] => (s, 0)
  | e :: es =>
    match s.armShard load d e with
    | (s, 0) => State.armShards s load d es
    | (s, st) => (s, st)

/-- A tag armed (R282); a descriptor that is no longer VALID makes it IDLE (Table 9.6, log 44). -/
def State.armTag (s : State) (load : Bool) (j t : Nat) : State :=
  match s.redGet load [(s.bucketAt j t, 128)] with
  | (s, 0) =>
    let d := s.bucket j t
    if !bitAt (bkCtrl d) 31 then s.onTag j t (fun x => { ({} : Tag) with step := x.step })
    else
      let es := (List.range (bucketShards d)).map (s.shardEnt d)
      (match s.redGet load (pieces (bkAddr d 0x10) (64 * bucketShards d)) with
       | (s, 0) =>
         if !bucketOk d es then s.redFail j t 0xFFFF 0x7F true s.chipId
         else
           let s : State := s.onTag j t (fun x => { ({} : Tag) with
             st := .armed, step := (x.step + 1) % 256, lastStep := x.lastStep, lastPoison := x.lastPoison })
           (match s.armShards load d es with
            | (s, 0) => s
            | (s, st) => s.redFail j t 0xFFFF st true s.chipId)
       | (s, st) => s.redFail j t 0xFFFF st true s.chipId)
  | (s, st) => s.redFail j t 0xFFFF st true s.chipId

/-- The tags of a job at its load (R281): STEP 255, then armed. -/
def State.armAll (s : State) (j : Nat) : State :=
  let s : State := { s with red := { s.red with
    tags := s.red.tags.filter (fun e => e.1 / 4096 != j), xfers := s.red.xfers.filter (fun x => x.job != j) } }
  if s.reg64 (Page.red.base + 0x120 + 8 * j) % 2 ^ 48 = 0 then s
  else
    ((List.range 4096).filter (fun t => bitAt (bkCtrl (s.bucket j t)) 31)).foldl (fun (s : State) t =>
      if (s.job j).st == .loaded then (s.onTag j t (fun _ => { ({} : Tag) with step := 255 })).armTag true j t else s) s

/-- Whether a REDUCED tag may leave that state (R282). -/
def State.tagSpent (s : State) (j t : Nat) : Bool :=
  let d := s.bucket j t
  let tg := s.tag j t
  tg.st == .reduced && tg.optDone == byteFld d 0x4C 2 && s.red.xfers.all (fun x => !(x.job == j && x.tag == t)) &&
    (!bkMode d || (List.range (bucketShards d)).all (fun i => (s.shard j t i).gathered))

/-- TAG_ARM. -/
def State.rearm (s : State) (j t : Nat) : State :=
  if s.redLocal j && s.tagSpent j t then s.armTag false j t else s

/-! ### Compression (R298, R299) -/

/-- The result of compressing a block: errors, the bytes that travel, whether an element was not finite. -/
structure Packed where
  err : List W32
  bytes : List Byte
  nonfinite : Bool
  deriving DecidableEq, Repr

/-- Whether element i is among the k of largest magnitude, ties to the lower index. -/
def keeps (e : List W32) (k i : Nat) : Bool :=
  let m (x : Nat) : Num := (val32 (e.getD x 0#32)).abs
  decide ((List.range e.length).countP (fun x => (m i).lt (m x) || (decide (x < i) && (m i).eqv (m x))) < k)

/-- A block compressed: accumulators, errors, discard marks (R298). -/
def compressBlock (mode k : Nat) (g err : List W32) (disc : List Bool) : Packed :=
  let raw := (List.range 32).map (fun i =>
    if disc.getD i false then (0#32, 0#32, false)
    else
      let e := fadd (g.getD i 0#32) (err.getD i 0#32)
      if (val32 e).isFin then (e, err.getD i 0#32, false) else (0#32, 0#32, true))
  let e := raw.map (·.1)
  let nf := raw.any (·.2.2)
  let m := fl ((e.foldl (fun (a : Num) x => a.add (val32 x).abs) (.fin false 0 0)).mul (pow2 (-5)))
  let sgn (i : Nat) : Bool := bitAt (e.getD i 0#32).toNat 31
  let keep (i : Nat) : Bool := keeps e k i
  let dOf (i : Nat) : W32 := if mode = 1 then (if sgn i then fneg m else m) else if keep i then e.getD i 0#32 else 0#32
  let err' := (List.range 32).map (fun i =>
    if disc.getD i false then 0#32 else fadd (e.getD i 0#32) (fneg (dOf i)))
  let mark (f : Nat → Bool) : List Byte := natLe 4 (bits32 0 f)
  let bytes := if nf then zeros 4 ++ natLe 4 0x7FC00000
    else if mode = 1 then mark sgn ++ natLe 4 m.toNat
    else mark keep ++ ((List.range 32).filter keep).flatMap (fun i => natLe 4 (e.getD i 0#32).toNat)
  { err := err', bytes := bytes, nonfinite := nf }

/-- A compressed block expanded: the values, or none for a poisoned block (R299). -/
def expandBlock (mode : Nat) (bs : List Byte) : Option (List W32) :=
  let map := byteFld bs 0 4
  let v (i : Nat) : W32 := BitVec.ofNat 32 (byteFld bs (4 + 4 * i) 4)
  if map = 0 ∧ v 0 = 0x7FC00000#32 then none
  else if mode = 1 then some ((List.range 32).map (fun i => if bitAt map i then fneg (v 0) else v 0))
  else some ((List.range 32).map (fun i => if bitAt map i then v ((List.range i).countP (bitAt map)) else 0#32))

/-- A compressed block as an XF64 block and header of an EXP (R299). -/
def expandXf (mode exp : Nat) (bs : List Byte) : List Byte × Nat :=
  match expandBlock mode bs with
  | none => (zeros 256, 2 ^ 9 + exp)
  | some ds =>
    let (vs, h, _) := toxfBlock exp ds (List.replicate 32 false)
    (vs.flatMap (natLe 8), h)

/-- The discard marks of block b of a bucket (R130, R298): element i of the bucket is element i of the mask's tensor, row
by row. -/
def bucketDisc (m : Option Mask) (b : Nat) : List Bool :=
  (List.range 32).map (fun i => match m with
    | none => false
    | some x => discards m ((32 * b + i) / x.cols) ((32 * b + i) % x.cols))

/-- EXP of block b of this chip's contribution: that of its sum area, where it has one, since arming has then replaced the
header in RHDR (R286, log 49). -/
def State.ownExp (s : State) (d e : List Byte) (b : Nat) : Nat :=
  match sumArea d e with
  | some (_, h) => fld (s.num (h + 4 * (b - seFirst e)) 4) 7 0
  | none => s.expOf d b

/-- Blocks of a shard compressed in turn: state, status, what travels, checksum. -/
def State.compressRun (s : State) (d e : List Byte) (m : Option Mask) : List Nat → State × Nat × List (List Byte) × Nat
  | [] => (s, 0, [], 0)
  | b :: bs =>
    let g := bkAddr d 0x18 + 128 * b
    let r := bkAddr d 0x20 + 128 * b
    match s.redGet false (pieces g 128 ++ pieces r 128 ++ pieces (bkAddr d 0x38 + 16 * b) 16 ++ pieces (bkAddr d 0x30 + 4 * b) 4) with
    | (s, 0) =>
      let w (a : Nat) : List W32 := (chunks 4 (s.bytes a 128)).map (fun x => BitVec.ofNat 32 (leNat x))
      let p := compressBlock (bkCompress d) (fld (bkCtrl d) 23 20 + 1) (w g) (w r) (bucketDisc m b)
      let own := blockSum (expandXf (bkCompress d) (s.ownExp d e b) p.bytes).1
      (match s.redPut false (pieces r 128) (p.err.flatMap (fun x => natLe 4 x.toNat)) with
       | (s, 0) =>
         let (s, st, more, c) := State.compressRun s d e m bs
         (s, st, p.bytes :: more, (own + c) % 2 ^ 64)
       | (s, st) => (s, st, [], 0))
    | (s, st) => (s, st, [], 0)

/-! ### Contributions (R289 to R291, R295) -/

/-- The buckets of POLICY 0b01 that name a verdict tag. -/
def State.naming (s : State) (j v : Nat) : List Nat :=
  (s.red.tags.filter (fun e => e.1 / 4096 == j && e.2.st != .idle)).filterMap (fun e =>
    let d := s.bucket j (e.1 % 4096)
    if bkPolicy d = 1 ∧ !bkVerdict d ∧ bkVerdictTag d = v then some (e.1 % 4096) else none)

/-- The headers of RHDR. -/
def State.rhdr (s : State) (d : List Byte) : List Nat := (List.range (bkBlocks d)).map (fun b => s.num (bkAddr d 0x30 + 4 * b) 4)

/-- Whether a bucket's headers show poison (R294). -/
def State.poisonedHdrs (s : State) (d : List Byte) : Bool := (s.rhdr d).any (fun h => bitAt h 9)

/-- Block i of this chip's contribution to a shard: its elements and header. -/
def State.ownBlock (s : State) (d e : List Byte) (sh : ShardSt) (i : Nat) : List Byte × Nat :=
  let b := seFirst e + i
  if bkVerdict d then (let p := sh.payload.headD []; (p.take 256, byteFld p 256 4))
  else if bkCompress d ≠ 0 then expandXf (bkCompress d) (fld (s.num (((sumArea d e).getD (0, 0)).2 + 4 * i) 4) 7 0) (sh.payload.getD i [])
  else (s.bytes (bkAddr d 0x18 + 256 * b) 256, s.num (bkAddr d 0x20 + 4 * b) 4)

/-- Bytes that the engine reads for block i of an uncompressed contribution. -/
def ownReads (d e : List Byte) (i : Nat) : List (Nat × Nat) :=
  let b := seFirst e + i
  if bkVerdict d ∨ bkCompress d ≠ 0 then [] else pieces (bkAddr d 0x18 + 256 * b) 256 ++ pieces (bkAddr d 0x20 + 4 * b) 4

/-- This chip's blocks added into its sum area, from block i on (R290): the status of the first that fails. -/
def State.ownAdd (s : State) (j t k : Nat) (d e : List Byte) (a h : Nat) : Nat → Nat → State × Nat
  | 0, _ => (s, 0)
  | c + 1, i =>
    match s.redGet false (ownReads d e i) with
    | (s, 0) =>
      let (blk, hdr) := s.ownBlock d e (s.shard j t k) i
      (match s.xfEnter (fun s a len => s.engEnter (redWho false) .xfadd a len) (a + 256 * i) (h + 4 * i) with
       | (s, 0) =>
         (match s.xfAddAt (a / quarrySize) (a + 256 * i) (h + 4 * i) blk hdr 1 s.runSlot 1 with
          | (s, 0) => State.ownAdd s j t k d e a h c (i + 1)
          | (s, st) => (s, st))
       | (s, st) => (s, st))
    | (s, st) => (s, st)

/-- An arrival counted (R287): a ROOT's ORIG beyond 4,096 fails the tag. -/
def State.arrival (s : State) (j t k orig csum : Nat) : State :=
  let s : State := (s.onShard j t k (fun x => { x with
    arrivals := x.arrivals + 1, orig := x.orig + orig, csum := (x.csum + csum) % 2 ^ 64 })).bump .red 0x50
  if seRole (s.shardEnt (s.bucket j t) k) = 3 ∧ 4096 < (s.shard j t k).orig then s.redFail j t k 0x7F true s.chipId else s

/-- An OPEN sent for a transfer (R288). -/
def State.sendOpen (s : State) (x : Xfer) : State :=
  s.sendCtl redUnit { kind := 0x10, sub := 1, key := s.keyOf x.job, dst := x.dst
                      data := redData x.tag (s.tag x.job x.tag).step x.kind x.shard 0 0 0 0 }

/-- A transfer begun. -/
def State.openXfer (s : State) (j t k kind dst : Nat) : State :=
  let x : Xfer := { id := s.red.nextId, job := j, tag := t, shard := k, kind := kind, dst := dst }
  ({ s with red := { s.red with xfers := s.red.xfers ++ [x], nextId := x.id + 1 } }).sendOpen x

/-- What a chip contributes, made ready: state, status, what travels, checksum (R290, R295, R298). -/
def State.ownReady (s : State) (j : Nat) (d e : List Byte) (t : Nat) : State × Nat × List (List Byte) × Nat :=
  if bkVerdict d then
    let nf := (s.naming j t).any (fun b => s.poisonedHdrs (s.bucket j b))
    (s, 0, [zeros 256 ++ natLe 4 ((if nf then 2 ^ 9 else 0) + s.ownExp d e 0)], 0)
  else if bkCompress d ≠ 0 then
    let ma := bkAddr d 0x40
    let size := maskSize (s.bytes ma 64)
    let m := if ma = 0 then none else parseMask (s.bytes ma size)
    let (s, st) := if ma = 0 then (s, 0) else s.redGet false (pieces ma size)
    if st ≠ 0 then (s, st, [], 0)
    else if ma ≠ 0 ∧ m = none then (s, 0x7F, [], 0)
    else s.compressRun d e m (fromN (seFirst e) (seBlocks e))
  else
    let n := 8 * byteFld e 0xC 1
    let (s, st) := s.redGet false (pieces (bkAddr e 0x30) n)
    (s, st, [], blockSum (s.bytes (bkAddr e 0x30) n))

/-- This chip's contribution to shard k begun (R289, R290): a LEAF opens a transfer, a COMBINE or ROOT adds it. -/
def State.startShard (s : State) (j t k : Nat) : State :=
  let d := s.bucket j t
  let e := s.shardEnt d k
  if (s.tag j t).st != .reducing || (s.shard j t k).sent || !seOwn e || seRole e == 0 then s
  else
    match s.ownReady j d e t with
    | (s, st, pay, own) =>
      let s : State := s.onShard j t k (fun x => { x with sent := true, payload := pay, own := own })
      if st ≠ 0 then s.redFail j t k st true s.chipId
      else match sumArea d e with
        | none => s.openXfer j t k 0 (seParent e)
        | some (a, h) =>
          (match s.ownAdd j t k d e a h (seBlocks e) 0 with
           | (s, 0) => s.arrival j t k 1 own
           | (s, st) => s.redFail j t k st true s.chipId)

/-- The contributions of a triggered tag. -/
def State.startTag (s : State) (j t : Nat) : State :=
  if s.redLocal j then (List.range (bucketShards (s.bucket j t))).foldl (fun (s : State) k => s.startShard j t k) s else s

/-- A tag triggered (R281). -/
def State.trigger (s : State) (j t : Nat) : State := (s.onTag j t (fun x => { x with st := .reducing, since := if s.redLocal j then s.time else 0 })).startTag j t

/-- VERDICT_TRIGGER (R295): every bucket that names the verdict holds all its headers. -/
def State.verdict (s : State) (j t : Nat) : State :=
  let d := s.bucket j t
  let full (b : Nat) : Bool := (s.tag j b).st == .reducing &&
    (List.range (bucketShards (s.bucket j b))).all (fun i => (s.shard j b i).headers)
  if s.redLocal j && bkVerdict d && (s.tag j t).st == .armed && (s.naming j t).all full then s.trigger j t else s

/-! ### Transfers being sent (R289, R296, R297, Table 9.7) -/

/-- The requests of a transfer: blocks of a contribution; ranges of headers, of reduced blocks, of gather entries. -/
def State.xferUnits (s : State) (x : Xfer) : List (Nat × Nat) :=
  let d := s.bucket x.job x.tag
  let e := s.shardEnt d x.shard
  match x.kind with
  | 0 => (List.range (seBlocks e)).map (fun i => (i, 0))
  | 1 => pieces (bkAddr d 0x30 + 4 * seFirst e) (4 * seBlocks e)
  | 2 => pieces (bkAddr d 0x28 + 256 * seFirst e) (256 * seBlocks e)
  | _ =>
    let g := byteFld e 0x38 8
    (List.range (min 4 (fld g 50 48))).flatMap (fun i =>
      let a := fld g 47 0 + 16 * i
      pieces (s.num a 6) (s.num (a + 8) 8))

/-- The message of a request of a transfer: state, status, message. HEADERS, DELIVER and GATHER write the sender's own
addresses (log 45); a compressed block travels as an XFADD message of its own bytes (log 46). -/
def State.xferMsg (s : State) (x : Xfer) (u : Nat × Nat) : State × Nat × Msg :=
  let d := s.bucket x.job x.tag
  let e := s.shardEnt d x.shard
  let sh := s.shard x.job x.tag x.shard
  let m : Msg := { kind := if x.kind = 0 then 3 else 1, key := s.keyOf x.job, src := s.chipId, dst := x.dst }
  if x.kind = 0 then
    let i := u.1
    let addr := bkAddr e 0x10 + 256 * i
    let full (blk : List Byte) (hdr : Nat) : List Byte := blk ++ natLe 4 hdr ++ zeros 4 ++ natLe 8 (bkAddr e 0x18 + 4 * i)
    if seRole e = 2 then
      let a := bkAddr e 0x20 + 256 * i
      let h := bkAddr e 0x28 + 4 * i
      let (s, st) := s.redGet false (pieces a 256 ++ pieces h 4)
      (s, st, { m with addr := addr, data := full (s.bytes a 256) (s.num h 4) })
    else if bkCompress d ≠ 0 then (s.bump .red 0x88, 0, { m with addr := addr, data := sh.payload.getD i [] })
    else
      let (s, st) := s.redGet false (ownReads d e i)
      let (blk, hdr) := s.ownBlock d e sh i
      (s, st, { m with addr := addr, data := full blk hdr })
  else
    let (s, st) := s.redGet false [u]
    (s, st, { m with addr := u.1, data := s.bytes u.1 u.2 })

/-- A transfer's message of the engine to its receiver's engine. -/
def State.sendRed (s : State) (x : Xfer) (sub csum orig : Nat) : State :=
  s.sendCtl redUnit { kind := 0x10, sub := sub, key := s.keyOf x.job, dst := x.dst
                      data := redData x.tag (s.tag x.job x.tag).step 0 x.shard 0 csum orig 0 }

/-- A transfer whose requests have all completed: DONE, the DELIVER checksum or GATHERED. -/
def State.xferEnd (s : State) (x : Xfer) : State :=
  let s : State := { s with red := { s.red with xfers := s.red.xfers.filter (fun y => y.id != x.id) } }
  let sh := s.shard x.job x.tag x.shard
  match x.kind with
  | 0 =>
    let combine := seRole (s.shardEnt (s.bucket x.job x.tag) x.shard) = 2
    (s.sendRed x 4 (if combine then sh.sum else sh.own) (if combine then sh.orig else 1)).bump .red 0x48
  | 1 => s
  | 2 => s.sendRed x 5 sh.sum 0
  | _ => s.sendRed x 6 0 0

/-- A transfer updated. -/
def State.onXfer (s : State) (id : Nat) (f : Xfer → Xfer) : State :=
  { s with red := { s.red with xfers := s.red.xfers.map (fun x => if x.id = id then f x else x) } }

/-- An accepted transfer sends while its port holds transaction credits (R289, R301, R335). -/
def State.pump (s : State) (id : Nat) : Nat → State
  | 0 => s
  | c + 1 =>
    match s.red.xfers.find? (fun x => x.id == id) with
    | none => s
    | some x =>
      if !x.accepted || !s.redLocal x.job then s
      else match (s.xferUnits x)[x.pos]? with
        | none => if x.acks = 0 then s.xferEnd x else s
        | some u =>
          match s.routePort redUnit x.dst with
          | none => (s.bump (.port 0) 0xB0).redFail x.job x.tag x.shard 0x10 false x.dst
          | some p =>
            match (s.port p).freeTxn with
            | none => s
            | some k =>
              let (s, st, m) := s.xferMsg x u
              if st ≠ 0 then s.redFail x.job x.tag x.shard st true s.chipId
              else
                let s : State := s.sendTxn p k (.xfer id) { m with deadline := (s.time + 32767) % 65536 }
                State.pump (s.onXfer id (fun y => { y with pos := y.pos + 1, acks := y.acks + 1 })) id c

/-- A transfer driven on as far as it goes. -/
def State.pumpOn (s : State) (id : Nat) : State :=
  match s.red.xfers.find? (fun x => x.id == id) with
  | some x => s.pump id ((s.xferUnits x).length + 1)
  | none => s

/-- Every transfer of a job driven on. -/
def State.pumpAll (s : State) (j : Nat) : State :=
  (s.red.xfers.filter (fun x => x.job == j)).foldl (fun (s : State) x => s.pumpOn x.id) s

/-- A request of a transfer completes (R289). -/
def State.xferAck (s : State) (id st : Nat) : State :=
  match s.red.xfers.find? (fun x => x.id == id) with
  | none => s
  | some x =>
    if st ≤ 1 then (s.onXfer id (fun y => { y with acks := y.acks - 1 })).pumpOn id
    else s.redFail x.job x.tag x.shard st false x.dst

/-! ### Verification and delivery (R292, R296) -/

/-- A failed comparison: counted, class 3 (R292). -/
def State.checksumFail (s : State) (j t k sum elems : Nat) : State :=
  (s.bump .red 0x60).failTag j t 0x41 3 (redDetail t (s.tag j t).step k s.chipId sum elems)

/-- SHARD_VERIFY (R292); then HEADERS and DELIVER from a ROOT, the sum forwarded from a COMBINE (R291, R296). -/
def State.verifyShard (s : State) (j t k : Nat) : State :=
  let d := s.bucket j t
  let e := s.shardEnt d k
  let sh := s.shard j t k
  match sumArea d e with
  | none => s
  | some (a, _) =>
    if !s.redLocal j || !(s.tag j t).st.inStep || sh.verified || decide (sh.arrivals < seExpect e) || decide (bucketShards d ≤ k) then s
    else match s.redGet false (pieces a (256 * seBlocks e)) with
      | (s, 0) =>
        let sum := blockSum (s.bytes a (256 * seBlocks e))
        if bitAt (s.preg .red 0x100) 0 && sum != sh.csum then s.checksumFail j t k sh.csum sum
        else
          let s : State := s.onShard j t k (fun x => { x with verified := true, sum := sum, headers := seRole e == 3 })
          if seRole e = 2 then s.openXfer j t k 0 (seParent e)
          else
            let s : State := (s.members (bkGroup d)).foldl (fun (s : State) c => s.openXfer j t k 1 c) s
            if bkMode d then s else (s.members (seUpd e)).foldl (fun (s : State) c => s.openXfer j t k 2 c) s
      | (s, st) => s.redFail j t k st true s.chipId

/-- A delivered range compared with its root's checksum (R292). -/
def State.verifyDelivered (s : State) (j t k : Nat) : State :=
  let d := s.bucket j t
  let e := s.shardEnt d k
  match (s.shard j t k).dsum with
  | none => s
  | some c =>
    if !s.redLocal j || !(s.tag j t).st.inStep || (s.shard j t k).delivered then s
    else
      let a := bkAddr d 0x28 + 256 * seFirst e
      match s.redGet false (pieces a (256 * seBlocks e)) with
      | (s, 0) =>
        let sum := blockSum (s.bytes a (256 * seBlocks e))
        if bitAt (s.preg .red 0x100) 0 && sum != c then s.checksumFail j t k c sum
        else s.onShard j t k (fun x => { x with delivered := true, sum := sum })
      | (s, st) => s.redFail j t k st true s.chipId

/-- Header bytes of a HEADERS transfer written by a peer: with the last of them RHDR holds the shard's headers (R283,
log 47). -/
def State.hdrLanded (s : State) (j a len : Nat) : State :=
  (s.red.tags.filter (fun e => e.1 / 4096 == j && e.2.st.inStep)).foldl (fun (s : State) e =>
    let t := e.1 % 4096
    let d := s.bucket j t
    (e.2.shards.filter (fun x => x.2.hdrOpen && !x.2.headers)).foldl (fun (s : State) x =>
      let en := s.shardEnt d x.1
      let lo := bkAddr d 0x30 + 4 * seFirst en
      let hi := lo + 4 * seBlocks en
      let got := x.2.hdrBytes + (min hi (a + len) - max lo a)
      s.onShard j t x.1 (fun y => { y with hdrBytes := got, headers := decide (4 * seBlocks en ≤ got) })) s) s

/-! ### REDUCED (R283, R285, R294, R295) -/

/-- The conditions of R283. -/
def State.tagFull (s : State) (j t : Nat) : Bool :=
  let d := s.bucket j t
  let tg := s.tag j t
  tg.st == .reducing &&
    (List.range (bucketShards d)).all (fun k =>
      let e := s.shardEnt d k
      let sh := s.shard j t k
      sh.headers && (seRole e != 3 || sh.verified) &&
        (bkMode d || seRole e == 3 || !(s.groupOf (seUpd e)).contains s.chipId || sh.delivered)) &&
    (bkPolicy d != 1 || (s.tag j (bkVerdictTag d)).lastStep == some tg.step)

/-- The lowest block for which a mark holds, or all ones. -/
def lowest (hs : List Nat) : Nat := (hs.findIdx? (fun h => bitAt h 9)).getD 0xFFFFFFFF

/-- The record of a tag that became REDUCED (R303). -/
def State.reducedRecord (s : State) (j t : Nat) (hs : List Nat) : State :=
  let tg := s.tag j t
  let flags := (if tg.poisoned then 1 else 0) + (if tg.skipped then 2 else 0) + (if hs.any (fun h => bitAt h 8) then 4 else 0)
  if bitAt (bkCtrl (s.bucket j t)) 24 then
    s.post (s.job j).cqRed (if tg.skipped then 0x42 else 0) 0x03 (some j) 0xFFFF 0
      (natLe 2 (t + 4096 * j) ++ natLe 1 tg.step ++ natLe 1 flags ++ natLe 4 (lowest hs) ++ natLe 2 s.chipId)
  else s

/-- The history written (R285): state and status. -/
def State.writeHist (s : State) (j t : Nat) (d : List Byte) (hs : List Nat) : State × Nat :=
  let pos := fld (byteFld d 0x48 4) 3 0
  let one (acc : State × Nat) (e : Nat × Nat) : State × Nat :=
    if acc.2 = 0 then acc.1.redPut false [(bkAddr d 0x38 + 16 * e.2 + pos, 1)] (natLe 1 (fld e.1 31 24)) else acc
  match (hs.zipIdx).foldl one (s, 0) with
  | (s, 0) => s.redPut false [(s.bucketAt j t + 0x48, 4)] (natLe 4 ((pos + 1) % bkHist d))
  | (s, st) => (s, st)

/-- TAG_REDUCED. -/
def State.reduce (s : State) (j t : Nat) : State :=
  if !(s.redLocal j && s.tagFull j t) then s
  else
    let d := s.bucket j t
    match s.redGet false (pieces (bkAddr d 0x30) (4 * bkBlocks d)) with
    | (s, 0) =>
      let hs := s.rhdr d
      (match s.writeHist j t d hs with
       | (s, 0) =>
         let bad := hs.any (fun h => bitAt h 9)
         let skip := if bkPolicy d = 1 then (s.tag j (bkVerdictTag d)).lastPoison else bad
         let step := (s.tag j t).step
         let s : State := s.onTag j t (fun x => { x with
           st := .reduced, poisoned := bad, skipped := skip, lastStep := some step, lastPoison := bad })
         let s : State := (s.bump .red 0x40).bump .red 0x78 (hs.countP (fun h => bitAt h 8))
         let s : State := if skip then s.bump .red 0x70 else s
         let chdr := bad && bkCompress d == 0 && !bkVerdict d
         let s : State := if chdr then (s.redGet false (pieces (bkAddr d 0x20) (4 * bkBlocks d))).1 else s
         let mine := if chdr then lowest ((List.range (bkBlocks d)).map (fun b => s.num (bkAddr d 0x20 + 4 * b) 4)) else 0xFFFFFFFF
         let s : State := if bad then
             ((s.bump .red 0x68).event evNonfinite).fault 4 0 (some j) redUnit 0
               (natLe 2 t ++ natLe 1 step ++ zeros 1 ++ natLe 4 (lowest hs) ++ natLe 4 mine ++ natLe 2 0xFFFF)
           else s
         s.reducedRecord j t hs
       | (s, st) => s.redFail j t 0xFFFF st true s.chipId)
    | (s, st) => s.redFail j t 0xFFFF st true s.chipId

/-- GATHER_SEND (R297): for a skipped bucket GATHERED alone. -/
def State.gather (s : State) (j t : Nat) : State :=
  let d := s.bucket j t
  let tg := s.tag j t
  if !s.redLocal j || !bkMode d || tg.st != .reduced || decide (tg.optDone < byteFld d 0x4C 2) then s
  else (List.range (bucketShards d)).foldl (fun (s : State) k =>
    let e := s.shardEnt d k
    if seRole e ≠ 3 ∨ (s.shard j t k).gathered then s
    else
      let s : State := s.onShard j t k (fun x => { x with gathered := true })
      (s.members (bkGroup d)).foldl (fun (s : State) c =>
        if tg.skipped then s.sendRed { id := 0, job := j, tag := t, shard := k, kind := 3, dst := c } 6 0 0
        else s.openXfer j t k 3 c) s) s

/-- The time that the REDUCING tags of a job have stood there, and the TIME since which they do, exchanged: the limit's time does not advance
while the job is parked (R300). -/
def State.redClock (s : State) (j : Nat) : State :=
  { s with red := { s.red with tags := s.red.tags.map (fun e =>
      if e.1 / 4096 = j ∧ e.2.st = .reducing then (e.1, { e.2 with since := s.time - e.2.since }) else e) } }

/-- What the engine put off while a job was parked (R301). -/
def State.redResume (s : State) (j : Nat) : State :=
  let s : State := s.redClock j
  let tags := (s.red.tags.filter (fun e => e.1 / 4096 == j && e.2.st == .reducing)).map (fun e => e.1 % 4096)
  let s : State := tags.foldl (fun (s : State) t => s.startTag j t) s
  let s : State := tags.foldl (fun (s : State) t =>
    (List.range (bucketShards (s.bucket j t))).foldl (fun (s : State) k => s.verifyDelivered j t k) s) s
  s.pumpAll j

/-- RED_LIMIT in ticks of TIME; values below 1,000 µs act as that (Table 9.11). -/
def State.redLimit (s : State) : Nat := 100 * max 1000 (s.preg .red 0x104)

/-- Whether a tag has stood REDUCING for RED_LIMIT, the time in which its job was parked left out (R300). -/
def State.redLate (s : State) (j t : Nat) : Bool := decide ((s.tag j t).since + s.redLimit ≤ s.time)

/-- REDUCTION_WATCHDOG (R300, R301). -/
def State.redWatchdog (s : State) (j t : Nat) : State :=
  if s.redLocal j && bitAt (s.preg .red 0x100) 1 && (s.tag j t).st == .reducing && s.redLate j t then
    s.failTag j t 0x7F 8 (natLe 2 2 ++ natLe 2 t ++ natLe 2 0xFFFF)
  else s

/-! ### Messages of the engines (R288, R300, Table 11.6) -/

/-- Fields of a RED_CTL message. -/
def rcTag (m : Msg) : Nat := fld (byteFld m.data 0 2) 11 0
/-- STEP. -/
def rcStep (m : Msg) : Nat := byteFld m.data 2 1
/-- XFER. -/
def rcXfer (m : Msg) : Nat := byteFld m.data 3 1
/-- SHARD. -/
def rcShard (m : Msg) : Nat := byteFld m.data 4 2

/-- An answer to an OPEN: ACCEPT of its kind, or REFUSE with a status. -/
def State.answerOpen (s : State) (m : Msg) (sub xfer : Nat) : State :=
  s.sendCtl redUnit { kind := 0x10, sub := sub, key := m.key, dst := m.src
                      data := redData (rcTag m) (rcStep m) xfer (rcShard m) 0 0 0 0 }

/-- OPEN at a receiver (R288). -/
def State.rxOpen (s : State) (j : Nat) (m : Msg) : State :=
  let t := rcTag m
  let tg := s.tag j t
  let stateOk := tg.st.inStep || (rcXfer m == 3 && tg.st == .reduced)
  if tg.st == .idle || tg.st == .failed then s.answerOpen m 3 0x60
  else if tg.step = rcStep m ∧ stateOk then
    let s : State := if rcXfer m = 1 then s.onShard j t (rcShard m) (fun x => { x with hdrOpen := true }) else s
    s.answerOpen m 2 (rcXfer m)
  else if (tg.step + 1) % 256 = rcStep m then s.answerOpen m 3 0x10
  else s.answerOpen m 3 0x60

/-- The transfers that an answer is about: not yet accepted, of its tag and shard, to its sender. -/
def answers (j : Nat) (m : Msg) (x : Xfer) : Bool :=
  x.job == j && x.tag == rcTag m && x.shard == rcShard m && x.dst == m.src && !x.accepted

/-- ACCEPT (R289). -/
def State.rxAccept (s : State) (j : Nat) (m : Msg) : State :=
  match s.red.xfers.find? (fun x => answers j m x && x.kind == rcXfer m) with
  | some x => (s.onXfer x.id (fun y => { y with accepted := true, retry := false })).pumpOn x.id
  | none => s

/-- REFUSE (R288): a retry later, or the tag fails. A REFUSE names no kind: it answers every open transfer of its tag and
shard (log 48). -/
def State.rxRefuse (s : State) (j : Nat) (m : Msg) : State :=
  if s.red.xfers.any (answers j m) then
    (if rcXfer m = 0x10 then
      { s with red := { s.red with xfers := s.red.xfers.map (fun x => if answers j m x then { x with retry := true } else x) } }
     else if rcXfer m = 0x31 then s.redFail j (rcTag m) (rcShard m) 0x31 false m.src
     else s.failTag j (rcTag m) (rcXfer m) 14 (progDetail 0xFFFF 0 0x0B (rcTag m % 256) 0))
  else s

/-- OPEN_RETRY (R288). -/
def State.retryOpen (s : State) (j t : Nat) : State :=
  if !s.redLocal j then s
  else
    (s.red.xfers.filter (fun x => x.job == j && x.tag == t && x.retry)).foldl (fun (s : State) x =>
      (((s.onXfer x.id (fun y => { y with retry := false })).bump .red 0x58).sendOpen x)) s

/-- Whether a message names the step that its tag stands in. -/
def State.rcLive (s : State) (j : Nat) (m : Msg) : Bool :=
  (s.tag j (rcTag m)).step == rcStep m && decide (rcShard m < bucketShards (s.bucket j (rcTag m)))

/-- DONE (R287). -/
def State.rxDone (s : State) (j : Nat) (m : Msg) : State :=
  if s.rcLive j m && (s.tag j (rcTag m)).st.inStep then s.arrival j (rcTag m) (rcShard m) (byteFld m.data 0x10 2) (byteFld m.data 8 8)
  else s

/-- The DELIVER checksum (R292). -/
def State.rxDeliver (s : State) (j : Nat) (m : Msg) : State :=
  if s.rcLive j m && (s.tag j (rcTag m)).st.inStep then
    (s.onShard j (rcTag m) (rcShard m) (fun x => { x with dsum := some (byteFld m.data 8 8) })).verifyDelivered j (rcTag m) (rcShard m)
  else s

/-- GATHERED (R297). -/
def State.rxGathered (s : State) (j : Nat) (m : Msg) : State :=
  if s.rcLive j m then s.onShard j (rcTag m) (rcShard m) (fun x => { x with gathered := true }) else s

/-- ABORT (R300): class 5 names the originating chip and its class. -/
def State.rxAbort (s : State) (p j : Nat) (m : Msg) : State :=
  let s : State := s.bump .red 0x90
  let st := (s.tag j (rcTag m)).st
  let origin := byteFld m.data 0x12 2
  if st == .idle || st == .failed then s
  else
    ((s.markFailed j (rcTag m) (rcXfer m) origin).fault 5 (rcXfer m) (some j) (Page.port p).unit 9
      (natLe 1 p ++ natLe 1 6 ++ natLe 2 origin ++ natLe 4 0 ++ natLe 1 (byteFld m.data 6 1))).tearDown j 5

/-! ### Lintel release (R164, R166, R281, R284) -/

/-- A release counted by the tags of a lintel: the TRIG_N-th triggers; while the tag is not ARMED it is ignored. -/
def State.tagRelease (s : State) (j id : Nat) : State :=
  (s.red.tags.filter (fun e => e.1 / 4096 == j && e.2.st != .idle)).foldl (fun (s : State) e =>
    let t := e.1 % 4096
    let d := s.bucket j t
    if fld (bkCtrl d) 15 8 ≠ id ∨ bkVerdict d then s
    else if (s.tag j t).st != .armed then s.bump .red 0x80
    else
      let s : State := s.onTag j t (fun x => { x with releases := x.releases + 1 })
      if (s.tag j t).releases = bkCtrl d % 256 then s.trigger j t else s) s

/-- LINTEL_RELEASE (R164): every participant has arrived and PEER_EXPECT messages have been received; the messages of the
next phase become those of the current one. -/
def State.release (s : State) (j id : Nat) : State :=
  let l := s.lint j id
  if l.valid && l.arrived &&& l.mask == l.mask && decide (l.expect ≤ l.msgCur) && (l.mask != 0 || l.expect != 0) then
    (s.onLint j id (fun l => { l with phase := l.phase + 1, arrived := 0, msgCur := l.msgNext, msgNext := 0 })).tagRelease j id
  else s

/-! ### Meanings -/

/-- LINTEL_RELEASE (R164, R165). -/
def execLintelRelease (j : JobId) (id : BitVec 8) (s : State) : Host.Outcome State Fault Refusal :=
  act s (fun s => s.release j id.toNat)
/-- TAG_ARM (R282). -/
def execTagArm (j : JobId) (tag : BitVec 12) (s : State) : Host.Outcome State Fault Refusal := act s (fun s => s.rearm j tag.toNat)
/-- SHARD_VERIFY (R292). -/
def execShardVerify (j : JobId) (tag shard : BitVec 12) (s : State) : Host.Outcome State Fault Refusal :=
  act s (fun s => s.verifyShard j tag.toNat shard.toNat)
/-- TAG_REDUCED (R283). -/
def execTagReduced (j : JobId) (tag : BitVec 12) (s : State) : Host.Outcome State Fault Refusal := act s (fun s => s.reduce j tag.toNat)
/-- VERDICT_TRIGGER (R295). -/
def execVerdictTrigger (j : JobId) (tag : BitVec 12) (s : State) : Host.Outcome State Fault Refusal := act s (fun s => s.verdict j tag.toNat)
/-- GATHER_SEND (R297). -/
def execGatherSend (j : JobId) (tag : BitVec 12) (s : State) : Host.Outcome State Fault Refusal := act s (fun s => s.gather j tag.toNat)
/-- OPEN_RETRY (R288). -/
def execOpenRetry (j : JobId) (tag : BitVec 12) (s : State) : Host.Outcome State Fault Refusal := act s (fun s => s.retryOpen j tag.toNat)
/-- REDUCTION_WATCHDOG (R300). -/
def execReductionWatchdog (j : JobId) (tag : BitVec 12) (s : State) : Host.Outcome State Fault Refusal :=
  act s (fun s => s.redWatchdog j tag.toNat)

end Sys2Proof.Machine
end

