-- ==== Sys2Proof/Machine/Attention.lean ====
section
/-! DEFINITION. The generator of tile entries and the KV pool manager (R305 to R325). -/

namespace Sys2Proof.Machine

/-! ### Requests (Tables 10.2 and 10.3) -/

/-- Word 0 of a request header. -/
def AttReq.w0 (r : AttReq) : Nat := byteFld r.hdr 0 4
/-- PAGED, not TRAIN. -/
def AttReq.paged (r : AttReq) : Bool := fld r.w0 31 28 == 2
/-- CAUSAL. -/
def AttReq.causal (r : AttReq) : Bool := bitAt r.w0 26
/-- ALLOC. -/
def AttReq.alloc (r : AttReq) : Bool := r.paged && bitAt r.w0 25
/-- NENT. -/
def AttReq.nent (r : AttReq) : Nat := fld r.w0 23 16
/-- RETIRE. -/
def AttReq.retire (r : AttReq) : Nat := fld r.w0 15 8
/-- STEP. -/
def AttReq.step (r : AttReq) : Nat := fld r.w0 7 0
/-- LAYER. -/
def AttReq.layer (r : AttReq) : Nat := byteFld r.hdr 4 2
/-- BUDGET. -/
def AttReq.budget (r : AttReq) : Nat := byteFld r.hdr 8 2
/-- TILE_HEAD. -/
def AttReq.tileHead (r : AttReq) : Nat := fld (byteFld r.hdr 0xC 4) 9 0
/-- Length-table entry e of row 1. -/
def lenEnt (ents : List Byte) (e : Nat) : Nat := byteFld ents (8 * e) 8
/-- SLOT of an entry. -/
def leSlot (v : Nat) : Nat := fld v 62 57
/-- Q_POS of an entry. -/
def lePos (v : Nat) : Nat := fld v 56 39
/-- Q_LEN of an entry. -/
def leLen (v : Nat) : Nat := fld v 38 20
/-- Entries of a request. -/
def AttReq.entries (r : AttReq) : List Nat := (List.range r.nent).map (lenEnt r.ents)

/-- ROW0 of each entry (R310). -/
def rows0 (paged : Bool) : Nat → List Nat → List Nat
  | _, [] => []
  | at_, v :: vs => at_ :: rows0 paged (if paged then at_ + leLen v else roundUp (at_ + leLen v) 64) vs

/-! ### Tiles (R311, R312) -/

/-- A real tile. -/
structure TileEnt where
  entry : Nat
  qrow : Nat
  qcnt : Nat
  kblk : Nat
  khi : Nat
  diag : Nat
  first : Bool
  last : Bool
  deriving DecidableEq, Repr

/-- Bit (qb, kb) of the block-sparse bitmap at an address. -/
def State.sparseBit (s : State) (a qb kb : Nat) : Bool := bitAt (memGet s.mem (a + 32 * qb + kb / 8)).toNat (kb % 8)

/-- The tiles of one entry. -/
def State.entryTiles (s : State) (r : AttReq) (e row0 v : Nat) : List TileEnt :=
  let qpos := lePos v
  let fin := qpos + leLen v
  (fromN (qpos / 1024) ((fin - 1) / 1024 + 1 - qpos / 1024)).flatMap (fun qb =>
    let qa := max qpos (1024 * qb)
    let qz := min fin (1024 * qb + 1024)
    let klim := if r.causal then qz else fin
    let kbs := (List.range ((klim - 1) / 1024 + 1)).filter (fun kb => !bitAt r.w0 27 || s.sparseBit (byteFld r.hdr 0x20 6) qb kb)
    let base : TileEnt := { entry := e, qrow := row0 + qa - qpos, qcnt := qz - qa, kblk := 0, khi := 0, diag := 0, first := true, last := true }
    if kbs.isEmpty then [base]
    else kbs.zipIdx.map (fun k => { base with
      kblk := k.1, khi := min 1024 (klim - 1024 * k.1), diag := if r.causal then qa - 1024 * k.1 else 1024
      first := k.2 == 0, last := k.2 + 1 == kbs.length }))

/-- The real tiles of a request, over its served entries. -/
def State.tiles (s : State) (r : AttReq) (served : List Bool) : List TileEnt :=
  let es := r.entries
  ((es.zip (rows0 r.paged 0 es)).zipIdx).flatMap (fun x =>
    if served.getD x.2 false then s.entryTiles r x.2 x.1.2 x.1.1 else [])

/-- The 128 bytes of a tile entry: FP32 lanes of exact integers; a NULL entry is all zero (Table 10.4). -/
def tileBytes : Option TileEnt → List Byte
  | none => zeros 128
  | some t =>
    let n (v : Nat) : List Byte := natLe 4 (fl (.ofInt v 0)).toNat
    let b (c : Bool) : Nat := if c then 1 else 0
    n 1 ++ n t.entry ++ n t.qrow ++ n t.qcnt ++ n t.kblk ++ n t.khi ++ n t.diag ++ n (b t.first) ++ n (b t.last) ++ zeros 92

/-! ### Pool (R317, R318) -/

/-- POOL_JOB. -/
def State.poolJob (s : State) : Nat := fld (s.preg .att 0x100) 5 4
/-- NLAYER. -/
def State.nlayer (s : State) : Nat := fld (s.preg .att 0x128) 10 0
/-- Device address of a pool page. -/
def State.pageAt (s : State) (p : Nat) : Nat := s.reg64 (Page.att.base + 0x108) % 2 ^ 48 + p * s.kvPageBytes
/-- Address of entry i of the page list of a slot and layer. -/
def State.listAt (s : State) (slot layer i : Nat) : Nat :=
  s.reg64 (Page.att.base + 0x110) % 2 ^ 48 + (slot * s.nlayer + layer) * 16384 + 4 * i
/-- Swap pages free, ascending. -/
def State.freeSwap (s : State) : List Nat :=
  (List.range (fld (s.preg .att 0x12C) 23 0)).filter (fun p => !(s.att.swapUsed.any (fun e => e.1 == p)))

/-- The generator and the pool manager read ranges, through windows of class KV. -/
def State.kvGet (s : State) (rs : List (Nat × Nat)) : State × Nat := s.engGet (some .kv) rs
/-- They write bytes over ranges. -/
def State.kvPut (s : State) (a : Nat) (bs : List Byte) : State × Nat := s.engPut (some .kv) (pieces a bs.length) bs

/-- A failed access of the block (R317): class 14 for a denial; an uncorrectable unit has had its record. The job is torn
down. -/
def State.kvFail (s : State) (core st addr : Nat) : State :=
  let j := s.poolJob
  if st = 0x40 then s.tearDown j 1 else s.progFault (some j) Page.att.unit st core 0 0x0C 0xFF addr

/-- A request in error (R316, R321): nothing is emitted, class 14, teardown. -/
def State.attError (s : State) (r : AttReq) : State :=
  s.progFault (some r.job) Page.att.unit 0x7F r.core (s.core r.core).pc 0x0C 0xFF 0

/-- Whether the block acts for a job: while it runs (R325). -/
def State.attLocal (s : State) (j : Nat) : Bool := s.runSlot == some j && (s.job j).st == .running

/-! ### A request taken (R308, R314 to R316) -/

/-- Whether row 0 and row 1 pass the checks of R316 that need no state. -/
def AttReq.fieldsOk (r : AttReq) : Bool :=
  let kind := fld r.w0 31 28
  (kind == 1 || kind == 2) && !bitAt r.w0 24 && decide (1 ≤ r.nent) && decide (r.nent ≤ 64) && byteFld r.hdr 6 2 == 0 && byteFld r.hdr 0xA 2 == 0 &&
    fld (byteFld r.hdr 0xC 4) 31 10 == 0 && byteFld r.hdr 0x16 2 == 0 && byteFld r.hdr 0x1E 2 == 0 && byteFld r.hdr 0x26 2 == 0 &&
    byteFld r.hdr 0x2C 0x1D4 == 0 && decide (1 ≤ r.budget) &&
    r.entries.all (fun v => bitAt v 63 && fld v 19 16 == 0 && decide (1 ≤ leLen v) && decide (leLen v ≤ 262144) &&
      (r.paged || (leSlot v == 0 && fld v 15 0 == 0 && lePos v == 0 && decide (lePos v + leLen v ≤ 262144)))) &&
    byteFld r.ents (8 * r.nent) (8 * (64 - r.nent)) == 0

/-- The checks of R316 and R321 against the device's state; n unretired earlier requests of the ring. -/
def State.attOk (s : State) (r : AttReq) (n : Nat) : Bool :=
  let v := s.slot r.core r.tileHead
  r.fieldsOk && s.ringOk r.core r.tileHead && !sOut v && sAgent v == 1 && sAgentId v == 0xFF &&
    (List.range (sLen v)).all (fun i => sRows (s.ringSlot r.core r.tileHead i) == 2) &&
    decide (r.retire ≤ n) && decide (n - r.retire + 1 ≤ 16) &&
    (!r.paged || (r.job == s.poolJob && decide (r.layer < s.nlayer) && (!r.alloc || r.layer == 0)))

/-- The unretired requests of a ring. -/
def State.ringReqs (s : State) (c ring : Nat) : List AttReq := s.att.reqs.filter (fun r => r.core == c && r.ring == ring && !r.retired)

/-- The oldest k unretired requests of a ring retired; a finished one is forgotten (R315). -/
def retireReqs (c ring : Nat) : Nat → List AttReq → List AttReq
  | 0, rs => rs
  | _, [] => []
  | k + 1, r :: rs =>
    if r.core = c ∧ r.ring = ring ∧ !r.retired then
      (if r.st = 2 then retireReqs c ring k rs else { r with retired := true } :: retireReqs c ring k rs)
    else r :: retireReqs c ring (k + 1) rs

/-- A request replaced. -/
def State.setReq (s : State) (n : Nat) (r : AttReq) : State := { s with att := { s.att with reqs := s.att.reqs.set n r } }

/-- Index r of a tile's record (R313): page-list entries, or run numbers. -/
def State.indexOf (s : State) (r : AttReq) (t : TileEnt) (k : Nat) : Nat :=
  if t.khi ≤ 64 * k then 0xFFFFFFFF
  else if r.paged then s.num (s.listAt (leSlot (lenEnt r.ents t.entry)) r.layer (16 * t.kblk + k)) 4
  else ((rows0 false 0 r.entries).getD t.entry 0 + 1024 * t.kblk + 64 * k) / 64

/-- The index record of a tile entry, all ones for a NULL entry. -/
def State.indexRec (s : State) (r : AttReq) : Option TileEnt → List Byte
  | none => List.replicate 64 0xFF
  | some t => (List.range 16).flatMap (fun k => natLe 4 (s.indexOf r t k))

/-- What the generator reads for the index records: the page lists and the bitmap. -/
def State.indexReads (s : State) (r : AttReq) (served : List Bool) : List (Nat × Nat) :=
  (if bitAt r.w0 27 then pieces (byteFld r.hdr 0x20 6) 8192 else []) ++
  (if r.paged then (r.entries.zipIdx).flatMap (fun v =>
      if served.getD v.2 false then pieces (s.listAt (leSlot v.1) r.layer 0) (4 * ceilDiv (lePos v.1 + leLen v.1) 64) else [])
   else [])

/-- The index list of a request written, its pages pinned; it then emits (R313 to R315). -/
def State.attReady (s : State) (n : Nat) (r : AttReq) (served : List Bool) : State :=
  match s.kvGet (s.indexReads r served) with
  | (s, 0) =>
    let ts := s.tiles r served
    if r.budget < ts.length then s.attError r
    else
      let recs := (List.range r.budget).flatMap (fun i => s.indexRec r ts[i]?)
      let pins := if r.paged then (ts.flatMap (fun t => (List.range 16).map (s.indexOf r t))).filter (fun p => p / 2 ^ 30 == 0) else []
      (match s.kvPut (byteFld r.hdr 0x10 6) recs with
       | (s, 0) => s.setReq n { r with st := 1, served := served, pins := pins }
       | (s, st) => s.kvFail r.core st (byteFld r.hdr 0x10 6))
  | (s, st) => s.kvFail r.core st (byteFld r.hdr 0x10 6)

/-- ATTENTION_REQUEST: the next request of a ring (R308, R314); at most four are worked on at once. -/
def State.attTake (s : State) (c head : Nat) : State :=
  let v := s.slot c head
  match (s.core c).job with
  | none => s
  | some j =>
    if !s.attLocal j || !s.ringOk c head || !sOut v || sAgent v != 1 || sAgentId v != 0xFF || !s.slotFull c head (sCons v) ||
        decide (4 ≤ s.att.reqs.countP (fun r => r.st != 2)) then s
    else
      let row := sBuf (s.ringSlot c head (sCons v))
      match s.sillRead c (rowAddr c row) 1024 1 (some j) 1 with
      | (s, bs, st) =>
        if st = 0x40 then s.tearDown j 1
        else
          let s : State := (s.setFull c head (sCons v) false).advCons c head 1
          let r : AttReq := { core := c, ring := head, hdr := bs.take 512, ents := bs.drop 512, job := j }
          let n := (s.ringReqs c head).length
          let s : State := { s with att := { s.att with reqs := retireReqs c head (min r.retire n) s.att.reqs } }
          if !s.attOk r n then s.attError r
          else
            let k := s.att.reqs.length
            let s : State := { s with att := { s.att with reqs := s.att.reqs ++ [r] } }
            if r.paged then s else s.attReady k r (List.replicate r.nent true)

/-! ### Records (R324, Tables 10.9 and 10.10) -/

/-- Flags of a record: from a step or from a command, with what else it says. -/
def State.attFlags (s : State) (more : Nat) : Nat :=
  more + (match s.att.step with
    | some x => if x.done then 1 else 2
    | none => 1)

/-- STEP and REF of a record: of the step being allocated, or of the command at the head. -/
def State.attRef (s : State) : Nat × Nat :=
  let cmd := (0, ((s.att.cmds.head?).map (fun c => byteFld c.cmd 0xC 4)).getD 0)
  match s.att.step with
  | some x => if x.done then cmd else (x.step, x.ref)
  | none => cmd

/-- A sequence's record, counted by its status. -/
def State.seqRecord (s : State) (status slot id reason flags : Nat) : State :=
  let q := s.seq slot
  let (step, ref) := s.attRef
  let s := if status = 0x20 then s.bump .att 0x70 else if status = 0x21 then s.bump .att 0x78
    else if 0x10 ≤ status ∧ status ≤ 0x12 then s.bump .att 0x80 else s
  s.post (s.job s.poolJob).cqAtt status 0x04 (some s.poolJob) 0xFFFF 0 (seqDetail id slot step reason flags q.len q.pages ref)

/-- The outcome of every entry of the step that names a slot and has none yet. -/
def State.setOutcome (s : State) (slot code : Nat) : State :=
  match s.att.step with
  | some x =>
    if x.done then s
    else { s with att := { s.att with step := some { x with
      out := x.out.mapIdx (fun i o => if o == 0xFF && leSlot (lenEnt x.ents i) == slot then code else o) } } }
  | none => s

/-! ### Pages taken and given back -/

/-- The pool pages of a slot. -/
def State.pagesOf (s : State) (slot : Nat) : List Nat := (s.att.used.filter (fun e => e.2 == slot)).map Prod.fst
/-- A slot's pool pages freed. -/
def State.freeSlotPages (s : State) (slot : Nat) : State :=
  { s with att := { s.att with used := s.att.used.filter (fun e => e.2 != slot) } }
/-- A slot's swap pages freed. -/
def State.freeSlotSwap (s : State) (slot : Nat) : State :=
  { s with att := { s.att with swapUsed := s.att.swapUsed.filter (fun e => e.2 != slot) } }
/-- A slot FREE, its pages freed. -/
def State.freeSlot (s : State) (slot : Nat) : State := ((s.freeSlotPages slot).freeSlotSwap slot).onSeq slot (fun _ => {})

/-- Entries of a slot's page lists, layer by layer (R318). -/
def State.listEntries (s : State) (slot : Nat) : List Nat :=
  let q := s.seq slot
  (List.range s.nlayer).flatMap (fun l => (List.range (q.pages / s.nlayer)).map (fun i => s.listAt slot l i))

/-- Values written to page-list entries in turn: state and status. -/
def State.listPut (s : State) : List (Nat × Nat) → State × Nat
  | [] => (s, 0)
  | (a, v) :: rest =>
    match s.kvPut a (natLe 4 v) with
    | (s, 0) => State.listPut s rest
    | (s, st) => (s, st)

/-- The rest of a page beyond its positions, zero (R318). -/
def State.pageRest (s : State) (p : Nat) : State × Nat :=
  let k := s.preg .att 0x124
  let used := 256 * fld k 23 16 * fld k 10 0
  s.kvPut (s.pageAt p + used) (zeros (s.kvPageBytes - used))

/-- The rests of pages in turn. -/
def State.pageRests (s : State) : List Nat → State × Nat
  | [] => (s, 0)
  | p :: ps =>
    match s.pageRest p with
    | (s, 0) => State.pageRests s ps
    | (s, st) => (s, st)

/-- A slot grows to per pages in each layer: the lowest free pages (log 50), their list entries. State and status. -/
def State.takePages (s : State) (slot per : Nat) : State × Nat :=
  let q := s.seq slot
  let have_ := q.pages / s.nlayer
  let places := (List.range s.nlayer).flatMap (fun l => (fromN have_ (per - have_)).map (fun i => s.listAt slot l i))
  let ps := s.freePages.take places.length
  let s : State := { s with att := { s.att with used := s.att.used ++ ps.map (fun p => (p, slot)) } }
  let s : State := (s.onSeq slot (fun x => { x with pages := x.pages + ps.length })).bump .att 0x58 ps.length
  match s.listPut (places.zip ps) with
  | (s, 0) => s.pageRests ps
  | (s, st) => (s, st)

/-- Pages that a slot still needs to hold per in each layer; what ADMIT reserved counts (R320, R321, log 51). -/
def State.needFor (s : State) (slot per : Nat) : Nat := s.nlayer * per - (s.seq slot).pages

/-! ### Eviction and swap (R321 to R323) -/

/-- The RUNNING sequences that may be evicted: lowest priority, then youngest. -/
def State.victim (s : State) (ok : Nat → Seq → Bool) : Option Nat :=
  ((s.att.seqs.filter (fun e => e.2.st == 1 && e.2.job == s.poolJob && ok e.1 e.2)).foldl
    (fun (best : Option (Nat × Seq)) e => match best with
      | none => some e
      | some b => if e.2.prio < b.2.prio || (e.2.prio == b.2.prio && decide (b.2.age < e.2.age)) then some e else best) none).map Prod.fst

/-- A victim dropped: its slot FREE, PREEMPTED (R322). -/
def State.dropSeq (s : State) (slot reason more : Nat) : State :=
  let id := (s.seq slot).id
  let s : State := (s.freeSlot slot).setOutcome slot 0x21
  s.seqRecord 0x21 slot id reason (s.attFlags more)

/-- A victim evicted (R322): to the swap area, or dropped. -/
def State.evict (s : State) (slot more : Nat) : State :=
  let q := s.seq slot
  let sw := s.freeSwap
  match s.pasidOf s.poolJob with
  | some pid =>
    if bitAt (s.preg .att 0x100) 0 && decide (q.pages ≤ sw.length) then
      let mine := sw.take q.pages
      let ls := s.listEntries slot
      match s.kvGet (ls.map (fun a => (a, 4))) with
      | (s, 0) =>
        let ps := ls.map (fun a => fld (s.num a 4) 15 0)
        (match s.kvGet (ps.flatMap (fun p => pieces (s.pageAt p) s.kvPageBytes)) with
         | (s, 0) =>
           let base := s.reg64 (Page.att.base + 0x118)
           let s : State := (ps.zip mine).foldl (fun (s : State) e =>
             s.send (.hostWrite (base + e.2 * s.kvPageBytes) (some pid) (s.bytes (s.pageAt e.1) s.kvPageBytes))) s
           let s : State := { s with att := { s.att with swapUsed := s.att.swapUsed ++ mine.map (fun p => (p, slot)) } }
           (s.onSeq slot (fun x => { x with st := 2 })).bump .att 0x60 q.pages
         | (s, st) => s.kvFail 0xFFFF st (s.pageAt 0))
      | (s, st) => s.kvFail 0xFFFF st (s.listAt slot 0 0)
    else s.dropSeq slot 5 more
  | none => s.dropSeq slot 6 more

/-- Whether a write to the swap area stands unacknowledged. -/
def State.swappingOut (s : State) : Bool := s.att.seqs.any (fun e => e.2.st == 2)

/-- The entry that the step serves next: of those without an outcome, highest priority, then oldest (R321). -/
def State.nextEntry (s : State) (x : AttStep) : Option Nat :=
  (x.out.zipIdx.filter (fun o => o.1 == 0xFF)).foldl (fun (best : Option Nat) o => match best with
    | none => some o.2
    | some b =>
      let p := s.seq (leSlot (lenEnt x.ents o.2))
      let q := s.seq (leSlot (lenEnt x.ents b))
      if q.prio < p.prio || (q.prio == p.prio && decide (p.age < q.age)) then some o.2 else best) none

/-- FLAGS[3]: the victim is another sequence's. -/
def State.otherVictim (s : State) (slot : Nat) : Nat :=
  match s.att.step with
  | some x =>
    if x.done then 8 else match s.nextEntry x with
      | some e => if leSlot (lenEnt x.ents e) = slot then 0 else 8
      | none => 8
  | none => 8

/-- SWAP_OUT_COMPLETE (R322). -/
def State.swapOut (s : State) (slot : Nat) (present : Bool) : State :=
  if (s.seq slot).st ≠ 2 ∨ !s.attLocal s.poolJob then s
  else if !present then s.dropSeq slot 6 (s.otherVictim slot)
  else
    let sw := (s.att.swapUsed.filter (fun e => e.2 == slot)).map Prod.fst
    match s.listPut ((s.listEntries slot).zip (sw.map (fun p => 2 ^ 30 + p))) with
    | (s, 0) =>
      let more := s.otherVictim slot
      let s : State := ((s.freeSlotPages slot).onSeq slot (fun x => { x with st := 3 })).setOutcome slot 0x20
      s.seqRecord 0x20 slot (s.seq slot).id 0 (s.attFlags more)
    | (s, st) => s.kvFail 0xFFFF st (s.listAt slot 0 0)

/-- The SWAPPED sequences in the order of R323. -/
def State.swapOrder (s : State) : Option Nat :=
  ((s.att.seqs.filter (fun e => e.2.st == 3 && e.2.job == s.poolJob)).foldl
    (fun (best : Option (Nat × Seq)) e => match best with
      | none => some e
      | some b => if b.2.prio < e.2.prio || (b.2.prio == e.2.prio && decide (e.2.age < b.2.age)) then some e else best) none).map Prod.fst

/-- Swap-ins begun while the free pages cover the next sequence (R323): its pages taken, its reads sent. -/
def State.swapInWaiting (s : State) : Nat → State
  | 0 => s
  | k + 1 =>
    match s.swapOrder, s.pasidOf s.poolJob with
    | some slot, some pid =>
      let n := (s.seq slot).pages
      let ps := s.freePages.take n
      if ps.length < n then s
      else
        let base := s.reg64 (Page.att.base + 0x118)
        let sw := (s.att.swapUsed.filter (fun e => e.2 == slot)).map Prod.fst
        let s : State := sw.foldl (fun (s : State) p => s.send (.hostRead (base + p * s.kvPageBytes) (some pid) s.kvPageBytes)) s
        let s : State := { s with att := { s.att with used := s.att.used ++ ps.map (fun p => (p, slot)) } }
        State.swapInWaiting (s.onSeq slot (fun x => { x with st := 4 })) k
    | _, _ => s

/-- Pages written in turn: state and status. -/
def State.pagesPut (s : State) : List (Nat × List Byte) → State × Nat
  | [] => (s, 0)
  | (a, bs) :: rest =>
    match s.kvPut a bs with
    | (s, 0) => State.pagesPut s rest
    | (s, st) => (s, st)

/-- SWAP_IN_COMPLETE (R323): the pages read back are the command's data. -/
def State.swapIn (s : State) (slot : Nat) (data : List Byte) : State :=
  if (s.seq slot).st ≠ 4 ∨ !s.attLocal s.poolJob then s
  else
    let n := (s.seq slot).pages
    let size := s.kvPageBytes
    let ps := s.pagesOf slot
    match s.pagesPut ((ps.zip (List.range n)).map (fun e => (s.pageAt e.1, fitTo size (data.drop (size * e.2))))) with
    | (s, 0) =>
      (match s.listPut ((s.listEntries slot).zip ps) with
       | (s, 0) =>
         let s : State := ((s.freeSlotSwap slot).onSeq slot (fun x => { x with st := 1 })).bump .att 0x68 n
         s.seqRecord 0 slot (s.seq slot).id 0 6
       | (s, st) => s.kvFail 0xFFFF st (s.listAt slot 0 0))
    | (s, st) => s.kvFail 0xFFFF st (s.pageAt 0)

/-! ### Commands at a step boundary (R320) -/

/-- Whether POOL_JOB stands at a step boundary: no unretired PAGED request has gone past its allocation (log 52). -/
def State.boundary (s : State) : Bool :=
  s.att.reqs.all (fun r => !(r.paged && r.job == s.poolJob && !r.retired && r.st != 0)) &&
  (match s.att.step with
   | some x => x.done
   | none => true)

/-- The head command completed with a status. -/
def State.cmdDone (s : State) (status slot reason : Nat) : State :=
  match s.att.cmds with
  | [] => s
  | c :: rest =>
    let q := s.seq slot
    let s : State := if 0x10 ≤ status then s.bump .att 0x80 else s
    let s : State := s.attCmdDone s.poolJob c status
      (seqDetail (byteFld c.cmd 4 4) slot 0 reason 1 q.len q.pages (byteFld c.cmd 0xC 4))
    { s with att := { s.att with cmds := rest } }

/-- The lowest FREE slot. -/
def State.freeSeq (s : State) : Option Nat := (List.range 64).find? (fun i => (s.seq i).st == 0)

/-- ADMIT at the head of the queue (R320): admitted, refused, or one eviction begun. -/
def State.admitHead (s : State) (c : AttCmd) : State :=
  let prio := byteFld c.cmd 1 1
  let len := byteFld c.cmd 8 4
  let per := ceilDiv len 64
  let need := s.nlayer * per
  match s.freeSeq with
  | none => s.cmdDone 0x11 0 1
  | some slot =>
    if 262144 < len then s.cmdDone 0x11 0 2
    else if fld (s.preg .att 0x120) 16 0 < need then s.cmdDone 0x11 0 3
    else if need ≤ s.freePages.length then
      let age := s.att.age + 1
      let s : State := { s with att := { s.att with age := age } }
      let s : State := s.onSeq slot (fun _ => { st := 1, job := s.poolJob, prio := prio, id := byteFld c.cmd 4 4, age := age })
      match s.takePages slot per with
      | (s, 0) => s.cmdDone 0 slot 0
      | (s, st) => s.kvFail 0xFFFF st (s.listAt slot 0 0)
    else
      let lower (e : Nat × Seq) : Bool := e.2.st == 1 && e.2.job == s.poolJob && decide (e.2.prio < prio)
      if s.freePages.length + ((s.att.seqs.filter lower).map (fun e => e.2.pages)).sum < need then s.cmdDone 0x12 0 4
      else match s.victim (fun _ q => decide (q.prio < prio)) with
        | some v => s.evict v 8
        | none => s.cmdDone 0x12 0 4

/-- RELEASE at the head of the queue (R320): of a slot that names its sequence; the manual gives it no record (log 53). -/
def State.releaseHead (s : State) (c : AttCmd) : State :=
  let slot := byteFld c.cmd 2 1
  let q := s.seq slot
  if q.st = 2 ∨ q.st = 4 then s
  else
    let s : State := if slot < 64 && q.st != 0 && q.job == s.poolJob && q.id == byteFld c.cmd 4 4 then s.freeSlot slot else s
    { s.onHq c.sq (fun h => { h with fetched := h.fetched - 1 }) with att := { s.att with cmds := s.att.cmds.drop 1 } }

/-- Whether the pool manager may run the command at the head. -/
def State.cmdsRun (s : State) : Bool := s.attLocal s.poolJob && s.boundary && !s.swappingOut

/-- ADMIT driven on, one eviction at a time, until it completes or a swap write must be waited for. -/
def State.admitRun (s : State) (c : AttCmd) (left : Nat) : Nat → State
  | 0 => s
  | k + 1 => if s.cmdsRun && s.att.cmds.length == left then State.admitRun (s.admitHead c) c left k else s

/-- The command at the head, of an OP. -/
def State.runCmd (s : State) (op : Nat) : State :=
  match s.att.cmds with
  | [] => s
  | c :: rest =>
    if !s.cmdsRun || byteFld c.cmd 0 1 != op then s
    else if op = 1 then s.admitRun c (rest.length + 1) 66 else s.releaseHead c

/-- Queued commands run in order, until one waits. -/
def State.runCmds (s : State) : Nat → State
  | 0 => s
  | k + 1 =>
    match s.att.cmds with
    | [] => s
    | c :: _ => if s.cmdsRun then State.runCmds (s.runCmd (byteFld c.cmd 0 1)) k else s

/-! ### Allocation (R321) -/

/-- The precheck of an entry: its outcome and REASON. -/
def State.precheck (s : State) (v : Nat) : Nat × Nat :=
  let q := s.seq (leSlot v)
  if q.st = 0 ∨ q.job ≠ s.poolJob ∨ q.id % 65536 ≠ fld v 15 0 then (0x10, 0)
  else if 262144 < lePos v + leLen v then (0x11, 2)
  else if lePos v ≠ q.len then (0x11, 7)
  else (0xFF, 0)

/-- The step begun: the precheck of every entry, the refused ones recorded. -/
def State.beginStep (s : State) (r : AttReq) : State :=
  let pre := r.entries.map s.precheck
  let s : State := { s with att := { s.att with step := some {
    core := r.core, step := r.step, ref := byteFld r.hdr 0x28 4, ents := r.ents, out := pre.map Prod.fst } } }
  (r.entries.zip pre).foldl (fun (s : State) e =>
    if e.2.1 = 0xFF then s
    else
      let slot := leSlot e.1
      s.seqRecord e.2.1 slot (s.seq slot).id e.2.2 2) s

/-- An entry's outcome set and recorded. -/
def State.entryDone (s : State) (x : AttStep) (e code : Nat) : State :=
  let slot := leSlot (lenEnt x.ents e)
  let s : State := { s with att := { s.att with step := some { x with out := x.out.set e code } } }
  s.seqRecord code slot (s.seq slot).id 0 2

/-- The step driven on: one entry or one eviction at a time, until a swap write must be waited for. -/
def State.driveStep (s : State) : Nat → State
  | 0 => s
  | k + 1 =>
    match s.att.step with
    | none => s
    | some x =>
      if x.done || s.swappingOut || !s.attLocal s.poolJob then s
      else match s.nextEntry x with
        | none =>
          State.swapInWaiting { s with att := { s.att with step := some { x with done := true } } } 64
        | some e =>
          let v := lenEnt x.ents e
          let slot := leSlot v
          let q := s.seq slot
          let per := ceilDiv (lePos v + leLen v) 64
          if q.st ≠ 1 then State.driveStep (s.entryDone x e 0x20) k
          else if s.needFor slot per ≤ s.freePages.length then
            (match s.takePages slot per with
             | (s, 0) => State.driveStep ((s.onSeq slot (fun y => { y with len := lePos v + leLen v })).entryDone x e 0) k
             | (s, st) => s.kvFail x.core st (s.listAt slot 0 0))
          else
            let served := x.out.zipIdx.filterMap (fun o => if o.1 == 0 then some (leSlot (lenEnt x.ents o.2)) else none)
            match s.victim (fun i _ => !served.contains i) with
            | some w => State.driveStep (s.evict w (if w = slot then 0 else 8)) k
            | none => s

/-- ALLOCATE_STEP (R321): at a step boundary the ALLOC request runs the queued commands and allocates; run again, it goes
on where it waited. -/
def State.allocateStep (s : State) : State :=
  if !s.attLocal s.poolJob then s
  else if !s.boundary then s.driveStep 200
  else
    let old (r : AttReq) : Bool := match s.att.step with
      | some x => x.step == r.step && x.ents == r.ents
      | none => false
    match s.att.reqs.find? (fun r => r.alloc && r.st == 0 && !r.retired && r.job == s.poolJob && !old r) with
    | none => s
    | some r =>
      let s : State := s.runCmds s.att.cmds.length
      if !s.att.cmds.isEmpty || s.swappingOut || !s.attLocal s.poolJob then s
      else (s.beginStep r).driveStep 200

/-! ### Proceeding and emitting (R312, R314, R319) -/

/-- The copies of a PAGED request's new positions (R318, R319): source, destination, 64 bytes each. -/
def State.appendCopies (s : State) (r : AttReq) (served : List Bool) : List (Nat × Nat) :=
  let k := s.preg .att 0x124
  let h := fld k 23 16
  let d := fld k 10 0
  let kb := d / 32
  let ps := (r.entries.zipIdx).flatMap (fun v =>
    if served.getD v.2 false then (fromN (lePos v.1) (leLen v.1)).map (fun p => (leSlot v.1, p)) else [])
  ps.zipIdx.flatMap (fun e =>
    let slot := e.1.1
    let p := e.1.2
    let page := fld (s.num (s.listAt slot r.layer (p / 64)) 4) 15 0
    let row := p % 64
    (List.range (2 * h)).flatMap (fun x => (List.range kb).map (fun b =>
      (byteFld r.hdr 0x18 6 + e.2 * (4 * h * d) + x * (2 * d) + 64 * b,
       s.pageAt page + x * (128 * d) + (row / 8 * kb + b) * 512 + row % 8 * 64))))

/-- Copies of 64 bytes in turn: state and status. -/
def State.copyRun (s : State) : List (Nat × Nat) → State × Nat
  | [] => (s, 0)
  | (a, b) :: rest =>
    match s.kvGet (pieces a 64) with
    | (s, 0) =>
      (match s.kvPut b (s.bytes a 64) with
       | (s, 0) => State.copyRun s rest
       | (s, st) => (s, st))
    | (s, st) => (s, st)

/-- PAGED_REQUEST_PROCEED (R321): request n, once its step has been allocated. -/
def State.proceed (s : State) (n : Nat) : State :=
  match s.att.reqs[n]?, s.att.step with
  | some r, some x =>
    if !s.attLocal r.job || !r.paged || r.st != 0 || !x.done || x.step != r.step then s
    else if r.entries ≠ (List.range x.out.length).map (lenEnt x.ents) then s.attError r
    else
      let served := x.out.map (· == 0)
      (match s.kvGet (s.indexReads r served) with
       | (s, 0) =>
         (match s.copyRun (s.appendCopies r served) with
          | (s, 0) => s.attReady n r served
          | (s, st) => s.kvFail r.core st (byteFld r.hdr 0x18 6))
       | (s, st) => s.kvFail r.core st (s.listAt 0 r.layer 0))
  | _, _ => s

/-- TILE_ENTRY_EMIT (R312, R314): eight entries into an empty slot of the tile ring; with the last slot the request
completes. -/
def State.emit (s : State) (n : Nat) : State :=
  match s.att.reqs[n]? with
  | none => s
  | some r =>
    let c := r.core
    let h := r.tileHead
    let pos := sProd (s.slot c h)
    if r.st ≠ 1 ∨ !s.attLocal r.job ∨ s.slotFull c h pos then s
    else
      let ts := s.tiles r r.served
      let row := (fromN r.tile 8).flatMap (fun i => tileBytes ts[i]?)
      let s : State := (((s.put (rowAddr c (sBuf (s.ringSlot c h pos))) row).setFull c h pos true).advProd c h 1)
      let real := min 8 (ts.length - r.tile)
      let s : State := (s.bump .att 0x48 real).bump .att 0x50 (8 - real)
      let fin := decide (roundUp r.budget 8 ≤ r.tile + 8)
      let s : State := if fin then s.bump .att 0x40 else s
      let s : State := s.setReq n { r with tile := r.tile + 8, st := if fin then 2 else 1 }
      if fin && r.retired then { s with att := { s.att with reqs := s.att.reqs.eraseIdx n } } else s

/-! ### Meanings -/

/-- ATTENTION_REQUEST (R314, R316). -/
def execAttentionRequest (c : CoreId) (head : BitVec 10) (s : State) : Host.Outcome State Fault Refusal :=
  act s (fun s => s.attTake c head.toNat)
/-- ALLOCATE_STEP (R321). -/
def execAllocateStep (s : State) : Host.Outcome State Fault Refusal := act s (fun s => s.allocateStep)
/-- PAGED_REQUEST_PROCEED (R321). -/
def execPagedRequestProceed (n : Nat) (s : State) : Host.Outcome State Fault Refusal := act s (fun s => s.proceed n)
/-- TILE_ENTRY_EMIT (R312). -/
def execTileEntryEmit (n : Nat) (s : State) : Host.Outcome State Fault Refusal := act s (fun s => s.emit n)
/-- SWAP_OUT_COMPLETE (R322). -/
def execSwapOutComplete (slot : BitVec 6) (present : Bool) (s : State) : Host.Outcome State Fault Refusal :=
  act s (fun s => s.swapOut slot.toNat present)
/-- ADMIT (R320). -/
def execAdmitSeq (s : State) : Host.Outcome State Fault Refusal := act s (fun s => s.runCmd 1)
/-- RELEASE (R320). -/
def execReleaseSeq (s : State) : Host.Outcome State Fault Refusal := act s (fun s => s.runCmd 2)
/-- SWAP_IN_COMPLETE (R323). -/
def execSwapInComplete (slot : BitVec 6) (data : List Byte) (s : State) : Host.Outcome State Fault Refusal :=
  act s (fun s => s.swapIn slot.toNat data)

end Sys2Proof.Machine
end

