-- ==== Sys2Proof/Machine/Links.lean ====
section
/-! DEFINITION. Link ports: training (R326, R327, R339), flits (R331, R332, R336), retry (R337, R338), frames (R347 to R349),
links and paths that go down (R350). -/

namespace Sys2Proof.Machine

/-- The path of a Zelzen link. -/
def zelzen : Nat := 0xFFFF
/-- The retry protocol of a port and a path. -/
def State.lane (s : State) (p key : Nat) : Lane := tget {} (s.port p).lanes key
/-- The retry protocol of a port and a path updated. -/
def State.onLane (s : State) (p key : Nat) (f : Lane → Lane) : State :=
  s.onPort p (fun q => { q with lanes := tset q.lanes key (f (tget {} q.lanes key)) })
/-- Flits of a class's receive buffer (Table 11.3). -/
def bufFlits (c : Nat) : Nat := if c ≤ 1 then 512 else if c = 2 then 64 else 256
/-- The port's pages record a unit. -/
def portUnit (p : Nat) : Nat := (Page.port p).unit

/-! ### Transactions (R335, R350) -/

/-- The owner of a transaction gets its response: a core's request in flight, or a transfer of the reduction engine. How the remote side of an
EXPORT or IMPORT ends its command says (log 45). -/
def State.answerTxn (s : State) (p k : Nat) (o : TxnOwner) (st : Nat) (bs : List Byte) : State :=
  match o with
  | .stream n tag =>
    match s.flight.find? (fun r => r.core == n && r.tag == tag && r.via == some (p, k)) with
    | some r => s.serve r st bs
    | none => s.bump (.core n) 0x450
  | .xfer id => s.xferAck id st
  | .bench _ => s

/-- Transactions that end without a response: those not already ended complete with ABORTED_RESET (R350). -/
def State.dropTxns (s : State) (p : Nat) (ts : Tab Txn) : State :=
  ts.foldl (fun (s : State) e => if e.2.expired then s else s.answerTxn p e.1 e.2.owner 0x30 []) s

/-- A port loses its link, or is reset, disabled or closed (R350): its buffers are empty, its EPOCH inverts, its
transactions end. -/
def State.portLost (s : State) (p : Nat) : State :=
  let ts := (s.port p).txns
  (s.onPort p (fun q => { q with
    link := .down, width := 0, active := 0, peer := zelzen, epoch := !q.epoch, credits := [], ret := [], paused := 0
    pausing := 0, lanes := [], txq := [], part := [], inbox := [], buf := [], txns := [], retrains := [], held := [] })).dropTxns p ts

/-- The link of a port goes down (R338, R350): LINK_EVENT and class 5, once. -/
def State.linkDown (s : State) (p : Nat) : State :=
  let peer := (s.port p).peer
  ((s.portLost p).event evLink).linkFault p 2 peer 0 0 none

/-- An Ethernet path goes down (R349): its messages and transactions end, its epoch advances. -/
def State.pathDown (s : State) (p peer : Nat) : State :=
  let ts := (s.port p).txns.filter (fun e => e.2.dst == peer)
  let s : State := s.onPort p (fun q => { q with
    epoch := !q.epoch
    txq := q.txq.filter (fun e => e.1 % 2 ^ 19 / 8 != peer)
    part := q.part.filter (fun e => e.1 / 8 != peer)
    txns := q.txns.filter (fun e => e.2.dst != peer && !e.2.expired) })
  let s : State := s.onLane p peer (fun l => { epoch := (l.epoch + 1) % 65536, peerEpoch := l.peerEpoch, rxSeq := l.rxSeq, down := true })
  ((s.dropTxns p ts).event evLink).linkFault p 7 peer 0 0 none

/-! ### Training (R326, R327, R339) -/

/-- Lanes of MAX_WIDTH (Table 11.11). -/
def State.maxWidth (s : State) (p : Nat) : Nat := 8 / 2 ^ fld (s.preg (.port p) 0x100) 17 16

/-- The candidate lane sets in the order of R339: width, mask. -/
def laneSets : List (Nat × Nat) :=
  [(8, 0xFF), (4, 0x0F), (4, 0xF0), (2, 0x03), (2, 0x0C), (2, 0x30), (2, 0xC0)] ++ (List.range 8).map (fun i => (1, 2 ^ i))

/-- The first candidate set, not above a width, whose lanes are all healthy (R339). -/
def pickLanes (cap healthy : Nat) : Option (Nat × Nat) :=
  laneSets.find? (fun c => decide (c.1 ≤ cap) && c.2 &&& healthy == c.2)

/-- The lanes that a training brings up: in Ethernet mode all that the port is set to, or none (R339). -/
def State.trained (s : State) (p cap healthy : Nat) : Option (Nat × Nat) :=
  if s.isEth p then (let m := 2 ^ s.maxWidth p - 1; if m &&& healthy = m then some (s.maxWidth p, m) else none)
  else pickLanes cap healthy

/-- A port that is enabled and not closed begins to train (R327). -/
def State.portStart (s : State) (p : Nat) : State :=
  s.onPort p (fun q => { q with
    link := if bitAt (s.preg (.port p) 0x100) 0 && (q.life.st == .opened || q.life.st == .opening) then .training else .down
    fitted := 0, failed := 0, reversed := false })

/-- A first training fails: the port stays down, LINK_EVENT; cause 1 of class 5 where it is not the rate (R326, R327); a port
that was OPENING becomes FAULTED (R397). -/
def State.trainFail (s : State) (p : Nat) (t : Training) (record : Bool) : State :=
  let opening := (s.port p).life.st == .opening
  let s : State := (s.onPort p (fun q => { q with
    link := .down, failed := 255 - t.healthy.toNat
    fitted := if s.isEth p && t.healthy != 255 then s.maxWidth p else 0 })).event evLink
  let s : State := if record then s.linkFault p 1 zelzen 0 0 none else s
  if opening then
    let off := s.freeWord.toNat
    let mask := (Config.freeValue (s.free + 1)).toNat
    s.useFree.useFree.blockFaulted (.port ⟨p % 8, Nat.mod_lt _ (by decide)⟩) off mask
  else s

/-- LINK_TRAINING_DONE (R326, R327, R336, R339). -/
def State.trainDone (s : State) (p : Nat) (t : Training) : State :=
  if (s.port p).link ≠ .training then s
  else if !t.cabled then s.trainFail p t true
  else if !t.sameRate then s.trainFail p t false
  else match s.trained p (s.maxWidth p) t.healthy.toNat with
    | none => s.trainFail p t true
    | some (w, m) =>
      let eth := s.isEth p
      s.onPort p (fun q => { q with
        life := if q.life.st == .opening then { q.life with st := .opened } else q.life
        link := .up, width := w, active := m, failed := 255 - t.healthy.toNat, reversed := t.reversed
        peer := if eth then zelzen else t.peer.toNat
        fitted := s.maxWidth p
        credits := if eth then [] else (List.range 7).map (fun c => (c, bufFlits c))
        lanes := [] })

/-- A retraining starts (R338): the third within 10 ms takes the link down. -/
def State.retrain (s : State) (p : Nat) : State :=
  let recent := s.time :: (s.port p).retrains.filter (fun t => decide (s.time < t + 1000000))
  let s : State := (s.bump (.port p) 0x78).onPort p (fun q => { q with link := .retraining, retrains := recent })
  if 3 ≤ recent.length then s.linkDown p else s

/-! ### Flits (R331, Table 11.2) -/

/-- The flit header. -/
def flitHdr (type cls seq ack ackv crCls crCount first : Nat) : Nat :=
  type * 2 ^ 60 + cls * 2 ^ 57 + seq * 2 ^ 45 + ack * 2 ^ 33 + ackv * 2 ^ 32 + crCls * 2 ^ 29 + crCount * 2 ^ 20 + first * 2 ^ 15

/-- A flit: header, payload of 244 bytes, CRC-32 (log 60). -/
def mkFlit (hdr : Nat) (pay : List Byte) : List Byte :=
  let b := natLe 8 hdr ++ fitTo 244 pay
  b ++ natLe 4 (crc32 b).toNat

/-- Header of a flit. -/
def flitH (f : List Byte) : Nat := byteFld f 0 8
/-- Payload of a flit. -/
def flitPay (f : List Byte) : List Byte := (f.drop 8).take 244
/-- SEQ of a flit. -/
def flitSeq (f : List Byte) : Nat := fld (flitH f) 56 45

/-- Whether a flit's CRC holds and its reserved bits and codes are 0 (R331). -/
def flitOk (f : List Byte) : Bool :=
  f.length == 256 && byteFld f 252 4 == (crc32 (f.take 252)).toNat && fld (flitH f) 14 0 == 0 &&
    decide (fld (flitH f) 63 60 ≤ 2) && !(fld (flitH f) 63 60 == 1 && fld (flitH f) 59 57 == 7)

/-! ### Frames (R348) -/

/-- A number as n bytes, most significant first: the order of IP and UDP headers. -/
def natBe (n v : Nat) : List Byte := (natLe n v).reverse
/-- A number read most significant byte first. -/
def beFld (bs : List Byte) (off n : Nat) : Nat := leNat (((bs.drop off).take n).reverse)

/-- The ones' complement sum of 16-bit words that IPv4 and UDP checksums use. -/
def inetSum (bs : List Byte) : Nat :=
  let n := ((chunks 2 bs).map (fun w => beFld (fitTo 2 w) 0 2)).sum
  let f (x : Nat) : Nat := x % 65536 + x / 65536
  f (f (f n))

/-- The checksum field over bytes. -/
def inetCheck (bs : List Byte) : Nat := 65535 - inetSum bs

/-- The path-table entry of a peer on a port, and its index. -/
def State.pathEnt (s : State) (p peer : Nat) : Option (Nat × List Byte) :=
  ((tget [] s.routes.paths p).zipIdx.find? (fun e => byteFld e.1 0 2 == peer)).map (fun e => (e.2, e.1))

/-- The port's MAC (Table 11.12): its six bytes in register order (log 61). -/
def State.ownMac (s : State) (p : Nat) : List Byte := natLe 6 (s.reg64 ((Page.port p).base + 0x118))
/-- The port's IP address, 16 bytes. -/
def State.ownIp (s : State) (p : Nat) : List Byte := (List.range 4).flatMap (fun i => natLe 4 (s.preg (.port p) (0x120 + 4 * i)))
/-- UDP_PORT: 0 means 0xB5EA. -/
def State.udpPort (s : State) (p : Nat) : Nat :=
  let v := fld (s.preg (.port p) 0x130) 31 16
  if v = 0 then 0xB5EA else v
/-- The 802.1Q priority of a class. -/
def State.classPrio (s : State) (p c : Nat) : Nat := fld (s.preg (.port p) 0x134) (4 * c + 2) (4 * c)
/-- The DSCP of a class. -/
def State.classDscp (s : State) (p c : Nat) : Nat := fld (s.preg (.port p) (0x138 + 4 * (c / 4))) (8 * (c % 4) + 5) (8 * (c % 4))

/-- The pseudo-header and header of a UDP datagram whose checksum field is given. -/
def udpHead (src dst len check : Nat) : List Byte := natBe 2 src ++ natBe 2 dst ++ natBe 2 len ++ natBe 2 check

/-- A Zelzen frame: 1 to 16 flits of one class and one path. -/
def State.frame (s : State) (p peer cls : Nat) (flits : List (List Byte)) : List Byte :=
  match s.pathEnt p peer with
  | none => []
  | some (idx, e) =>
    let tag := if bitAt (s.preg (.port p) 0x100) 23 then
      natBe 2 0x8100 ++ natBe 2 (s.classPrio p cls * 8192 + fld (byteFld e 8 2) 11 0) else []
    let v6 := bitAt (byteFld e 0xC 4) 0
    let enc := natLe 1 (0x10 + (flits.length - 1)) ++ zeros 1 ++ natLe 2 peer ++ natLe 2 s.chipId ++ natLe 2 (s.lane p peer).epoch
    let body := enc ++ flits.flatten
    let ulen := 8 + body.length
    let src := 0xC000 + idx % 16384
    let ip := (e.drop 0x10).take 16
    let dscp := s.classDscp p cls
    let net := if v6 then
        let pseudo := s.ownIp p ++ ip ++ natBe 4 ulen ++ natBe 4 17
        let sum := inetCheck (pseudo ++ udpHead src (s.udpPort p) ulen 0 ++ body)
        natBe 2 0x86DD ++ natBe 4 (6 * 2 ^ 28 + dscp * 2 ^ 22) ++ natBe 2 ulen ++ [17, 64] ++ s.ownIp p ++ ip ++
          udpHead src (s.udpPort p) ulen (if sum = 0 then 65535 else sum)
      else
        let head (c : Nat) : List Byte := natLe 1 0x45 ++ natLe 1 (dscp * 4) ++ natBe 2 (20 + ulen) ++ natBe 2 0 ++ natBe 2 0x4000 ++
          [64, 17] ++ natBe 2 c ++ (s.ownIp p).take 4 ++ ip.take 4
        natBe 2 0x800 ++ head (inetCheck (head 0)) ++ udpHead src (s.udpPort p) ulen 0
    let all := (e.drop 2).take 6 ++ s.ownMac p ++ tag ++ net ++ body
    all ++ natLe 4 (crc32 all).toNat

/-- Flits of one class leave a port: on the Zelzen link, or in one frame of a path. -/
def State.emitFlits (s : State) (p key cls : Nat) (flits : List (List Byte)) : State :=
  if flits.isEmpty then s
  else if s.isEth p then s.send (.frame p key (s.frame p key cls flits))
  else flits.foldl (fun (s : State) f => s.send (.flit p f)) s

/-! ### Sending (R332, R336, R337) -/

/-- The credits that an outgoing flit returns: a class and a count (R336); none in Ethernet mode (R349). -/
def State.takeCredits (s : State) (p : Nat) : State × Nat × Nat :=
  if s.isEth p then (s, 0, 0)
  else match (s.port p).ret.find? (fun e => decide (0 < e.2)) with
    | none => (s, 0, 0)
    | some (c, n) =>
      let k := min 511 n
      (s.onPort p (fun q => { q with ret := tset q.ret c (n - k) }), c, k)

/-- A flit without payload: IDLE, or RETRY_REQ naming the expected SEQ. -/
def State.sendBare (s : State) (p key type : Nat) : State :=
  let (s, c, n) := s.takeCredits p
  s.emitFlits p key 0 [mkFlit (flitHdr type 0 0 (s.lane p key).rxSeq 1 c n 31) []]

/-- A RETRY_REQ sent (R337): the eighth for one SEQ within 100 µs starts a retraining (R338). -/
def State.sendRetryReq (s : State) (p key : Nat) : State :=
  let times := s.time :: (s.lane p key).asks.filter (fun t => decide (s.time < t + 10000))
  let s : State := (s.sendBare p key 2).onLane p key (fun l => { l with asking := false, asks := times })
  if !s.isEth p && decide (8 ≤ times.length) then s.retrain p else s

/-- Messages of one class and path packed into a payload (R332): payload, offset of the first header, what is left. -/
def packPay (key : Nat) : List Byte → Option Nat → List (Nat × List Byte) → List Byte × Option Nat × List (Nat × List Byte)
  | pay, first, [] => (pay, first, [])
  | pay, first, (k, bs) :: rest =>
    if k % 2 ^ 19 ≠ key then
      let (a, b, c) := packPay key pay first rest
      (a, b, (k, bs) :: c)
    else
      let off := roundUp pay.length 8
      if 244 ≤ off then (pay, first, (k, bs) :: rest)
      else
        let room := 244 - off
        let pay' := fitTo off pay ++ bs.take room
        let first' := if 2 ^ 19 ≤ k then first else first.or (some (off / 8))
        if bs.length ≤ room then packPay key pay' first' rest
        else (pay', first', (key + 2 ^ 19, bs.drop room) :: rest)

/-- Up to n DATA flits of a class and path formed, numbered and retained. -/
def State.formFlits (s : State) (p key : Nat) : Nat → State × List (List Byte)
  | 0 => (s, [])
  | n + 1 =>
    let path := key / 8
    let cls := key % 8
    if !(s.port p).txq.any (fun e => e.1 % 2 ^ 19 == key) || decide (2048 ≤ (s.lane p path).replay.length) ||
        (!s.isEth p && tget 0 (s.port p).credits cls == 0) then (s, [])
    else
      let (pay, first, rest) := packPay key [] none (s.port p).txq
      let (s, c, k) := s.takeCredits p
      let l := s.lane p path
      let f := mkFlit (flitHdr 1 cls l.txSeq l.rxSeq 1 c k (first.getD 31)) pay
      let s : State := (s.onPort p (fun q => { q with
        txq := rest, credits := if s.isEth p then q.credits else tset q.credits cls (tget 0 q.credits cls - 1) })).onLane p path
          (fun l => { l with
            txSeq := (l.txSeq + 1) % 4096, replay := l.replay ++ [(l.txSeq, f)], down := false
            ackAt := if l.replay.isEmpty then s.time else l.ackAt })
      let (s, fs) := State.formFlits (s.bump (.port p) 0x40) p key n
      (s, f :: fs)

/-- Whether a class and path may send: a credit, or no pause for its priority; room in the replay buffer. -/
def State.maySend (s : State) (p key : Nat) : Bool :=
  decide ((s.lane p (key / 8)).replay.length < 2048) &&
    (if s.isEth p then !bitAt (s.port p).paused (s.classPrio p (key % 8)) else decide (0 < tget 0 (s.port p).credits (key % 8)))

/-- FLIT_TRANSMIT (R332, R336, R337): a RETRY_REQ that is due, or DATA of the oldest message that may be sent, or IDLE. -/
def State.transmit (s : State) (p : Nat) : State :=
  let q := s.port p
  if q.link ≠ .up then s
  else match q.lanes.find? (fun e => e.2.asking) with
    | some e => s.sendRetryReq p e.1
    | none =>
      let keys := (q.txq.map (fun e => e.1 % 2 ^ 19)).eraseDups
      let stalled := !s.isEth p && keys.any (fun k => tget 0 q.credits (k % 8) == 0)
      let s : State := if stalled then s.bump (.port p) 0x88 else s
      match keys.find? (fun k => s.maySend p k) with
      | some k =>
        let n := if s.isEth p then fld (s.preg (.port p) 0x100) 15 12 + 1 else 1
        let (s, fs) := s.formFlits p k n
        s.emitFlits p (k / 8) (k % 8) fs
      | none =>
        if s.isEth p then q.lanes.foldl (fun (s : State) e => s.sendBare p e.1 0) s else s.sendBare p zelzen 0

/-- Retained flits from a SEQ onward sent again (R337). -/
def State.resend (s : State) (p key seq : Nat) : State :=
  let fs := ((s.lane p key).replay.dropWhile (fun e => e.1 != seq)).map Prod.snd
  let s : State := s.bump (.port p) 0x70 fs.length
  fs.foldl (fun (s : State) f => s.emitFlits p key (fld (flitH f) 59 57) [f]) s

/-- A RETRY_REQ acted on (R337). -/
def State.onRetryReq (s : State) (p key seq : Nat) : State :=
  if (s.port p).link ≠ .up then s else (s.bump (.port p) 0x68).resend p key seq

/-! ### Receiving (R331, R332, R336, R337) -/

/-- A payload's messages (R332): completed ones, and the bytes of one that goes on (fuel: the payload's length). -/
def parsePay : Nat → List Byte → List Byte → List (List Byte) × List Byte
  | 0, part, _ => ([], part)
  | n + 1, part, pay =>
    let bytes := part ++ pay
    if part.isEmpty && (pay.isEmpty || pay.head? == some 0) then ([], [])
    else
      let total := 24 + byteFld bytes 2 2
      if bytes.length < total then ([], bytes)
      else
        let used := roundUp (total - part.length) 8
        let (ms, rest) := parsePay n [] (pay.drop used)
        (bytes.take total :: ms, rest)

/-- ACK taken (R337): every flit before it leaves the replay buffer. -/
def State.takeAck (s : State) (p key ack : Nat) : State :=
  let l := s.lane p key
  let t := s.time
  if l.txSeq = ack then (if l.replay.isEmpty then s else s.onLane p key (fun l => { l with replay := [], timeouts := 0, ackAt := t }))
  else if l.replay.any (fun e => e.1 == ack) && (l.replay.head?.map Prod.fst) != some ack then
    s.onLane p key (fun l => { l with replay := l.replay.dropWhile (fun e => e.1 != ack), timeouts := 0, ackAt := t })
  else if s.isEth p then s
  else s.onLane p key (fun l => { l with ackAt := t })

/-- A flit discarded (R337): the first one asks for a retry, and so does each replayed flit of the expected SEQ. -/
def State.discardFlit (s : State) (p key seq : Nat) : State :=
  let l := s.lane p key
  if (l.asks.isEmpty && !l.asking) || seq == l.rxSeq then s.onLane p key (fun l => { l with asking := true }) else s

/-- Whether a class's receive buffer takes one more flit. -/
def State.bufRoom (s : State) (p cls : Nat) : Bool := decide (tget 0 (s.port p).buf cls < bufFlits cls)

/-- Whether flits of a class stay in the receive buffer, and keep their credits, until their messages are taken: REQ's and HANDOFF's, and every
class in Ethernet mode; responses and CTL are always taken (R336). -/
def State.buffers (s : State) (p cls : Nat) : Bool := s.isEth p || cls == 0 || decide (3 ≤ cls)

/-- 802.1Qbb pause for a class whose buffer passes PFC_XOFF, ended at that less 64 (R349, Table 11.12). -/
def State.pfc (s : State) (p cls : Nat) : State :=
  let prio := s.classPrio p cls
  let n := tget 0 (s.port p).buf cls
  let x := s.preg (.port p) 0x140
  let on := bitAt (s.port p).pausing prio
  if !s.isEth p then s
  else if !on && decide (x < n) then
    ((s.onPort p (fun q => { q with pausing := putFld q.pausing prio prio 1 })).bump (.port p) 0xC8).send (.pause p prio true)
  else if on && (List.range 7).all (fun c => s.classPrio p c != prio || decide (tget 0 (s.port p).buf c ≤ x - 64)) then
    ((s.onPort p (fun q => { q with pausing := putFld q.pausing prio prio 0 })).bump (.port p) 0xC8).send (.pause p prio false)
  else s

/-- Whether a message is one of Table 11.5, of its class and its sub-operation; others are discarded (log 62). -/
def msgKnown (cls : Nat) (bs : List Byte) : Bool :=
  let m := Msg.ofBytes bs
  m.cls == cls && ([1, 2, 3, 4, 8, 9, 0x11].contains m.kind || (m.kind == 0x10 && decide (1 ≤ m.sub) && decide (m.sub ≤ 7)))

/-- A DATA flit accepted. -/
def State.acceptFlit (s : State) (p key : Nat) (f : List Byte) : State :=
  let cls := fld (flitH f) 59 57
  let k := cls + 8 * key
  let (ms, rest) := parsePay 245 (tget [] (s.port p).part k) (flitPay f)
  let s : State := (s.bump (.port p) 0x48).onLane p key (fun l => { l with rxSeq := (l.rxSeq + 1) % 4096, asking := false, asks := [] })
  let keep := s.buffers p cls
  (s.onPort p (fun q => { q with
    part := tset q.part k rest
    inbox := q.inbox ++ (ms.filter (msgKnown cls)).map (fun m => (cls, m))
    buf := if keep then tset q.buf cls (tget 0 q.buf cls + 1) else q.buf
    ret := if keep then q.ret else tset q.ret cls (tget 0 q.ret cls + 1) })).pfc p cls

/-- A flit that arrived on a path, one at a time. -/
def State.takeFlit (s : State) (p key : Nat) (f : List Byte) : State :=
  let h := flitH f
  if !flitOk f then (s.bump (.port p) 0x60).discardFlit p key (flitSeq f)
  else
    let s : State := if bitAt h 32 && fld h 63 60 != 2 then s.takeAck p key (fld h 44 33) else s
    let s : State := if s.isEth p then s
      else s.onPort p (fun q => { q with credits := tset q.credits (fld h 31 29) (tget 0 q.credits (fld h 31 29) + fld h 28 20) })
    match fld h 63 60 with
    | 2 => (s.takeAck p key (fld h 44 33)).onRetryReq p key (fld h 44 33)
    | 1 =>
      if flitSeq f ≠ (s.lane p key).rxSeq then s.discardFlit p key (flitSeq f)
      else if s.isEth p && !s.bufRoom p (fld h 59 57) then (s.bump (.port p) 0xC0).discardFlit p key (flitSeq f)
      else s.acceptFlit p key f
    | _ => s

/-- FLIT_RECEIVE on the Zelzen link: codewords corrected and not correctable are counted (R328). -/
def State.receive (s : State) (p : Nat) (f : List Byte) (corr uncorr : Nat) : State :=
  if s.isEth p || (s.port p).link != .up then s
  else ((s.bump (.port p) 0x50 corr).bump (.port p) 0x58 uncorr).takeFlit p zelzen f

/-! ### Frames received (R348, R349) -/

/-- What a frame carries once its MAC, IP and UDP headers are checked: the encapsulation header and the flits. -/
def State.frameBody (s : State) (p : Nat) (fr : List Byte) : Option (List Byte) :=
  let body := fr.take (fr.length - 4)
  let tagged := beFld fr 12 2 == 0x8100
  let at_ := if tagged then 16 else 12
  let ip := body.drop (at_ + 2)
  let v6 := beFld fr at_ 2 == 0x86DD
  let hl := if v6 then 40 else 20
  let udp := ip.drop hl
  let ulen := beFld udp 4 2
  let datagram := udp.take ulen
  let own := s.ownIp p
  let ipOk :=
    if v6 then fld (beFld ip 0 4) 31 28 == 6 && byteFld ip 6 1 == 17 && (ip.drop 24).take 16 == own && beFld ip 4 2 == ulen
    else beFld fr at_ 2 == 0x800 && byteFld ip 0 1 == 0x45 && beFld ip 6 2 % 0x4000 == 0 && byteFld ip 9 1 == 17 &&
      inetCheck (ip.take 20) == 0 && (ip.drop 16).take 4 == own.take 4 && beFld ip 2 2 == 20 + ulen
  let pseudo := if v6 then (ip.drop 8).take 32 ++ natBe 4 ulen ++ natBe 4 17 else (ip.drop 12).take 8 ++ natBe 2 17 ++ natBe 2 ulen
  let own6 := bitAt (s.preg (.port p) 0x130) 15
  let sumOk := beFld udp 6 2 == 0 || inetCheck (pseudo ++ datagram) == 0
  if byteFld fr (fr.length - 4) 4 == (crc32 body).toNat && fr.take 6 == s.ownMac p && v6 == own6 && ipOk && decide (8 ≤ ulen) &&
      datagram.length == ulen && beFld udp 2 2 == s.udpPort p && sumOk
  then some (datagram.drop 8) else none

/-- ETH_FRAME_RECEIVE: a frame is dropped and counted, or its flits are taken in order; a new epoch is adopted from a frame
whose first flit has SEQ 0. -/
def State.frameIn (s : State) (p : Nat) (fr : List Byte) : State :=
  if !s.isEth p || (s.port p).link != .up then s
  else
    let drop : State := s.bump (.port p) 0xC0
    match s.frameBody p fr with
    | none => drop
    | some b =>
      let n := fld (byteFld b 0 1) 3 0 + 1
      let src := byteFld b 4 2
      let ep := byteFld b 6 2
      let flits := chunks 256 (b.drop 8)
      let fresh := (s.lane p src).peerEpoch != ep
      let first := flits.headD []
      if fld (byteFld b 0 1) 7 4 ≠ 1 ∨ byteFld b 1 1 ≠ 0 ∨ byteFld b 2 2 ≠ s.chipId ∨ (s.pathEnt p src).isNone ∨
          (b.drop 8).length ≠ 256 * n ∨ (fresh && !(flitOk first && fld (flitH first) 63 60 == 1 && flitSeq first == 0)) then drop
      else
        let s : State := if fresh then (s.onLane p src (fun l => { l with peerEpoch := ep, rxSeq := 0, asking := false, asks := [] })).onPort p
            (fun q => { q with part := q.part.filter (fun e => e.1 / 8 != src) }) else s
        flits.foldl (fun (s : State) f => s.takeFlit p src f) s

/-- PFC_PAUSE (R349). -/
def State.pfcIn (s : State) (p prio : Nat) (on : Bool) : State :=
  if s.isEth p && (s.port p).link == .up then
    (s.onPort p (fun q => { q with paused := putFld q.paused prio prio (if on then 1 else 0) })).bump (.port p) 0xD0
  else s

/-- Whether no ACK has come, or in Ethernet mode none has advanced, for so many ticks of TIME while flits are outstanding (R338, R349). -/
def State.ackLacks (s : State) (p key ticks : Nat) : Bool :=
  let l := s.lane p key
  (s.port p).link == .up && !l.replay.isEmpty && decide (l.ackAt + ticks ≤ s.time)

/-- ETH_RETRY_TIMEOUT (R349): the path is replayed from its last ACK, or after 16 consecutive timeouts is down. -/
def State.ethTimeout (s : State) (p peer : Nat) : State :=
  let l := s.lane p peer
  if !s.isEth p || !s.ackLacks p peer (100 * s.preg (.port p) 0x114) then s
  else if 15 ≤ l.timeouts then s.pathDown p peer
  else
    ((s.onLane p peer (fun l => { l with timeouts := l.timeouts + 1, ackAt := s.time })).bump (.port p) 0x68).resend p peer ((l.replay.headD (0, [])).1)

/-! ### Retraining (R338, R339) -/

/-- RETRAIN_DONE: the largest usable width not above the present one; every retained flit is sent again; or the link is
down. -/
def State.retrained (s : State) (p : Nat) (t : Training) : State :=
  let q := s.port p
  if q.link ≠ .retraining then s
  else match (if t.cabled && t.sameRate then pickLanes q.width t.healthy.toNat else none) with
    | none => s.linkDown p
    | some (w, m) =>
      let s : State := if w < q.width then (s.bump (.port p) 0x80).event evLink else s
      let s : State := s.onPort p (fun q => { q with
        link := .up, width := w, active := m, failed := 255 - t.healthy.toNat, peer := t.peer.toNat, reversed := t.reversed
        lanes := q.lanes.map (fun e => (e.1, { e.2 with asks := [], asking := e.2.asking || !e.2.asks.isEmpty })) })
      s.resend p zelzen (((s.lane p zelzen).replay.headD (0, [])).1)

/-- LANE_ALIGNMENT_LOSS (R338): a Zelzen link retrains; an Ethernet link, which does not degrade, goes down (R339). -/
def State.alignLost (s : State) (p : Nat) : State :=
  if (s.port p).link ≠ .up then s
  else if s.isEth p then s.linkDown p
  else s.retrain p

/-- ACK_TIMEOUT (R338): no ACK for 10 µs. -/
def State.ackLate (s : State) (p : Nat) : State := if !s.isEth p && s.ackLacks p zelzen 1000 then s.retrain p else s

/-- RETRY_REQ_RESEND (R337): once in every 2 µs in which no flit with a SEQ that was asked for has arrived. -/
def State.askAgain (s : State) (p key : Nat) : State :=
  match (s.lane p key).asks with
  | t :: _ => if (s.port p).link == .up && decide (t + 200 ≤ s.time) then s.sendRetryReq p key else s
  | [] => s

/-! ### Meanings -/

/-- LINK_TRAINING_DONE (R327). -/
def execLinkTrainingDone (p : PortId) (t : Training) (s : State) : Host.Outcome State Fault Refusal := act s (fun s => s.trainDone p.val t)
/-- FLIT_TRANSMIT (R336). -/
def execFlitTransmit (p : PortId) (s : State) : Host.Outcome State Fault Refusal := act s (fun s => s.transmit p.val)
/-- FLIT_RECEIVE (R331, R337). -/
def execFlitReceive (p : PortId) (flit : List Byte) (fecCorr fecUncorr : Nat) (s : State) : Host.Outcome State Fault Refusal :=
  act s (fun s => s.receive p.val flit fecCorr fecUncorr)
/-- RETRY_REQ (R337): received on the Zelzen link. -/
def execRetryReq (p : PortId) (seq : BitVec 12) (s : State) : Host.Outcome State Fault Refusal :=
  act s (fun s => if s.isEth p.val then s else s.onRetryReq p.val zelzen seq.toNat)
/-- RETRY_REQ_RESEND (R337): for each expected SEQ that has been asked for. -/
def execRetryReqResend (p : PortId) (s : State) : Host.Outcome State Fault Refusal :=
  act s (fun s => (s.port p.val).lanes.foldl (fun (s : State) e => s.askAgain p.val e.1) s)
/-- ACK_TIMEOUT (R338). -/
def execAckTimeout (p : PortId) (s : State) : Host.Outcome State Fault Refusal := act s (fun s => s.ackLate p.val)
/-- LANE_ALIGNMENT_LOSS (R338). -/
def execLaneAlignmentLoss (p : PortId) (s : State) : Host.Outcome State Fault Refusal := act s (fun s => s.alignLost p.val)
/-- RETRAIN_DONE (R338, R339). -/
def execRetrainDone (p : PortId) (t : Training) (s : State) : Host.Outcome State Fault Refusal := act s (fun s => s.retrained p.val t)
/-- ETH_FRAME_RECEIVE (R348, R349). -/
def execEthFrameReceive (p : PortId) (frame : List Byte) (s : State) : Host.Outcome State Fault Refusal :=
  act s (fun s => s.frameIn p.val frame)
/-- PFC_PAUSE (R349). -/
def execPfcPause (p : PortId) (prio : BitVec 3) (pause : Bool) (s : State) : Host.Outcome State Fault Refusal :=
  act s (fun s => s.pfcIn p.val prio.toNat pause)
/-- ETH_RETRY_TIMEOUT (R349). -/
def execEthRetryTimeout (p : PortId) (peer : BitVec 16) (s : State) : Host.Outcome State Fault Refusal :=
  act s (fun s => s.ethTimeout p.val peer.toNat)

end Sys2Proof.Machine
end

