-- ==== Sys2Proof/Machine/LinkMessages.lean ====
section
/-! DEFINITION. Messages that arrive at a link port (R333 to R335, R340 to R342), and the timers of R335 and R342. A command
of a message acts on the oldest received message of the kind's traffic class, where it is of that kind. -/

namespace Sys2Proof.Machine

/-! ### Taking a message -/

/-- A received message taken out: the receive buffer of its class is freed when no message of it is left, and its credits
are due or the pause may end (R336, R349). -/
def State.takeMsg (s : State) (p : Nat) (e : Nat × List Byte) : State :=
  let s : State := s.onPort p (fun q => { q with inbox := removeFirst (fun x => x == e) q.inbox })
  if !s.buffers p e.1 || (s.port p).inbox.any (fun x => x.1 == e.1) then s
  else
    (s.onPort p (fun q => { q with
      ret := if s.isEth p then q.ret else tset q.ret e.1 (tget 0 q.ret e.1 + tget 0 q.buf e.1)
      buf := tset q.buf e.1 0 })).pfc p e.1

/-- The oldest received message of a class, where it is of a kind and sub-operation. -/
def State.headMsg (s : State) (p cls : Nat) (is : Msg → Bool) : Option ((Nat × List Byte) × Msg) :=
  match (s.port p).inbox.find? (fun x => x.1 == cls) with
  | some e => if is (Msg.ofBytes e.2) then some (e, Msg.ofBytes e.2) else none
  | none => none

/-- What the check of R340 finds. -/
inductive Arrival where
  | misrouted
  | noKey
  | torn
  | job (j : Nat)
  deriving DecidableEq, Repr

/-- The check of R340: destination, then job key. -/
def State.checkMsg (s : State) (m : Msg) : Arrival :=
  if m.dst ≠ s.chipId then .misrouted
  else match s.slotOfKey m.key with
    | none => .noKey
    | some j => if bitAt (s.preg .links (0x104 + 4 * j)) 30 then .torn else .job j

/-- A message for another chip (R340). -/
def State.misrouted (s : State) (p : Nat) (m : Msg) : State :=
  (s.bump (.port p) 0xA8).linkFault p 4 m.src 0 0 none

/-- A response by the responder's own route (R334, R344); with no route it is discarded and counted (log 63). -/
def State.respond (s : State) (p : Nat) (m : Msg) (st : Nat) (bs : List Byte) : State :=
  let r : Msg := { kind := if m.kind = 2 then 9 else 8, sub := st, key := m.key, src := s.chipId, dst := m.src, txn := m.txn
                   deadline := m.deadline, data := bs }
  match s.routePort (portUnit p) m.src with
  | some q => s.queueMsg q r
  | none => s.bump (.port p) 0xB0

/-- A request's path once its key names a loaded job: state, status, data. -/
abbrev Serve := State → Nat → Msg → State × Nat × List Byte

/-- A REQ message (R334, R340). -/
def State.request (s : State) (p kind : Nat) (f : Serve) : State :=
  match s.headMsg p 0 (fun m => m.kind == kind) with
  | none => s
  | some (e, m) =>
    let s : State := s.takeMsg p e
    match s.checkMsg m with
    | .misrouted => s.misrouted p m
    | .noKey => (s.bump (.port p) 0xA0).respond p m 0x60 []
    | .torn => s.respond p m 0x31 []
    | .job j =>
      let (s, st, bs) := f s j m
      s.respond p m st bs

/-! ### WRITE, READ, XFADD (R250, R261, R334) -/

/-- A peer WRITE. -/
def serveWrite : Serve := fun s j m =>
  match s.winWrite (.peer m.key) m.addr m.data with
  | (s, 0) => (s.hdrLanded j m.addr m.data.length, 0, [])
  | (s, st) => (s, st, [])

/-- A peer READ. -/
def serveRead : Serve := fun s _ m => s.winRead (.peer m.key) m.addr m.rlen

/-- The tag, shard and block whose sum area holds an address. -/
def State.areaOf (s : State) (j a : Nat) : Option (Nat × Nat × Nat) :=
  (s.red.tags.filter (fun e => e.1 / 4096 == j && e.2.st.inStep)).findSome? (fun e =>
    let t := e.1 % 4096
    let d := s.bucket j t
    (List.range (bucketShards d)).findSome? (fun k =>
      let en := s.shardEnt d k
      match sumArea d en with
      | some (lo, _) => if lo ≤ a ∧ a < lo + 256 * seBlocks en ∧ (a - lo) % 256 = 0 then some (t, k, (a - lo) / 256) else none
      | none => none))

/-- A peer XFADD of a block and its header. EXP fields that differ fail the reduction tag that the block lies in, or are
reported outside one (R261, R300, Table 15.4). -/
def State.peerXfadd (s : State) (j chip key a h : Nat) (blk : List Byte) (hdr : Nat) : State × Nat :=
  match s.xfEnter (fun s a len => let (s, st, _) := s.winEnter (.peer key) .xfadd a len; (s, st)) a h with
  | (s, 0) =>
    (match s.xfAddAt (a / quarrySize) a h blk hdr 1 none 0 with
     | (s, 0x41) =>
       (match s.areaOf j a with
        | some (t, k, _) => (s.failTag j t 0x41 3 (redDetail t (s.tag j t).step k chip 0 0), 0x41)
        | none => (s.fault 3 0x41 none (Page.quarry (a / quarrySize)).unit 0 (xfDetail chip), 0x41))
     | (s, st) => (s, st))
  | (s, st) => (s, st)

/-- An XFADD message: 272 bytes, or a compressed block of a tag's contribution, expanded on arrival (R299, log 46). -/
def serveXfadd : Serve := fun s j m =>
  if m.data.length = 272 then
    (let (s, st) := s.peerXfadd j m.src m.key m.addr (byteFld m.data 264 8 % 2 ^ 48) (m.data.take 256) (byteFld m.data 256 4)
     (s, st, []))
  else match s.areaOf j m.addr with
    | none => (s, 0x60, [])
    | some (t, k, i) =>
      let d := s.bucket j t
      let e := s.shardEnt d k
      match sumArea d e with
      | none => (s, 0x60, [])
      | some (_, h) =>
        let (blk, hdr) := expandXf (bkCompress d) (fld (s.num (h + 4 * i) 4) 7 0) m.data
        let (s, st) := s.peerXfadd j m.src m.key m.addr (h + 4 * i) blk hdr
        (s, st, [])

/-! ### HANDOFF (R341, R342) -/

/-- The ring positions of core n's inbound rings that a hand-off matches: head, slot entry. -/
def State.handRings (s : State) (n p ch a len : Nat) : List (Nat × Nat) :=
  ((s.core n).slots.filter (fun e => sValid e.2 && sHead e.2 && !sOut e.2 && sAgent e.2 == 2 && sAgentId e.2 == p + 8 * ch)).flatMap
    (fun e => ((fromN e.1 (sLen e.2)).filter (fun k =>
      decide (rowAddr n (sBuf (s.slot n k)) ≤ a) && decide (a + len ≤ rowAddr n (sBuf (s.slot n k) + sRows (s.slot n k))))).map
        (fun k => (e.1, k)))

/-- Whether hand-offs of a job are held: it is parked, or being parked or resumed, or has not run (R199, R342, log 64). -/
def State.handHeld (s : State) (j : Nat) : Bool :=
  match (s.job j).st with
  | .loaded | .parked | .resuming | .parking => true
  | _ => false

/-- What becomes of a hand-off: refused, denied, held, or written to a slot of a ring. -/
inductive Hand where
  | shut
  | denied
  | held
  | land (core head entry : Nat)
  deriving DecidableEq, Repr

/-- The admission of R341; requests for a sill that is shut are refused (R4, R22). -/
def State.handAdmit (s : State) (p j : Nat) (m : Msg) : Hand :=
  if (sillOf m.addr).any s.sillShut then .shut
  else if s.handHeld j then .held
  else match sillOf m.addr with
    | none => .denied
    | some n =>
      let rings := if (s.core n).job = some j then s.handRings n p (m.sub % 4) m.addr m.data.length else []
      match rings[Config.handoffPick s.free % rings.length]? with
      | none => .denied
      | some (h, e) => if sFull (s.slot n e) then .held else .land n h e

/-- A hand-off at the head of its channel: the state, or none while it is held. One whose rows find their banks taken tries again (R192). -/
def State.handoffHead (s : State) (p : Nat) (e : Nat × List Byte) : Option State :=
  let m := Msg.ofBytes e.2
  match s.checkMsg m with
  | .misrouted => some ((s.takeMsg p e).misrouted p m)
  | .noKey => some (((s.takeMsg p e).bump (.port p) 0xA0).respond p m 0x60 [])
  | .torn => some ((s.takeMsg p e).respond p m 0x31 [])
  | .job j =>
    match s.handAdmit p j m with
    | .held => none
    | .shut => some ((s.takeMsg p e).respond p m 0x10 [])
    | .denied => some (((s.takeMsg p e).bump (.port p) 0x98).respond p m 0x60 [])
    | .land n h k =>
      match (s.catchUp n).asyncTry n meshPort (sillRows m.addr m.data.length) with
      | (s, false) => some s
      | (s, true) =>
        let s : State := ((s.takeMsg p e).putRow m.addr m.data).bump (.sill n) 0x68
        some ((s.handUnits n h k m.addr m.data.length).respond p m 0 [])

/-- Whether a hand-off waits for a job that is parked, or whose cores are saved or restored (R342). -/
def State.waitsParked (s : State) (e : Nat × List Byte) : Bool :=
  match s.checkMsg (Msg.ofBytes e.2) with
  | .job j => s.handHeld j
  | _ => false

/-- The TIME since which the oldest hand-off of each channel is held for a parked job (R342). -/
def State.timeHeld (s : State) (p : Nat) (heads : List (Nat × List Byte)) : State :=
  let held := (heads.filter s.waitsParked).map (fun e => (e.1, tget s.time (s.port p).held e.1))
  if held = (s.port p).held then s else s.onPort p (fun q => { q with held := held })

/-- HANDOFF: of the channels in the order of their oldest messages, the first that is not held. -/
def State.handoffStep (s : State) (p : Nat) : State :=
  let heads := (List.range 4).filterMap (fun c => (s.port p).inbox.find? (fun x => x.1 == c + 3))
  let s : State := s.timeHeld p heads
  (heads.findSome? (fun e => s.handoffHead p e)).getD s

/-- PARK_TIMEOUT (R342): the held write and every later one of the channel for that job complete with HALTED_DEST_PARKED. -/
def State.parkExpire (s : State) (p ch : Nat) : State :=
  match (s.port p).inbox.find? (fun x => x.1 == ch + 3) with
  | none => s
  | some e =>
    let late := match tfind (s.port p).held (ch + 3) with
      | some t => decide (t + 100 * s.preg (.port p) 0x10C ≤ s.time)
      | none => false
    match s.checkMsg (Msg.ofBytes e.2) with
    | .job j =>
      if s.handHeld j && late then
        ((s.port p).inbox.filter (fun x => x.1 == ch + 3 && s.checkMsg (Msg.ofBytes x.2) == .job j)).foldl (fun (s : State) x =>
          ((s.takeMsg p x).bump (.port p) 0x90).respond p (Msg.ofBytes x.2) 0x51 [])
            (s.onPort p (fun q => { q with held := tdel q.held (ch + 3) }))
      else s
    | _ => s

/-! ### Responses (R334, R335) -/

/-- A COMPLETION or READ_DATA: its transaction ends and its credit returns; one of another EPOCH, or late, is discarded. -/
def State.response (s : State) (p kind : Nat) : State :=
  match s.headMsg p 1 (fun m => m.kind == kind) with
  | none => s
  | some (e, m) =>
    let s : State := s.takeMsg p e
    if m.dst ≠ s.chipId then s.misrouted p m
    else
      let k := m.txn % 512
      match tfind (s.port p).txns k with
      | none => s
      | some x =>
        if x.epoch != bitAt m.txn 15 then s
        else
          let s : State := s.onPort p (fun q => { q with txns := tdel q.txns k })
          let s : State := if x.expired then s else s.answerTxn p k x.owner m.sub m.data
          match s.runSlot with
          | some j => s.pumpAll j
          | none => s

/-- TXN_TIMEOUT (R335). -/
def State.txnExpire (s : State) (p k : Nat) : State :=
  match tfind (s.port p).txns k with
  | none => s
  | some x =>
    if x.expired || decide (s.time < x.at_ + 100 * s.preg (.port p) 0x110) then s
    else
      let s : State := (s.onPort p (fun q => { q with txns := tset q.txns k { x with expired := true } })).bump (.port p) 0xB8
      (s.linkFault p 3 x.dst k 0 none).answerTxn p k x.owner 0x30 []

/-! ### CTL messages (R166, R288, R340) -/

/-- A LINTEL message of a loaded job (R166, R167). -/
def State.lintelIn (s : State) (p j : Nat) (m : Msg) : State :=
  let id := byteFld m.data 0 1
  let ph := byteFld m.data 1 1 % 4
  let l := s.lint j id
  if l.valid && l.expect != 0 && ph == l.phase % 4 then s.onLint j id (fun l => { l with msgCur := l.msgCur + 1 })
  else if l.valid && l.expect != 0 && ph == (l.phase + 1) % 4 then s.onLint j id (fun l => { l with msgNext := l.msgNext + 1 })
  else (s.bump (.port p) 0xD8).linkFault p 5 m.src (id + 256 * ph) 0 (some j)

/-- A CTL message: of a loaded job it acts; of a torn-down job an OPEN is refused (R302, R340). -/
def State.ctl (s : State) (p : Nat) (is : Msg → Bool) (f : State → Nat → Msg → State) : State :=
  match s.headMsg p 2 is with
  | none => s
  | some (e, m) =>
    let s : State := s.takeMsg p e
    match s.checkMsg m with
    | .misrouted => s.misrouted p m
    | .noKey => s.bump (.port p) 0xA0
    | .torn => if m.kind = 0x10 ∧ m.sub = 1 then s.answerOpen m 3 0x31 else s
    | .job j => f s j m

/-- A RED_CTL message of a sub-operation. -/
def State.redCtl (s : State) (p sub : Nat) (f : State → Nat → Msg → State) : State :=
  s.ctl p (fun m => m.kind == 0x10 && m.sub == sub) f

/-! ### Meanings -/

/-- WRITE (R334). -/
def execWrite (p : PortId) (s : State) : Host.Outcome State Fault Refusal := act s (fun s => s.request p.val 1 serveWrite)
/-- READ (R334). -/
def execRead (p : PortId) (s : State) : Host.Outcome State Fault Refusal := act s (fun s => s.request p.val 2 serveRead)
/-- XFADD_REQUEST (R261, R334). -/
def execXfaddRequest (p : PortId) (s : State) : Host.Outcome State Fault Refusal := act s (fun s => s.request p.val 3 serveXfadd)
/-- HANDOFF (R341, R342). -/
def execHandoff (p : PortId) (s : State) : Host.Outcome State Fault Refusal := act s (fun s => s.handoffStep p.val)
/-- COMPLETION (R334, R335). -/
def execCompletion (p : PortId) (s : State) : Host.Outcome State Fault Refusal := act s (fun s => s.response p.val 8)
/-- READ_DATA (R334, R335). -/
def execReadData (p : PortId) (s : State) : Host.Outcome State Fault Refusal := act s (fun s => s.response p.val 9)
/-- LINTEL (R166). -/
def execLintel (p : PortId) (s : State) : Host.Outcome State Fault Refusal :=
  act s (fun s => s.ctl p.val (fun m => m.kind == 0x11) (fun s j m => s.lintelIn p.val j m))
/-- TXN_TIMEOUT (R335). -/
def execTxnTimeout (p : PortId) (txn : BitVec 9) (s : State) : Host.Outcome State Fault Refusal :=
  act s (fun s => s.txnExpire p.val txn.toNat)
/-- PARK_TIMEOUT (R342). -/
def execParkTimeout (p : PortId) (channel : BitVec 2) (s : State) : Host.Outcome State Fault Refusal :=
  act s (fun s => s.parkExpire p.val channel.toNat)
/-- OPEN (R288). -/
def execOpenMsg (p : PortId) (s : State) : Host.Outcome State Fault Refusal := act s (fun s => s.redCtl p.val 1 State.rxOpen)
/-- ACCEPT (R289). -/
def execAcceptMsg (p : PortId) (s : State) : Host.Outcome State Fault Refusal := act s (fun s => s.redCtl p.val 2 State.rxAccept)
/-- REFUSE (R288). -/
def execRefuseMsg (p : PortId) (s : State) : Host.Outcome State Fault Refusal := act s (fun s => s.redCtl p.val 3 State.rxRefuse)
/-- DONE (R287). -/
def execDoneMsg (p : PortId) (s : State) : Host.Outcome State Fault Refusal := act s (fun s => s.redCtl p.val 4 State.rxDone)
/-- DELIVER_CHECKSUM (R292). -/
def execDeliverChecksum (p : PortId) (s : State) : Host.Outcome State Fault Refusal := act s (fun s => s.redCtl p.val 5 State.rxDeliver)
/-- GATHERED (R297). -/
def execGathered (p : PortId) (s : State) : Host.Outcome State Fault Refusal := act s (fun s => s.redCtl p.val 6 State.rxGathered)
/-- ABORT (R300). -/
def execAbortMsg (p : PortId) (s : State) : Host.Outcome State Fault Refusal :=
  act s (fun s => s.redCtl p.val 7 (fun s j m => s.rxAbort p.val j m))

end Sys2Proof.Machine
end

