-- ==== Sys2Proof/Machine/Lifecycle.lean ====
section
/-! DEFINITION. The lifecycle of cores, quarries and ports (R397, R275, R350, R439). -/

namespace Sys2Proof.Machine

/-- A range of memory zeroed, its codewords clean (R198). -/
def State.zeroRange (s : State) (a n : Nat) : State :=
  { s with
    mem := memZero s.mem a (a + n)
    ecc := s.ecc.filter (fun e => !(decide (a ≤ 32 * e.1) && decide (32 * e.1 + 32 ≤ a + n))) }

/-- The sill of core n zeroed. -/
def State.zeroSill (s : State) (n : Nat) : State := s.zeroRange (sillBase n) 0x400000

/-- Requests in flight that a block has not served complete with a status. -/
def State.endFlight (s : State) (is : Req → Bool) (st : Nat) : State :=
  { s with flight := s.flight.map (fun r => if is r && r.st != .served then { r with st := .served, status := st, data := [] } else r) }

/-- Requests at a quarry. -/
def atQuarry (n : Nat) (r : Req) : Bool := r.space == 0 && quarryOf r.addr == some n
/-- Requests to the sill of a core from other cores. -/
def atSill (n : Nat) (r : Req) : Bool := r.space == 1 && sillOf r.addr == some n

/-- Requests in flight at a block complete with a status. -/
def State.endAt (s : State) (b : Block) (st : Nat) : State :=
  match b with
  | .core n => s.endFlight (atSill n) st
  | .quarry n => s.endFlight (atQuarry n) st
  | .port p => s.portLost p

/-- Whether a block is a fused core, which stays CLOSED (R4). -/
def isFused : Block → Bool
  | .core n => fused n
  | _ => false

/-- CLOSE or RETIRE of one block (R397): CLOSING from OPEN or FAULTED; a running job that uses it is torn down; a port loses
its link, with class 5 where it had one (R350). -/
def State.closeOne (s : State) (b : Block) (retire : Bool) : State :=
  let l := s.life b
  if isFused b || !(l.st == .opened || l.st == .faulted) then s
  else
    let s : State := s.onLife b (fun l => { l with st := .closing, retired := l.retired || retire })
    match b with
    | .port p => if (s.port p).link = .down then s.portLost p else s.linkDown p
    | _ => s.tearJob (s.userOf b) 0

/-- CLOSE or RETIRE: retiring a quarry retires its core too (R275, R437). -/
def State.closeBlock (s : State) (b : Block) (retire : Bool) : State :=
  match b, retire with
  | .quarry n, true => (s.closeOne (.quarry n) true).closeOne (.core n) true
  | _, _ => s.closeOne b retire

/-- BLOCK_CLOSED (R397): what is still in flight completes with ABORTED_RESET; EPOCH inverts. -/
def State.closed (s : State) (b : Block) : State :=
  if (s.life b).st = .closing ∧ isFused b = false then
    (s.endAt b 0x30).onLife b (fun l => { l with st := .closed, epoch := !l.epoch })
  else s

/-- REQ_OPEN (R397): a core's sill is zeroed, a port trains; a retired block stays CLOSED. -/
def State.openBlock (s : State) (b : Block) : State :=
  let l := s.life b
  if isFused b || l.st != .closed || l.retired then s
  else
    let s : State := s.onLife b (fun l => { l with st := .opening })
    match b with
    | .core n => s.zeroSill n
    | .quarry _ => s
    | .port p => s.portStart p

/-- A block's test fails (R397, R468). Which parity groups failed is not stated: free (log 8). -/
def State.testFailed (s : State) (b : Block) : State :=
  let off := s.freeWord.toNat
  let mask := (Config.freeValue (s.free + 1)).toNat
  s.useFree.useFree.blockFaulted b off mask

/-- BLOCK_SELF_TEST_DONE (R397). -/
def State.selfTest (s : State) (b : Block) (pass : Bool) : State :=
  if (s.life b).st ≠ .opening ∨ isFused b then s
  else if pass then s.onLife b (fun l => { l with st := .opened })
  else match b with
    | .port p => (s.portLost p).testFailed b
    | _ => s.testFailed b

/-- UNIT of the record of a unit that has no counterpart. The lintel tree has no page of its own; its record names the job
page (log 65). -/
def soleUnit : SoleUnit → Nat
  | .lintelTree => Page.job.unit
  | .reductionEngine => Page.red.unit
  | .attentionBlock => Page.att.unit
  | .management => Page.stavuf.unit

/-- A unit that has no counterpart fails (R439): FATAL, class 11, and the job that runs is torn down. -/
def State.fatalUnit (s : State) (u : SoleUnit) (off mask : Nat) : State :=
  let job := s.runSlot
  (s.setFatal.fault 11 0 job (soleUnit u) (if job.isSome then 3 else 2) (natLe 4 off ++ natLe 4 mask) 1).tearJob job 11

/-- CONTROL_PARITY_FAULT (R397, R439). -/
def State.parityFault (s : State) (u : ParityUnit) (off mask : Nat) : State :=
  match u with
  | .block b =>
    if (s.life b).st ≠ .opened ∨ isFused b then s
    else match b with
      | .port p => (s.portLost p).blockFaulted b off mask
      | _ => (s.blockFaulted b off mask).endAt b 0x10
  | .sole u => s.fatalUnit u off mask

/-! ### Meanings -/

/-- REQ_CLOSE (R397). -/
def execReqClose (b : Block) (s : State) : Host.Outcome State Fault Refusal := act s (fun s => s.closeBlock b false)
/-- REQ_OPEN (R397). -/
def execReqOpen (b : Block) (s : State) : Host.Outcome State Fault Refusal := act s (fun s => s.openBlock b)
/-- REQ_RETIRE (R397). -/
def execReqRetire (b : Block) (s : State) : Host.Outcome State Fault Refusal := act s (fun s => s.closeBlock b true)
/-- BLOCK_CLOSED (R397). -/
def execBlockClosed (b : Block) (s : State) : Host.Outcome State Fault Refusal := act s (fun s => s.closed b)
/-- BLOCK_SELF_TEST_DONE (R397). -/
def execBlockSelfTestDone (b : Block) (pass : Bool) (s : State) : Host.Outcome State Fault Refusal := act s (fun s => s.selfTest b pass)
/-- CONTROL_PARITY_FAULT (R397). -/
def execControlParityFault (u : ParityUnit) (off mask : W32) (s : State) : Host.Outcome State Fault Refusal :=
  act s (fun s => s.parityFault u off.toNat mask.toNat)

end Sys2Proof.Machine
end

