-- ==== Sys2Proof/Machine/Jobs.lean ====
section
/-! DEFINITION. Job commands (R376 to R386, R394 to R396), the job image (R378 to R380), switches (R387 to R392), retirement at
LOAD (R437), and the measurement of images (R475, R476). -/

namespace Sys2Proof.Machine

/-! ### Measurements (R475) -/

/-- Bytes written into consecutive registers of a page. -/
def State.putBytes (s : State) (p : Page) (o : Nat) (bs : List Byte) : State :=
  (chunks 4 bs).zipIdx.foldl (fun (s : State) e => s.setPreg p (o + 4 * e.2) (leNat e.1)) s
/-- Bytes of consecutive registers of a page. -/
def State.getBytes (s : State) (p : Page) (o n : Nat) : List Byte :=
  (List.range (n / 4)).flatMap (fun i => natLe 4 (s.preg p (o + 4 * i)))
/-- MEAS[i]. -/
def State.meas (s : State) (i : Nat) : List Byte := s.getBytes .security (0x200 + 0x20 * i) 32
/-- MEAS[i] written. -/
def State.setMeas (s : State) (i : Nat) (bs : List Byte) : State := s.putBytes .security (0x200 + 0x20 * i) bs
/-- MEAS[i] extended by a digest (R475). -/
def State.extend (s : State) (i : Nat) (d : List Byte) : State := s.setMeas i (digest (s.meas i ++ d))
/-- JOBKEY_DIGEST. -/
def State.jobKeyDigest (s : State) : List Byte := s.getBytes .security 0x180 32

/-! ### Job commands (Table 13.4) -/

/-- OP. -/
def jcOp (c : List Byte) : Nat := byteFld c 0 1
/-- SLOT. -/
def jcSlot (c : List Byte) : Nat := byteFld c 1 1
/-- IMAGE. -/
def jcImage (c : List Byte) : Nat := byteFld c 8 8

/-- The entry's fields as Table 13.4 gives them: reserved ones 0, values in range. -/
def jobCmdOk (c : List Byte) : Bool :=
  decide (1 ≤ jcOp c) && decide (jcOp c ≤ 5) && byteFld c 2 2 == 0 && byteFld c 0x2E 2 == 0 && byteFld c 0x3E 2 == 0 &&
    (jcOp c == 3 || decide (jcSlot c < 4)) &&
    (jcOp c != 1 || (jcImage c % 4096 == 0 && byteFld c 0x2C 2 != 0 && byteFld c 0x28 4 / 2 ^ 14 == 0 &&
      fld (byteFld c 0x30 4) 30 20 == 0))

/-- The command of an operation that a JOB queue starts next: job commands wait for a switch (R381, R392). -/
def State.jobHead (s : State) (op : Nat) : Option JobCmd :=
  if s.sw.phase ≠ .idle then none
  else s.jobCmds.find? (fun c => jcOp c.cmd == op && s.jobCmds.find? (fun d => d.sq == c.sq) == some c)

/-- A command taken from its queue. -/
def State.takeJob (s : State) (c : JobCmd) : State := { s with jobCmds := removeFirst (· == c) s.jobCmds }

/-- A job command refused or failed (R382): status by reason, class 13 for reasons 6 to 8, counted. -/
def State.jobRefuse (s : State) (c : JobCmd) (reason : Nat) : State :=
  let slot := if jcSlot c.cmd < 4 then some (jcSlot c.cmd) else none
  let st := if reason = 1 ∨ reason = 4 then 0x11 else if 6 ≤ reason ∧ reason ≤ 8 then 0x7F else 0x10
  let s : State := s.bump .job 0x60
  let s : State := if st = 0x7F then s.hostFault 0x7F Page.job.unit 7 c.sq (jcImage c.cmd) else s
  s.jobDone c slot st reason 0 0 0

/-! ### The job image (Tables 13.2 and 13.3) -/

/-- A section entry. -/
structure Sect where
  typ : Nat
  lq : Nat
  off : Nat
  len : Nat
  target : Nat
  reserved : Nat
  deriving DecidableEq, Repr

/-- Section entry i of an image. -/
def sectAt (img : List Byte) (i : Nat) : Sect :=
  let e := (img.drop (byteFld img 0x18 8 + 32 * i)).take 32
  { typ := byteFld e 0 1, lq := byteFld e 2 2, off := byteFld e 8 8, len := byteFld e 0x10 8, target := byteFld e 0x18 8
    reserved := byteFld e 1 1 + byteFld e 4 4 }

/-- The sections of an image. -/
def sects (img : List Byte) : List Sect := (List.range (byteFld img 0x14 4)).map (sectAt img)
/-- The bytes of a section. -/
def Sect.bytes (x : Sect) (img : List Byte) : List Byte := (img.drop x.off).take x.len
/-- NCORES. -/
def imNcores (img : List Byte) : Nat := byteFld img 0x10 2
/-- PLACE_MASK. -/
def imPlace (img : List Byte) : Nat := byteFld img 0x20 16
/-- EXTRA_MASK. -/
def imExtra (img : List Byte) : Nat := byteFld img 0x30 16
/-- The quarry that a logical quarry names (R379). -/
def imQuarry (img : List Byte) (lq : Nat) : Nat := (coresOf (imPlace img) ++ coresOf (imExtra img)).getD lq 0

/-- The four range words of an ALLOC section. -/
def Sect.words (x : Sect) (img : List Byte) : List Nat := (chunks 4 (x.bytes img)).map leNat
/-- A range word in the form of QALLOC: its range lies in a quarry and its reserved bits are 0. -/
def rangeWordOk (w : Nat) : Bool :=
  bitAt w 30 == false && fld w 15 14 == 0 && (!bitAt w 31 || (decide (fld w 13 0 < fld w 29 16) && decide (fld w 29 16 ≤ 12288)))
/-- The ranges of a quarry's ALLOC section, in bytes. -/
def imAlloc (img : List Byte) (lq : Nat) : List (Nat × Nat) :=
  ((sects img).filter (fun x => x.typ == 4 && x.lq == lq)).flatMap (fun x =>
    ((x.words img).filter (fun w => bitAt w 31)).map (fun w => (fld w 13 0 * 65536, fld w 29 16 * 65536)))

/-- A section checked by its type (R379, R383): in the image, its target where Table 13.3 has it. -/
def sectOk (img : List Byte) (x : Sect) : Bool :=
  let nq := imNcores img + (coresOf (imExtra img)).length
  let inAlloc (lo hi : Nat) : Bool := decide (hi ≤ quarrySize) && covers (imAlloc img x.lq) hi 8 lo
  x.reserved == 0 && decide (x.off + x.len ≤ img.length) &&
  match x.typ with
  | 1 => decide (x.lq < imNcores img) && x.target % 32768 == 0 && inAlloc x.target (x.target + x.len)
  | 2 => decide (x.lq < nq) && inAlloc x.target (x.target + x.len)
  | 3 => x.lq == 0xFFFF && x.len == 8192 && x.target == 0
  | 4 => decide (x.lq < nq) && x.len == 16 && x.target == 0 && (x.words img).all rangeWordOk
  | 5 =>
    let w (k : Nat) : Nat := byteFld (x.bytes img) (4 * k) 4
    let lo := fld (w 2) 29 12 * 4096
    let hi := fld (w 3) 29 12 * 4096
    decide (x.lq < nq) && x.len == 32 && decide (x.target < 64) && fld (w 0) 31 30 == 1 &&
      (List.range 4).all (fun k => w k &&& (winReserved k) &&& (if k = 0 then 0x3FFFFFFF else all32) == 0) &&
      decide (lo < hi) && inAlloc lo hi
  | 6 => decide (x.lq < imNcores img) && x.len == 512 && x.target == 0
  | 7 => x.lq == 0xFFFF && x.len == 3136 && x.target == 0
  | _ => false

/-- A lintel-table entry checked (R163). -/
def lintOk (n : Nat) (e : List Byte) : Bool :=
  byteFld e 0 16 / 2 ^ n == 0 && fld (byteFld e 0x10 4) 30 24 == 0 && fld (byteFld e 0x10 4) 15 8 == 0 && byteFld e 0x14 12 == 0

/-- The check of step 2 of R383. -/
def imageOk (img : List Byte) : Bool :=
  let n := imNcores img
  let xs := sects img
  let count (t : Nat) : Nat := xs.countP (fun x => x.typ == t)
  decide (128 ≤ img.length) && byteFld img 0 4 == 0x314A414F && byteFld img 4 4 == 0x10000 && byteFld img 8 8 == img.length &&
    decide (1 ≤ n) && decide (n ≤ 128) && byteFld img 0x12 2 / 2 == 0 && decide (1 ≤ byteFld img 0x14 4) &&
    decide (byteFld img 0x14 4 ≤ 4096) && byteFld img 0x18 8 % 32 == 0 &&
    decide (byteFld img 0x18 8 + 32 * byteFld img 0x14 4 ≤ img.length) &&
    (coresOf (imPlace img)).length == n && decide ((coresOf (imExtra img)).length ≤ 8) && imPlace img &&& imExtra img == 0 &&
    byteFld img 0x46 2 == 0 && (img.drop 0x48).take 56 == zeros 56 && xs.all (sectOk img) &&
    (List.range n).all (fun c => xs.countP (fun x => x.typ == 1 && x.lq == c) == 1) &&
    xs.all (fun x => x.typ != 4 || xs.countP (fun y => y.typ == 4 && y.lq == x.lq) == 1) &&
    decide (count 3 ≤ 1) && count 7 == byteFld img 0x12 2 && (byteFld img 0x12 2 == 0 || (xs.getLast?).map Sect.typ == some 7) &&
    (xs.filter (fun x => x.typ == 3)).all (fun x => (chunks 32 (x.bytes img)).all (lintOk n))

/-- Step 3 of R383: the SIGNATURE verifies (R476); without one, REQUIRE_SIGNED refuses (Table 16.18). -/
def State.signOk (s : State) (img : List Byte) : Bool :=
  match (sects img).find? (fun x => x.typ == 7) with
  | none => !bitAt (s.preg .security 0x104) 0
  | some x =>
    let bs := x.bytes img
    let key := bs.take 1793
    s.jobKeyDigest != zeros 32 && digest key == s.jobKeyDigest && (bs.drop 1793).take 63 == zeros 63 &&
      Config.falconVerify key (img.take x.off) (bs.drop 1856)

/-! ### Placement (R384, R385) -/

/-- Granule ranges of the other slots in a quarry: allocations and shutters. -/
def State.otherRanges (s : State) (q j : Nat) : List (Nat × Nat) :=
  ((List.range 4).filter (· != j)).flatMap (fun o =>
    ((List.range 4).map (fun k => s.preg (.quarry q) (0x200 + 0x10 * o + 4 * k)) ++ [s.preg (.quarry q) (0x240 + 4 * o)]).filterMap
      (fun r => if bitAt r 31 then some (fld r 13 0, fld r 29 16) else none))

/-- The ranges that a LOAD takes in the quarry of a logical quarry, in granules. -/
def newRanges (img : List Byte) (shut lq : Nat) : List (Nat × Nat) :=
  (imAlloc img lq).map (fun r => (r.1 / 65536, r.2 / 65536)) ++ (if lq < imNcores img then [(shut, shut + 85)] else [])

/-- Whether a quarry of a logical quarry keeps the ranges that a LOAD takes apart: its allocation from its own shutter range, and both from
what other slots hold (R248, R385). -/
def State.rangesOk (s : State) (j : Nat) (img : List Byte) (shut : Nat) (e : Nat × Nat) : Bool :=
  let apart (r o : Nat × Nat) : Bool := decide (r.2 ≤ o.1) || decide (o.2 ≤ r.1)
  let mine := imAlloc img e.2 |>.map (fun r => (r.1 / 65536, r.2 / 65536))
  (newRanges img shut e.2).all (fun r => (s.otherRanges e.1 j).all (apart r)) &&
    (decide (imNcores img ≤ e.2) || mine.all (apart (shut, shut + 85)))

/-- The reason for which placement refuses an image, or 0. -/
def State.placeReason (s : State) (j : Nat) (img : List Byte) (exclude shut : Nat) : Nat :=
  let places := coresOf (imPlace img)
  let extras := coresOf (imExtra img)
  let found := ((List.range 128).filter (fun n => s.healthy n && !bitAt exclude n)).take (imNcores img)
  let spare (q : Nat) : Bool := fused q || (s.coreLife q).retired
  let open_ (q : Nat) : Bool := (s.quarry q).life.st == .opened
  if found ≠ places ∨ extras.any (fun q => !spare q) then 2
  else if (places ++ extras).any (fun q => !open_ q) then 3
  else if 12288 < shut + 85 ∨ !(places ++ extras).zipIdx.all (s.rangesOk j img shut) then 4
  else 0

/-! ### LOAD (R383, R437) -/

/-- Marked blocks that no running job uses are retired (R437). -/
def State.retireMarked (s : State) : State :=
  let busy (b : Block) : Bool := (s.userOf b).isSome
  let one (s : State) (n : Nat) (base : Nat) (b : Block) : State :=
    if s.bit128 base n && !busy b then (s.clearBit128 base n).closeBlock b true else s
  (List.finRange 128).foldl (fun (s : State) (n : CoreId) =>
    one (one s n.val (Page.fault.base + 0x110) (.core n)) n.val (Page.fault.base + 0x130) (.quarry n)) s

/-- Whether a core's registers are held by the job that runs. -/
def State.heldByRun (s : State) (n : Nat) : Bool :=
  match s.runSlot with
  | some j => bitAt (s.job j).placed n
  | none => false

/-- QALLOC, SHUTTER and window entries of one section (R383). -/
def State.loadSect (s : State) (j : Nat) (img : List Byte) (x : Sect) : State :=
  let q := imQuarry img x.lq
  match x.typ with
  | 1 | 2 => (s.quarryWrite q (quarryBase q + x.target) (x.bytes img) 1 none 0).1
  | 4 => (x.words img).zipIdx.foldl (fun (s : State) w => s.setPreg (.quarry q) (0x200 + 0x10 * j + 4 * w.2) w.1) s
  | 5 =>
    let w (k : Nat) : Nat := byteFld (x.bytes img) (4 * k) 4
    let s : State := [1, 2, 3].foldl (fun (s : State) k => s.writeWin q x.target k (w k) none) s
    s.writeWin q x.target 0 (putFld (w 0) 29 28 j) none
  | 6 =>
    let ent (b k : Nat) : Nat := byteFld (x.bytes img) (16 * b + 4 * k) 4 &&& ([0xFFFFFFC0, all32, 0x83FF03FF].getD k 0)
    let rs := (List.range 32).flatMap (fun b => (List.range 3).map (fun k => ((Page.bench q).base + 0x400 + 16 * b + 4 * k, ent b k)))
    let s : State := if s.heldByRun q then s else rs.foldl (fun (s : State) r => s.setReg r.1 r.2) s
    s.onJob j (fun y => { y with regs := y.regs ++ rs.map (fun r => (r.1, BitVec.ofNat 32 r.2)) })
  | _ => s

/-- The lintel table loaded: the core mask mapped to physical cores (R163). -/
def State.loadLintels (s : State) (j : Nat) (img : List Byte) : State :=
  let places := coresOf (imPlace img)
  match (sects img).find? (fun x => x.typ == 3) with
  | none => s
  | some x =>
    (chunks 32 (x.bytes img)).zipIdx.foldl (fun (s : State) e =>
      let ctl := byteFld e.1 0x10 4
      if bitAt ctl 31 then
        s.onLint j e.2 (fun _ => {
          valid := true, notify := fld ctl 23 16, expect := fld ctl 7 0
          mask := ((coresOf (byteFld e.1 0 16)).map (fun c => 2 ^ (places.getD c 0))).sum })
      else s) s

/-- Steps 5 to 7 of a LOAD that its checks let pass. -/
def State.loadBody (s : State) (c : JobCmd) (j : Nat) (img : List Byte) : State :=
  let cmd := c.cmd
  let shut := fld (byteFld cmd 0x28 4) 13 0
  let places := coresOf (imPlace img)
  let xs := sects img
  let code := places.zipIdx.filterMap (fun e => (xs.find? (fun x => x.typ == 1 && x.lq == e.2)).map (fun x =>
    (e.1, (quarryBase e.1 + x.target, x.len))))
  let cq (i : Nat) : Nat := byteFld cmd (0x34 + 2 * i) 2
  let s : State := s.onJob j (fun _ => {
    st := .loading, ncores := imNcores img, key := byteFld cmd 0x2C 2, seq := byteFld cmd 4 4, placed := imPlace img
    extra := imExtra img, cqEvent := cq 0, cqStream := cq 1, cqBench := cq 2, cqRed := cq 3, cqAtt := cq 4, code := code
    shutter := shut })
  let s : State := places.foldl (fun (s : State) n => s.setPreg (.quarry n) (0x240 + 4 * j) (2 ^ 31 + (shut + 85) * 2 ^ 16 + shut)) s
  let s : State := (xs.filter (fun x => x.typ == 4)).foldl (fun (s : State) x => s.loadSect j img x) s
  let s : State := (xs.filter (fun x => x.typ != 4)).foldl (fun (s : State) x => s.loadSect j img x) s
  let s : State := s.loadLintels j img
  let s : State := s.setReg64 (Page.red.base + 0x120 + 8 * j) (byteFld img 0x40 6)
  let s : State := s.setPreg .links (0x104 + 4 * j) (2 ^ 31 + byteFld cmd 0x2C 2)
  let s : State := s.setPreg .hif (0x120 + 4 * j) (byteFld cmd 0x30 4)
  let s : State := { s with loss := tdel s.loss j }
  let s : State := (s.onJob j (fun x => { x with st := .loaded })).armAll j
  if (s.job j).st = .loaded then (s.bump .job 0x40).jobDone c (some j) 0 0 0 (imPlace img) 0
  else (s.bump .job 0x60).jobDone c (some j) 0x31 0 14 0 0

/-- LOAD (R383, R386, R437, R439): the image as its host reads return it, or none where a read fails. -/
def State.doLoad (s : State) (image : Option (List Byte)) : State :=
  match s.jobHead 1 with
  | none => s
  | some c =>
    let s : State := s.takeJob c
    if s.dsw.fatal then s.jobRefuse c 3
    else
      let j := jcSlot c.cmd
      let s : State := s.retireMarked
      let key := byteFld c.cmd 0x2C 2
      let taken := ((List.range 4).filter (· != j)).any (fun o =>
        bitAt (s.preg .links (0x104 + 4 * o)) 31 && s.keyOf o == key)
      if (s.job j).st ≠ .empty then s.jobRefuse c 5
      else if taken then s.jobRefuse c 9
      else match image with
        | none => s.jobRefuse c 8
        | some img =>
          if img.length ≠ byteFld c.cmd 0x10 8 then s.jobRefuse c 8
          else if !imageOk img then s.jobRefuse c 6
          else
            let s : State := (s.setMeas (1 + j) (zeros 32)).extend (1 + j) (digest img)
            if !s.signOk img then s.jobRefuse c 7
            else match s.placeReason j img (byteFld c.cmd 0x18 16) (fld (byteFld c.cmd 0x28 4) 13 0) with
              | 0 => s.loadBody c j img
              | r => s.jobRefuse c r

/-! ### Switches (R388 to R392) -/

/-- The bench queues of a job's cores pause (R273): the state they stood in is kept. -/
def State.pauseBench (s : State) (n : Nat) : State :=
  s.onQuarry n (fun q => { q with bq := q.bq.map (fun e =>
    (e.1, if e.2.st = 1 ∨ e.2.st = 2 then { e.2 with was := e.2.st, st := 3 } else e.2)) })

/-- A switch begins: the outgoing job stops. -/
def State.switchOut (s : State) (o : Nat) (incoming : Option Nat) (c : JobCmd) : State :=
  let s : State := { s with sw := { phase := .drain, outgoing := some o, incoming := incoming, cmd := some c, start := s.time } }
  let s : State := s.onJob o (fun x => { x with st := .parking })
  (coresOf (s.job o).placed).foldl (fun (s : State) n => (s.onCore n (fun c => { c with finishing := true })).pauseBench n) (s.redClock o)

/-- The incoming job's restore begins. -/
def State.switchIn (s : State) (i : Nat) : State :=
  ({ s with sw := { s.sw with phase := .restore, outgoing := none }, runSlot := some i }).onJob i (fun x => { x with st := .resuming })

/-- Whether every core and quarry of a job stands OPEN (R391). -/
def State.jobOpen (s : State) (j : Nat) : Bool :=
  (coresOf (s.job j).placed).all (fun n => (s.coreLife n).st == .opened && (s.quarry n).life.st == .opened) &&
    (coresOf (s.job j).extra).all (fun n => (s.quarry n).life.st == .opened)

/-- RUN (R388, R391, R439). -/
def State.doRun (s : State) : State :=
  match s.jobHead 2 with
  | none => s
  | some c =>
    let s : State := s.takeJob c
    let j := jcSlot c.cmd
    if s.dsw.fatal then s.jobRefuse c 3
    else if s.runSlot = some j then s.jobDone c (some j) 0 0 0 0 0
    else if (s.job j).st ≠ .loaded ∧ (s.job j).st ≠ .parked then s.jobRefuse c 5
    else if !s.jobOpen j then s.jobRefuse c 3
    else match s.runSlot with
      | some o => s.switchOut o (some j) c
      | none => ({ s with sw := { phase := .restore, incoming := some j, cmd := some c, start := s.time } }).switchIn j

/-- PARK (R388). -/
def State.doPark (s : State) : State :=
  match s.jobHead 3 with
  | none => s
  | some c =>
    let s : State := s.takeJob c
    match s.runSlot with
    | some o => s.switchOut o none c
    | none => s.jobRefuse c 5

/-- Whether the stop and the drain are over, requests in flight aside: no sub-bundle is half issued (R388). -/
def State.stopped (s : State) : Bool :=
  match s.sw.outgoing with
  | some o => (coresOf (s.job o).placed).all (fun n => decide ((s.core n).cur = {}))
  | none => true

/-- Requests in flight of the outgoing job. -/
def State.outFlight (s : State) : List Req :=
  match s.sw.outgoing with
  | some o => s.flight.filter (fun r => (s.core r.core).job == some o)
  | none => []

/-- A core whose issued operations have completed: nothing that they do is still to come (R104, R120, R388). -/
def Core.completed (c : Core) : Core :=
  let now (t : Nat) : Nat := min t c.cclk
  let tile (t : Tile) : Tile := { t with completeAt := t.completeAt.map now, wet := [], at_ := now t.at_ }
  let stage (x : Stage) : Stage := { x with reads := [], fillAt := now x.fillAt, freeAt := now x.freeAt }
  { c with
    slots := c.due.foldl (fun t d => tset t d.entry (putFld (tget 0 t d.entry) 63 63 (if d.full then 1 else 0))) c.slots
    due := [], wet := [], slotAt := [], remoteAt := now c.remoteAt
    vec := { c.vec with ready := [], mready := [], sfuFree := now c.vec.sfuFree }
    arr := { c.arr with
      active := c.arr.active.map tile, shadow := c.arr.shadow.map tile, shadowFreeAt := now c.arr.shadowFreeAt
      s0 := stage c.arr.s0, s1 := stage c.arr.s1, nextAt := now c.arr.nextAt
      acc := c.arr.acc.map (fun (e : Nat × AccRow) => (e.1, { e.2 with readyAt := now e.2.readyAt }))
      chkQ := c.arr.chkQ.map (fun (e : ChkEnt) => { e with at_ := min e.at_ (c.cclk - 1) }) } }

/-- Issued operations of a core complete, and the checker sets the results that are still to come (R104, R120, R388). -/
def State.finishOps (s : State) (n : Nat) : State :=
  let s : State := (s.catchUp n).onCore n Core.completed
  s.checkRun n (s.core n).arr.chkQ.length

/-- The stop is over: issued operations of the outgoing job complete; a mismatch among them may tear it down (R388, R392). -/
def State.finished (s : State) : State :=
  match s.sw.outgoing with
  | some o => (coresOf (s.job o).placed).foldl State.finishOps s
  | none => s

/-- The drain is over (R388). -/
def State.toSave (s : State) : State := if s.sw.phase = .drain then { s with sw := { s.sw with phase := .save } } else s

/-- PREEMPT_DRAIN_DONE (R388). -/
def State.drained (s : State) : State :=
  if s.sw.phase = .drain ∧ s.stopped ∧ s.outFlight = [] then s.finished.toSave else s

/-- DRAIN_LIMIT in ticks of TIME; values below 10 µs act as 10 and above 1,000 as 1,000 (Table 13.12). -/
def State.drainTicks (s : State) : Nat := 100 * max 10 (min 1000 (s.preg .job 0x100))

/-- DRAIN_LIMIT_EXPIRY (R389): DRAIN_LIMIT has passed since the switch began, and the requests still in flight are abandoned. -/
def State.drainLimit (s : State) : State :=
  if s.sw.phase = .drain ∧ s.stopped ∧ s.sw.start + s.drainTicks ≤ s.time then
    let s : State := s.finished
    let ns := ((s.outFlight).map Req.core).eraseDups
    (ns.foldl State.abandon s).toSave
  else s

/-- First address of a job's shutter region in the quarry of core n (R390). -/
def State.shutterAt (s : State) (j n : Nat) : Nat := quarryBase n + 65536 * (s.job j).shutter

/-- Units of a shutter region. -/
def shutterUnits : Nat := 85 * 1024

/-- The sill of core n saved (R199): read with correction, its uncorrectable codewords marked in the poison map. -/
def State.saveSill (s : State) (j n : Nat) : State :=
  let a := sillBase n
  let d := s.shutterAt j n
  let bad := s.badCws a 0x400000
  let s : State := bad.foldl (fun (s : State) e => s.sillEvent n 3 (some j) 0 e) s
  let s : State := { s with mem := memCopy s.mem a d 0x400000 }
  let s : State := s.zeroRange (d + 0x540000) 0x10000
  let s : State := { s with ecc := s.ecc.filter (fun e => !(decide (d ≤ 32 * e.1) && decide (32 * e.1 < d + 0x550000))) }
  let mark (m : List Host.Cell) (e : Nat × Cw) : List Host.Cell :=
    let k := e.1 - a / 32
    let at_ := d + 0x540000 + k / 8
    memSet m at_ (memGet m at_ ||| BitVec.ofNat 8 (2 ^ (k % 8)))
  ({ s with mem := (bad.filter (fun (e : Nat × Cw) => e.2.grade == 2)).foldl mark s.mem }).bump (.quarry n) 0x48 shutterUnits

/-- The sill of core n restored (R199): poisoned codewords are poisoned again, and so is what the region cannot deliver
(Table 8.3). -/
def State.restoreSill (s : State) (j n : Nat) : State :=
  let a := sillBase n
  let d := s.shutterAt j n
  let bad := (s.unitEvents d 0x400000).filter (fun e => e.2.grade == 2)
  let s : State := (s.unitEvents d 0x550000).foldl (fun (s : State) e => s.quarryEvent n 5 (some j) 0 e) (s.bump (.quarry n) 0x40 shutterUnits)
  let s : State := s.zeroRange a 0x400000
  let s : State := { s with mem := memCopy s.mem d a 0x400000 }
  let s : State := bad.foldl (fun (s : State) e => s.poison (a + (64 * (e.1 / 2) - d)) 64) s
  let map := (s.mem.filter (fun x => decide (d + 0x540000 ≤ x.1) && decide (x.1 < d + 0x544000))).flatMap (fun x =>
    ((List.range 8).filter (bitAt x.2.toNat)).map (fun b => a + 32 * (8 * (x.1 - (d + 0x540000)) + b)))
  map.foldl (fun (s : State) k => s.poison k 32) s

/-- The areas of a shutter region beside the sill and its poison map take the rest of the core's state. The manual gives them no layout: their
bytes are free, and what they hold is kept beside them (R390, log 87). -/
def State.saveAreas (s : State) (j n : Nat) : State := s.putFree (s.shutterAt j n + 0x400000) 0x140000

/-- Registers that a job's cores carry with them: bench queues (R254), array and vector status (R104, R120). -/
def ownRegs (n : Nat) : List Nat :=
  ((List.range 32).flatMap (fun b => (List.range 3).map (fun k => (Page.bench n).base + 0x400 + 16 * b + 4 * k))) ++
    [0x104, 0x108, 0x10C, 0x110, 0x114, 0x118].map (fun o => (Page.array n).base + o) ++ [(Page.vector n).base + 0x104]

/-- A queue as it is saved (R232): its position; one that stops has nothing in flight any more. -/
def SQ.saved (q : SQ) : SQ :=
  if q.stopping && !q.halting then {}
  else if q.halt = 0 then { q with haltPos := (q.run.head?.map Strm.position).getD 0 } else q

/-- A core of the outgoing job saved (R390, R104, R120, R180, R232, R273). -/
def State.saveCore (s : State) (j n : Nat) : State :=
  let s : State := (s.saveSill j n).saveAreas j n
  let c := s.core n
  let regs := (ownRegs n).map (fun o => (o, BitVec.ofNat 32 (s.reg o)))
  let q := s.quarry n
  let s : State := s.onJob j (fun x => { x with
    saved := tset x.saved n { c with finishing := false, cur := {}, sq := c.sq.map (fun (e : Nat × SQ) => (e.1, e.2.saved)) }
    savedBq := tset x.savedBq n q.bq
    savedLocks := tset x.savedLocks n (q.locks.filter (fun l => l.queue.isSome))
    regs := x.regs.filter (fun r => !(regs.any (fun o => o.1 == r.1))) ++ regs })
  let s : State := s.onQuarry n (fun q => { q with bq := [], locks := q.locks.filter (fun l => l.queue.isNone) })
  s.onCore n (fun c => { c with running := false, job := none, sq := [], lintWait := none, cur := {}, finishing := false })

/-- A switch completes (R388): its record and its duration. -/
def State.switchEnd (s : State) (slot : Option Nat) : State :=
  let dur := s.usSince s.sw.start
  let cmd := s.sw.cmd
  let s : State := (({ s with sw := {} }).setPreg .job 0x108 dur).bump .job 0x48
  match cmd with
  | some c => s.jobDone c slot 0 0 0 0 dur
  | none => s

/-- SWITCH_SAVE_DONE (R390): the outgoing job stands PARKED; one that ended meanwhile is not saved (R392). -/
def State.saveDone (s : State) : State :=
  if s.sw.phase ≠ .save then s
  else
    let o := s.sw.outgoing
    let s : State := match o with
      | some o =>
        if (s.job o).st = .parking then
          let s : State := (coresOf (s.job o).placed).foldl (fun (s : State) n => s.saveCore o n) s
          { (s.onJob o (fun x => { x with st := .parked })) with runSlot := none, lastSlot := o }
        else s
      | none => s
    match s.sw.incoming with
    | some i => s.switchIn i
    | none => s.switchEnd o

/-- A core whose ended job gives way (R387). -/
def State.releaseCore (s : State) (n : Nat) : State :=
  (s.stopCore n).onQuarry n (fun q => { q with bq := [], locks := q.locks.filter (fun l => l.queue.isNone) })

/-- Cores that ended jobs still hold give way to a job that starts. -/
def State.clearEnded (s : State) (i : Nat) : State :=
  ((List.range 128).filter (fun n => (s.core n).job.isSome && (s.core n).job != some i)).foldl State.releaseCore s

/-- The first run of a job on a core (R387): sill zeroed, issue state clear, tag epochs inverted. -/
def State.startCore (s : State) (j n : Nat) : State :=
  let c := s.core n
  let (base, len) := tget (0, 0) (s.job j).code n
  (s.zeroSill n).setCore n (Core.refill { (Core.fresh n) with
    life := c.life, repairQ := c.repairQ, scrubPos := c.scrubPos, latch := c.latch, louvreAcc := c.louvreAcc, droop := c.droop, alertAt := c.alertAt
    resv := c.resv, busy := c.busy, turn := c.turn, alarm := c.alarm
    cclk := c.cclk, swdAt := c.cclk, serial := c.serial, epoch := !c.epoch, job := some j, running := true, code := base, codeLen := len
    h0 := some { block := 0, filled := false } })

/-- Array and vector registers that count from job load, or show none since it (R102, R121). -/
def State.newJobRegs (s : State) (n : Nat) : State :=
  ((s.setPreg (.array n) 0x108 0).setPreg (.array n) 0x118 0).setPreg (.vector n) 0x104 0

/-- A saved core put back (R104, R180): physical state stays the core's own; waits re-arm; the probe row of the active tile runs before the
first ARR.MUL; the blocks of the PC and of the outermost active loop are fetched. -/
def restoredCore (c old : Core) : Core :=
  let pcBlock := old.pc / 1024
  let loop := (old.loops.map (fun l => l.first / 1024)).find? (· != pcBlock)
  let now := max c.cclk old.cclk
  let arr := match old.arr.active with
    | some t => { old.arr with chkQ := [probeEntry t old.arr.tileSeq now], nextAt := now + (if t.desc.fmt == .bf16 then 4 else 1) }
    | none => old.arr
  Core.refill { old with
    life := c.life, repairQ := c.repairQ, scrubPos := c.scrubPos, latch := c.latch, louvreAcc := c.louvreAcc, droop := c.droop, alertAt := c.alertAt
    resv := c.resv, busy := c.busy, turn := c.turn, alarm := c.alarm, waits := []
    cclk := now, epoch := !c.epoch, slotHold := 0, lintHold := 0, swdLast := [], swdAt := now, arr := arr, refetch := true
    h0 := some { block := pcBlock, filled := false }, h1 := loop.map (fun b => { block := b, filled := false }) }

/-- A saved queue restarts (R232): an active stream at its position; a kept success resumes a halted one (R227). -/
def State.restartQueue (s : State) (n q : Nat) : State :=
  let x := s.sq n q
  let rows (d : Strm) : Nat := sRows (s.slot n d.head)
  if x.halt = 0 then
    s.onSq n q (fun x => match x.run with
      | [] => x
      | d :: rest => { x with run := d.restart x.haltPos (rows d) :: rest.map (fun d => d.restart d.position (rows d)) })
  else if x.prg == .success then s.resumeQueue n q
  else s

/-- A core of the incoming job restored (R390). -/
def State.restoreCore (s : State) (j n : Nat) : State :=
  let s : State := s.restoreSill j n
  let old := tget {} (s.job j).saved n
  let s : State := s.setCore n (restoredCore (s.core n) old)
  let s : State := old.sq.foldl (fun (s : State) e => s.restartQueue n e.1) s
  let bqs := (tget [] (s.job j).savedBq n).map (fun e => (e.1, if e.2.st = 3 then { e.2 with st := e.2.was, was := 0 } else e.2))
  s.onQuarry n (fun q => { q with bq := bqs, locks := tget [] (s.job j).savedLocks n ++ q.locks })

/-- Registers that the job carries put back. -/
def State.putRegs (s : State) (j : Nat) : State := { s with regs := (s.job j).regs.foldl (fun t r => tset t r.1 r.2) s.regs }

/-- SWITCH_RESTORE_DONE (R387, R388, R390). With FATAL set no job runs (R439), nor one with a block that is not OPEN (R391). -/
def State.restoreDone (s : State) : State :=
  match s.sw.phase, s.sw.incoming with
  | .restore, some i =>
    let parked := (s.job i).saved != []
    if s.dsw.fatal || !s.jobOpen i then
      let cmd := s.sw.cmd
      let s : State := ({ s with sw := {}, runSlot := none }).onJob i (fun x => { x with st := if parked then .parked else .loaded })
      (match cmd with
       | some c => s.jobRefuse c 3
       | none => s)
    else
      let s : State := (s.clearEnded i).putRegs i
      let s : State := (coresOf (s.job i).placed).foldl (fun (s : State) n => if parked then s.restoreCore i n else (s.startCore i n).newJobRegs n) s
      let s : State := s.onJob i (fun x => { x with st := .running, saved := [], savedBq := [], savedLocks := [] })
      (s.redResume i).switchEnd (some i)
  | _, _ => s

/-! ### TEARDOWN and UNLOAD (R394 to R396) -/

/-- TEARDOWN (R394, R395). -/
def State.doTeardown (s : State) : State :=
  match s.jobHead 4 with
  | none => s
  | some c =>
    let s : State := s.takeJob c
    let j := jcSlot c.cmd
    if (s.job j).st.tearable then (s.tearCore j 0).jobDone c (some j) 0x31 0 0 0 0 else s.jobRefuse c 5

/-- What UNLOAD clears (R396, R475). -/
def State.unloadBody (s : State) (j : Nat) : State :=
  let cores := (List.range 128).filter (fun n => (s.core n).job == some j)
  let s : State := cores.foldl State.releaseCore s
  let s : State := ((s.closeWindows j).attTeardown j).dropLintels j
  let s : State := (List.range 128).foldl (fun (s : State) q =>
    [0x200 + 0x10 * j, 0x204 + 0x10 * j, 0x208 + 0x10 * j, 0x20C + 0x10 * j, 0x240 + 4 * j].foldl
      (fun (s : State) o => if s.preg (.quarry q) o = 0 then s else s.setPreg (.quarry q) o 0) s) s
  let s : State := s.setReg64 (Page.red.base + 0x120 + 8 * j) 0
  let s : State := (s.setPreg .links (0x104 + 4 * j) 0).setPreg .hif (0x120 + 4 * j) 0
  let s : State := { s with red := { s.red with
    tags := s.red.tags.filter (fun e => e.1 / 4096 != j), xfers := s.red.xfers.filter (fun x => x.job != j) } }
  (s.setMeas (1 + j) (zeros 32)).onJob j (fun _ => {})

/-- UNLOAD (R396). -/
def State.doUnload (s : State) : State :=
  match s.jobHead 5 with
  | none => s
  | some c =>
    let s : State := s.takeJob c
    let j := jcSlot c.cmd
    if (s.job j).st = .ended ∨ (s.job j).st = .tornDown then (s.unloadBody j).jobDone c (some j) 0 0 0 0 0 else s.jobRefuse c 5

/-! ### Meanings -/

/-- LOAD (R383). -/
def execLoad (image : Option (List Byte)) (s : State) : Host.Outcome State Fault Refusal := act s (fun s => s.doLoad image)
/-- RUN (R388). -/
def execRun (s : State) : Host.Outcome State Fault Refusal := act s State.doRun
/-- PARK (R388). -/
def execPark (s : State) : Host.Outcome State Fault Refusal := act s State.doPark
/-- TEARDOWN (R394). -/
def execTeardown (s : State) : Host.Outcome State Fault Refusal := act s State.doTeardown
/-- UNLOAD (R396). -/
def execUnload (s : State) : Host.Outcome State Fault Refusal := act s State.doUnload
/-- PREEMPT_DRAIN_DONE (R388). -/
def execPreemptDrainDone (s : State) : Host.Outcome State Fault Refusal := act s State.drained
/-- DRAIN_LIMIT_EXPIRY (R389). -/
def execDrainLimitExpiry (s : State) : Host.Outcome State Fault Refusal := act s State.drainLimit
/-- SWITCH_SAVE_DONE (R390). -/
def execSwitchSaveDone (s : State) : Host.Outcome State Fault Refusal := act s State.saveDone
/-- SWITCH_RESTORE_DONE (R388). -/
def execSwitchRestoreDone (s : State) : Host.Outcome State Fault Refusal := act s State.restoreDone

end Sys2Proof.Machine
end

