-- ==== Sys2Proof/Machine/HostIf.lean ====
section
/-! DEFINITION. The host interface (chapter 12): BAR0 and BAR2 accesses, counter reads, host queues and their doorbells,
submission entries, acknowledgements, interrupts, the link and its configuration. -/

namespace Sys2Proof.Machine

/-! ### BAR0 (R12, R450, R174) -/

/-- The UNIT of an access fault: the page addressed, or the host interface page (R12, R450). -/
def accessUnit (off : Nat) : Nat :=
  match pageOf off with
  | some p => p.id
  | none => hifUnit

/-- An access of a size that R12 does not allow, or where no page stands: no effect; a read returns all ones; class 13. -/
def State.bar0Invalid (s : State) (off size : Nat) (write : Bool) : State :=
  let s : State := if write then s else s.send (.readData (List.replicate size 0xFF))
  s.hostFault 0 (accessUnit off) 1 0xFFFF off

/-- Whether R12, R362 and R450 let an access of a size act: aligned, 32 or 64 bits, at a page; at a doorbell a read, or a 64-bit write. -/
def bar0Valid (off size : Nat) (write : Bool) : Bool :=
  (size == 4 || size == 8) && off % size == 0 && (if isBell off then !write || size == 8 else (pageOf off).isSome)

/-- BAR0_INVALID_ACCESS: an access that R12 lets act is not one. -/
def State.bar0Access (s : State) (off size : Nat) (write : Bool) : State := if bar0Valid off size write then s else s.bar0Invalid off size write

/-- A read's answer of n bytes. -/
def State.answer (s : State) (n v : Nat) : State := s.send (.readData (natLe n v))

/-- The counter whose low word an offset holds. -/
def ctrAt (off : Nat) : Option (Page × Nat) :=
  match pageOf off with
  | some p => if isCtr p (off % 0x1000) then some (p, off % 0x1000) else none
  | none => none

/-- A read at the lower offset of a register pair. Of a counter, 32 bits latch its high word, and 64 bits return it whole, neither using the
latch nor disturbing it (R174); of other registers their values. -/
def State.ctrLow (s : State) (off : Nat) (wide : Bool) : State :=
  let n := if wide then 8 else 4
  if !bar0Valid off n false then s.bar0Invalid off n false
  else match ctrAt off, wide with
  | some (p, o), false => ({ s with latch := tset s.latch off (s.counter p o / 2 ^ 32) }).answer 4 (s.counter p o)
  | some (p, o), true => s.answer 8 (s.counter p o)
  | none, false => s.answer 4 (s.readReg off)
  | none, true => s.answer 8 (s.readReg off + 2 ^ 32 * s.readReg (off + 4))

/-- A 32-bit read at the upper offset of a pair. Of a counter: the latched value, the latch released (R174). -/
def State.ctrHigh (s : State) (off : Nat) : State :=
  let lo := off - 4
  if !bar0Valid off 4 false then s.bar0Invalid off 4 false
  else match ctrAt lo with
  | some (p, o) =>
    (match tfind s.latch lo with
     | some v => ({ s with latch := tdel s.latch lo }).answer 4 v
     | none => s.answer 4 (s.counter p o / 2 ^ 32))
  | none => s.answer 4 (s.readReg off)

/-! ### BAR2 (R356 to R358) -/

/-- The device address of a BAR2 offset (R356). -/
def State.bar2Addr (s : State) (off : Nat) : Nat :=
  let size := 2 ^ (30 + s.hif.bar2Log)
  s.reg64 (Page.hif.base + 0x108) % 2 ^ 48 / size * size + off

/-- A BAR2 access that is not admitted (R357). -/
def State.bar2Denied (s : State) (a : Nat) : State :=
  (s.bump .hif 0x60).setReg64 (Page.hif.base + 0x110) (a % 2 ^ 48)

/-- BAR2_READ (R357, R358). -/
def State.bar2Read (s : State) (off len : Nat) : State :=
  let a := s.bar2Addr off
  match s.winEnter .host .read a len with
  | (s, 0, _) =>
    let (s, bs, st) := s.quarryRead (a / quarrySize) a len 1 none 0
    if st = 0x40 then s.send (.readPoisoned bs) else s.send (.readData bs)
  | (s, _, _) => (s.bar2Denied a).send (.readData (List.replicate len 0xFF))

/-- BAR2_WRITE (R357, R358). A poisoned TLP's bytes are stored and every unit they touch is poisoned. -/
def State.bar2Write (s : State) (off : Nat) (bs : List Byte) (poisoned : Bool) : State :=
  let a := s.bar2Addr off
  let s : State := if poisoned then s.bump .hif 0x80 else s
  match s.winEnter .host .write a bs.length with
  | (s, 0, _) =>
    let n := a / quarrySize
    if poisoned then
      let lo := a / 64 * 64
      let s : State := (s.settle n a bs.length).openRows n a bs.length
      let s : State := ((s.put a bs).poison lo (roundUp (a + bs.length) 64 - lo)).bump (.quarry n) 0x48 (units a bs.length)
      s.hostFault 0 hifUnit 6 0xFFFF off
    else (s.quarryWrite n a bs 1 none 0).1
  | (s, _, _) => s.bar2Denied a

/-! ### Host queues (R360 to R363) -/

/-- The host-queue page of a host queue. -/
def hqPage (h : Nat) : Page := .hq (h / 64)
/-- BAR0 offset of a host queue's entry. -/
def hqOff (h : Nat) : Nat := (hqPage h).base + 0x800 + 0x20 * (h % 64)

/-- Reserved bits of the words of a host-queue entry (Table 12.4). -/
def hqReserved (k : Nat) : Nat := [0xE0000, 0xFFE0, 0, 0, 0, 0, 0, all32].getD k 0

/-- The check of R361 on an entry as its words were last written, reserved bits included (log 13). -/
def State.hqOk (s : State) (h : Nat) : Bool :=
  let w := s.hqWord h 0
  let log := fld (s.hqWord h 1) 4 0
  let kind := fld w 29 27
  let cq := fld w 9 0
  (List.range 8).all (fun k => s.hqWord h k &&& hqReserved k == 0) && decide (4 ≤ log) && decide (log ≤ 16) && s.hqBase h % max 4096 (64 * 2 ^ log) == 0 &&
    (if bitAt w 30 then kind == 0
     else decide (1 ≤ kind) && decide (kind ≤ 3) && bitAt (s.hqWord cq 0) 31 && bitAt (s.hqWord cq 0) 30)

/-- ENABLE = 1 written to a queue that is not in use (R361): checked, then running, else disabled with ERROR 0x04. -/
def State.hqEnable (s : State) (h v : Nat) : State :=
  let s : State := s.setReg (hqOff h) v
  if s.hqOk h then s.onHq h (fun _ => { st := 1 })
  else ((s.setReg (hqOff h) (v % 2 ^ 31)).onHq h (fun _ => { err := 4 })).hostFault 0 (hqPage h).unit 2 h (hqOff h)

/-- ENABLE = 0 written to a queue in use (R361). -/
def State.hqDisable (s : State) (h : Nat) : State :=
  let w := s.hqWord h 0
  let s : State := s.setReg (hqOff h) (w % 2 ^ 31)
  if bitAt w 30 then (s.dropHeld h).onHq h (fun _ => {})
  else if 0 < (s.hq h).fetched then s.onHq h (fun q => { q with st := 3 })
  else s.onHq h (fun _ => {})

/-- A write of word 0 of a host-queue entry (R361): fields of a queue in use keep their values, and a write that would
change them is counted. -/
def State.hqWord0 (s : State) (h v : Nat) : State :=
  let s : State := if v &&& hqReserved 0 = 0 then s else s.bump (hqPage h) 0xF8
  if (s.hq h).st = 0 then
    (if bitAt v 31 then s.hqEnable h v else s.setReg (hqOff h) v)
  else
    let s : State := if (v &&& (all32 - hqReserved 0)) % 2 ^ 31 = s.hqWord h 0 % 2 ^ 31 then s else s.bump .hif 0x78
    (if bitAt v 31 || (s.hq h).st == 3 then s else s.hqDisable h)

/-- SQ_STOP_COMPLETE (R361). -/
def State.hqStopped (s : State) (h : Nat) : State :=
  if (s.hq h).st = 3 ∧ (s.hq h).fetched = 0 then s.onHq h (fun _ => {}) else s

/-- A host-queue doorbell (R362): a new tail or head within the ring, or the queue in error. -/
def State.hostBell (s : State) (h : Nat) (v : Nat) : State :=
  let s : State := if v / 2 ^ 16 = 0 then s else s.bump (hqPage h) 0xF8
  let q := s.hq h
  let i := v % 2 ^ 16
  let n := s.hqSize h
  let ahead (x : Nat) : Nat := (x + n - q.head) % n
  if q.st ≠ 1 then s.bump .hif 0x70
  else if bitAt (s.hqWord h 0) 30 then
    (if i < n ∧ ahead i ≤ ahead q.tail then (s.onHq h (fun q => { q with head := i })).flushHeld h 256
     else (s.hqError h 1).hostFault 0 (hqPage h).unit 3 h (0x538000 + 8 * h))
  else if i < n ∧ ahead q.tail ≤ ahead i then s.onHq h (fun q => { q with tail := i })
  else (s.hqError h 1).hostFault 0 (hqPage h).unit 3 h (0x538000 + 8 * h)

/-- A 64-bit write of the doorbell of queue number n (R230, R362, R450). -/
def State.doorbell (s : State) (n v : Nat) : State :=
  if 28672 ≤ n ∧ n < 29696 then s.hostBell (n - 28672) v
  else if n < 28672 ∧ n % 224 < 160 then
    let c := n / 224
    let q := n % 224
    let rsvd := decide (0 < v / 256)
    (match v % 256 with
     | 1 => s.bellResume c q rsvd
     | 2 => s.bellStop c q rsvd
     | _ => (s.strmRsvd c rsvd).bump (.core c) 0x458)
  else s.bump .hif 0x70

/-! ### Submission entries (Table 12.5) -/

/-- A host bench command: OP FILL, EXPORT or IMPORT; REPLY, GATE_EN, TAG_DONE, TRIG and MASK_EN 0. -/
def hostBenchOk (e : List Byte) : Bool :=
  let c := byteFld e 0 4
  (fld c 31 24 == 3 || fld c 31 24 == 0xC || fld c 31 24 == 0xD) && !bitAt c 19 && fld c 17 14 == 0

/-- A host attention command: ADMIT or RELEASE, its reserved bytes 0. -/
def hostAttOk (e : List Byte) : Bool :=
  (byteFld e 0 1 == 1 || byteFld e 0 1 == 2) && byteFld e 3 1 == 0 && (e.drop 16).take 48 == zeros 48

/-- SOURCE of the records of a KIND (Table 12.6). -/
def kindSource : Nat → Nat
  | 1 => 2
  | 2 => 4
  | _ => 5

/-- The detail of the record of an entry that breaks the rules of its KIND. -/
def State.badDetail (s : State) (h kind : Nat) (e : List Byte) : List Byte :=
  match kind with
  | 1 => benchDetail 0xFFFF (fld (s.hqWord h 0) 16 10) (byteFld e 3 1) (byteFld e 4 4) 0 0 ones64
  | 2 => seqDetail (byteFld e 4 4) 0 0 0 1 0 0 (byteFld e 0xC 4)
  | _ => jobDetail (byteFld e 0 1) (byteFld e 1 1) 0 0 (byteFld e 4 4) 0 0

/-- A submission entry starts (R363). -/
def State.startEntry (s : State) (h : Nat) (e : List Byte) : State :=
  let kind := fld (s.hqWord h 0) 29 27
  let at_ := s.hqBase h + 64 * (s.hq h).head
  let s : State := s.onHq h (fun q => { q with head := (q.head + 1) % s.hqSize h, fetched := q.fetched + 1 })
  let bad := (s.postSq h 0x7F (kindSource kind) none (s.badDetail h kind e)).hostFault 0x7F (hqPage h).unit 4 h at_
  match kind with
  | 1 => if hostBenchOk e then s.onQuarry (fld (s.hqWord h 0) 16 10) (fun q => { q with host := q.host ++ [{ sq := h, cmd := e }] }) else bad
  | 2 => if hostAttOk e then { s with att := { s.att with cmds := s.att.cmds ++ [⟨h, e.take 16⟩] } } else bad
  | _ => if jobCmdOk e then { s with jobCmds := s.jobCmds ++ [⟨h, e⟩] } else bad.bump .job 0x60

/-- SQ_ENTRY_FETCH (R363): a running SQ's next entry, or none where its fetch failed. -/
def State.sqFetch (s : State) (h : Nat) (entry : Option (List Byte)) : State :=
  let q := s.hq h
  if q.st ≠ 1 ∨ bitAt (s.hqWord h 0) 30 ∨ q.head = q.tail then s
  else match entry with
    | some e => s.startEntry h e
    | none => (s.hqError h 3).hostFault 0 (hqPage h).unit 1 h (s.hqBase h + 64 * q.head)

/-! ### Acknowledgements and interrupts (R369, R371) -/

/-- The oldest fault record acknowledged (R369, R430), a latch that holds its event released (R201). -/
def State.ackFault (s : State) : State :=
  if s.flt.unack = 0 then s
  else
    let r := tget [] s.flt.ring s.flt.oldest
    let s : State := if byteFld r 0 1 = 1 then s.releaseLatch (byteFld r 0x10 4) (byteFld r 4 4) else s
    { s with flt := { s.flt with oldest := (s.flt.oldest + 1) % 32, unack := s.flt.unack - 1 } }

/-- Event flags cleared (R369). -/
def State.ackEvents (s : State) (v : Nat) : State :=
  { s with dsw := { s.dsw with events := s.dsw.events &&& (0xFFFF - (v &&& eventMask)) } }

/-- A write of DSW_ACK (R369). -/
def State.dswAck (s : State) (v : Nat) : State :=
  let s : State := s.ackEvents v
  if bitAt v 13 then s.ackFault else s

/-- INT_HOLDOFF_EXPIRY (R371): a message at the end of the hold-off covers the records written within it. -/
def State.holdoffEnd (s : State) (h : Nat) : State := if (s.hq h).due && s.holdoffOver h then s.cqMessage h else s

/-- Bit 0 of an MSI-X vector's control word written: unmasking sends a pending message (R371). -/
def State.msixMask (s : State) (v : Nat) (masked : Bool) : State :=
  let s : State := s.setPreg .interrupt (0x800 + 16 * v + 12) (if masked then 1 else 0)
  if !masked && bitAt s.hif.msixPend v then
    ({ s with hif := { s.hif with msixPend := s.hif.msixPend - 2 ^ v } }).send (.msix v)
  else s

/-! ### The host link (R352, R354, R375) -/

/-- HOST_LINK_UP (R352): a rate and a width of Table 12.1. -/
def State.linkUp (s : State) (rate width : Nat) (flit : Bool) : State :=
  if s.hif.up || !(decide (3 ≤ rate) && decide (rate ≤ 6)) || !(width == 4 || width == 8 || width == 16) then s
  else { s with hif := { s.hif with up := true, rate := rate, width := width, flit := flit } }

/-- A register of the interrupt page's MSI-X table. -/
def isMsix (off : Nat) : Bool := decide (0x3800 ≤ off) && decide (off < 0x3C00)

/-- HOST_LINK_DOWN (R375). -/
def State.hifDown (s : State) : State :=
  let s : State := s.endFlight (fun r => r.space == 2) 0x30
  let s : State := s.bump .hif 0x68 s.hif.store.length
  let s : State := s.failPrgs
  let keep (e : Nat × W32) : Bool := !isMsix e.1 && e.1 != 0x3100 && e.1 != 0x5108 && e.1 != 0x510C
  let off (e : Nat × W32) : Nat × W32 :=
    if 0x20000 ≤ e.1 ∧ e.1 < 0x30000 ∧ e.1 % 0x20 = 0 ∧ 0x800 ≤ e.1 % 0x1000 then (e.1, e.2 &&& 0x7FFFFFFF) else e
  { s with hif := {}, regs := (s.regs.filter keep).map off }

/-- CONFIGURATION_REQUEST (R353, R354, R374), while the link is up. -/
def State.configure (s : State) (r : CfgReq) : State :=
  if !s.hif.up then s
  else match r with
    | .enablePri on alloc =>
      { s with hif := { s.hif with pri := on, priAlloc := alloc, prgFailed := s.hif.prgFailed && !(on && !s.hif.pri) } }
    | .enableAts on => { s with hif := { s.hif with ats := on } }
    | .enablePasid on => { s with hif := { s.hif with pasid := on } }
    | .tenBitTags on => { s with hif := { s.hif with tenBit := on } }
    | .bar2Size n => if n ≤ 7 then { s with hif := { s.hif with bar2Log := n } } else s
    | .msixMask v m => s.msixMask v.toNat m

/-! ### Meanings -/

/-- BAR0_INVALID_ACCESS (R12, R450). -/
def execBar0InvalidAccess (off : BitVec 25) (acc : Bar0Access) (s : State) : Host.Outcome State Fault Refusal :=
  actSvc s (fun s => s.bar0Access off.toNat acc.size acc.write)
/-- COUNTER_LOW_READ (R174): of 32 bits, or of 64. -/
def execCounterLowRead (r : CounterRead) (s : State) : Host.Outcome State Fault Refusal :=
  actSvc s (fun s => s.ctrLow r.off.toNat r.wide)
/-- COUNTER_HIGH_READ (R174). -/
def execCounterHighRead (off : BitVec 25) (s : State) : Host.Outcome State Fault Refusal := actSvc s (fun s => s.ctrHigh off.toNat)
/-- BAR2_READ (R357, R358). -/
def execBar2Read (off len : Nat) (s : State) : Host.Outcome State Fault Refusal := act s (fun s => s.bar2Read off len)
/-- BAR2_WRITE (R357, R358). -/
def execBar2Write (off : Nat) (data : List Byte) (poisoned : Bool) (s : State) : Host.Outcome State Fault Refusal :=
  act s (fun s => s.bar2Write off data poisoned)
/-- QUEUE_ENABLE (R361). -/
def execQueueEnable (h : BitVec 10) (word0 : W32) (s : State) : Host.Outcome State Fault Refusal :=
  actSvc s (fun s => s.hqWord0 h.toNat (word0.toNat ||| 2 ^ 31))
/-- QUEUE_DISABLE (R361). -/
def execQueueDisable (h : BitVec 10) (s : State) : Host.Outcome State Fault Refusal :=
  actSvc s (fun s => s.hqWord0 h.toNat (s.hqWord h.toNat 0 % 2 ^ 31))
/-- SQ_STOP_COMPLETE (R361). -/
def execSqStopComplete (h : BitVec 10) (s : State) : Host.Outcome State Fault Refusal := actSvc s (fun s => s.hqStopped h.toNat)
/-- SQ_DOORBELL (R362): the doorbell of the queue, which acts by its TYPE. -/
def execSqDoorbell (h : BitVec 10) (value : W64) (s : State) : Host.Outcome State Fault Refusal :=
  actSvc s (fun s => s.doorbell (28672 + h.toNat) value.toNat)
/-- CQ_DOORBELL (R362): the doorbell of the queue, which acts by its TYPE. -/
def execCqDoorbell (h : BitVec 10) (value : W64) (s : State) : Host.Outcome State Fault Refusal :=
  actSvc s (fun s => s.doorbell (28672 + h.toNat) value.toNat)
/-- SQ_ENTRY_FETCH (R363). -/
def execSqEntryFetch (h : BitVec 10) (entry : Option (List Byte)) (s : State) : Host.Outcome State Fault Refusal :=
  act s (fun s => s.sqFetch h.toNat entry)
/-- ACK_FAULT_RECORD (R369). -/
def execAckFaultRecord (s : State) : Host.Outcome State Fault Refusal := actSvc s State.ackFault
/-- CLEAR_EVENT_FLAG (R369). -/
def execClearEventFlag (mask : W32) (s : State) : Host.Outcome State Fault Refusal := actSvc s (fun s => s.ackEvents mask.toNat)
/-- INT_HOLDOFF_EXPIRY (R371). -/
def execIntHoldoffExpiry (h : BitVec 10) (s : State) : Host.Outcome State Fault Refusal := actSvc s (fun s => s.holdoffEnd h.toNat)
/-- HOST_LINK_DOWN (R375). -/
def execHostLinkDown (s : State) : Host.Outcome State Fault Refusal := actSvc s State.hifDown
/-- HOST_LINK_UP (R352). -/
def execHostLinkUp (rate : BitVec 4) (width : BitVec 5) (flitMode : Bool) (s : State) : Host.Outcome State Fault Refusal :=
  actSvc s (fun s => s.linkUp rate.toNat width.toNat flitMode)
/-- CONFIGURATION_REQUEST (R353, R374). -/
def execConfigurationRequest (r : CfgReq) (s : State) : Host.Outcome State Fault Refusal := actSvc s (fun s => s.configure r)

end Sys2Proof.Machine
end

