-- ==== Sys2Proof/Machine/Commit.lean ====
section
/-! DEFINITION. Staged values and commits (R452 to R459, Tables 16.9 to 16.14, R422): DISCARD, the request, its checks, the
apply instant. -/

namespace Sys2Proof.Machine

/-! ### Staged values -/

/-- The commit group of the page at a BAR0 offset. -/
def groupAt (off : Nat) : Option Nat := (pageOf off).bind Page.group

/-- DISCARD of a page (R446): values that no commit has taken are dropped; on a page without ST fields a reserved write. -/
def State.discard (s : State) (off v : Nat) : State :=
  match pageOf off with
  | none => s
  | some p =>
    if p.group = none then s.bump p 0xF8
    else
      let s : State := if v / 2 = 0 then s else s.bump p 0xF8
      if bitAt v 0 then { s with staged := s.staged.filter (fun e => e.1 / 0x1000 != p.base / 0x1000) } else s

/-- The value of a field in a commit's check: taken, or in effect (R454). -/
def State.setVal (s : State) (off : Nat) : Nat :=
  match tfind s.commit.taken off with
  | some v => v.toNat
  | none => s.reg off

/-! ### Tables of group LINK (R343, R456) -/

/-- Units of memory read as class SVC: the bytes, and the first unit that could not be read. -/
def State.readUnits (s : State) (a n : Nat) : Nat → State × List Byte × Option Nat
  | 0 => (s, [], none)
  | k + 1 =>
    let u := (n + 63) / 64 - (k + 1)
    let (s', st, bs) := s.winRead .svc (a + 64 * u) (min 64 (n - 64 * u))
    if 0x10 ≤ st then (s', [], some u)
    else
      let (s'', rest, bad) := State.readUnits s' a n k
      (s'', bs ++ rest, bad)

/-- A table of n bytes read: its bytes, or the first unit that could not be read. -/
def State.readTable (s : State) (a n : Nat) : State × List Byte × Option Nat := s.readUnits a n ((n + 63) / 64)

/-- Whether the set holds either word of a pair. -/
def State.tookPair (s : State) (off : Nat) : Bool := (tfind s.commit.taken off).isSome || (tfind s.commit.taken (off + 4)).isSome

/-- Offsets of the link global page. -/
def lgl (o : Nat) : Nat := Page.links.base + o
/-- Offsets of a port page. -/
def prt (p o : Nat) : Nat := (Page.port p).base + o

/-- A 64-bit pair in a commit's check. -/
def State.setPair (s : State) (off : Nat) : Nat := s.setVal off + 2 ^ 32 * s.setVal (off + 4)

/-- Whether the set names the route table. -/
def State.namesRoute (s : State) : Bool := s.tookPair (lgl 0x118) || (tfind s.commit.taken (lgl 0x120)).isSome
/-- Whether the set names the group table and the member array. -/
def State.namesGroup (s : State) : Bool := s.tookPair (lgl 0x128)
/-- Whether the set names the path table of a port. -/
def State.namesPath (s : State) (p : Nat) : Bool := s.tookPair (lgl 0x140 + 8 * p)

/-- The count of entries of the route table in the set. -/
def State.routeCount (s : State) : Nat := fld (s.setVal (lgl 0x120)) 12 0
/-- The count of entries of a path table in the set. -/
def State.pathCount (s : State) (p : Nat) : Nat := fld (s.setPair (lgl 0x140 + 8 * p)) 63 54 + 1

/-- A group-table entry. -/
def groupEntry (w : Nat) : Nat × Nat := (fld w 28 16, fld w 12 0)

/-- A check's failure: result code, register, table entry. -/
structure Bad where
  code : Nat
  off : Nat
  entry : Nat := 0
  deriving DecidableEq, Repr

/-- One table read where a condition holds: the parsed words, or the failure. -/
def State.tableOf (s : State) (named : Bool) (off a n size : Nat) : State × Option (List (List Byte)) × Option Bad :=
  if !named || a % 64 != 0 then (s, none, none)
  else
    let (s, bs, bad) := s.readTable a n
    (match bad with
     | some u => (s, none, some ⟨0x24, off, 64 * u / size⟩)
     | none => (s, some (chunks size bs), none))

/-- The path tables of the set read, ports ascending: the state, the tables, the failures. -/
def State.pathTables (s : State) : Nat → State × Tab (List (List Byte)) × List Bad
  | 0 => (s, s.routes.paths, [])
  | k + 1 =>
    let (s, ts, bads) := State.pathTables s k
    let off := lgl 0x140 + 8 * k
    let (s, t, bad) := s.tableOf (s.namesPath k) off (s.setPair off % 2 ^ 48) (32 * s.pathCount k) 32
    (s, (match t with
      | some es => tset ts k es
      | none => ts), bads ++ bad.toList)

/-- The tables that the set names read into on-chip copies (R346, R454); with a count out of range nothing is read. -/
def State.readTables (s : State) : State × Routes × List Bad :=
  let rOff := lgl 0x118
  let (s, rt, rBad) := s.tableOf (s.namesRoute && decide (s.routeCount ≤ 4096)) rOff (s.setPair rOff % 2 ^ 48) (8 * s.routeCount) 8
  let gOff := lgl 0x128
  let gAt := s.setPair gOff % 2 ^ 48
  let (s, gt, gBad) := s.tableOf s.namesGroup gOff gAt 1020 4
  let (s, mt, mBad) := s.tableOf s.namesGroup gOff (gAt + 1024) 16384 2
  let (s, pt, pBad) := s.pathTables 8
  (s, { route := (rt.map (List.map leNat)).getD s.routes.route
        groups := (gt.map (List.map (fun e => groupEntry (leNat e)))).getD s.routes.groups
        members := (mt.map (List.map leNat)).getD s.routes.members
        paths := pt },
   rBad.toList ++ gBad.toList ++ mBad.toList ++ pBad ++
     ((gt.map (fun es => (es.filter (fun e => leNat e &&& 0xE000E000 != 0)).map (fun _ => (⟨0x20, gOff, 0⟩ : Bad)))).getD []))

/-! ### Checks of group LINK (Tables 11.11 to 11.13, 16.11) -/

/-- A failure where a condition holds. -/
def failIf (c : Bool) (code off : Nat) (entry : Nat := 0) : List Bad := if c then [⟨code, off, entry⟩] else []

/-- Reserved bits of an ST register set. -/
def State.rsvdBad (s : State) (off : Nat) : List Bad :=
  match (pageOf off).bind (fun p => regDef p (off % 0x1000)) with
  | some d => failIf (s.setVal off &&& (all32 - d.defined) != 0) 0x20 off
  | none => []

/-- Whether a port is enabled in the set. -/
def State.setEnable (s : State) (p : Nat) : Bool := bitAt (s.setVal (prt p 0x100)) 0
/-- Whether any port is enabled in the set. -/
def State.anyPort (s : State) : Bool := (List.range 8).any s.setEnable
/-- The ports enabled in the set, as a mask. -/
def State.portSet (s : State) : Nat := ((List.range 8).filter s.setEnable).foldl (fun m p => m + 2 ^ p) 0

/-- The checks of one port's fields, in ascending offset. -/
def State.portBad (s : State) (p : Nat) : List Bad :=
  let cfg := s.setVal (prt p 0x100)
  let eth := bitAt cfg 1
  let rate := fld cfg 19 18
  let on := bitAt cfg 0 && eth
  let mac := s.setPair (prt p 0x118) % 2 ^ 48
  let ip := (List.range 4).any (fun k => s.setVal (prt p (0x120 + 4 * k)) != 0)
  s.rsvdBad (prt p 0x100) ++ failIf (eth && (decide (2 ≤ rate) || (rate == 1 && fld cfg 17 16 == 3))) 0x21 (prt p 0x100) ++
    failIf (on && mac == 0) 0x22 (prt p 0x118) ++ s.rsvdBad (prt p 0x11C) ++ failIf (on && !ip) 0x22 (prt p 0x120) ++
    s.rsvdBad (prt p 0x130) ++ s.rsvdBad (prt p 0x134) ++ s.rsvdBad (prt p 0x138) ++ s.rsvdBad (prt p 0x13C)

/-- The entries of a table that break a rule, by index. -/
def entriesBad {α : Type} (code off : Nat) (xs : List α) (bad : Nat → α → Bool) (entry : Bool) : List Bad :=
  (xs.zipIdx.find? (fun e => bad e.2 e.1)).elim [] (fun e => [⟨code, off, if entry then e.2 else 0⟩])

/-- The checks of the route table: reserved bits, order, ports (Table 16.11). -/
def routeBad (ports : Nat) (r : List Nat) : List Bad :=
  let off := lgl 0x118
  entriesBad 0x20 off r (fun _ e => e % 2 ^ 48 / 2 ^ 16 != 0 || fld e 62 56 != 0) false ++
    entriesBad 0x23 off r (fun i e => (i != 0 && decide (fld e 15 0 ≤ fld (r.getD (i - 1) 0) 15 0)) ||
      fld e 55 48 &&& (255 - ports) != 0) true

/-- The checks of the group table. -/
def groupBad (g : List (Nat × Nat)) : List Bad :=
  entriesBad 0x23 (lgl 0x128) g (fun _ e => decide (8192 < e.1 + e.2)) true

/-- The checks of a port's path table. -/
def pathBad (r : List Nat) (p : Nat) (t : List (List Byte)) : List Bad :=
  let off := lgl 0x140 + 8 * p
  entriesBad 0x20 off t (fun _ e => fld (byteFld e 8 2) 15 12 != 0 || byteFld e 0xA 2 != 0 || byteFld e 0xC 4 / 2 != 0) false ++
    entriesBad 0x23 off t (fun _ e => !(r.any (fun x => fld x 15 0 == byteFld e 0 2))) true

/-- The failures at one register, in ascending offset over the link global page. -/
def State.linkBad (s : State) (t : Routes) (read : List Bad) : List Bad :=
  let at_ (o : Nat) : List Bad := read.filter (fun b => b.off == lgl o)
  let align (o : Nat) : List Bad := failIf (s.setVal (lgl o) % 64 != 0) 0x21 (lgl o)
  let chip := fld (s.setVal (lgl 0x100)) 15 0
  let n := s.routeCount
  (List.range 8).flatMap s.portBad ++
    s.rsvdBad (lgl 0x100) ++
    failIf ((chip == 0xFFFF && s.anyPort) || (chip != s.chipId && s.jobs.any (fun e => e.2.st != .empty))) 0x25 (lgl 0x100) ++
    align 0x118 ++ at_ 0x118 ++ (if n ≤ 4096 then routeBad s.portSet t.route else []) ++ s.rsvdBad (lgl 0x11C) ++
    s.rsvdBad (lgl 0x120) ++ failIf (decide (4096 < n) || (n == 0 && s.anyPort)) 0x21 (lgl 0x120) ++
    align 0x128 ++ at_ 0x128 ++ groupBad t.groups ++ s.rsvdBad (lgl 0x12C) ++
    (List.range 8).flatMap (fun p =>
      align (0x140 + 8 * p) ++ at_ (0x140 + 8 * p) ++ pathBad t.route p (tget [] t.paths p) ++ s.rsvdBad (lgl (0x144 + 8 * p)))

/-! ### Checks of group POWER (R405, R422) -/

/-- REG entries of the set: low words. -/
def State.setRegs (s : State) : List Nat := (List.range 16).map (fun r => s.setVal (Page.power.base + 0x140 + 8 * r))

/-- The failures of group POWER in ascending offset. -/
def State.powerBad (s : State) : List Bad :=
  let pw (o : Nat) : Nat := Page.power.base + o
  let c := s.setVal (pw 0x100)
  let v := s.setVal (pw 0x104)
  let t := s.setVal (Page.thermal.base + 0x100)
  let out (x lo hi : Nat) : Bool := decide (x < lo) || decide (hi < x)
  let valid := s.setRegs.filter (fun w => bitAt w 31)
  s.rsvdBad (pw 0x100) ++
    failIf (out (fld c 21 12) 500 1000 || out (fld c 11 7) 1 30 || fld c 31 24 == 0) 0x21 (pw 0x100) ++
    failIf (bitAt c 0 && !valid.isEmpty && !(valid.any (fun w => fld w 19 16 == 0))) 0x22 (pw 0x100) ++
    s.rsvdBad (pw 0x104) ++ failIf (out (fld v 9 0) Config.vcoreFused.toNat 750) 0x21 (pw 0x104) ++
    (List.range 16).flatMap (fun r =>
      let w := s.setVal (pw (0x140 + 8 * r))
      s.rsvdBad (pw (0x140 + 8 * r)) ++ failIf (bitAt w 31 && decide (8 < fld w 19 16)) 0x21 (pw (0x140 + 8 * r)) ++
        s.rsvdBad (pw (0x144 + 8 * r))) ++
    s.rsvdBad (Page.thermal.base + 0x100) ++
    failIf (out (fld t 31 24) 70 95 || out (fld t 23 16) 80 105 || fld t 15 12 == 0) 0x21 (Page.thermal.base + 0x100)

/-! ### The request (R454) -/

/-- A request completes (R454 step 6): its result, token and group; counted; COMMIT_RESULT. -/
def State.commitDone (s : State) (code group token : Nat) (bySvc : Bool) (bad : Option Bad) : State :=
  let b := bad.getD ⟨0, 0, 0⟩
  let s : State := s.setPreg .commit 0x104 (code * 2 ^ 16 + group * 2 ^ 8 + (if bySvc then 1 else 0))
  let s : State := ((s.setPreg .commit 0x108 token).setPreg .commit 0x10C b.off).setPreg .commit 0x110 b.entry
  let s : State := if group = 1 ∨ group = 2 then s.setReg (groupBase group) (code * 2 ^ 16) else s
  let s : State := s.bump .commit (if code ≤ 1 then 0x40 else 0x48)
  ({ s with commit := {} }).event evCommit

/-- Values that a commit took staged again, where no later write has staged another (R455). -/
def State.unstage (s : State) : State :=
  { s with staged := s.staged.foldl (fun t e => tset t e.1 e.2) s.commit.taken }

/-- A write of COMMIT_REQ by the host or Stavuf (R454): admission, snapshot and check. -/
def State.commitReq (s : State) (v : Nat) (bySvc : Bool) : State :=
  let g := fld v 7 0
  let token := fld v 31 16
  let s : State := if fld v 15 8 = 0 then s else s.bump .commit 0xF8
  if s.commit.busy then s.bump .commit 0x50
  else if g ≠ 1 ∧ g ≠ 2 then s.commitDone 0x11 g token bySvc none
  else
    let mine (e : Nat × W32) : Bool := groupAt e.1 == some g
    let taken := s.staged.filter mine
    if taken.isEmpty then s.commitDone 1 g token bySvc none
    else
      let s : State := { s with
        staged := s.staged.filter (fun e => !mine e)
        commit := { busy := true, group := g, token := token, bySvc := bySvc, taken := taken, tables := s.routes } }
      let (s, t, read) := if g = 1 then s.readTables else (s, s.routes, [])
      let bads := if g = 1 then s.linkBad t read else s.powerBad
      (match bads with
       | b :: _ => s.unstage.commitDone b.code g token bySvc (some b)
       | [] => { s with commit := { s.commit with applying := true, tables := t } })

/-! ### The apply instant (R458, R475) -/

/-- The bytes of the tables that a LINK set names, in the order of R475. -/
def State.tableBytes (s : State) : List Byte :=
  let t := s.commit.tables
  (if s.namesRoute then t.route.flatMap (natLe 8) else []) ++
    (if s.namesGroup then t.groups.flatMap (fun e => natLe 4 (e.1 * 2 ^ 16 + e.2)) ++ t.members.flatMap (natLe 2) else []) ++
    (List.range 8).flatMap (fun p => if s.namesPath p then (tget [] t.paths p).flatten else [])

/-- What MEAS[5] is extended with (R475). -/
def State.commitBytes (s : State) : List Byte :=
  natLe 1 s.commit.group ++ s.commit.taken.flatMap (fun e => natLe 4 e.1 ++ natLe 4 e.2.toNat) ++
    (if s.commit.group = 1 then s.tableBytes else [])

/-- A port after an apply: it trains anew where ENABLE, MODE, LANE_RATE or MAX_WIDTH changed (R350, R458). -/
def State.portApplied (s : State) (p old : Nat) : State :=
  if (old ^^^ s.preg (.port p) 0x100) &&& 0xF0003 = 0 then s
  else (if (s.port p).link = .down then s.portLost p else s.linkDown p).portStart p

/-- A changed VCORE_SET is written to the regulator (R405). -/
def State.vcoreApplied (s : State) (old : Nat) : State :=
  let v := fld (s.preg .power 0x104) 9 0
  if v = old then s else ({ s with pwr := { s.pwr with vcoreOld := old, avsBusy := true, avsAt := s.time } }).send (.avs v)

/-- COMMIT_APPLY (R458): the whole set at one instant. -/
def State.commitApply (s : State) (fenceNs : Nat) : State :=
  if !s.commit.applying then s
  else
    let c := s.commit
    let d := digest s.commitBytes
    let cfgs := (List.range 8).map (fun p => s.preg (.port p) 0x100)
    let vcore := fld (s.preg .power 0x104) 9 0
    let s : State := { s with regs := c.taken.foldl (fun t e => tset t e.1 e.2) s.regs, routes := c.tables }
    let s : State := ((s.bump .commit 0x58 fenceNs).setReg64 (Page.commit.base + 0x118) s.time).extend 5 d
    let s : State := s.commitDone 0 c.group c.token c.bySvc none
    let s : State := cfgs.zipIdx.foldl (fun (s : State) e => s.portApplied e.2 e.1) s
    s.vcoreApplied vcore

/-- A trip before the apply instant (Table 16.13): nothing is applied. -/
def State.commitStopped (s : State) : State :=
  if s.commit.busy then s.unstage.commitDone 0x26 s.commit.group s.commit.token s.commit.bySvc none else s

/-! ### Meanings -/

/-- COMMIT_REQ (R454). Only the host and Stavuf reach it (R453). -/
def execCommitReq (value : W32) (who : Agent) (s : State) : Host.Outcome State Fault Refusal :=
  act s (fun s => match who with
    | .host => s.commitReq value.toNat false
    | .svc => s.commitReq value.toNat true
    | .program => s)
/-- COMMIT_APPLY (R458). -/
def execCommitApply (fenceNs : Nat) (s : State) : Host.Outcome State Fault Refusal := act s (fun s => s.commitApply fenceNs)
/-- DISCARD (R446). -/
def execDiscard (off : BitVec 25) (value : W32) (s : State) : Host.Outcome State Fault Refusal :=
  actSvc s (fun s => s.discard off.toNat value.toNat)

end Sys2Proof.Machine
end

