-- ==== Sys2Proof/Machine/Power.lean ====
section
/-! DEFINITION. Power, droop and temperature (chapter 14): regulators, the louvre, droop detectors, PWR_ALERT_N, supply
excursions, the core-domain reset, the thermal trip. -/

namespace Sys2Proof.Machine

/-- The power state updated. -/
def State.onPwr (s : State) (f : Pwr → Pwr) : State := { s with pwr := f s.pwr }

/-- A class 9 record (Table 15.4): cause, and the rail or REG entry. -/
def State.supplyFault (s : State) (cause which : Nat) (job : Option Nat) (flags : Nat) : State :=
  s.fault 9 0 job Page.power.unit flags
    (natLe 1 cause ++ natLe 1 which ++ zeros 2 ++ natLe 4 (s.preg .power 0x124) ++ natLe 4 (s.preg .power 0x128))

/-! ### Regulators (R403 to R405) -/

/-- The low word of a REG entry. -/
def State.regLo (s : State) (r : Nat) : Nat := s.preg .power (0x140 + 8 * r)
/-- Whether a REG entry is VALID. -/
def State.regValid (s : State) (r : Nat) : Bool := bitAt (s.regLo r) 31
/-- PMAX of a REG entry, in mW. -/
def State.regPmax (s : State) (r : Nat) : Nat := 1000 * fld (s.preg .power (0x144 + 8 * r)) 15 0

/-- One entry's reading (R403, R404): a power in mW, or a failed read. -/
def State.regRead (s : State) (r : Nat) (v : Option Nat) : State :=
  let x := tget {} s.pwr.reg r
  match v with
  | some mw => s.onPwr (fun p => { p with reg := tset p.reg r { mw := mw, fails := 0, ok := true } })
  | none =>
    let fails := if x.fails < 1000 then x.fails + 1 else x.fails
    (s.onPwr (fun p => { p with reg := tset p.reg r { mw := s.regPmax r, fails := fails, ok := false } })).bump .power 0x68

/-- PMBUS_POLL (R403): every VALID entry read; the package power is the sum of the latest readings. -/
def State.pmbusPoll (s : State) (readings : List (Option Nat)) : State :=
  if s.boot.svcHeld then s
  else
    let s : State := (List.range 16).foldl (fun (s : State) r => if s.regValid r then s.regRead r (readings.getD r none) else s) s
    let sum := (((List.range 16).filter s.regValid).map (fun r => (tget {} s.pwr.reg r).mw)).sum
    s.onPwr (fun p => { p with pnow := sum })

/-- PMBUS_FAIL_LIMIT (R404): class 9 once for 1,000 consecutive failures. -/
def State.pmbusLimit (s : State) (r : Nat) : State :=
  let x := tget {} s.pwr.reg r
  if s.regValid r && x.fails == 1000 then
    (s.onPwr (fun p => { p with reg := tset p.reg r { x with fails := 1001 } })).supplyFault 1 r none 0
  else s

/-- AVS_SETTLE_TIMEOUT (R405): 1 ms after the voltage write. -/
def State.avsTimeout (s : State) : State :=
  if s.pwr.avsBusy && decide (s.pwr.avsAt + 100000 ≤ s.time) then ((s.onPwr (fun p => { p with avsBusy := false })).bump .power 0x80).supplyFault 2 0 none 0 else s

/-- AVS_VOLTAGE_REACHED (R405). -/
def State.avsReached (s : State) : State := s.onPwr (fun p => { p with avsBusy := false })

/-! ### The louvre (R406, R407, R409) -/

/-- Energy in nJ and span in µs of the window: its complete blocks of 10 ms and the block in progress. -/
def Pwr.window (p : Pwr) (seconds : Nat) : Nat × Nat :=
  let bs := p.blocks.take (100 * seconds)
  (bs.sum + p.partial_, 10000 * bs.length + p.ticks % 10000)

/-- The power term (R407): energy and span of the window, GAIN, PCAP in mW. -/
def powerTerm (e t gain cap : Nat) : Nat := if cap * t < e then min 224 (256 * gain * (e - cap * t) / (cap * t)) else 0

/-- LOUVRE_UPDATE (R406, R407, R409): B is forced to 224 while Stavuf is held (R435). -/
def State.louvre (s : State) : State :=
  let p := s.pwr
  let c := s.preg .power 0x100
  let ticks := p.ticks + 1
  let part := p.partial_ + p.pnow
  let p : Pwr := { p with ticks := ticks, energy := p.energy + p.pnow, partial_ := part }
  let p : Pwr := if ticks % 10000 = 0 then { p with blocks := (part :: p.blocks).take 3000, partial_ := 0 } else p
  let (e, t) := p.window (fld c 11 7)
  let cap := 1000 * fld c 21 12
  let term := if bitAt c 0 then powerTerm e t (fld c 31 24) cap else 0
  let b := if s.boot.svcHeld then 224 else max term (if bitAt c 1 then p.tTerm else 0)
  let sat := b == 224 && decide (cap * t < e)
  let s : State := { s with pwr := { p with pTerm := term, b := b, sat := sat, pavg := e / t } }
  let s : State := if 0 < b then s.bump .power 0x70 else s
  let s : State := if sat then s.bump .power 0x78 else s
  if 0 < p.tTerm then s.bump .thermal 0x40 else s

/-- A temperature register's reading, in sixteenths of a degree. -/
def tempOf (w : Nat) : Int := (BitVec.ofNat 16 (w / 2 ^ 16)).toInt

/-- The thermal term's rule (R417), temperatures in sixteenths. -/
def thermalTerm (t : Nat) (dram logic dThr lThr hyst : Int) : Nat :=
  if 1520 < dram ∨ 1680 < logic then 224
  else if dThr < dram ∨ lThr < logic then min 224 (t + 4)
  else if dram ≤ dThr - hyst ∧ logic ≤ lThr - hyst then t - 4
  else t

/-- THERMAL_TERM_UPDATE (R417). -/
def State.thermal (s : State) : State :=
  let c := s.preg .thermal 0x100
  let deg (hi lo : Nat) : Int := 16 * ((fld c hi lo : Nat) : Int)
  let t := thermalTerm s.pwr.tTerm (tempOf (s.preg .thermal 0x104)) (tempOf (s.preg .thermal 0x108)) (deg 31 24) (deg 23 16) (deg 15 12)
  if bitAt (s.preg .power 0x100) 1 then s.onPwr (fun p => { p with tTerm := t }) else s

/-! ### Droop (R410, R413, Table 14.4) -/

/-- Stretch of core n in eighths: the larger of its detector's and the excursion's. -/
def State.stretchOf (s : State) (n : Nat) : Nat := max (2 * tget 0 s.pwr.droopK (n / 2)) (if s.pwr.exc then 4 else 0)

/-- The CCLK period of a core follows its detector and the excursion. -/
def State.setStretch (s : State) (n : Nat) : State := s.onCore n (fun c => { c with droop := s.stretchOf n })

/-- The level of detector k written. -/
def State.setDroop (s : State) (k level : Nat) : State :=
  let s : State := s.onPwr (fun p => { p with droopK := tset p.droopK k level })
  (s.setStretch (2 * k)).setStretch (2 * k + 1)

/-- DROOP_DETECT (R410): level 1 is 25 %, level 2 is 50 %; only a rise counts. -/
def State.droopDetect (s : State) (k : Nat) (deep : Bool) : State :=
  let level := if deep then 2 else 1
  if tget 0 s.pwr.droopK k < level then
    ((s.setDroop k level).bump .power 0x50).setPreg .power 0x138 (level * 256 + k)
  else s

/-- DROOP_STEP_DOWN (R410). -/
def State.droopStep (s : State) (k : Nat) : State :=
  let l := tget 0 s.pwr.droopK k
  if l = 0 then s else s.setDroop k (l - 1)

/-! ### PWR_ALERT_N (R411, R412) -/

/-- A core whose row issues is held from its fourth CCLK after a fall; one held already stays held (Table 14.3). -/
def State.alertMark (s : State) (n : Nat) : State :=
  if s.pwr.rows ≤ n / 16 then s else s.onCore n (fun c => { c with alertAt := c.cclk + 4 })

/-- PWR_ALERT_N_FALL, while ALERT_EN is 1. -/
def State.alertFall (s : State) : State :=
  if bitAt (s.preg .power 0x100) 2 && !s.pwr.alertLow then
    let s : State := (List.range 128).foldl State.alertMark s
    (s.onPwr (fun p => { p with alertLow := true, rows := 0, reported := false, fellAt := s.time })).bump .power 0x40
  else s

/-- PWR_ALERT_N_RISE: the release of the rows begins. -/
def State.alertRise (s : State) (lowNs : Nat) : State :=
  if s.pwr.alertLow then (s.onPwr (fun p => { p with alertLow := false })).bump .power 0x48 lowNs else s

/-- ALERT_ROW_RELEASE: the next mesh row, from row 0. -/
def State.rowRelease (s : State) : State :=
  if !s.pwr.alertLow && decide (s.pwr.rows < 8) then s.onPwr (fun p => { p with rows := p.rows + 1 }) else s

/-- ALERT_LIMIT in ticks of TIME (Table 14.6): 1 to 1,000 ms, another value the nearer bound. -/
def State.alertTicks (s : State) : Nat := 100000 * max 1 (min 1000 (s.preg .power 0x120))

/-- ALERT_LIMIT_EXPIRY (R412): the pin low for longer than ALERT_LIMIT; class 9 once for the assertion. -/
def State.alertLimit (s : State) : State :=
  if s.pwr.alertLow && !s.pwr.reported && decide (s.pwr.fellAt + s.alertTicks < s.time) && bitAt (s.preg .power 0x100) 2 then (s.onPwr (fun p => { p with reported := true })).supplyFault 3 0 none 0 else s

/-! ### Excursions (R413, R414) -/

/-- The set point that the excursion levels are computed from, in mV (R405). -/
def State.setPoint (s : State) : Nat :=
  let v := fld (s.preg .power 0x104) 9 0
  if s.pwr.avsBusy then min v s.pwr.vcoreOld else v

/-- A level below the warning level, 92 % of the set point. -/
def State.belowWarn (s : State) (mv : Nat) : Bool := decide (100 * mv < 92 * s.setPoint)
/-- A level below the reset level, 82 % of the set point. -/
def State.belowReset (s : State) (mv : Nat) : Bool := decide (100 * mv < 82 * s.setPoint)

/-- The lowest level of the excursion recorded in EXC_MIN. -/
def State.excLow (s : State) (mv : Nat) : State :=
  let r := s.preg .power 0x124
  let low := min mv (fld r 9 0)
  s.setPreg .power 0x124 ((if bitAt r 31 || s.belowReset mv then 2 ^ 31 else 0) + low)

/-- EXCURSION_BEGIN (R413); a lower level during one is recorded. -/
def State.excBegin (s : State) (mv : Nat) : State :=
  if !s.belowWarn mv then s
  else if s.pwr.exc then s.excLow mv
  else
    let s : State := (s.onPwr (fun p => { p with exc := true })).setPreg .power 0x124 0x3FF
    let s : State := ((s.excLow mv).setPreg .power 0x128 0).setReg64 (Page.power.base + 0x130) s.time
    let s : State := (s.bump .power 0x58).event evExcursion
    (List.range 128).foldl State.setStretch s

/-- EXCURSION_END (R413): the lowest level seen and the time below the warning level. -/
def State.excEnd (s : State) (lowest ns : Nat) : State :=
  if !s.pwr.exc then s
  else
    let s : State := ((s.excLow lowest).setPreg .power 0x128 (min ns all32)).onPwr (fun p => { p with exc := false })
    (List.range 128).foldl State.setStretch s

/-- Core n stops in the core-domain reset (R414): what the domain held is gone, its tag epoch inverts. -/
def State.coreReset (s : State) (n : Nat) : State :=
  let c := s.core n
  s.setCore n { (Core.fresh n) with
    life := { c.life with st := .closed }, serial := c.serial, epoch := !c.epoch, droop := c.droop, cclk := c.cclk
    louvreAcc := c.louvreAcc, latch := c.latch, alertAt := c.alertAt }

/-- CORE_DOMAIN_RESET (R414). -/
def State.coreDomainReset (s : State) (mv : Nat) : State :=
  if !s.belowReset mv then s
  else
    let s : State := s.excBegin mv
    let torn := match s.runSlot with
      | some j => (s.job j).st.tearable
      | none => false
    let job := if torn then s.runSlot else none
    let s : State := s.endFlight (fun r => r.space == 1) 0x30
    let s : State := (s.bump .power 0x60).supplyFault 4 0 job (if torn then 1 else 0)
    let s : State := s.tearJob job 9
    let s : State := (List.range 128).foldl State.coreReset s
    s.onPwr (fun p => { p with coreHeld := true, heldAt := s.time })

/-- CORE_DOMAIN_RECOVERY (R414): cores neither fused nor retired open again. -/
def State.coreRecover (s : State) : State :=
  if !s.pwr.coreHeld then s
  else
    let s : State := s.onPwr (fun p => { p with coreHeld := false })
    (List.range 128).foldl (fun (s : State) n =>
      if fused n || (s.core n).life.retired then s
      else (s.onCore n (fun c => { c with life := { c.life with st := .opening } })).zeroSill n) s

/-- VDD_CORE_RECOVERY_TIMEOUT (R414, R439), 100 ms after the reset: the cores stay CLOSED; FATAL. -/
def State.coreLost (s : State) : State :=
  if s.pwr.coreHeld && decide (s.pwr.heldAt + 10000000 ≤ s.time) then (s.onPwr (fun p => { p with coreHeld := false })).setFatal else s

/-! ### The trip (R419) -/

/-- Whether a reading trips (R419), in sixteenths. -/
def trips (logic : Bool) (sensor : Nat) (reading : Int) : Bool :=
  if logic then decide (sensor < 64) && decide (1840 ≤ reading) else decide (sensor < 128) && decide (1600 ≤ reading)

/-- THERMAL_TRIP (R419, R439, Table 16.13): every clock but SVCLK stops. -/
def State.thermalTrip (s : State) (logic : Bool) (sensor : Nat) (reading : BitVec 16) : State :=
  if !trips logic sensor reading.toInt || s.pwr.trip then s
  else
    let s : State := (s.setPreg .thermal 0x10C (s.preg .thermal 0x10C ||| 8)).setFatal
    let s : State := s.fault 10 0 none Page.thermal.unit 2
      (natLe 1 3 ++ natLe 1 (if logic then 1 else 0) ++ natLe 2 sensor ++ natLe 2 reading.toNat)
    let s : State := s.commitStopped.send .thermtrip
    s.onPwr (fun p => { p with trip := true })

/-! ### Meanings -/

/-- PMBUS_POLL (R403). -/
def execPmbusPoll (readings : List (Option Nat)) (s : State) : Host.Outcome State Fault Refusal := actSvc s (fun s => s.pmbusPoll readings)
/-- PMBUS_FAIL_LIMIT (R404). -/
def execPmbusFailLimit (r : BitVec 4) (s : State) : Host.Outcome State Fault Refusal := actSvc s (fun s => s.pmbusLimit r.toNat)
/-- AVS_SETTLE_TIMEOUT (R405). -/
def execAvsSettleTimeout (s : State) : Host.Outcome State Fault Refusal := actSvc s State.avsTimeout
/-- AVS_VOLTAGE_REACHED (R405). -/
def execAvsVoltageReached (s : State) : Host.Outcome State Fault Refusal := actSvc s State.avsReached
/-- LOUVRE_UPDATE (R407). -/
def execLouvreUpdate (s : State) : Host.Outcome State Fault Refusal := actSvc s State.louvre
/-- THERMAL_TERM_UPDATE (R417). -/
def execThermalTermUpdate (s : State) : Host.Outcome State Fault Refusal := actSvc s State.thermal
/-- DROOP_DETECT (R410). -/
def execDroopDetect (k : BitVec 6) (deep : Bool) (s : State) : Host.Outcome State Fault Refusal := act s (fun s => s.droopDetect k.toNat deep)
/-- DROOP_STEP_DOWN (R410). -/
def execDroopStepDown (k : BitVec 6) (s : State) : Host.Outcome State Fault Refusal := act s (fun s => s.droopStep k.toNat)
/-- PWR_ALERT_N_FALL (R411). -/
def execPwrAlertNFall (s : State) : Host.Outcome State Fault Refusal := act s State.alertFall
/-- PWR_ALERT_N_RISE (R411). -/
def execPwrAlertNRise (lowNs : Nat) (s : State) : Host.Outcome State Fault Refusal := act s (fun s => s.alertRise lowNs)
/-- ALERT_ROW_RELEASE (R411). -/
def execAlertRowRelease (s : State) : Host.Outcome State Fault Refusal := act s State.rowRelease
/-- ALERT_LIMIT_EXPIRY (R412). -/
def execAlertLimitExpiry (s : State) : Host.Outcome State Fault Refusal := act s State.alertLimit
/-- EXCURSION_BEGIN (R413). -/
def execExcursionBegin (mv : BitVec 10) (s : State) : Host.Outcome State Fault Refusal := act s (fun s => s.excBegin mv.toNat)
/-- EXCURSION_END (R413). -/
def execExcursionEnd (lowest : BitVec 10) (ns : Nat) (s : State) : Host.Outcome State Fault Refusal := act s (fun s => s.excEnd lowest.toNat ns)
/-- CORE_DOMAIN_RESET (R414). -/
def execCoreDomainReset (mv : BitVec 10) (s : State) : Host.Outcome State Fault Refusal := act s (fun s => s.coreDomainReset mv.toNat)
/-- CORE_DOMAIN_RECOVERY (R414). -/
def execCoreDomainRecovery (s : State) : Host.Outcome State Fault Refusal := act s State.coreRecover
/-- VDD_CORE_RECOVERY_TIMEOUT (R414). -/
def execVddCoreRecoveryTimeout (s : State) : Host.Outcome State Fault Refusal := act s State.coreLost
/-- THERMAL_TRIP (R419). -/
def execThermalTrip (logic : Bool) (sensor : BitVec 8) (reading : BitVec 16) (s : State) : Host.Outcome State Fault Refusal :=
  actSvc s (fun s => s.thermalTrip logic sensor.toNat reading)

end Sys2Proof.Machine
end

