-- ==== Sys2Proof/Machine/Boot.lean ====
section
/-! DEFINITION. Resets and boot (R402, R465 to R472, R474 to R476), the Stavuf watchdog (R435). -/

namespace Sys2Proof.Machine

/-- The boot state updated. -/
def State.onBoot (s : State) (f : Boot → Boot) : State := { s with boot := f s.boot }

/-- A security record (Table 15.4, class 12): cause and offset; its UNIT is the security page. -/
def State.secFault (s : State) (cause off : Nat) : State :=
  s.fault 12 0 none Page.security.unit 0 (natLe 1 cause ++ zeros 3 ++ natLe 4 off)

/-! ### Resets (R465) -/

/-- The device in reset with the levels of its reset inputs. No state survives; what was sent out, the commands that wait
and the count of free values are the model's own. -/
def State.inReset (s : State) (perst devRst pwrgd : Bool) : State :=
  { State.reset with
    boot := { perst := perst, devRst := devRst, pwrgd := pwrgd }
    free := s.free, out := s.out, pending := s.pending }

/-- Bits of SEC_STATUS (Table 16.18). -/
def State.setSec (s : State) (bit : Nat) (v : Bool) : State :=
  s.setPreg .security 0x100 (putFld (s.preg .security 0x100) bit bit (if v then 1 else 0))

/-- The debug port is locked (R477). -/
def State.debugLocked (s : State) : Bool := bitAt (s.preg .security 0x100) 1

/-- RESET_RELEASE (R465, R466, R471): every reset input stands released, and boot starts with the fuse check. -/
def State.bootStart (s : State) (fusesOk : Bool) : State :=
  let s : State := (s.onBoot (fun _ => { perst := true, devRst := true, pwrgd := true, held := false })).setSec 1 true
  if fusesOk then (s.setSec 2 true).onBoot (fun b => { b with stage := 1 })
  else (s.secFault 1 0).onBoot (fun b => { b with stage := 0xF, error := 9, fuseFault := true })

/-- READY once bring-up has ended and KEY_READY holds (R466). -/
def State.setReady (s : State) : State :=
  { s with dsw := { s.dsw with ready := s.boot.stage == 5 && s.boot.keyReady } }

/-- KEY_GENERATION_DONE (R474). -/
def State.keyDone (s : State) : State :=
  if s.boot.keyReady || s.boot.fuseFault then s else (s.onBoot (fun b => { b with keyReady := true })).setReady

/-! ### The mailbox (R472) -/

/-- Mailbox contents written by the host. -/
def State.putMail (s : State) (bs : List Byte) : State := s.putBytes .stavuf 0x800 (bs.take 2048)
/-- The first n bytes of the mailbox. -/
def State.mail (s : State) (n : Nat) : List Byte := (s.getBytes .stavuf 0x800 (roundUp n 4)).take n

/-- MBOX_RESULT. -/
def State.mboxResult (s : State) (r : Nat) : State := s.onBoot (fun b => { b with result := r })
/-- The boot ends in stage 0xF (R470). -/
def State.bootFail (s : State) (e : Nat) : State := s.onBoot (fun b => { b with stage := 0xF, error := e, pushing := false, pushed := [] })
/-- A malformed command. -/
def State.mboxBad (s : State) : State := (s.mboxResult 0x7F).bootFail 7

/-- IMAGE_BEGIN. -/
def State.imgBegin (s : State) (len : Nat) : State :=
  if s.boot.stage ≠ 1 ∧ s.boot.stage ≠ 0xF then s.mboxResult 0x10
  else if len ≠ 8 then s.mboxBad
  else
    let m := s.mail 8
    (s.mboxResult 0).onBoot (fun b => { b with
      stage := 1, error := 0, pushLen := byteFld m 0 4, certLen := byteFld m 4 4, pushed := [], pushing := true, bundle := [] })

/-- IMAGE_CHUNK. -/
def State.imgChunk (s : State) (len : Nat) : State :=
  let b := s.boot
  let total := b.pushed.length + len
  if b.stage ≠ 1 ∨ !b.pushing then s.mboxResult 0x10
  else if len = 0 ∨ 2048 < len ∨ b.pushLen < total ∨ (len < 2048 ∧ total ≠ b.pushLen) then s.mboxBad
  else
    let m := s.mail len
    (s.mboxResult 0).onBoot (fun b => { b with pushed := b.pushed ++ m })

/-- IMAGE_END: the bundle is the stream's last CERT_LEN bytes, absent where its leaf holds another key (R474). -/
def State.imgEnd (s : State) (len : Nat) : State :=
  let b := s.boot
  if b.stage ≠ 1 ∨ !b.pushing then s.mboxResult 0x10
  else if len ≠ 0 ∨ b.pushed.length ≠ b.pushLen then s.mboxBad
  else
    let certs := b.pushed.drop (b.pushLen - b.certLen)
    (s.mboxResult 0).onBoot (fun b => { b with
      stage := 2, pushing := false, bundle := if Config.leafKey certs = identityKey then certs else [] })

/-- SET_JOBKEY: once per boot, in stages 0x1 to 0x4 (R476). -/
def State.setJobKey (s : State) (len : Nat) : State :=
  if s.boot.stage = 0 ∨ 4 < s.boot.stage ∨ s.boot.jobKeySet then s.mboxResult 0x10
  else if len ≠ 32 then s.mboxBad
  else ((s.putBytes .security 0x180 (s.mail 32)).mboxResult 0).onBoot (fun b => { b with jobKeySet := true })

/-- A mailbox command by its code (Table 17.7); from READY on a command is out of order. -/
def State.mailCommand (s : State) (cmd len : Nat) : State :=
  match cmd with
  | 1 => s.imgBegin len
  | 2 => s.imgChunk len
  | 3 => s.imgEnd len
  | 4 => s.setJobKey len
  | _ => if s.boot.stage = 0 ∨ s.boot.stage = 5 then s.mboxResult 0x10 else s.mboxBad

/-- MBOX_BUSY is 1 from the write of a command on, for at most 10 µs; for how long the manual leaves open: free (log 8). -/
def State.mailBusy (s : State) : State :=
  let till := s.time + s.freeWord.toNat % 1001
  s.useFree.onBoot (fun b => { b with busyTill := till })

/-- A write of MBOX_DOORBELL (Tables 17.6 and 17.7): ignored and counted while a command runs. While Stavuf is held the mailbox
reaches nothing (R435). -/
def State.mailbox (s : State) (cmd len : Nat) : State :=
  if s.boot.svcHeld then s
  else if s.mboxBusy then s.bump .stavuf 0x40
  else (s.mailCommand cmd len).mailBusy

/-! ### The Stavuf image (Tables 17.3 and 17.4) -/

/-- The signed bytes of an image. -/
def signedPart (img : List Byte) : List Byte := img.take (byteFld img 8 4 - 1280)

/-- BOOT_ERROR of the first failing check of an image of n pushed bytes, or 0 (R470). -/
def imageError (img : List Byte) (n : Nat) : Nat :=
  let len := byteFld img 8 4
  let code := byteFld img 0x18 4
  let key := (img.drop 0x40).take 1793
  if byteFld img 0 4 ≠ 0x3153414F ∨ byteFld img 4 4 ≠ 0x10000 ∨ byteFld img 0x10 4 / 256 ≠ 0 ∨ byteFld img 0x20 4 / 2 ≠ 0 ∨
      (img.drop 0x24).take 28 ≠ zeros 28 ∨ (img.drop (0x40 + 1793)).take 63 ≠ zeros 63 then 1
  else if code % 64 ≠ 0 ∨ code < 64 ∨ 4194304 < code ∨ len ≠ 0x780 + code + 1280 ∨ len ≠ n then 2
  else if digest key ≠ natLe 32 Config.yarferKeyDigest.toNat then 3
  else if !Config.falconVerify key (signedPart img) (img.drop (len - 1280)) then 4
  else if byteFld img 0x10 1 < Config.minSvn.toNat then 5
  else if Config.romVer.toNat < byteFld img 0x1C 4 then 6
  else 0

/-- Whether the ROM unlocks the debug port for an image (R477). -/
def State.unlocks (s : State) (img : List Byte) : Bool :=
  !Config.debugDisable && bitAt (byteFld img 0x20 4) 0 && !bitAt (s.preg .security 0x104) 1

/-- The handover to a verified image (R470, R475, R477). -/
def State.handOver (s : State) (img : List Byte) : State :=
  let s : State := ((s.extend 0 (digest (signedPart img))).setSec 0 true).setPreg .identity 0x124 (byteFld img 0xC 4)
  let s : State := if s.unlocks img then (s.setSec 1 false).extend 0 (List.replicate 32 0xDB) else s
  s.onBoot (fun b => { b with stage := 3, pushed := [], kickAt := s.time })

/-- IMAGE_VERIFY_DONE (R470). -/
def State.verified (s : State) : State :=
  if s.boot.stage ≠ 2 then s
  else
    let b := s.boot
    let img := b.pushed.take (b.pushLen - b.certLen)
    match imageError img (if b.certLen ≤ b.pushLen then b.pushLen - b.certLen else 0) with
    | 0 => s.handOver img
    | e => s.bootFail e

/-- FIRMWARE_START_TIMEOUT (R470). -/
def State.startTimeout (s : State) : State := if s.boot.stage = 3 then s.bootFail 0xA else s

/-! ### Bring-up (R466 to R468) -/

/-- BRING_UP_START: stage 0x4; VCORE_FUSED + 10 mV into VCORE_SET (R405). -/
def State.bringUp (s : State) : State :=
  if s.boot.stage ≠ 3 ∨ s.boot.svcHeld then s
  else
    let old := fld (s.preg .power 0x104) 9 0
    ((s.onBoot (fun b => { b with stage := 4 })).setPreg .power 0x104 ((Config.vcoreFused.toNat + 10) % 1024)).vcoreApplied old

/-- A block that failed its bring-up test (R468); a fused core is not tested. -/
def State.bringUpFail (s : State) (b : Block) : State := if isFused b then s else s.testFailed b

/-- A unit without a counterpart that failed (R468). Which parity groups failed is not stated: free (log 8). -/
def State.soleFail (s : State) (u : SoleUnit) : State :=
  let off := s.freeWord.toNat
  let mask := (Config.freeValue (s.free + 1)).toNat
  s.useFree.useFree.fatalUnit u off mask

/-- BRING_UP_COMPLETE (R466, R468): memories zeroed, failures reported, stage 0x5. -/
def State.upDone (s : State) (failed : List Block) (sole : List SoleUnit) : State :=
  if s.boot.stage ≠ 4 ∨ s.boot.svcHeld then s
  else
    let s : State := { s with mem := [], ecc := [] }
    let s : State := failed.eraseDups.foldl State.bringUpFail s
    let s : State := sole.eraseDups.foldl State.soleFail s
    (s.onBoot (fun b => { b with stage := 5 })).setReady

/-! ### The Stavuf watchdog (R435) -/

/-- Ticks of TIME in 100 ms. -/
def watchdogTicks : Nat := 10000000

/-- Whether the firmware runs: the ROM has handed over, and Stavuf is not held. -/
def State.firmware (s : State) : Bool := decide (3 ≤ s.boot.stage) && decide (s.boot.stage ≤ 5) && !s.boot.svcHeld

/-- STAVUF_WATCHDOG_EXPIRY: after 100 ms with no kick; TIME stands still after a trip. -/
def State.watchdog (s : State) : State :=
  if s.firmware && (s.pwr.trip || decide (s.boot.kickAt + watchdogTicks ≤ s.time)) then
    let job := match s.runSlot with
      | some j => if (s.job j).st.tearable then some j else none
      | none => none
    let s : State := (s.onBoot (fun b => { b with svcHeld := true })).onPwr (fun p => { p with b := 224 })
    let s : State := s.setFatal.fault 8 0 job Page.stavuf.unit (if job.isSome then 3 else 2) (natLe 1 3)
    s.tearJob job 8
  else s

/-- SVC_KICK by Stavuf restarts the timer; another agent's write is ignored. -/
def State.kick (s : State) (who : Agent) : State :=
  match who with
  | .svc => s.onBoot (fun b => { b with kickAt := s.time })
  | _ => s

/-! ### Meanings -/

/-- PERST_N_ASSERT (R465). -/
def execPerstNAssert (s : State) : Host.Outcome State Fault Refusal := .next (s.inReset false s.boot.devRst s.boot.pwrgd)
/-- DEV_RST_N_ASSERT (R465). -/
def execDevRstNAssert (s : State) : Host.Outcome State Fault Refusal := .next (s.inReset s.boot.perst false s.boot.pwrgd)
/-- PWRGD_CORE_FALL (R402, R465). -/
def execPwrgdCoreFall (s : State) : Host.Outcome State Fault Refusal := .next (s.inReset s.boot.perst s.boot.devRst false)
/-- RESET_RELEASE (R465, R466). -/
def execResetRelease (fusesOk : Bool) (s : State) : Host.Outcome State Fault Refusal :=
  .next (if s.boot.held then finish s (s.bootStart fusesOk) else s)
/-- KEY_GENERATION_DONE (R474). -/
def execKeyGenerationDone (s : State) : Host.Outcome State Fault Refusal := actSvc s State.keyDone
/-- IMAGE_BEGIN (R472). -/
def execImageBegin (len : BitVec 12) (mail : List Byte) (s : State) : Host.Outcome State Fault Refusal :=
  actSvc s (fun s => (s.putMail mail).mailbox 1 len.toNat)
/-- IMAGE_CHUNK (R472). -/
def execImageChunk (len : BitVec 12) (mail : List Byte) (s : State) : Host.Outcome State Fault Refusal :=
  actSvc s (fun s => (s.putMail mail).mailbox 2 len.toNat)
/-- IMAGE_END (R472). -/
def execImageEnd (len : BitVec 12) (s : State) : Host.Outcome State Fault Refusal := actSvc s (fun s => s.mailbox 3 len.toNat)
/-- IMAGE_VERIFY_DONE (R470). -/
def execImageVerifyDone (s : State) : Host.Outcome State Fault Refusal := actSvc s State.verified
/-- SET_JOBKEY (R472, R476). -/
def execSetJobkey (len : BitVec 12) (mail : List Byte) (s : State) : Host.Outcome State Fault Refusal :=
  actSvc s (fun s => (s.putMail mail).mailbox 4 len.toNat)
/-- FIRMWARE_START_TIMEOUT (R470). -/
def execFirmwareStartTimeout (s : State) : Host.Outcome State Fault Refusal := actSvc s State.startTimeout
/-- BRING_UP_START (R466). -/
def execBringUpStart (s : State) : Host.Outcome State Fault Refusal := actSvc s State.bringUp
/-- BRING_UP_COMPLETE (R468). -/
def execBringUpComplete (failed : List Block) (sole : List SoleUnit) (s : State) : Host.Outcome State Fault Refusal :=
  act s (fun s => s.upDone failed sole)
/-- SVC_KICK (R435). -/
def execSvcKick (who : Agent) (s : State) : Host.Outcome State Fault Refusal := actSvc s (fun s => s.kick who)
/-- STAVUF_WATCHDOG_EXPIRY (R435). -/
def execStavufWatchdogExpiry (s : State) : Host.Outcome State Fault Refusal := actSvc s State.watchdog

end Sys2Proof.Machine
end

