-- ==== Sys2Proof/Machine/Identity.lean ====
section
/-! DEFINITION. The security page (R464), the debug port (R477), the sideband (R473), attestation over DOE (R478, R479). -/

namespace Sys2Proof.Machine

/-! ### Security page, debug port -/

/-- A host write of SEC_POLICY (R464, Table 16.18): the first takes effect and locks the policy. -/
def State.secPolicy (s : State) (v : Nat) : State :=
  if bitAt (s.preg .security 0x100) 3 then s.secFault 3 0x104
  else
    let s : State := if v / 4 = 0 then s else s.bump .security 0xF8
    (s.setPreg .security 0x104 (v % 4)).setSec 3 true

/-- PRIVATE_DEBUG_INSTRUCTION (R477): while the port is locked, class 12 and no effect. -/
def State.debugDenied (s : State) : State := s.secFault 2 0

/-! ### Sideband (R473) -/

/-- Whether the firmware serves a sideband. -/
def State.sideband (s : State) : Bool :=
  let c := s.preg .stavuf 0x108
  s.boot.stage == 5 && !s.boot.svcHeld && (bitAt c 16 || bitAt c 17)

/-- The pages that the sideband selects. -/
def sbPages : List Page := [.identity, .power, .thermal]

/-- A three-byte write: a page and an offset; a page that does not exist is ignored. -/
def State.sbSelect (s : State) (page off : Nat) : State :=
  if s.sideband && decide (page < 3) then s.onBoot (fun b => { b with sbPage := page, sbOff := off }) else s

/-- A 4-byte read: the register, and the offset advanced. At an offset that holds no register the manual states no value: it
is free (log 8). -/
def State.sbRead (s : State) : State :=
  if !s.sideband then s
  else
    let o := s.boot.sbOff
    let next (s : State) : State := s.onBoot (fun b => { b with sbOff := (b.sbOff + 4) % 65536 })
    match sbPages[s.boot.sbPage]? with
    | some p =>
      if o < 0x1000 ∧ o % 4 = 0 then next (s.send (.answer (natLe 4 (s.readReg (p.base + o)))))
      else next (s.useFree.send (.answer (natLe 4 s.freeWord.toNat)))
    | none => s

/-! ### Attestation (R478, R479) -/

/-- STATUS of a request: the identity service is open once the key is ready and while Stavuf is not held (R479). -/
def State.doeStatus (s : State) (ok : Bool) : Nat := if !s.boot.keyReady || s.boot.svcHeld then 0x10 else if ok then 0 else 0x7F

/-- A response of data object type 0x01: OP, STATUS, two reserved bytes, and the body where STATUS is OK. -/
def State.doeAnswer (s : State) (op : Nat) (ok : Bool) (body : List Byte) : State :=
  let st := s.doeStatus ok
  s.send (.answer (natLe 1 op ++ natLe 1 st ++ zeros 2 ++ (if st = 0 then body else [])))

/-- DOE Discovery (PRESUMED from the PCI Express specification, log 70): vendor ID, object type and next index of entry 0, the
discovery object, and entry 1, Yarfer's. -/
def doeEntry (i : Nat) : List Byte :=
  match i with
  | 0 => natLe 2 1 ++ [0] ++ [1]
  | 1 => natLe 2 Config.yarferVendorId.toNat ++ [1] ++ [0]
  | _ => natLe 2 0xFFFF ++ [0xFF] ++ [0]

/-- GET_ID's body. -/
def State.idBody (s : State) : List Byte :=
  natLe 4 (s.identReg 0x100) ++ natLe 8 Config.serial.toNat ++ identityKey

/-- GET_CERTS's body. -/
def State.certBody (s : State) (off len : Nat) : List Byte := natLe 4 s.boot.bundle.length ++ (s.boot.bundle.drop off).take len

/-- The ASCII string OARIC-ATTEST-1. -/
def attestTag : List Byte := [0x4F, 0x41, 0x52, 0x49, 0x43, 0x2D, 0x41, 0x54, 0x54, 0x45, 0x53, 0x54, 0x2D, 0x31]

/-- ATTEST's body without its signature. -/
def State.attestBody (s : State) (nonce : List Byte) (mask : Nat) : List Byte :=
  nonce ++ natLe 1 mask ++ natLe 4 (s.identReg 0x124) ++ natLe 4 (s.preg .security 0x100) ++ natLe 4 s.dswWord ++ natLe 8 s.time ++
    ((List.range 6).filter (bitAt mask)).flatMap s.meas

/-- ATTEST's response (R478): signed over the string and every preceding byte of the object. A mask that selects no
measurement of the device, or a nonce of another length, is malformed. -/
def State.attest (s : State) (nonce : List Byte) (mask : Nat) : State :=
  let body := s.attestBody nonce mask
  let head := natLe 1 3 ++ natLe 1 0 ++ zeros 2
  s.doeAnswer 3 (nonce.length == 32 && decide (mask < 64)) (body ++ identitySign (attestTag ++ head ++ body))

/-! ### Meanings -/

/-- SEC_POLICY_WRITE (R464). -/
def execSecPolicyWrite (value : W32) (s : State) : Host.Outcome State Fault Refusal := actSvc s (fun s => s.secPolicy value.toNat)
/-- PRIVATE_DEBUG_INSTRUCTION (R477): unlocked, its effect is Yarfer's own and is refused. -/
def execPrivateDebugInstruction (_ir : Nat) (s : State) : Host.Outcome State Fault Refusal :=
  if s.svcLive && !s.debugLocked then .refused .privateDebugEffect else actSvc s State.debugDenied
/-- SIDEBAND_PAGE_SELECT (R473). -/
def execSidebandPageSelect (page : Byte) (off : BitVec 16) (s : State) : Host.Outcome State Fault Refusal :=
  actSvc s (fun s => s.sbSelect page.toNat off.toNat)
/-- SIDEBAND_READ (R473). -/
def execSidebandRead (s : State) : Host.Outcome State Fault Refusal := actSvc s State.sbRead
/-- DOE_DISCOVERY (R478). -/
def execDoeDiscovery (index : Byte) (s : State) : Host.Outcome State Fault Refusal := actSvc s (fun s => s.send (.answer (doeEntry index.toNat)))
/-- GET_ID (R478). -/
def execGetId (s : State) : Host.Outcome State Fault Refusal := actSvc s (fun s => s.doeAnswer 1 true s.idBody)
/-- GET_CERTS (R478). -/
def execGetCerts (off len : W32) (s : State) : Host.Outcome State Fault Refusal :=
  actSvc s (fun s => s.doeAnswer 2 (decide (len.toNat ≤ 4096)) (s.certBody off.toNat len.toNat))
/-- ATTEST (R478). -/
def execAttest (nonce : List Byte) (mask : Byte) (s : State) : Host.Outcome State Fault Refusal :=
  actSvc s (fun s => s.attest nonce mask.toNat)

end Sys2Proof.Machine
end

