-- ==== Sys2Proof/Machine/Registers.lean ====
section
/-! DEFINITION. Writes of control-page registers by the host, Stavuf and the program (R12 to R16, R443 to R451, R461): each
goes to the shared operation of its register, or acts by its access code. -/

namespace Sys2Proof.Machine

/-- A reserved write counted on its page (R16, R448). -/
def State.rsvd (s : State) (p : Page) (bad : Bool) : State := if bad then s.bump p 0xF8 else s

/-- A program's access to a register that R461 does not admit (R460): class 14, check 0x08, and the teardown. -/
def State.progDenied (s : State) (p : Page) (off : Nat) : State :=
  match s.runSlot with
  | some j => s.progFault (some j) p.unit 0x7F 0xFFFF 0 8 0xFF off
  | none => s

/-! ### Access codes (R13) -/

/-- A write by access code: RW fields take their value, W1C bits are cleared, ST fields are staged with the reserved bits
that the commit checks, RO fields keep theirs; reserved bits are counted (R16). -/
def State.codeWrite (s : State) (p : Page) (o v : Nat) (d : RegDef) : State :=
  let off := p.base + o
  let s : State := s.rsvd p (v &&& (all32 - d.defined) != 0)
  if d.st ≠ 0 then { s with staged := tset s.staged off (BitVec.ofNat 32 v) }
  else if d.rw = 0 ∧ d.w1c = 0 then s
  else
    let old := s.reg off
    s.setReg off ((old &&& (all32 - d.rw - (d.w1c &&& v))) ||| (v &&& d.rw))

/-- A write of one half of a counter (R102): 48 bits, bits [63:48] discarded. -/
def State.ctrWrite (s : State) (p : Page) (o v : Nat) : State :=
  let lo := o / 8 * 8
  let old := s.counter p lo
  let new := if o % 8 = 0 then old / 2 ^ 32 * 2 ^ 32 + v else old % 2 ^ 32 + v % 2 ^ 16 * 2 ^ 32
  if p = .health ∧ isCtr p lo ∧ lo < 0x58 then
    let m := s.lossOf s.lossSlot
    s.setLoss s.lossSlot (if lo = 0x40 then { m with samples := new } else if lo = 0x48 then { m with spikes := new }
      else { m with nonfinite := new })
  else { s with ctrs := tset s.ctrs (p.base + lo) new }

/-! ### Registers with an effect of their own -/

/-- PAGE_STATE (Table 13.9): REQ of a block's first page; other pages ignore it. -/
def State.pageReq (s : State) (b : Option Block) (v : Nat) : State :=
  match b, fld v 9 8 with
  | some b, 1 => s.closeBlock b false
  | some b, 2 => s.openBlock b
  | some b, 3 => s.closeBlock b true
  | _, _ => s

/-- The block whose first page a page is. -/
def pageBlock : Page → Option Block
  | .core n => if h : n < 128 then some (.core ⟨n, h⟩) else none
  | .quarry n => if h : n < 128 then some (.quarry ⟨n, h⟩) else none
  | .port p => if h : p < 8 then some (.port ⟨p, h⟩) else none
  | _ => none

/-- QCTL (Table 8.13): HOT_FORCE that brings the hot mode counts an entry. -/
def State.qctl (s : State) (n v : Nat) (d : RegDef) : State :=
  let was := s.hotMode n
  let s : State := s.codeWrite (.quarry n) 0x100 v d
  if s.hotMode n && !was then s.bump .thermal 0x58 else s

/-- Word k of a host-queue entry but its first (R361): ignored and counted while the queue is in use. -/
def State.hqWrite (s : State) (h k v : Nat) : State :=
  let s : State := s.rsvd (hqPage h) (v &&& hqReserved k != 0)
  if 4 ≤ k ∧ k < 7 then s
  else if (s.hq h).st ≠ 0 then s.bump .hif 0x78
  else s.setReg (hqOff h + 4 * k) v

/-- Whether any sequence slot is not FREE (R317). -/
def State.seqUsed (s : State) : Bool := s.att.seqs.any (fun e => e.2.st != 0)

/-- Whether a page stays in reach after a trip: Stavuf's pages on SVCLK and the host interface's (R419, R428, R479). -/
def Page.staysUp : Page → Bool
  | .identity | .state | .interrupt | .fault | .hif | .health | .hq _ | .power | .thermal | .stavuf | .security => true
  | _ => false

/-- A write of one register by the host or Stavuf; a page whose clock a trip has stopped takes none. -/
def State.write32 (s : State) (p : Page) (o v : Nat) (who : Agent) : State :=
  if s.pwr.trip && !p.staysUp then s
  else if p = .security ∧ who = .host then
    (if o = 0x104 then s.secPolicy v else s.secFault 3 o)
  else if isCtr p o || (o % 8 == 4 && isCtr p (o - 4)) then s.ctrWrite p o v
  else if o = 0x10 then s.discard (p.base + o) v
  else match regDef p o with
    | none =>
      (match p with
       | .hq k => if 0x800 ≤ o ∧ o % 0x20 = 0x1C then s.hqWrite (64 * k + (o - 0x800) / 0x20) 7 v else s.rsvd p (v != 0)
       | _ => s.rsvd p (v != 0))
    | some d =>
      if o = 0xC then (s.rsvd p (v &&& (all32 - d.defined) != 0)).pageReq (pageBlock p) v
      else match p with
      | .commit => if o = 0x100 then s.commitReq v (who == .svc) else s.codeWrite p o v d
      | .state => if o = 0x104 then (s.rsvd p (v / 2 ^ 16 != 0)).dswAck v else s.codeWrite p o v d
      | .interrupt =>
        if 0x800 ≤ o ∧ o < 0xC00 ∧ o % 16 = 12 then (s.rsvd p (v / 2 != 0)).msixMask ((o - 0x800) / 16) (bitAt v 0) else s.codeWrite p o v d
      | .fault => if o = 0x10C then s.kick who else s.codeWrite p o v d
      | .hq k =>
        let h := 64 * k + (o - 0x800) / 0x20
        if 0x800 ≤ o then (if o % 0x20 = 0 then s.hqWord0 h v else s.hqWrite h (o % 0x20 / 4) v) else s.codeWrite p o v d
      | .core n => if o = 0x11C then s.lossSample n (BitVec.ofNat 32 v) else s.codeWrite p o v d
      | .quarry n =>
        if 0x800 ≤ o then s.writeWin n ((o - 0x800) / 0x20) (o % 0x20 / 4) v none
        else if o = 0x100 then s.qctl n v d else s.codeWrite p o v d
      | .att => if 0x100 ≤ o ∧ o ≤ 0x12C ∧ s.seqUsed then s.bump .att 0x88 else s.codeWrite p o v d
      | .stavuf =>
        if o = 0x104 then (s.rsvd p (v % 2 ^ 12 != 0)).mailbox (fld v 31 24) (fld v 23 12)
        else if o = 0x108 ∧ s.boot.stage = 5 then s.rsvd p (v &&& (all32 - d.defined) != 0)
        else s.codeWrite p o v d
      | .security => (s.rsvd p (v &&& (all32 - d.defined) != 0)).setPreg p o (v &&& d.defined)
      | _ => s.codeWrite p o v d

/-- A write of one register by the program: window words and LOSS_IN of its placed cores (R461). -/
def State.progWrite (s : State) (off v : Nat) : State :=
  match pageOf off with
  | none => s.progDenied .hif off
  | some p =>
    let c := match p with
      | .core n | .quarry n => n
      | _ => 0
    match s.mirrorEntry c (v * 2 ^ 32 + off) with
    | some s => s
    | none => s.progDenied p off

/-- REGISTER_WRITE: 32 or 64 bits at a BAR0 offset. -/
def State.regWrite (s : State) (off v : Nat) (wide : Bool) (who : Agent) : State :=
  let lo := v % 2 ^ 32
  let hi := v / 2 ^ 32 % 2 ^ 32
  if who = .program then
    (if off % 4 ≠ 0 then s.progDenied .hif off
     else if wide then (s.progWrite off lo).progWrite (off + 4) hi else s.progWrite off lo)
  else if !bar0Valid off (if wide then 8 else 4) true then s.bar0Invalid off 4 true
  else if isBell off then (if s.pwr.trip && decide (off < 0x538000) then s else s.doorbell ((off - 0x500000) / 8) (v % 2 ^ 64))
  else match pageOf off with
    | none => s
    | some p =>
      let s : State := s.write32 p (off % 0x1000) lo who
      if wide then s.write32 p (off % 0x1000 + 4) hi who else s

/-- LOSS_IN written (R434, R461). -/
def State.lossIn (s : State) (n : Nat) (v : W32) (who : Agent) : State :=
  match who with
  | .program => if s.mirrorPage ((Page.core n).base + 0x11C) then s.lossSample n v else s.progDenied (.core n) ((Page.core n).base + 0x11C)
  | _ => s.lossSample n v

/-! ### Meanings -/

/-- REGISTER_WRITE (R13). -/
def execRegisterWrite (off : BitVec 25) (wide : Bool) (value : W64) (who : Agent) (s : State) : Host.Outcome State Fault Refusal :=
  actSvc s (fun s => s.regWrite off.toNat value.toNat wide who)
/-- LOSS_IN (R434). -/
def execLossIn (c : CoreId) (value : W32) (who : Agent) (s : State) : Host.Outcome State Fault Refusal :=
  act s (fun s => s.lossIn c value who)

end Sys2Proof.Machine
end

