-- ==== Sys2Proof/Machine/Dispatch.lean ====
section
/-! DEFINITION. The effect of a command on everything but the queue: one arm per constructor of Instr. -/

namespace Sys2Proof.Machine

/-- The effect of a command. -/
def exec (i : Instr) (s : State) : Host.Outcome State Fault Refusal :=
  match i with
  | .subBundleHold c sb => Sys2Proof.Machine.execSubBundleHold c sb s
  | .ctlNop c => Sys2Proof.Machine.execCtlNop c s
  | .ctlLoop c last count => Sys2Proof.Machine.execCtlLoop c last count s
  | .ctlSkip c level cond count => Sys2Proof.Machine.execCtlSkip c level cond count s
  | .ctlArrive c id => Sys2Proof.Machine.execCtlArrive c id s
  | .ctlWait c id => Sys2Proof.Machine.execCtlWait c id s
  | .ctlLintel c id => Sys2Proof.Machine.execCtlLintel c id s
  | .ctlSwait c cond head => Sys2Proof.Machine.execCtlSwait c cond head s
  | .ctlSdrop c countM1 head => Sys2Proof.Machine.execCtlSdrop c countM1 head s
  | .ctlSeta c areg half imm => Sys2Proof.Machine.execCtlSeta c areg half imm s
  | .ctlSlotld c first countM1 row => Sys2Proof.Machine.execCtlSlotld c first countM1 row s
  | .ctlEnd c => Sys2Proof.Machine.execCtlEnd c s
  | .strIssue c queue areg => Sys2Proof.Machine.execStrIssue c queue areg s
  | .strStop c queue => Sys2Proof.Machine.execStrStop c queue s
  | .ldTload c orient loc wdesc trow => Sys2Proof.Machine.execLdTload c orient loc wdesc trow s
  | .ldStage c half loc adesc mode nsetsM1 wslot => Sys2Proof.Machine.execLdStage c half loc adesc mode nsetsM1 wslot s
  | .ldVec c vreg part loc desc => Sys2Proof.Machine.execLdVec c vreg part loc desc s
  | .stOut c accRow fset odesc loc flush iter u => Sys2Proof.Machine.execStOut c accRow fset odesc loc flush iter u s
  | .stVec c vreg part loc desc => Sys2Proof.Machine.execStVec c vreg part loc desc s
  | .arrMul c add iter accRow bad => Sys2Proof.Machine.execArrMul c add iter accRow bad s
  | .arrSwap c fset adesc => Sys2Proof.Machine.execArrSwap c fset adesc s
  | .vecAlu c l u => Sys2Proof.Machine.execVecAlu c l u s
  | .vecSfu c l u => Sys2Proof.Machine.execVecSfu c l u s
  | .vecRed c l u => Sys2Proof.Machine.execVecRed c l u s
  | .vecDact c l u => Sys2Proof.Machine.execVecDact c l u s
  | .instructionFetch c block => Sys2Proof.Machine.execInstructionFetch c block s
  | .tileLoaderRow c => Sys2Proof.Machine.execTileLoaderRow c s
  | .arrayCheckResult c u => Sys2Proof.Machine.execArrayCheckResult c u s
  | .probeCheckResult c u => Sys2Proof.Machine.execProbeCheckResult c u s
  | .lintelRelease j id => Sys2Proof.Machine.execLintelRelease j id s
  | .slotDeadlock c => Sys2Proof.Machine.execSlotDeadlock c s
  | .lintelWatchdog c => Sys2Proof.Machine.execLintelWatchdog c s
  | .streamWatchdogSample c => Sys2Proof.Machine.execStreamWatchdogSample c s
  | .streamDescriptorStart c queue => Sys2Proof.Machine.execStreamDescriptorStart c queue s
  | .streamRequestIssue c engine => Sys2Proof.Machine.execStreamRequestIssue c engine s
  | .windowEntryGenerate c queue => Sys2Proof.Machine.execWindowEntryGenerate c queue s
  | .streamReply c tag ans => Sys2Proof.Machine.execStreamReply c tag ans s
  | .streamHalt c queue => Sys2Proof.Machine.execStreamHalt c queue s
  | .pageRequestSend c queue => Sys2Proof.Machine.execPageRequestSend c queue s
  | .pageRequestResponse c queue r => Sys2Proof.Machine.execPageRequestResponse c queue r s
  | .atsTranslationResponse pasid page readable writable => Sys2Proof.Machine.execAtsTranslationResponse pasid page readable writable s
  | .atsInvalidation pasid page => Sys2Proof.Machine.execAtsInvalidation pasid page s
  | .resume c queue rsvd => Sys2Proof.Machine.execResume c queue rsvd s
  | .stop c queue rsvd => Sys2Proof.Machine.execStop c queue rsvd s
  | .sillPatrolScrub c errs => Sys2Proof.Machine.execSillPatrolScrub c errs s
  | .sillRepair c => Sys2Proof.Machine.execSillRepair c s
  | .remoteSillRequest c tag => Sys2Proof.Machine.execRemoteSillRequest c tag s
  | .meshParityError c tag => Sys2Proof.Machine.execMeshParityError c tag s
  | .quarryAdmission c tag => Sys2Proof.Machine.execQuarryAdmission c tag s
  | .quarryCommandIssue q channel errs => Sys2Proof.Machine.execQuarryCommandIssue q channel errs s
  | .rowIdleClose q bank => Sys2Proof.Machine.execRowIdleClose q bank s
  | .refresh q bank => Sys2Proof.Machine.execRefresh q bank s
  | .quarryPatrolScrub q errs => Sys2Proof.Machine.execQuarryPatrolScrub q errs s
  | .quarryRepair q => Sys2Proof.Machine.execQuarryRepair q s
  | .sensorRead dram logic => Sys2Proof.Machine.execSensorRead dram logic s
  | .hotModeExit q => Sys2Proof.Machine.execHotModeExit q s
  | .windowOpen q w word0 who => Sys2Proof.Machine.execWindowOpen q w word0 who s
  | .windowClose q w who => Sys2Proof.Machine.execWindowClose q w who s
  | .windowClosed q w => Sys2Proof.Machine.execWindowClosed q w s
  | .benchCommandStart q b => Sys2Proof.Machine.execBenchCommandStart q b s
  | .add q b mismatch => Sys2Proof.Machine.execAdd q b mismatch s
  | .xchg q b mismatch => Sys2Proof.Machine.execXchg q b mismatch s
  | .fill q b mismatch => Sys2Proof.Machine.execFill q b mismatch s
  | .toxf q b mismatch => Sys2Proof.Machine.execToxf q b mismatch s
  | .xfadd q b mismatch => Sys2Proof.Machine.execXfadd q b mismatch s
  | .sgd q b mismatch => Sys2Proof.Machine.execSgd q b mismatch s
  | .adamw q b mismatch => Sys2Proof.Machine.execAdamw q b mismatch s
  | .lion q b mismatch => Sys2Proof.Machine.execLion q b mismatch s
  | .benchExport q b r => Sys2Proof.Machine.execBenchExport q b r s
  | .benchImport q b r data => Sys2Proof.Machine.execBenchImport q b r data s
  | .tagArm j tag => Sys2Proof.Machine.execTagArm j tag s
  | .shardVerify j tag shard => Sys2Proof.Machine.execShardVerify j tag shard s
  | .tagReduced j tag => Sys2Proof.Machine.execTagReduced j tag s
  | .verdictTrigger j tag => Sys2Proof.Machine.execVerdictTrigger j tag s
  | .gatherSend j tag => Sys2Proof.Machine.execGatherSend j tag s
  | .openMsg p => Sys2Proof.Machine.execOpenMsg p s
  | .acceptMsg p => Sys2Proof.Machine.execAcceptMsg p s
  | .refuseMsg p => Sys2Proof.Machine.execRefuseMsg p s
  | .openRetry j tag => Sys2Proof.Machine.execOpenRetry j tag s
  | .doneMsg p => Sys2Proof.Machine.execDoneMsg p s
  | .deliverChecksum p => Sys2Proof.Machine.execDeliverChecksum p s
  | .gathered p => Sys2Proof.Machine.execGathered p s
  | .abortMsg p => Sys2Proof.Machine.execAbortMsg p s
  | .reductionWatchdog j tag => Sys2Proof.Machine.execReductionWatchdog j tag s
  | .attentionRequest c head => Sys2Proof.Machine.execAttentionRequest c head s
  | .allocateStep => Sys2Proof.Machine.execAllocateStep s
  | .pagedRequestProceed n => Sys2Proof.Machine.execPagedRequestProceed n s
  | .tileEntryEmit n => Sys2Proof.Machine.execTileEntryEmit n s
  | .swapOutComplete slot present => Sys2Proof.Machine.execSwapOutComplete slot present s
  | .admitSeq => Sys2Proof.Machine.execAdmitSeq s
  | .releaseSeq => Sys2Proof.Machine.execReleaseSeq s
  | .linkTrainingDone p t => Sys2Proof.Machine.execLinkTrainingDone p t s
  | .flitTransmit p => Sys2Proof.Machine.execFlitTransmit p s
  | .flitReceive p flit fecCorr fecUncorr => Sys2Proof.Machine.execFlitReceive p flit fecCorr fecUncorr s
  | .retryReq p seq => Sys2Proof.Machine.execRetryReq p seq s
  | .retryReqResend p => Sys2Proof.Machine.execRetryReqResend p s
  | .ackTimeout p => Sys2Proof.Machine.execAckTimeout p s
  | .laneAlignmentLoss p => Sys2Proof.Machine.execLaneAlignmentLoss p s
  | .retrainDone p t => Sys2Proof.Machine.execRetrainDone p t s
  | .write p => Sys2Proof.Machine.execWrite p s
  | .read p => Sys2Proof.Machine.execRead p s
  | .xfaddRequest p => Sys2Proof.Machine.execXfaddRequest p s
  | .handoff p => Sys2Proof.Machine.execHandoff p s
  | .completion p => Sys2Proof.Machine.execCompletion p s
  | .readData p => Sys2Proof.Machine.execReadData p s
  | .lintel p => Sys2Proof.Machine.execLintel p s
  | .txnTimeout p txn => Sys2Proof.Machine.execTxnTimeout p txn s
  | .parkTimeout p channel => Sys2Proof.Machine.execParkTimeout p channel s
  | .ethFrameReceive p frame => Sys2Proof.Machine.execEthFrameReceive p frame s
  | .pfcPause p prio pause => Sys2Proof.Machine.execPfcPause p prio pause s
  | .ethRetryTimeout p peer => Sys2Proof.Machine.execEthRetryTimeout p peer s
  | .bar0InvalidAccess off acc => Sys2Proof.Machine.execBar0InvalidAccess off acc s
  | .registerWrite off wide value who => Sys2Proof.Machine.execRegisterWrite off wide value who s
  | .counterLowRead r => Sys2Proof.Machine.execCounterLowRead r s
  | .counterHighRead off => Sys2Proof.Machine.execCounterHighRead off s
  | .bar2Read off len => Sys2Proof.Machine.execBar2Read off len s
  | .bar2Write off data poisoned => Sys2Proof.Machine.execBar2Write off data poisoned s
  | .queueEnable h word0 => Sys2Proof.Machine.execQueueEnable h word0 s
  | .queueDisable h => Sys2Proof.Machine.execQueueDisable h s
  | .sqStopComplete h => Sys2Proof.Machine.execSqStopComplete h s
  | .sqDoorbell h value => Sys2Proof.Machine.execSqDoorbell h value s
  | .cqDoorbell h value => Sys2Proof.Machine.execCqDoorbell h value s
  | .sqEntryFetch h entry => Sys2Proof.Machine.execSqEntryFetch h entry s
  | .ackFaultRecord => Sys2Proof.Machine.execAckFaultRecord s
  | .clearEventFlag mask => Sys2Proof.Machine.execClearEventFlag mask s
  | .intHoldoffExpiry h => Sys2Proof.Machine.execIntHoldoffExpiry h s
  | .hostLinkDown => Sys2Proof.Machine.execHostLinkDown s
  | .load image => Sys2Proof.Machine.execLoad image s
  | .run => Sys2Proof.Machine.execRun s
  | .park => Sys2Proof.Machine.execPark s
  | .teardown => Sys2Proof.Machine.execTeardown s
  | .unload => Sys2Proof.Machine.execUnload s
  | .preemptDrainDone => Sys2Proof.Machine.execPreemptDrainDone s
  | .drainLimitExpiry => Sys2Proof.Machine.execDrainLimitExpiry s
  | .switchSaveDone => Sys2Proof.Machine.execSwitchSaveDone s
  | .switchRestoreDone => Sys2Proof.Machine.execSwitchRestoreDone s
  | .reqClose b => Sys2Proof.Machine.execReqClose b s
  | .reqOpen b => Sys2Proof.Machine.execReqOpen b s
  | .reqRetire b => Sys2Proof.Machine.execReqRetire b s
  | .blockClosed b => Sys2Proof.Machine.execBlockClosed b s
  | .blockSelfTestDone b pass => Sys2Proof.Machine.execBlockSelfTestDone b pass s
  | .pmbusPoll readings => Sys2Proof.Machine.execPmbusPoll readings s
  | .pmbusFailLimit r => Sys2Proof.Machine.execPmbusFailLimit r s
  | .avsSettleTimeout => Sys2Proof.Machine.execAvsSettleTimeout s
  | .louvreUpdate => Sys2Proof.Machine.execLouvreUpdate s
  | .thermalTermUpdate => Sys2Proof.Machine.execThermalTermUpdate s
  | .droopDetect k deep => Sys2Proof.Machine.execDroopDetect k deep s
  | .droopStepDown k => Sys2Proof.Machine.execDroopStepDown k s
  | .pwrAlertNFall => Sys2Proof.Machine.execPwrAlertNFall s
  | .pwrAlertNRise lowNs => Sys2Proof.Machine.execPwrAlertNRise lowNs s
  | .alertRowRelease => Sys2Proof.Machine.execAlertRowRelease s
  | .alertLimitExpiry => Sys2Proof.Machine.execAlertLimitExpiry s
  | .excursionBegin mv => Sys2Proof.Machine.execExcursionBegin mv s
  | .excursionEnd lowest ns => Sys2Proof.Machine.execExcursionEnd lowest ns s
  | .coreDomainReset mv => Sys2Proof.Machine.execCoreDomainReset mv s
  | .coreDomainRecovery => Sys2Proof.Machine.execCoreDomainRecovery s
  | .vddCoreRecoveryTimeout => Sys2Proof.Machine.execVddCoreRecoveryTimeout s
  | .thermalTrip logic sensor reading => Sys2Proof.Machine.execThermalTrip logic sensor reading s
  | .lossIn c value who => Sys2Proof.Machine.execLossIn c value who s
  | .svcKick who => Sys2Proof.Machine.execSvcKick who s
  | .stavufWatchdogExpiry => Sys2Proof.Machine.execStavufWatchdogExpiry s
  | .commitReq value who => Sys2Proof.Machine.execCommitReq value who s
  | .commitApply fenceNs => Sys2Proof.Machine.execCommitApply fenceNs s
  | .discard off value => Sys2Proof.Machine.execDiscard off value s
  | .perstNAssert => Sys2Proof.Machine.execPerstNAssert s
  | .devRstNAssert => Sys2Proof.Machine.execDevRstNAssert s
  | .pwrgdCoreFall => Sys2Proof.Machine.execPwrgdCoreFall s
  | .resetRelease fusesOk => Sys2Proof.Machine.execResetRelease fusesOk s
  | .keyGenerationDone => Sys2Proof.Machine.execKeyGenerationDone s
  | .imageBegin len mail => Sys2Proof.Machine.execImageBegin len mail s
  | .imageChunk len mail => Sys2Proof.Machine.execImageChunk len mail s
  | .imageEnd len => Sys2Proof.Machine.execImageEnd len s
  | .imageVerifyDone => Sys2Proof.Machine.execImageVerifyDone s
  | .setJobkey len mail => Sys2Proof.Machine.execSetJobkey len mail s
  | .firmwareStartTimeout => Sys2Proof.Machine.execFirmwareStartTimeout s
  | .bringUpComplete failed sole => Sys2Proof.Machine.execBringUpComplete failed sole s
  | .secPolicyWrite value => Sys2Proof.Machine.execSecPolicyWrite value s
  | .privateDebugInstruction ir => Sys2Proof.Machine.execPrivateDebugInstruction ir s
  | .sidebandPageSelect page off => Sys2Proof.Machine.execSidebandPageSelect page off s
  | .sidebandRead => Sys2Proof.Machine.execSidebandRead s
  | .doeDiscovery index => Sys2Proof.Machine.execDoeDiscovery index s
  | .getId => Sys2Proof.Machine.execGetId s
  | .getCerts off len => Sys2Proof.Machine.execGetCerts off len s
  | .attest nonce mask => Sys2Proof.Machine.execAttest nonce mask s
  | .hostLinkUp rate width flitMode => Sys2Proof.Machine.execHostLinkUp rate width flitMode s
  | .configurationRequest r => Sys2Proof.Machine.execConfigurationRequest r s
  | .swapInComplete slot data => Sys2Proof.Machine.execSwapInComplete slot data s
  | .avsVoltageReached => Sys2Proof.Machine.execAvsVoltageReached s
  | .bringUpStart => Sys2Proof.Machine.execBringUpStart s
  | .controlParityFault u off mask => Sys2Proof.Machine.execControlParityFault u off mask s

end Sys2Proof.Machine
end

