-- ==== Sys2Proof/WellFormed.lean ====
section
/-! DEFINITION. The lengths and ranges that the manual gives the operands of a command. The fields of a lane operation are
bits of a sub-bundle and may hold anything: what they forbid is a fault of the program, not an ill-formed command. -/

namespace Sys2Proof

/-- A stream queue of a core (R202): bench and link queues are no stream queues. -/
def isStream (q : BitVec 8) : Bool := decide (q.toNat < 160)

/-- An upset of one of n codewords, in one of the 36 symbols of a codeword (R184, R237). -/
def CwUpset.within (n : Nat) (u : CwUpset) : Bool := decide (u.codeword < n) && decide (u.symbol < 36)

/-- A configuration request in range: a BAR2 size of 1 to 128 GiB (Table 12.2), a 32-bit PRI allocation. -/
def CfgReq.inRange : CfgReq → Bool
  | .enablePri _ allocation => decide (allocation < 2 ^ 32)
  | .bar2Size n => decide (n ≤ 7)
  | .enableAts _ | .enablePasid _ | .tenBitTags _ | .msixMask .. => true

/-- Whether a command's operands have the lengths and ranges that the manual gives them. -/
def Instr.wellFormed : Instr → Bool
  | .subBundleHold .. | .ctlNop .. | .ctlLoop .. | .ctlSkip .. => true
  | .ctlArrive .. | .ctlWait .. | .ctlLintel .. | .ctlSwait .. => true
  | .ctlSdrop .. | .ctlSeta .. | .ctlSlotld .. | .ctlEnd .. => true
  | .strIssue .. | .strStop .. | .ldTload .. | .ldStage .. => true
  | .ldVec .. | .stOut .. | .stVec .. | .arrMul .. => true
  | .arrSwap .. | .vecAlu .. | .vecSfu .. | .vecRed .. => true
  | .vecDact .. | .instructionFetch .. | .tileLoaderRow .. | .arrayCheckResult .. => true
  | .probeCheckResult .. | .lintelRelease .. | .slotDeadlock .. | .lintelWatchdog .. => true
  | .streamWatchdogSample .. => true
  | .streamDescriptorStart _ q => isStream q
  | .streamRequestIssue .. => true
  | .windowEntryGenerate _ q => isStream q
  | .streamReply .. => true
  | .streamHalt _ q => isStream q
  | .pageRequestSend _ q => isStream q
  | .pageRequestResponse _ q _ => isStream q
  | .atsTranslationResponse .. | .atsInvalidation .. => true
  | .resume _ q _ => isStream q
  | .stop _ q _ => isStream q
  | .sillPatrolScrub _ errs => errs.all (CwUpset.within 256)
  | .sillRepair .. | .remoteSillRequest .. | .meshParityError .. | .quarryAdmission .. => true
  | .quarryCommandIssue _ _ errs => errs.all (CwUpset.within 128)
  | .rowIdleClose .. | .refresh .. => true
  | .quarryPatrolScrub _ errs => errs.all (CwUpset.within 16)
  | .quarryRepair .. => true
  | .sensorRead dram logic => dram.length == 128 && logic.length == 64
  | .hotModeExit .. => true
  | .windowOpen _ _ w _ => w.toNat >>> 30 == 1
  | .windowClose .. | .windowClosed .. | .benchCommandStart .. | .add .. => true
  | .xchg .. | .fill .. | .toxf .. | .xfadd .. => true
  | .sgd .. | .adamw .. | .lion .. | .benchExport .. => true
  | .benchImport .. | .tagArm .. | .shardVerify .. | .tagReduced .. => true
  | .verdictTrigger .. | .gatherSend .. | .openMsg .. | .acceptMsg .. => true
  | .refuseMsg .. | .openRetry .. | .doneMsg .. | .deliverChecksum .. => true
  | .gathered .. | .abortMsg .. | .reductionWatchdog .. | .attentionRequest .. => true
  | .allocateStep | .pagedRequestProceed .. | .tileEntryEmit .. | .swapOutComplete .. => true
  | .admitSeq | .releaseSeq | .linkTrainingDone .. | .flitTransmit .. => true
  | .flitReceive _ flit _ _ => flit.length == 256
  | .retryReq .. | .retryReqResend .. | .ackTimeout .. | .laneAlignmentLoss .. => true
  | .retrainDone .. | .write .. | .read .. | .xfaddRequest .. => true
  | .handoff .. | .completion .. | .readData .. | .lintel .. => true
  | .txnTimeout .. | .parkTimeout .. => true
  | .ethFrameReceive _ frame => decide (frame.length ≤ 9216)
  | .pfcPause .. | .ethRetryTimeout .. => true
  | .bar0InvalidAccess _ acc => decide (1 ≤ acc.size) && decide (acc.size ≤ 4096)
  | .registerWrite off wide v _ => if wide then off.toNat % 8 == 0 else off.toNat % 4 == 0 && decide (v.toNat < 2 ^ 32)
  | .counterLowRead r => r.off.toNat % 8 == 0
  | .counterHighRead off => off.toNat % 8 == 4
  | .bar2Read off len => decide (1 ≤ len) && decide (len ≤ 512) && decide (off + len ≤ 2 ^ 37)
  | .bar2Write off data _ => decide (1 ≤ data.length) && decide (data.length ≤ 512) && decide (off + data.length ≤ 2 ^ 37)
  | .queueEnable _ w => w.getLsbD 31
  | .queueDisable .. | .sqStopComplete .. | .sqDoorbell .. | .cqDoorbell .. => true
  | .sqEntryFetch _ entry => entry.all (fun e => e.length == 64)
  | .ackFaultRecord | .clearEventFlag .. | .intHoldoffExpiry .. | .hostLinkDown => true
  | .load .. | .run | .park | .teardown => true
  | .unload | .preemptDrainDone | .drainLimitExpiry | .switchSaveDone => true
  | .switchRestoreDone | .reqClose .. | .reqOpen .. | .reqRetire .. => true
  | .blockClosed .. | .blockSelfTestDone .. => true
  | .pmbusPoll readings => readings.length == 16
  | .pmbusFailLimit .. | .avsSettleTimeout | .louvreUpdate | .thermalTermUpdate => true
  | .droopDetect .. | .droopStepDown .. | .pwrAlertNFall | .pwrAlertNRise .. => true
  | .alertRowRelease | .alertLimitExpiry | .excursionBegin .. | .excursionEnd .. => true
  | .coreDomainReset .. | .coreDomainRecovery | .vddCoreRecoveryTimeout => true
  | .thermalTrip logic sensor _ => decide (sensor.toNat < if logic then 64 else 128)
  | .lossIn .. | .svcKick .. | .stavufWatchdogExpiry | .commitReq .. => true
  | .commitApply .. => true
  | .discard off _ => off.toNat % 0x1000 == 0x10
  | .perstNAssert | .devRstNAssert | .pwrgdCoreFall | .resetRelease .. => true
  | .keyGenerationDone => true
  | .imageBegin len mail => decide (mail.length ≤ 2048) && decide (len.toNat ≤ 2048)
  | .imageChunk len mail => decide (mail.length ≤ 2048) && decide (len.toNat ≤ 2048)
  | .imageEnd len => decide (len.toNat ≤ 2048)
  | .imageVerifyDone => true
  | .setJobkey len mail => decide (mail.length ≤ 2048) && decide (len.toNat ≤ 2048)
  | .firmwareStartTimeout => true
  | .bringUpComplete failed sole => decide failed.Nodup && decide sole.Nodup
  | .secPolicyWrite .. | .privateDebugInstruction .. | .sidebandPageSelect .. | .sidebandRead => true
  | .doeDiscovery .. | .getId | .getCerts .. => true
  | .attest nonce _ => nonce.length == 32
  | .hostLinkUp rate width _ => decide (3 ≤ rate.toNat) && decide (rate.toNat ≤ 6) && (width == 4 || width == 8 || width == 16)
  | .configurationRequest r => r.inRange
  | .swapInComplete .. | .avsVoltageReached | .bringUpStart | .controlParityFault .. => true

end Sys2Proof
end

