-- ==== Sys2Proof/Safety.lean ====
section
/-! DEFINITION. What counts as a safe state and a safe run of the device. -/

namespace Sys2Proof.Machine

/-- The byte memory stands in its canonical form. -/
def State.memOk (s : State) : Prop := Memory.wf s.mem = true

/-- No command that waits is ill-formed. -/
def State.queueOk (s : State) : Prop := s.pending.all Instr.wellFormed = true

/-- A set of staged values: each of a block register of a page with a commit group, no register twice (R446). -/
def setOk (xs : Tab W32) : Prop :=
  xs.Pairwise (fun a b => a.1 ≠ b.1) ∧ ∀ e ∈ xs, (groupAt e.1).isSome = true ∧ 0x100 ≤ e.1 % 0x1000

/-- What is staged, and what a commit has taken of one group, are such sets (R454). -/
def State.setsOk (s : State) : Prop :=
  setOk s.staged ∧ setOk s.commit.taken ∧ ∀ e ∈ s.commit.taken, groupAt e.1 = some s.commit.group

/-- The parts of the state, as frames name them. -/
inductive Part where
  | mem | regs | ctrs | latch | cores | quarries | ports | lintels | red | att | routes | hif | jobs | sw | jobCmds
  | runSlot | flt | loss | pwr | boot | commit | events | flight | free | recs | time | out
  deriving DecidableEq, Repr

/-- What it means that a command leaves a part alone. Every command ends alike, whatever it does: CHANGE_COUNT follows the
flags, records that wait to leave take the state word, and a rising flag may send an MSI-X message (R367, R368, R371); those
three are no part's own. -/
def Part.kept (s t : State) : Part → Prop
  | .mem => (∀ a, memGet t.mem a = memGet s.mem a) ∧ t.ecc = s.ecc
  | .regs => t.regs = s.regs ∧ t.staged = s.staged
  | .ctrs => t.ctrs = s.ctrs
  | .latch => t.latch = s.latch
  | .cores => t.cores = s.cores
  | .quarries => t.quarries = s.quarries
  | .ports => t.ports = s.ports
  | .lintels => t.lintels = s.lintels
  | .red => t.red = s.red
  | .att => t.att = s.att
  | .routes => t.routes = s.routes
  | .hif => t.hif = { s.hif with msixPend := t.hif.msixPend, store := t.hif.store } ∧
      t.hif.store.map Prod.fst = s.hif.store.map Prod.fst
  | .jobs => t.jobs = s.jobs
  | .sw => t.sw = s.sw
  | .jobCmds => t.jobCmds = s.jobCmds
  | .runSlot => t.runSlot = s.runSlot ∧ t.lastSlot = s.lastSlot
  | .flt => t.flt = { s.flt with ring := t.flt.ring } ∧ t.flt.ring.map Prod.fst = s.flt.ring.map Prod.fst
  | .loss => t.loss = s.loss
  | .pwr => t.pwr = s.pwr
  | .boot => t.boot = s.boot
  | .commit => t.commit = s.commit
  | .events => t.dsw.events = s.dsw.events ∧ t.dsw.fatal = s.dsw.fatal ∧ t.dsw.ready = s.dsw.ready
  | .flight => t.flight = s.flight
  | .free => t.free = s.free
  | .recs => t.recs = s.recs
  | .time => t.time = s.time
  | .out => t.out = s.out ∨ ∃ v, t.out = .msix v :: s.out

/-- Every part but those named is as before, and so is the queue of commands. -/
def Unchanged (s t : State) (may : List Part) : Prop := t.pending = s.pending ∧ ∀ p, p ∉ may → p.kept s t

/-- No counter but those at the named BAR0 offsets has changed. -/
def CtrsBut (s t : State) (offs : List Nat) : Prop := ∀ k, k ∉ offs → tget 0 t.ctrs k = tget 0 s.ctrs k

/-- No register but those at the named BAR0 offsets has changed, staged values included. -/
def RegsBut (s t : State) (offs : List Nat) : Prop := t.staged = s.staged ∧ ∀ k, k ∉ offs → t.reg k = s.reg k

/-- One fault record of a class is formed: kept as the newest of the ring where there is room, and then no part has changed
but the ring, the counters and those named (R428, R430). -/
def Reports (s t : State) (cls : Nat) (may : List Part) : Prop :=
  t.flt.seq = s.flt.seq + 1 ∧
  (s.flt.unack < 32 → t.flt.unack = s.flt.unack + 1 ∧
    byteFld (tget [] t.flt.ring ((s.flt.oldest + s.flt.unack) % 32)) 0 1 = cls ∧ Unchanged s t (.flt :: .ctrs :: may))

/-- A core that may issue from its sub-bundle: the device runs, nothing that its operations do at fixed times is due, the core belongs
to the running job and has neither ended nor faulted, and its sub-bundle lies in the image and is fetched (R29, R150 to R155). -/
def CoreIssues (s : State) (n : Nat) : Prop :=
  s.live = true ∧ (s.core n).current = true ∧ s.evaluates n = true ∧ (s.core n).pastEnd = false ∧ (s.core n).fetched = true

/-- An operation that issues: it is the next lane of the sub-bundle at the PC, and the sub-bundle as a whole has issued with its first
lane, or the evaluation of R168 lets it issue now. -/
def LaneIssues (s : State) (n : Nat) (op : LaneOp) : Prop :=
  CoreIssues s n ∧ ∃ ops, decodeSub (BitVec.ofNat 256 (s.core n).word) = some ops ∧ ops[(s.core n).cur.issued]? = some op ∧
    ((s.core n).cur.issued ≠ 0 ∨ s.judge n ops = .issue)

/-- A core whose accesses meet nothing unusual: no codeword is out of order, nothing that the core has stored is in flight, and no
request waits at a quarry. -/
def State.calm (s : State) (n : Nat) : Prop := s.ecc = [] ∧ (s.core n).settled = true ∧ ∀ q, s.admitted q = []

/-- Rows, with the addresses of their scale bytes, that an operation names through a ring, or that no slot in use holds (R33). -/
def State.rowsFree (s : State) (n : Nat) (plain : Bool) (d : TDesc) (xs : List (Nat × Nat)) : Prop :=
  plain = true → ∀ x ∈ xs, s.foreign n (rowOf (rowAddr n x.1)) = false ∧ (d.scaleBytes ≠ 0 → s.foreign n (rowOf x.2) = false)

/-- Rows with their scale bytes, as they stand in the sill. -/
def State.rowsAt (s : State) (n : Nat) (d : TDesc) (xs : List (Nat × Nat)) : List (List Byte × List Byte) :=
  xs.map (fun x => (s.bytes (rowAddr n x.1) 512, if d.scaleBytes = 0 then [] else s.bytes x.2 d.scaleBytes))

/-- Whether a core reaches its record of a statistics array (R59, R141). -/
def State.recordOpen (s : State) (n a : Nat) : Prop := (s.coreEnter n a 32 .read).2 = 0 ∧ (s.coreEnter n a 32 .write).2 = 0

/-- A core without what the close of a sub-bundle moves: PC, clock, loops, holds, the fetch, reservations, marks of what has not
settled, values that take their places (R138, R151, R152, R171, R172). -/
def Core.program (c : Core) : Core :=
  { c with pc := 0, cclk := 0, loops := [], hold := 0, slotHold := 0, lintHold := 0, waitMark := none, finishing := false
           cur := {}, resv := [], wet := [], slotAt := [], h0 := none, h1 := none, refetch := false, louvreAcc := 0, vec := {}, arr := { c.arr with acc := [] } }

/-- A sub-bundle of core n has closed at a PC with a loop stack: one CCLK and one ISSUED more, what it wrote has taken its
place, and the core holds nothing of it (R138, R172). -/
def Closed (s t : State) (n : CoreId) (pc : Nat) (loops : List Loop) : Prop :=
  (t.core n).pc = pc ∧ (t.core n).loops = loops ∧ (t.core n).cclk = (s.core n).cclk + 1 ∧ (t.core n).cur = {} ∧
  (t.core n).hold = 0 ∧ (t.core n).vec = (s.core n).vecNext ∧
  t.ctr (.core n) 0x48 = (s.ctr (.core n) 0x48 + 1) % 2 ^ 48 ∧ t.ctr (.core n) 0x40 = (s.ctr (.core n) 0x40 + 1) % 2 ^ 48

/-- BAR0 offsets of counters of a page. -/
def ctrsAt (p : Page) (offs : List Nat) : List Nat := offs.map (p.base + ·)

/-- The counters that every close of a sub-bundle moves: CCLK, ISSUED and the droop count (R172). -/
def closeCtrs (n : Nat) : List Nat := ctrsAt (.core n) [0x40, 0x48, 0x50]

/-- A command that touches core n and some parts besides: other cores as before. -/
def OnlyCore (s t : State) (n : Nat) (may : List Part) : Prop :=
  Unchanged s t (.cores :: may) ∧ ∀ m, m ≠ n → t.core m = s.core m

/-- The same of an operation that reads its descriptor's channel list: quarries only where the list does not stand in the core's own sill. -/
def OnlyCoreList (s t : State) (n : Nat) (d : TDesc) (may : List Part) : Prop :=
  OnlyCore s t n (.ctrs :: .quarries :: may) ∧ ((d.priv = false ∨ sillOf d.chanAddr = some n) → OnlyCore s t n (.ctrs :: may))

/-- A fault record of a class is formed, and kept in the ring where there is room for it and for one that comes with it (R428, R430). -/
def Records (s t : State) (cls : Nat) : Prop :=
  s.flt.seq < t.flt.seq ∧ (s.flt.unack < 31 → ∃ k, s.flt.unack ≤ k ∧ k < t.flt.unack ∧
    byteFld (tget [] t.flt.ring ((s.flt.oldest + k) % 32)) 0 1 = cls)

/-- A job is torn down where it can be and no switch is in progress: its slot is TORN_DOWN, none of its cores runs it, and it no longer
holds the cores (R394). -/
def Tears (s t : State) (j : Nat) : Prop :=
  (s.job j).st.tearable = true → s.sw.phase = .idle →
    (t.job j).st = .tornDown ∧ t.runSlot ≠ some j ∧
    ∀ n ∈ coresOf (s.job j).placed, (s.core n).job = some j → (t.core n).job = none ∧ (t.core n).running = false

/-- The banks of some rows of a core's sill are free for a requester in the CCLK just evaluated, or the core counts none (R192). -/
def State.banksFree (s : State) (n who : Nat) (rows : List Nat) : Prop :=
  s.counted n = true → (s.core n).cclk ≠ 0 → ∀ r ∈ rows, (s.core n).asyncMeets ((s.core n).cclk - 1) (bankOf r) who = 0

/-- An address in a slot of a ring that a stream of a queue names, or of its companion ring (R211, R212). -/
def State.strmByte (s : State) (n q a : Nat) : Prop :=
  ∃ d ∈ (s.sq n q).run,
    (∃ i, i < sLen (s.slot n d.head) ∧
      rowAddr n (sBuf (s.slot n (d.head + i))) ≤ a ∧ a < rowAddr n (sBuf (s.slot n (d.head + i))) + 512 * sRows (s.slot n d.head)) ∨
    (dScale d.raw = true ∧ ∃ i, i < sLen (s.slot n (dComp d.raw)) ∧
      rowAddr n (sBuf (s.slot n (dComp d.raw + i))) ≤ a ∧
      a < rowAddr n (sBuf (s.slot n (dComp d.raw + i))) +
        max (512 * sRows (s.slot n (dComp d.raw + i))) (d.scales * sRows (s.slot n d.head)))

/-- An address in the buffer of one of k slots of a ring from a position that is not FULL. -/
def State.inOpenSlot (s : State) (n head pos k a : Nat) : Prop :=
  ∃ i, i < k ∧ i < sLen (s.slot n head) ∧ s.slotFull n head (pos + i) = false ∧
    rowAddr n (sBuf (s.ringSlot n head (pos + i))) ≤ a ∧
    a < rowAddr n (sBuf (s.ringSlot n head (pos + i))) + 512 * sRows (s.ringSlot n head (pos + i))

/-- An address in the buffer of a slot that an inbound descriptor has yet to fill, or of one of its companion ring (R205). -/
def State.toFill (s : State) (n : Nat) (d : Strm) (a : Nat) : Prop :=
  dOut d.raw = false ∧
    (s.inOpenSlot n d.head (d.start + d.slots) (s.slotTotal n d - d.slots) a ∨
     (dScale d.raw = true ∧ s.inOpenSlot n (dComp d.raw) (d.cstart + d.cslots)
       (ceilDiv (scaleRows d.raw) (sRows (s.slot n d.head)) - d.cslots) a))

/-- What a stop of a queue may change of memory: the buffers that its descriptors had yet to fill (R205). -/
def StopLoses (s t : State) (n q : Nat) : Prop :=
  t.ecc = s.ecc ∧ (∀ a, (∀ d ∈ (s.sq n q).run, ¬ s.toFill n d a) → memGet t.mem a = memGet s.mem a) ∧
    ((s.sq n q).run = [] → t.free = s.free)

/-- Two ranges of bytes share none. -/
def apart (a m b n : Nat) : Prop := a + m ≤ b ∨ b + n ≤ a

/-- A memory that answers as it stands: no codeword is out of order, and no request waits at a quarry. -/
def State.quiet (s : State) : Prop := s.ecc = [] ∧ ∀ q, s.admitted q = []

/-- A range that a bench command reaches, all of it: by its own quarry, by a window (R247, R250). -/
def State.benchOpen (s : State) (k : Bc) (op : WinOp) (a len : Nat) : Prop :=
  ∀ x n, a ≤ x → 0 < n → x + n ≤ a + len → (s.benchEnter k x n op).2 = 0

/-- The tag of a command with TAG_DONE has room for it, its descriptor apart from what the command writes (R282). -/
def State.tagRoom (s : State) (k : Bc) (rs : List (Nat × Nat)) : Prop :=
  ∀ j, k.tagDone = true → k.job = some j →
    (s.tag j k.tag).optDone < byteFld (s.bucket j k.tag) 0x4C 2 ∧ ∀ r ∈ rs ++ s.replyRange k, apart (s.bucketAt j k.tag) 128 r.1 r.2

/-- A queue's command runs, what it has read at its start unchanged, its reply's slot empty and the banks that it needs free. -/
def BenchRuns (s : State) (k : Bc) (b : Nat) (op : Nat) (ranges : List (Nat × Nat)) : Prop :=
  s.live = true ∧ (s.core k.n).current = true ∧ s.memOk ∧ s.quiet ∧ s.bcOf k.n (some b) op = some k ∧ k.b = some b ∧
    s.steady (s.bq k.n b) = true ∧ s.replyFree k = true ∧ (s.benchTries k.n ranges).2 = true

/-- An address in the slot that a command's reply fills. -/
def State.replyByte (s : State) (k : Bc) (a : Nat) : Prop := ∃ r ∈ s.replyRange k, r.1 ≤ a ∧ a < r.1 + r.2

/-- A queue's command has completed with OK: counted, the queue at its next command, the tag's count advanced with TAG_DONE, and with REPLY the
slot FULL with the status, SEQ and the number done (R254, R257, R258, R282). -/
def BenchEnds (s t : State) (k : Bc) (b done : Nat) : Prop :=
  t.bq k.n b = { ({} : BQ) with
    was := (s.bq k.n b).was, pos := if s.bqLen k.n b ≤ (s.bq k.n b).pos + 1 then 0 else (s.bq k.n b).pos + 1 } ∧
  t.ctr (.bench k.n) 0x40 = (s.ctr (.bench k.n) 0x40 + 1) % 2 ^ 48 ∧
  (∀ j, k.job = some j → k.tagDone = true → (t.tag j k.tag).optDone = (s.tag j k.tag).optDone + 1) ∧
  (k.reply = true →
    let h := s.outHead k.n b
    let a := rowAddr k.n (sBuf (s.ringSlot k.n h (sProd (s.slot k.n h))))
    t.slotFull k.n h (sProd (s.slot k.n h)) = true ∧ t.num a 1 = 0 ∧ t.num (a + 4) 4 = k.seq ∧ t.num (a + 8) 8 = done % 2 ^ 64)

/-- The commands that act after a trip, which stops every clock but SVCLK: the reset inputs, the host interface's own
registers, power and temperature, boot and identity (R419). -/
def actsAfterTrip : Instr → Bool
  | .perstNAssert | .devRstNAssert | .pwrgdCoreFall | .resetRelease _ | .bar0InvalidAccess _ _
  | .registerWrite _ _ _ _ | .counterLowRead _ | .counterHighRead _ | .queueEnable _ _ | .queueDisable _
  | .sqStopComplete _ | .sqDoorbell _ _ | .cqDoorbell _ _ | .ackFaultRecord | .clearEventFlag _
  | .intHoldoffExpiry _ | .hostLinkUp _ _ _ | .hostLinkDown | .configurationRequest _ | .pmbusPoll _
  | .pmbusFailLimit _ | .avsSettleTimeout | .avsVoltageReached | .louvreUpdate | .thermalTermUpdate
  | .thermalTrip _ _ _ | .svcKick _ | .stavufWatchdogExpiry | .discard _ _ | .keyGenerationDone
  | .imageBegin _ _ | .imageChunk _ _ | .imageEnd _ | .imageVerifyDone | .setJobkey _ _
  | .firmwareStartTimeout | .bringUpStart | .secPolicyWrite _ | .privateDebugInstruction _ | .sidebandPageSelect _ _
  | .sidebandRead | .doeDiscovery _ | .getId | .getCerts _ _ | .attest _ _ => true
  | _ => false

/-- A run that neither faults nor is refused: it ends in a state. -/
def runsOn (n : Nat) (s : State) : Prop := ∃ t, Host.Core.run Sys2Proof.core n s = .next t

end Sys2Proof.Machine
end

