-- ==== Sys2Proof/Certificates/Slice0/Obligations.lean ====
section
/-! DEFINITION. The statements for the provers, family by family. A frame names what a command may change: Unchanged,
OnlyCore, CtrsBut, Reports and the other words of the statements stand in Safety. -/

open Sys2Proof Sys2Proof.Machine

/-! ### The whole device -/

/-- A step takes the command at the front of the queue and is its effect on the device with the queue's rest. On an empty queue
one tick of 10 ns passes while the clocks run, and nothing passes while they do not (log 6). -/
def Obligations.StepRunsFront : Prop :=
  (∀ (i : Instr) (s : State) (rest : List Instr), step { s with pending := i :: rest } = exec i { s with pending := rest }) ∧
  (∀ s : State, s.pending = [] →
    (s.live = true → step s = .next { s with time := s.time + 1 }) ∧ (s.live = false → step s = .next s))

/-- At reset the device is held, every register reads its Reset column, no job is loaded, no record waits, FATAL is 0, every
byte of memory reads zero (logs 1 and 2) and the queue is empty. CHANGE_COUNT, memory and
the staged sets meet the invariants that every step keeps. -/
def Obligations.ResetState : Prop :=
  (State.reset.boot.held = true ∧ State.reset.live = false ∧ (∀ off, State.reset.reg off = regReset off) ∧
   (∀ j, (State.reset.job j).st = .empty) ∧ State.reset.flt.unack = 0 ∧ State.reset.dsw.fatal = false ∧
   (∀ a, memGet State.reset.mem a = 0) ∧ (∀ p o, State.reset.ctr p o = 0) ∧ State.reset.pending = []) ∧
  (State.reset.dsw.count < 16 ∧ State.reset.memOk ∧ State.reset.setsOk)

/-- No command ends in a fault, and one alone is refused: a private debug instruction, while the debug port is unlocked. While the device is held in reset, every command but the four of the reset inputs leaves it as it is. After a trip, so does
every command that needs a clock other than SVCLK. -/
def Obligations.EveryCommandAnswers : Prop :=
  (∀ (i : Instr) (s : State), (∃ t, exec i s = .next t) ∨
    (∃ ir, i = .privateDebugInstruction ir) ∧ exec i s = .refused .privateDebugEffect) ∧
  ((∀ (i : Instr) (s : State), s.boot.held = true →
    i ≠ .perstNAssert → i ≠ .devRstNAssert → i ≠ .pwrgdCoreFall → (∀ f, i ≠ .resetRelease f) → exec i s = .next s) ∧
  (∀ (i : Instr) (s : State), s.boot.held = false → s.pwr.trip = true → actsAfterTrip i = false → exec i s = .next s))

/-- CHANGE_COUNT is advanced by one, modulo 16, by every command that changes a flag, once however many it changes, and by no
other, the reset inputs apart; it stays a number of four bits whatever the next step does. -/
def Obligations.ChangeCountFollowsFlags : Prop :=
  (∀ (i : Instr) (s t : State), exec i s = .next t →
    i ≠ .perstNAssert → i ≠ .devRstNAssert → i ≠ .pwrgdCoreFall → (∀ f, i ≠ .resetRelease f) →
    (t.flags = s.flags → t.dsw.count = s.dsw.count) ∧ (t.flags ≠ s.flags → t.dsw.count = (s.dsw.count + 1) % 16)) ∧
  (∀ s t : State, s.dsw.count < 16 → step s = .next t → t.dsw.count < 16)

/-- Memory stands in its canonical form after every step that finds it so: a byte that is zero is not listed, and no byte is
listed twice. -/
def Obligations.StepKeepsMemoryForm : Prop :=
  ∀ s t : State, s.memOk → step s = .next t → t.memOk

/-- What is staged, and what a commit has taken, stay sets of values of registers of commit groups, the taken ones of the group
that commits, each register in a set once. -/
def Obligations.StepKeepsStagedSets : Prop :=
  ∀ s t : State, s.setsOk → step s = .next t → t.setsOk

/-- Completes: COUNTER_LOW_READ. Every control page reads its own PAGE_ID, and PAGE_VER 0x00B0_0100, to a 32-bit read, and both to a
64-bit read. An OA-1200 has exactly eight fused cores and reads product code 0x0A78, an OA-1280 none and 0x0A80. -/
def Obligations.PagesIdentifyThemselves : Prop :=
  ((List.range 128).countP fused = (if Config.isOA1200 then 8 else 0) ∧
   ∀ (s : State) (off : BitVec 25), s.svcLive = true → off.toNat = Page.identity.base + 0x100 → ∃ t, exec (.counterLowRead ⟨off, false⟩) s = .next t ∧
     Unchanged s t [.out] ∧ .readData (natLe 4 (if Config.isOA1200 then 0x0A78 else 0x0A80)) ∈ t.out) ∧
  ∀ (s : State) (p : Page) (off : BitVec 25), s.svcLive = true → pageOf p.base = some p →
    (off.toNat = p.base →
      (∃ t, exec (.counterLowRead ⟨off, false⟩) s = .next t ∧ Unchanged s t [.out] ∧ .readData (natLe 4 p.id) ∈ t.out) ∧
      (∃ t, exec (.counterLowRead ⟨off, true⟩) s = .next t ∧ Unchanged s t [.out] ∧ .readData (natLe 4 p.id ++ natLe 4 0x00B00100) ∈ t.out)) ∧
    (off.toNat = p.base + 4 → ∃ t, exec (.counterLowRead ⟨off, false⟩) s = .next t ∧ Unchanged s t [.out] ∧
      .readData (natLe 4 0x00B00100) ∈ t.out)

/-- Completes: ACK_FAULT_RECORD. A fault is recorded at entry (OLDEST + UNACK) mod 32 with its class, SEQ, TIME and UNIT, and no other entry
changes. A record that finds the ring full is not written, is counted as lost with its class, and still has a SEQ. An acknowledgement
takes the oldest record off, which stays readable; with no record waiting nothing happens. -/
def Obligations.FaultRingKeepsRecords : Prop :=
  ∀ s : State,
    (∀ (cls status : Nat) (job : Option Nat) (unit flags : Nat) (detail : List Byte) (sub : Nat), 1 ≤ cls → cls ≤ 14 → unit < 2 ^ 32 →
      let t := s.fault cls status job unit flags detail sub
      let k := (s.flt.oldest + s.flt.unack) % 32
      let r := tget [] t.flt.ring k
      t.flt.seq = s.flt.seq + 1 ∧ t.flt.oldest = s.flt.oldest ∧
      (s.flt.unack < 32 → t.flt.unack = s.flt.unack + 1 ∧ (∀ i, i ≠ k → tget [] t.flt.ring i = tget [] s.flt.ring i) ∧
        r.length = 64 ∧ byteFld r 0 1 = cls ∧ byteFld r 4 4 = (s.flt.seq + 1) % 2 ^ 32 ∧ byteFld r 8 8 = s.time % 2 ^ 64 ∧
        byteFld r 0x10 4 = unit) ∧
      (32 ≤ s.flt.unack → t.flt.unack = s.flt.unack ∧ t.flt.ring = s.flt.ring ∧
        t.ctr .fault 0x48 = (s.ctr .fault 0x48 + 1) % 2 ^ 48)) ∧
    (s.svcLive = true → 0 < s.flt.unack → ∃ t, exec .ackFaultRecord s = .next t ∧ t.flt.oldest = (s.flt.oldest + 1) % 32 ∧
      t.flt.unack = s.flt.unack - 1 ∧ t.flt.seq = s.flt.seq ∧
      ∀ i, (tget [] t.flt.ring i).take 20 = (tget [] s.flt.ring i).take 20) ∧
    (s.svcLive = true → s.flt.unack = 0 → ∃ t, exec .ackFaultRecord s = .next t ∧ Unchanged s t [])

/-! ### Cores -/

/-- Completes: CTL.NOP, CTL.LOOP, CTL.SKIP. A lane issues where the sub-bundle at the PC does (R32, R168). CTL.NOP closes its sub-bundle. Without
a loop the next sub-bundle follows; at the last sub-bundle of the innermost loop its body starts again while iterations are left, and the loop
leaves the stack after its last one. CTL.LOOP pushes an entry whose body begins with the next sub-bundle. CTL.SKIP passes over COUNT sub-bundles
where its condition holds for the iteration of the loop at LEVEL, the outermost being level 0, and over none where it does not. -/
def Obligations.CtlStepsTheLoops : Prop :=
  (∀ (s : State) (c : CoreId), LaneIssues s c .ctlNop → ∃ t, exec (.ctlNop c) s = .next t ∧
     OnlyCore s t c [.ctrs] ∧ CtrsBut s t (closeCtrs c) ∧ (t.core c).program = (s.core c).program ∧
     ((s.core c).loops = [] → Closed s t c ((s.core c).pc + 1) []) ∧
     (∀ l rest, (s.core c).loops = l :: rest → l.last ≠ (s.core c).pc → Closed s t c ((s.core c).pc + 1) (l :: rest)) ∧
     (∀ l rest, (s.core c).loops = l :: rest → l.last = (s.core c).pc → 1 < l.left →
       Closed s t c l.first ({ l with left := l.left - 1, index := l.index + 1 } :: rest)) ∧
     (∀ l rest, (s.core c).loops = l :: rest → l.last = (s.core c).pc → l.left ≤ 1 →
       Closed s t c (stepLoops (s.core c).pc rest).1 (stepLoops (s.core c).pc rest).2 ∧
       (rest = [] → Closed s t c ((s.core c).pc + 1) []))) ∧
  (∀ (s : State) (c : CoreId) (last : BitVec 11) (count : BitVec 20), LaneIssues s c (.ctlLoop last count) →
     ∃ t, exec (.ctlLoop c last count) s = .next t ∧ OnlyCore s t c [.ctrs] ∧ CtrsBut s t (closeCtrs c) ∧
       (t.core c).program = (s.core c).program ∧
       Closed s t c (stepLoops (s.core c).pc (s.core c).loops).1
         (⟨(s.core c).pc + 1, (s.core c).pc + 1 + last.toNat, count.toNat, 0⟩ :: (stepLoops (s.core c).pc (s.core c).loops).2)) ∧
  (∀ (s : State) (c : CoreId) (level : BitVec 3) (cond : BitVec 2) (count : BitVec 11) (l : Loop),
     LaneIssues s c (.ctlSkip level cond count) → count ≠ 0 →
     (s.core c).loops.reverse[level.toNat]? = some l → (∀ k ∈ (s.core c).loops, (s.core c).pc + 1 + count.toNat ≤ k.last) →
     ∃ t, exec (.ctlSkip c level cond count) s = .next t ∧ OnlyCore s t c [.ctrs] ∧ CtrsBut s t (closeCtrs c) ∧
       (t.core c).program = (s.core c).program ∧
       Closed s t c
         ((s.core c).pc + 1 +
           (if (cond = 0 ∧ l.index = 0) ∨ (cond = 1 ∧ l.left = 1) ∨ (cond = 2 ∧ l.index ≠ 0) ∨ (cond = 3 ∧ l.left ≠ 1)
            then count.toNat else 0))
         (s.core c).loops)

/-- Completes: CTL.SETA, CTL.SLOTLD. CTL.SETA writes one half of an address register. CTL.SLOTLD loads consecutive entries of the slot table
from a sill row whose codewords are clean, no store of the row still in flight. They are in effect L + 2 CCLK later (R171). -/
def Obligations.CtlSetaSlotldLoad : Prop :=
  (∀ (s : State) (c : CoreId) (r : BitVec 6) (half : Bool) (imm : BitVec 24), LaneIssues s c (.ctlSeta r half imm) →
     ∃ t, exec (.ctlSeta c r half imm) s = .next t ∧ OnlyCore s t c [.ctrs] ∧ CtrsBut s t (closeCtrs c) ∧
       Closed s t c (stepLoops (s.core c).pc (s.core c).loops).1 (stepLoops (s.core c).pc (s.core c).loops).2 ∧
       (t.core c).program = { (s.core c).program with areg := (t.core c).areg } ∧
       (∀ k, k ≠ r.toNat → t.areg c k = s.areg c k) ∧
       fld (t.areg c r.toNat) 47 24 = (if half then imm.toNat else fld (s.areg c r.toNat) 47 24) ∧
       fld (t.areg c r.toNat) 23 0 = (if half then fld (s.areg c r.toNat) 23 0 else imm.toNat)) ∧
  (∀ (s : State) (c : CoreId) (first : BitVec 10) (countM1 : BitVec 6) (row : BitVec 13),
     LaneIssues s c (.ctlSlotld first countM1 row) → s.ecc = [] → (s.core c).settled = true →
     ∃ t, exec (.ctlSlotld c first countM1 row) s = .next t ∧ OnlyCore s t c [.ctrs] ∧ CtrsBut s t (closeCtrs c) ∧
       Closed s t c (stepLoops (s.core c).pc (s.core c).loops).1 (stepLoops (s.core c).pc (s.core c).loops).2 ∧
       (t.core c).program = { (s.core c).program with slots := (t.core c).slots } ∧
       (∀ i, i ≤ countM1.toNat → t.slot c (first.toNat + i) = s.num (rowAddr c row.toNat + 8 * i) 8) ∧
       (∀ i, i ≤ countM1.toNat → tget 0 (t.core c).slotAt (first.toNat + i) = (s.core c).cclk + (3 + row.toNat / 2048) + 2) ∧
       (∀ e, e < first.toNat ∨ first.toNat + countM1.toNat < e → t.slot c e = s.slot c e))

/-- Completes: CTL.SWAIT, CTL.SDROP. CTL.SWAIT takes no slot: where it issues, its sub-bundle closes. Alone in its sub-bundle it issues once the
slot at PROD_POS of an outbound ring is empty, or that at CONS_POS of an inbound ring FULL, and is held before. CTL.SDROP empties
COUNT slots of an inbound ring from CONS_POS and advances CONS_POS around the ring; SLOTS counts them. -/
def Obligations.CtlSwaitSdropRun : Prop :=
  (∀ (s : State) (c : CoreId) (empty : Bool) (head : BitVec 10), (s.core c).settled = true →
     (LaneIssues s c (.ctlSwait empty head) →
       ∃ t, exec (.ctlSwait c empty head) s = .next t ∧ OnlyCore s t c [.ctrs] ∧ CtrsBut s t (closeCtrs c) ∧
         Closed s t c (stepLoops (s.core c).pc (s.core c).loops).1 (stepLoops (s.core c).pc (s.core c).loops).2 ∧
         (t.core c).program = (s.core c).program) ∧
     (CoreIssues s c → decodeSub (BitVec.ofNat 256 (s.core c).word) = some [.ctlSwait empty head] → (s.core c).cur = {} →
       s.lintelHeld c = false → s.ringOk c head.toNat = true → sOut (s.slot c head.toNat) = empty →
       let ready := if empty then s.slotFull c head.toNat (sProd (s.slot c head.toNat)) = false
         else s.slotFull c head.toNat (sCons (s.slot c head.toNat)) = true
       (ready → LaneIssues s c (.ctlSwait empty head)) ∧
       (¬ ready → ∃ t, exec (.ctlSwait c empty head) s = .next t ∧ Unchanged s t []))) ∧
  (∀ (s : State) (c : CoreId) (countM1 : BitVec 6) (head : BitVec 10), LaneIssues s c (.ctlSdrop countM1 head) → (s.core c).settled = true →
     s.ringOk c head.toNat = true →
     ∃ t, exec (.ctlSdrop c countM1 head) s = .next t ∧ OnlyCore s t c [.ctrs] ∧
       CtrsBut s t (closeCtrs c ++ ctrsAt (.core c) [0x68]) ∧
       Closed s t c (stepLoops (s.core c).pc (s.core c).loops).1 (stepLoops (s.core c).pc (s.core c).loops).2 ∧
       (t.core c).program = { (s.core c).program with slots := (t.core c).slots } ∧
       sCons (t.slot c head.toNat) = (sCons (s.slot c head.toNat) + countM1.toNat + 1) % sLen (s.slot c head.toNat) ∧
       (∀ i, i ≤ countM1.toNat → t.slotFull c head.toNat (sCons (s.slot c head.toNat) + i) = false) ∧
       (∀ e, e ≠ head.toNat →
         (∀ i, i ≤ countM1.toNat → e ≠ head.toNat + (sCons (s.slot c head.toNat) + i) % sLen (s.slot c head.toNat)) →
         t.slot c e = s.slot c e) ∧
       t.ctr (.core c) 0x68 = (s.ctr (.core c) 0x68 + countM1.toNat + 1) % 2 ^ 48)

/-- Completes: CTL.ARRIVE, CTL.LINTEL, CTL.WAIT, LINTEL_RELEASE. CTL.ARRIVE and CTL.LINTEL arrive at a lintel; CTL.LINTEL then holds its core for
the phase's release. The last participant to arrive sends the lintel's message to each member of its notify group; while one is still to come, or
with no group, no message leaves. CTL.WAIT closes its sub-bundle where it issues; alone in its sub-bundle it issues once the phase in which its
core last arrived is released. LINTEL_RELEASE: with every participant arrived and the expected messages counted, the phase
advances, no core has arrived in the new phase, and the messages counted ahead become its own; the tags that are armed by that lintel follow.
Otherwise nothing happens. -/
def Obligations.LintelsGather : Prop :=
  (∀ (s : State) (c : CoreId) (id : BitVec 8) (j : Nat) (wait : Bool),
     LaneIssues s c (if wait then .ctlLintel id else .ctlArrive id) → (s.core c).job = some j →
     let l := s.lint j id.toNat
     let last := (l.arrived ||| 2 ^ c.val) &&& l.mask = l.mask ∧ l.notify ≠ 0xFF
     ∃ t, exec (if wait then .ctlLintel c id else .ctlArrive c id) s = .next t ∧
       OnlyCore s t c [.ctrs, .lintels, .ports, .flt, .regs] ∧
       (¬ last → OnlyCore s t c [.ctrs, .lintels] ∧ CtrsBut s t (closeCtrs c ++ ctrsAt (.core c) [0x58])) ∧
       (last → t.ports = (s.sendGroup 0 l.notify (lintelMsg (s.keyOf j) id.toNat l.phase)).ports) ∧
       Closed s t c (stepLoops (s.core c).pc (s.core c).loops).1 (stepLoops (s.core c).pc (s.core c).loops).2 ∧
       (t.core c).program = { (s.core c).program with
         lintWait := if wait then some (id.toNat, l.phase) else (s.core c).lintWait } ∧
       t.lint j id.toNat = { l with arrived := l.arrived ||| 2 ^ c.val, last := tset l.last c l.phase } ∧
       (∀ k m, 256 * k + m ≠ 256 * j + id.toNat → t.lint k m = s.lint k m) ∧
       t.ctr (.core c) 0x58 = (s.ctr (.core c) 0x58 + 1) % 2 ^ 48) ∧
  (∀ (s : State) (c : CoreId) (id : BitVec 8),
     (LaneIssues s c (.ctlWait id) →
       ∃ t, exec (.ctlWait c id) s = .next t ∧ OnlyCore s t c [.ctrs] ∧ CtrsBut s t (closeCtrs c) ∧
         Closed s t c (stepLoops (s.core c).pc (s.core c).loops).1 (stepLoops (s.core c).pc (s.core c).loops).2 ∧
         (t.core c).program = (s.core c).program) ∧
     (∀ j p, CoreIssues s c → decodeSub (BitVec.ofNat 256 (s.core c).word) = some [.ctlWait id] → (s.core c).cur = {} →
       s.lintelHeld c = false → (s.core c).job = some j → (s.lint j id.toNat).valid = true → bitAt (s.lint j id.toNat).mask c = true →
       tfind (s.lint j id.toNat).last c = some p →
       (p < (s.lint j id.toNat).phase → LaneIssues s c (.ctlWait id)) ∧
       ((s.lint j id.toNat).phase ≤ p → ∃ t, exec (.ctlWait c id) s = .next t ∧ Unchanged s t []))) ∧
  (∀ (s : State) (j : JobId) (id : BitVec 8), s.live = true → (s.lint j id.toNat).valid = true →
     let l := s.lint j id.toNat
     let whole := l.arrived &&& l.mask = l.mask ∧ l.expect ≤ l.msgCur ∧ (l.mask ≠ 0 ∨ l.expect ≠ 0)
     (whole →
       exec (.lintelRelease j id) s = .next (finish s
         ((s.onLint j id.toNat (fun l => { l with phase := l.phase + 1, arrived := 0, msgCur := l.msgNext, msgNext := 0 })).tagRelease j id.toNat)) ∧
       ((∀ e ∈ s.red.tags, e.1 / 4096 ≠ j.val) → ∃ t, exec (.lintelRelease j id) s = .next t ∧ Unchanged s t [.lintels] ∧
         t.lint j id.toNat = { l with phase := l.phase + 1, arrived := 0, msgCur := l.msgNext, msgNext := 0 } ∧
         (∀ k m, 256 * k + m ≠ 256 * j.val + id.toNat → t.lint k m = s.lint k m))) ∧
     (¬ whole → ∃ t, exec (.lintelRelease j id) s = .next t ∧ Unchanged s t []))

/-- Completes: CTL.END. It closes its sub-bundle and raises its core's end flag; the job ends, with its record, once every core of it has raised
its own, and not before: its cores run it no more and it no longer holds them. The core issues nothing more. One that goes past its image
without a CTL.END is in a program fault, class 14, and its job is torn down. -/
def Obligations.CtlEndEnds : Prop :=
  (∀ (s : State) (c : CoreId) (j : Nat), LaneIssues s c .ctlEnd → (s.core c).job = some j →
    let all := ∀ k ∈ coresOf (s.job j).placed, k ≠ c.val → (s.core k).ended = true
    ∃ t, exec (.ctlEnd c) s = .next t ∧ (t.core c).ended = true ∧ t.evaluates c = false ∧
      Closed s t c (stepLoops (s.core c).pc (s.core c).loops).1 (stepLoops (s.core c).pc (s.core c).loops).2 ∧
      (∀ m, m ≠ c.val → m ∉ coresOf (s.job j).placed → t.core m = s.core m) ∧
      (¬ all → OnlyCore s t c [.ctrs] ∧ CtrsBut s t (closeCtrs c) ∧ (t.core c).program = { (s.core c).program with ended := true }) ∧
      (all → (t.job j).st = .ended ∧ t.runSlot = none ∧ t.lastSlot = j ∧ (∀ k, k ≠ j → t.job k = s.job k) ∧
        (∀ k ∈ coresOf (s.job j).placed, (t.core k).running = false) ∧
        (∀ k, k ≠ c.val → { t.core k with running := (s.core k).running } = s.core k) ∧
        Unchanged s t [.cores, .regs, .ctrs, .hif, .out, .flt, .jobs, .runSlot])) ∧
  (∀ (s : State) (c : CoreId) (j : Nat), s.live = true → (s.core c).current = true → s.evaluates c = true → (s.core c).pastEnd = true →
    (s.core c).job = some j → ∃ t, exec (.ctlEnd c) s = .next t ∧ Records s t 14 ∧ Tears s t j)

/-- Completes: STR.ISSUE, STR.STOP. STR.ISSUE copies the whole descriptor that its address register names into a stream queue, its codewords
clean. STR.STOP ends the active descriptor of a queue and discards the pending ones, with no record; the queue stops until nothing of it is in
flight. Of memory only the buffers of slots that its inbound descriptors had yet to fill may change (R205). A halt that is being recorded is
recorded first (R231). -/
def Obligations.StrIssueStopQueues : Prop :=
  (∀ (s : State) (c : CoreId) (q : BitVec 8) (r : BitVec 6), LaneIssues s c (.strIssue q r) → s.ecc = [] → (s.core c).settled = true →
     ∃ t, exec (.strIssue c q r) s = .next t ∧ OnlyCore s t c [] ∧
       t.sq c q.toNat = { s.sq c q.toNat with pend := (s.sq c q.toNat).pend ++ [s.bytes (s.areg c r.toNat) 128] } ∧
       (∀ k, k ≠ q.toNat → t.sq c k = s.sq c k) ∧ (t.core c).pc = (s.core c).pc ∧
       (t.core c).program = { (s.core c).program with sq := (t.core c).sq }) ∧
  (∀ (s : State) (c : CoreId) (q : BitVec 8), LaneIssues s c (.strStop q) →
     ∃ t, exec (.strStop c q) s = .next t ∧ (∀ k, k ≠ q.toNat → t.sq c k = s.sq c k) ∧ (t.core c).pc = (s.core c).pc ∧
       (t.core c).program = { (s.core c).program with sq := (t.core c).sq } ∧
       ((s.sq c q.toNat).halting = false → OnlyCore s t c [.mem, .free] ∧ StopLoses s t c q.toNat ∧
         t.sq c q.toNat = { ({} : SQ) with stopping := !(s.inFlight c q.toNat).isEmpty }) ∧
       ((s.sq c q.toNat).halting = true → OnlyCore s t c [] ∧ t.sq c q.toNat = { s.sq c q.toNat with pend := [], stopping := true }))

/-- Completes: LD.TLOAD, TILE_LOADER_ROW. LD.TLOAD hands the tile loader a tile: the format descriptor that its register names, the orientation,
the place and the tensor row, no row read yet. Nothing else of the array changes, and no byte of memory; a plain place leaves the slot table
alone, a ring's CONS_POS passes the tile's slots. TILE_LOADER_ROW is the loader's one try in a CCLK: it takes the next row of the shadow tile, 512
bytes and its scale bytes, and empties a ring's slot with its last row; it waits while the row's slot is not FULL; it loses the CCLK, and is
counted, where another access has the bank (R78, R192). The tile is complete at the end of the CCLK of its last row, four CCLK later where it is
transposed. -/
def Obligations.TilesLoad : Prop :=
  (∀ (s : State) (c : CoreId) (orient : Bool) (loc : BitVec 14) (wdesc : BitVec 6) (trow : BitVec 20) (d : TDesc),
     LaneIssues s c (.ldTload orient loc wdesc trow) → s.calm c → s.descOf c wdesc.toNat = (0, d) →
     ∃ t x, exec (.ldTload c orient loc wdesc trow) s = .next t ∧ OnlyCoreList s t c d [] ∧
       (t.core c).arr = { (s.core c).arr with shadow := some x } ∧
       x.desc = d ∧ x.chan = (s.chanOf c d).2 ∧ x.transposed = orient ∧ x.trow = trow.toNat ∧ x.loc = loc.toNat ∧ x.rows = [] ∧
       x.completeAt = none ∧ x.wet = [] ∧ x.at_ = (s.core c).cclk ∧ (t.core c).pc = (s.core c).pc ∧
       (∀ r, placeOf loc = .rows r → ∀ e, t.slot c e = s.slot c e) ∧
       (∀ h, placeOf loc = .ring h → s.companion c h d = false → s.ringOk c h = true → x.pos = sCons (s.slot c h) ∧
         sCons (t.slot c h) = (sCons (s.slot c h) + d.fmt.tileRows / sRows (s.slot c h)) % sLen (s.slot c h) ∧
         (∀ e, e ≠ h → t.slot c e = s.slot c e))) ∧
  (∀ (s : State) (c : CoreId) (x : Tile), s.live = true → (s.core c).life.st = .opened → s.calm c → (s.core c).due = [] →
     (s.core c).arr.shadow = some x → x.wet = [] → x.completeAt = none → x.at_ + 1 = (s.core c).cclk →
     (∀ row sa, s.loaderNext c x = some (row, sa) → (s.core c).loaderLoses x.at_ (bankOf row) = false →
       s.rowsFree c (plainLoc (BitVec.ofNat 14 x.loc)) x.desc [(row, sa)] →
       ∃ t y, exec (.tileLoaderRow c) s = .next t ∧ OnlyCore s t c [] ∧
         (t.core c).arr = { (s.core c).arr with shadow := some y } ∧
         y = { x with rows := y.rows, completeAt := y.completeAt, at_ := x.at_ + 1 } ∧
         y.rows = x.rows ++ s.rowsAt c x.desc [(row, sa)] ∧
         y.completeAt = (if x.rows.length + 1 = x.desc.fmt.tileRows
           then some (x.at_ + 1 + (if x.transposed then 4 else 0)) else none) ∧
         (∀ r, placeOf (BitVec.ofNat 14 x.loc) = .rows r → row = r + x.rows.length ∧ ∀ e, t.slot c e = s.slot c e) ∧
         (∀ h, placeOf (BitVec.ofNat 14 x.loc) = .ring h →
           ((x.rows.length + 1) % sRows (s.slot c h) ≠ 0 → ∀ e, t.slot c e = s.slot c e) ∧
           ((x.rows.length + 1) % sRows (s.slot c h) = 0 →
             t.slotFull c h (x.pos + x.rows.length / sRows (s.slot c h)) = false))) ∧
     (s.loaderNext c x = none →
       ∃ t, exec (.tileLoaderRow c) s = .next t ∧ OnlyCore s t c [] ∧
         t.core c = { s.core c with arr := { (s.core c).arr with shadow := some { x with at_ := x.at_ + 1 } } }) ∧
     (∀ row sa, s.loaderNext c x = some (row, sa) → (s.core c).loaderLoses x.at_ (bankOf row) = true →
       ∃ t, exec (.tileLoaderRow c) s = .next t ∧ OnlyCore s t c [.ctrs] ∧
         CtrsBut s t (ctrsAt (.sill c) [0x210 + 0x40 * bankOf row]) ∧
         t.ctr (.sill c) (0x210 + 0x40 * bankOf row) = (s.ctr (.sill c) (0x210 + 0x40 * bankOf row) + 1) % 2 ^ 48 ∧
         t.core c = { s.core c with arr := { (s.core c).arr with shadow := some { x with at_ := x.at_ + 1 } } }))

/-- Completes: LD.STAGE. It fills one half of the staging buffer and leaves the other alone: in ROWS mode with one vector for each patch row of a
patch set, in TRANSPOSED mode with the columns of its rows, in WINDOW mode with one vector for each entry of the list: a zero vector for PAD, else
the named patch row of its set, read anew or the one that was carried (R81 to R88). -/
def Obligations.StagesFill : Prop :=
  ∀ (s : State) (c : CoreId) (half : Bool) (loc : BitVec 14) (adesc : BitVec 6) (mode k : BitVec 2) (w : BitVec 10) (d : TDesc),
    let v := s.slot c w.toNat
    let es := (chunks 4 (s.bytes (rowAddr c (sBuf (s.ringSlot c w.toNat (sCons v)))) (4 * d.fmt.patchRows))).map leNat
    let sets := newSets ((s.core c).arr.carried.map PatchSet.row) es
    let rows := if mode = 1 then setRows d sets else s.stageRows c loc d (if mode = 2 then d.fmt.transRows else d.fmt.patchSet)
    LaneIssues s c (.ldStage half loc adesc mode k w) → s.calm c → s.descOf c adesc.toNat = (0, d) →
    s.rowsFree c (mode == 1 || plainLoc loc) d rows →
    ∃ t, exec (.ldStage c half loc adesc mode k w) s = .next t ∧ OnlyCoreList s t c d [] ∧
      (let h := if half then (t.core c).arr.s1 else (t.core c).arr.s0
       h.fmt = d.fmt ∧ h.t = d.t ∧ (s.core c).cclk ≤ h.fillAt ∧
       (mode = 0 → h.vecs = (List.range d.fmt.patchRows).map (setVec d.fmt (s.rowsAt c d rows))) ∧
       (mode = 2 → h.vecs = (transCols d (s.chanOf c d).2 0 (s.rowsAt c d rows)).map (fun x => ⟨x.codes, x.scales⟩)) ∧
       (mode = 1 → h.vecs.length = d.fmt.patchRows ∧
         (∀ i, i < d.fmt.patchRows →
           let e := es.getD i 0
           let set := if fld e 12 0 ∈ sets then s.rowsAt c d (setRows d [fld e 12 0])
             else ((s.core c).arr.carried.map PatchSet.rows).getD []
           h.vecs.getD i ⟨[], []⟩ = if bitAt e 31 then zeroVec d.fmt else setVec d.fmt set (fld e 17 13)) ∧
         (∀ r, sets.getLast? = some r → (t.core c).arr.carried = some ⟨r, s.rowsAt c d (setRows d [r])⟩))) ∧
      (if half then (t.core c).arr.s0 = (s.core c).arr.s0 else (t.core c).arr.s1 = (s.core c).arr.s1) ∧
      (mode ≠ 1 → (t.core c).arr.carried = (s.core c).arr.carried) ∧
      (t.core c).arr.acc = (s.core c).arr.acc ∧ (t.core c).arr.active = (s.core c).arr.active ∧ (t.core c).pc = (s.core c).pc ∧
      (mode ≠ 1 → ∀ r, placeOf loc = .rows r → ∀ e, t.slot c e = s.slot c e)

/-- Completes: ARR.MUL, ARR.SWAP. ARR.MUL multiplies the oldest filled vector through the active tile and writes its accumulator row at the close
of the sub-bundle: without ADD the 32 outputs, rounded to FP32; with it their sums with what the row held. The vector leaves its half, and the
checker gains its results, due 35 CCLK later, 131 in BF16. In INT8 mode the sums saturate at ±(2^31 − 1), and the row's saturation bit records it
(R89). With ADD, a row whose entry is uncorrectable is reported as class 1 and tears the job down (R99). ARR.SWAP makes the complete shadow tile
the active one, with the factors of its columns in a factor set, and gives the checker its probe row. -/
def Obligations.ArrayMultiplies : Prop :=
  (∀ (s : State) (c : CoreId) (add iter : Bool) (row : BitVec 12) (bad : Bool) (x : Tile) (which : Bool) (h : Stage),
     LaneIssues s c (.arrMul add iter row) → (s.core c).arr.active = some x → (s.core c).oldest = some (which, h) →
     ((bad && add) = false →
       ∃ t a e, exec (.arrMul c add iter row bad) s = .next t ∧ OnlyCore s t c [.ctrs] ∧
         CtrsBut s t (ctrsAt (.array c) [0x40, 0x68]) ∧ t.ctr (.array c) 0x40 = (s.ctr (.array c) 0x40 + 1) % 2 ^ 48 ∧
         (t.core c).cur.acc = (s.core c).cur.acc ++ [((s.core c).accRow row iter, a)] ∧
         (let old : AccRow := tget {} (s.core c).arr.acc ((s.core c).accRow row iter)
          let ys := (throughTile x h.fmt (h.vecs.headD ⟨[], []⟩)).take 32
          let bf := x.desc.fmt = .bf16
          let v (p : W32 × Machine.Num × Nat) : Int := if add then p.1.toInt + roundInt p.2.1 else roundInt p.2.1
          let m : Int := 2 ^ 31 - 1
          (x.desc.fmt ≠ .int8 → a.int8 = false ∧ a.sat = (add && old.sat) ∧
            a.vals = (old.vals.zip ys).map (fun p => if add then fl ((val32 p.1).add p.2.1) else fl p.2.1)) ∧
          (x.desc.fmt = .int8 → a.int8 = true ∧
            a.vals = (old.vals.zip ys).map (fun p => toI32 (if add then (if v p > m then m else if v p < -m then -m else v p) else v p)) ∧
            (a.sat = true ↔ add = true ∧ (old.sat = true ∨ ∃ p ∈ old.vals.zip ys, v p > m ∨ v p < -m))) ∧
          a.sets = (if add then old.sets else 0) ||| (s.core c).arr.setBit ∧
          a.readyAt = (s.core c).cclk + (if bf then 132 else 36) ∧
          e.probe = false ∧ e.y = ys.map Prod.fst ∧ e.tileSeq = (s.core c).arr.tileSeq ∧ e.vec = (s.core c).arr.vecs + 1 ∧
          e.at_ = (s.core c).cclk + (if bf then 131 else 35)) ∧
         (if which then (t.core c).arr.s1.vecs else (t.core c).arr.s0.vecs) = h.vecs.drop 1 ∧
         (t.core c).arr.chkQ = (s.core c).arr.chkQ ++ [e] ∧ (t.core c).arr.acc = (s.core c).arr.acc ∧ (t.core c).pc = (s.core c).pc) ∧
     ((bad && add) = true → ∀ j, (s.core c).job = some j →
       ∃ t, exec (.arrMul c add iter row bad) s = .next t ∧ Records s t 1 ∧ Tears s t j)) ∧
  (∀ (s : State) (c : CoreId) (fset : BitVec 2) (adesc : BitVec 6) (x : Tile) (d : TDesc),
     LaneIssues s c (.arrSwap fset adesc) → s.ecc = [] → (s.core c).settled = true → (s.core c).arr.shadow = some x →
     s.descOf c adesc.toNat = (0, d) →
     ∃ t, exec (.arrSwap c fset adesc) s = .next t ∧ OnlyCore s t c [.ctrs, .regs] ∧
       RegsBut s t [(Page.array c).base + 0x108] ∧ CtrsBut s t (ctrsAt (.array c) [0x48]) ∧
       t.preg (.array c) 0x108 = ((s.core c).arr.tileSeq + 1) % 2 ^ 32 ∧
       (t.core c).arr.active = some x ∧ (t.core c).arr.shadow = none ∧
       tget [] (t.core c).arr.fsets fset.toNat =
         x.cols.map (fun k => fl ((val32 k.fw).mul (val32 (if d.fmt = .int8 then d.t else fOne)))) ∧
       (t.core c).arr.fset = some fset.toNat ∧
       (t.core c).arr.tileSeq = (s.core c).arr.tileSeq + 1 ∧ (t.core c).arr.vecs = 0 ∧
       (t.core c).arr.chkQ = (s.core c).arr.chkQ ++ [probeEntry x ((s.core c).arr.tileSeq + 1) (s.core c).cclk] ∧
       (t.core c).arr.acc = (s.core c).arr.acc ∧ (t.core c).pc = (s.core c).pc)

/-- Completes: ARRAY_CHECK_RESULT, PROBE_CHECK_RESULT. The checker takes the oldest vector, or probe row, that waits, once its CCLK has passed. With
the comparison disabled and no parity error it reports nothing. Enabled, a vector passes whose sum agrees with the checksum output, exactly in
INT8 mode and within the tolerance otherwise; one with a value that is not finite is not compared, and is counted; any other is a mismatch of
kind 1. A probe row is compared column by column with the tile's sums, and the first column that differs is a mismatch of kind 2. A path-parity error is a
mismatch of kind 3 whatever is enabled (R96, R98, R99). A mismatch is recorded in the array page, counted and reported as class 2; then the job is
torn down, or with ACTION 1 what the array writes is unpredictable (R100). The duplicate of the vector unit differs at a lane (R119): with DUP_EN 0 nothing else happens; with DUP_EN 1 VEC_LAST_INFO takes the lane and
the class of operation, the mismatch is counted and reported as class 2, and the job is torn down, or with ACTION 1 what the unit writes is
unpredictable from then on. -/
def Obligations.CheckersReportMismatches : Prop :=
  ((∀ (s : State) (c : CoreId) (e : ChkEnt) (u : ChkUpset), s.live = true → (s.core c).arr.chkQ.find? (fun x => x.probe == false) = some e →
     (s.counted c = true → e.at_ < (s.core c).cclk) →
     let ys := withUpset (e.y ++ [e.c]) u
     let sum := sumNum (ys.take 32)
     let chk := ys.getD 32 .nan
     let eref := max 1 (maxOf e.bounds)
     let ctl := s.preg (.array c) 0x100
     let s1 := s.onCore c (fun k => { k with arr := { k.arr with chkQ := removeFirst (fun x => x.probe == false) k.arr.chkQ } })
     let passed (t : State) : Prop := (t.core c).arr = { (s.core c).arr with chkQ := removeFirst (fun x => x.probe == false) (s.core c).arr.chkQ }
     let finite := (ys.take 32).all Machine.Num.isFin = true ∧ chk.isFin = true
     (u = .pathParity → exec (.arrayCheckResult c u) s = .next (finish s (s1.arrayMismatch c e 3 0x58 0 eref (fl chk) (fl sum)))) ∧
     (u ≠ .pathParity →
       (bitAt ctl 0 = false ∨ (e.int8 = true ∧ sum.eqv chk = true) ∨
         (e.int8 = false ∧ finite ∧ exceeds chk sum (fld ctl 27 16) eref = false) →
         ∃ t, exec (.arrayCheckResult c u) s = .next t ∧ OnlyCore s t c [] ∧ passed t) ∧
       (bitAt ctl 0 = true → e.int8 = false → ¬ finite →
         ∃ t, exec (.arrayCheckResult c u) s = .next t ∧ OnlyCore s t c [.ctrs] ∧ CtrsBut s t (ctrsAt (.array c) [0x50]) ∧ passed t ∧
           t.ctr (.array c) 0x50 = (s.ctr (.array c) 0x50 + 1) % 2 ^ 48) ∧
       (bitAt ctl 0 = true → (e.int8 = true ∧ sum.eqv chk = false) ∨ (e.int8 = false ∧ finite ∧ exceeds chk sum (fld ctl 27 16) eref = true) →
         exec (.arrayCheckResult c u) s = .next (finish s (s1.arrayMismatch c e 1 0x58 0 eref (fl chk) (fl sum)))))) ∧
  (∀ (s : State) (c : CoreId) (e : ChkEnt) (u : ChkUpset), s.live = true → (s.core c).arr.chkQ.find? (fun x => x.probe == true) = some e →
     (s.counted c = true → e.at_ < (s.core c).cclk) →
     let ys := withUpset e.y u
     let ctl := s.preg (.array c) 0x100
     let s1 := s.onCore c (fun k => { k with arr := { k.arr with chkQ := removeFirst (fun x => x.probe == true) k.arr.chkQ } })
     let y (i : Nat) := ys.getD i Machine.Num.nan
     let sum (i : Nat) := e.sums.getD i Machine.Num.nan
     let eref (i : Nat) := max 1 (e.bounds.getD i 0)
     let differs (i : Nat) : Prop := if e.int8 = true then (y i).eqv (sum i) = false
       else (y i).isFin = true ∧ (sum i).isFin = true ∧ exceeds (y i) (sum i) (fld ctl 15 8) (eref i) = true
     let skip := if e.int8 then 0 else (List.range 33).countP (fun i => !((y i).isFin && (sum i).isFin))
     (u = .pathParity → exec (.probeCheckResult c u) s = .next (finish s (s1.arrayMismatch c e 3 0x58 0 (max 1 (maxOf e.bounds)) 0 0))) ∧
     (u ≠ .pathParity →
       (bitAt ctl 1 = false ∨ (∀ i, i < 33 → ¬ differs i) →
         ∃ t, exec (.probeCheckResult c u) s = .next t ∧ OnlyCore s t c [.ctrs] ∧ CtrsBut s t (ctrsAt (.array c) [0x50]) ∧
           (bitAt ctl 1 = true → t.ctr (.array c) 0x50 = (s.ctr (.array c) 0x50 + skip) % 2 ^ 48) ∧
           (t.core c).arr = { (s.core c).arr with chkQ := removeFirst (fun x => x.probe == true) (s.core c).arr.chkQ }) ∧
       (∀ i, bitAt ctl 1 = true → i < 33 → differs i → (∀ k, k < i → ¬ differs k) →
         exec (.probeCheckResult c u) s =
           .next (finish s ((s1.bump (.array c) 0x50 skip).arrayMismatch c e 2 0x60 i (eref i) (fl (y i)) (fl (sum i))))))) ∧
  (∀ (s : State) (c : CoreId) (e : ChkEnt) (kind off col eref : Nat) (a b : W32), off < 0x1000 →
     let t := s.arrayMismatch c e kind off col eref a b
     Records s t 2 ∧
     (bitAt (s.preg (.array c) 0x100) 2 = true → t.preg (.array c) 0x10C = e.vec % 2 ^ 32 ∧ t.preg (.array c) 0x110 = a.toNat ∧
       t.preg (.array c) 0x114 = b.toNat ∧ t.ctr (.array c) off = (s.ctr (.array c) off + 1) % 2 ^ 48 ∧ (t.core c).arr.loose = true) ∧
     (∀ j, (s.core c).job = some j → bitAt (s.preg (.array c) 0x100) 2 = false → Tears s t j))) ∧
  (∀ (s : State) (c : CoreId) (ln : BitVec 8) (op : LaneOp) (cls : Nat) (i : Option (BitVec 8) → Instr),
    LaneIssues s c op →
    ((∃ l, op = .vecAlu l ∧ cls = 1 ∧ i = fun u => .vecAlu c l u) ∨ (∃ l, op = .vecSfu l ∧ cls = 2 ∧ i = fun u => .vecSfu c l u) ∨
     (∃ l, op = .vecRed l ∧ cls = 3 ∧ i = fun u => .vecRed c l u) ∨ (∃ l, op = .vecDact l ∧ cls = 4 ∧ i = fun u => .vecDact c l u)) →
    let ctl := s.preg (.vector c) 0x100
    (bitAt ctl 0 = false → exec (i (some ln)) s = exec (i none) s) ∧
    (bitAt ctl 0 = true → bitAt ctl 1 = true → ∃ t, exec (i (some ln)) s = .next t ∧ Reports s t 2 [.cores, .regs, .free] ∧
      (∀ m, m ≠ c.val → t.core m = s.core m) ∧ t.preg (.vector c) 0x104 = ln.toNat * 256 + cls ∧
      t.ctr (.vector c) 0x50 = (s.ctr (.vector c) 0x50 + 1) % 2 ^ 48 ∧ (t.core c).vec.loose = true) ∧
    (bitAt ctl 0 = true → bitAt ctl 1 = false → ∀ j, (s.core c).job = some j →
      ∃ t, exec (i (some ln)) s = .next t ∧ Records s t 2 ∧ Tears s t j))

/-- Completes: VEC.ALU, VEC.SFU, VEC.RED, VEC.DACT. A VECTOR operation writes its registers at the close of the sub-bundle: under its mask, VEC.SFU
and VEC.DACT the function's value in each lane, VEC.ALU the operation's, a NaN that SEL or BCAST passes on in canonical form (log 115), CMP a mask
register; VEC.RED one result for each segment, in the lanes from DBASE on. No other register changes, nor memory, nor the PC. Once a mismatch was
let pass, what is written is free (R119). A function that Table 4.4 bounds has a value within the bound, in units in the last place, the same for
the same input; which one is free (log 10). -/
def Obligations.VectorLanesWriteOneRegister : Prop :=
  (∀ (fn : Nat) (w : W32), (∃ neg m e, (sfuExact fn (val32 w)).1 = .fin neg m e) → (sfuExact fn (val32 w)).1.lg < 128 →
    withinUlp (sfuExact fn (val32 w)).2 (sfuExact fn (val32 w)).1 (sfuBounded fn w) = true) ∧
  ∀ (s : State) (c : CoreId),
    let x := (s.core c).vec
    let n := (s.core c).vecNext
    let same (t : State) (v : Vec) (offs : List Nat) : Prop :=
      OnlyCore s t c [.ctrs, .free] ∧ (x.loose = false → t.free = s.free) ∧ CtrsBut s t (ctrsAt (.vector c) offs) ∧
        (t.core c).cur.vec = some v ∧ (t.core c).program = (s.core c).program ∧ (t.core c).pc = (s.core c).pc
    (∀ l : AluLane, LaneIssues s c (.vecAlu l) → l.fn ≠ 8 →
      let src (i : Nat) (r : BitVec 5) : List W32 :=
        if l.imm && i == aluArity l.fn.toNat then List.replicate 256 (immWord l.imm16) else x.reg r.toNat
      ∃ t v, exec (.vecAlu c l none) s = .next t ∧ same t v [0x40] ∧ v.m = n.m ∧
        (∀ r, r ≠ l.vd.toNat → v.reg r = n.reg r) ∧
        v.reg l.vd.toNat = masked (x.mask l.mask.toNat) (n.reg l.vd.toNat) (s.vecLanes c
          (if l.fn = 9 then ((src 1 l.va).zip (src 2 l.vb)).zipIdx.map (fun p => quiet (if bitAt (x.mask l.msel.toNat) p.2 then p.1.1 else p.1.2))
           else if l.fn = 10 then List.replicate 256 (quiet ((src 1 l.va).getD l.lane.toNat 0))
           else (((src 1 l.va).zip (src 2 l.vb)).zip (src 3 l.vc)).map (fun p => aluLane l.fn.toNat p.1.1 p.1.2 p.2)))) ∧
    (∀ l : AluLane, LaneIssues s c (.vecAlu l) → l.fn = 8 → l.md ≠ 0 →
      let vb : List W32 := if l.imm then List.replicate 256 (immWord l.imm16) else x.reg l.vb.toNat
      ∃ t v, exec (.vecAlu c l none) s = .next t ∧ same t v [0x40] ∧ v.v = n.v ∧
        (∀ m, m ≠ l.md.toNat → v.mask m = n.mask m) ∧
        (∀ i, i < 256 → (bitAt (x.mask l.mask.toNat) i = false ∨ x.loose = false) → bitAt (v.mask l.md.toNat) i =
          if bitAt (x.mask l.mask.toNat) i
          then fcmp l.cond.toNat ((x.reg l.va.toNat).getD i 0) (vb.getD i 0) else bitAt (x.mask l.md.toNat) i)) ∧
    (∀ l : FnLane, LaneIssues s c (.vecSfu l) →
      ∃ t v, exec (.vecSfu c l none) s = .next t ∧ same t v [0x40, 0x48] ∧ v.m = n.m ∧
        (∀ r, r ≠ l.vd.toNat → v.reg r = n.reg r) ∧
        v.reg l.vd.toNat = masked (x.mask l.mask.toNat) (n.reg l.vd.toNat) (s.vecLanes c ((x.reg l.va.toNat).map (sfu l.fn.toNat)))) ∧
    (∀ l : FnLane, LaneIssues s c (.vecDact l) →
      ∃ t v, exec (.vecDact c l none) s = .next t ∧ same t v [0x40, 0x48] ∧ v.m = n.m ∧
        (∀ r, r ≠ l.vd.toNat → v.reg r = n.reg r) ∧
        v.reg l.vd.toNat = masked (x.mask l.mask.toNat) (n.reg l.vd.toNat)
          (s.vecLanes c (((x.reg l.va.toNat).zip (x.reg l.vb.toNat)).map (fun p => dact l.fn.toNat p.1 p.2)))) ∧
    (∀ l : FnLane, LaneIssues s c (.vecRed l) → (n.reg l.vd.toNat).length = 256 → (x.reg l.va.toNat).length = 256 →
      let k := 5 + l.seg.toNat
      let ins := (x.reg l.va.toNat).zipIdx.map (fun p =>
        if bitAt (x.mask l.mask.toNat) p.2 then p.1 else if l.fn = 1 then 0xFF800000#32 else 0#32)
      let res := (List.range (256 / 2 ^ k)).map (fun i => redTree (if l.fn = 1 then fpick true else fadd) k ((ins.drop (i * 2 ^ k)).take (2 ^ k)))
      ∃ t v, exec (.vecRed c l none) s = .next t ∧ same t v [0x40] ∧ v.m = n.m ∧
        (∀ r, r ≠ l.vd.toNat → v.reg r = n.reg r) ∧
        (∀ i, i < 256 / 2 ^ k → l.dbase.toNat + i < 256 → (v.reg l.vd.toNat).getD (l.dbase.toNat + i) 0 =
          if bitAt (x.mask l.mask.toNat) (l.dbase.toNat + i) then (s.vecLanes c res).getD i 0 else (n.reg l.vd.toNat).getD (l.dbase.toNat + i) 0) ∧
        (∀ i, (i < l.dbase.toNat ∨ l.dbase.toNat + 256 / 2 ^ k ≤ i) →
          (v.reg l.vd.toNat).getD i 0 = (n.reg l.vd.toNat).getD i 0))

/-- Completes: LD.VEC, ST.VEC. LD.VEC widens one part of a place to a register, with the eight scale bytes of the part; FP32 data
are never counted as non-finite. ST.VEC converts a register and writes its part of the place's rows, which a LOAD may read 3
CCLK later, and the eight scale bytes of the part; of other bytes only those of its statistics record change. Which blocks of a part are privileged
is the model's function of the list and the part (log 22). -/
def Obligations.VecConverts : Prop :=
  (∀ (s : State) (c : CoreId) (vreg : BitVec 5) (part : BitVec 2) (loc : BitVec 14) (desc : BitVec 6) (d : TDesc),
     let rows := s.placeRows c loc d.fmt.vecRows false
     let sa := s.vecScaleAddr c loc false d part.toNat
     LaneIssues s c (.ldVec vreg part loc desc) → s.calm c → s.descOf c desc.toNat = (0, d) →
     s.rowsFree c (plainLoc loc) d (rows.map (fun r => (r, sa))) →
     ∃ t v, exec (.ldVec c vreg part loc desc) s = .next t ∧ (t.core c).cur.vec = some v ∧
       v.m = (s.core c).vecNext.m ∧ (∀ k, k ≠ vreg.toNat → v.reg k = (s.core c).vecNext.reg k) ∧
       v.reg vreg.toNat = widenLanes d (s.chanOf c d).2 part.toNat
         (((rows.flatMap (fun r => s.bytes (rowAddr c r) 512)).drop (part.toNat * d.fmt.vecBytes)).take d.fmt.vecBytes)
         ((if d.scaleBytes = 0 then [] else s.bytes sa 8).map BitVec.toNat) ∧
       OnlyCoreList s t c d [.regs, .flt, .events] ∧ (d.fmt = .fp32 → OnlyCoreList s t c d []) ∧ (t.core c).pc = (s.core c).pc ∧
       (t.core c).arr = (s.core c).arr) ∧
  (∀ (s : State) (c : CoreId) (vreg : BitVec 5) (part : BitVec 2) (loc : BitVec 14) (desc : BitVec 6) (d : TDesc),
     let rows := s.placeRows c loc d.fmt.vecRows true
     let sa := s.vecScaleAddr c loc true d part.toNat
     let rec_ := d.statsAddr + 32 * c.val
     let q := (chunks 32 ((s.core c).vec.reg vreg.toNat)).zipIdx.map (fun b => quantBlock d (vecPriv d (s.chanOf c d).2 part.toNat b.2) b.1)
     let data := d.fmt.bytesOf ((q.flatMap (fun b => b.elems)).map Conv.code)
     let stored (a : Nat) : Prop := ∃ r ∈ rows, rowAddr c r + part.toNat * d.fmt.vecBytes ≤ a ∧ a < rowAddr c r + part.toNat * d.fmt.vecBytes + min 512 d.fmt.vecBytes
     LaneIssues s c (.stVec vreg part loc desc) → s.calm c → s.memOk → s.descOf c desc.toNat = (0, d) → s.recordOpen c rec_ →
     part.toNat < d.fmt.parts → ((s.core c).vec.reg vreg.toNat).length = 256 → s.rowsFree c (plainLoc loc) d (rows.map (fun r => (r, sa))) →
     ∃ t, exec (.stVec c vreg part loc desc) s = .next t ∧ (t.core c).pc = (s.core c).pc ∧ (t.core c).vec = (s.core c).vec ∧
       (∀ a, ¬ stored a → (a < rec_ ∨ rec_ + 32 ≤ a) → (d.scaleBytes ≠ 0 → a < sa ∨ sa + 8 ≤ a) → memGet t.mem a = memGet s.mem a) ∧
       (rows.Nodup → ∀ i k r, rows[i]? = some r → k < min 512 d.fmt.vecBytes →
         let a := rowAddr c r + part.toNat * d.fmt.vecBytes + k
         (d.scaleBytes ≠ 0 → a < sa ∨ sa + 8 ≤ a) → memGet t.mem a = data.getD (512 * i + k) 0) ∧
       (d.scaleBytes ≠ 0 → sa % 512 + 8 ≤ 512 → t.bytes sa 8 = q.map (fun b => BitVec.ofNat 8 b.scale)) ∧
       (∀ r ∈ rows, tget 0 (t.core c).wet r = (s.core c).cclk + 3) ∧ t.ecc = [] ∧
       OnlyCore s t c [.mem, .regs, .ctrs, .flt, .events, .free, .recs, .quarries])

/-- Completes: ST.OUT. A row that does not complete its patch is converted and kept in the output stage. One that does, or that comes with FLUSH,
stores the patch at the row that its place names, unused positions zero, a row that a LOAD may read 5 CCLK later, and the scale rows of
which the stage holds every byte, at FLUSH all of them. The statistics record is joined by the rules of Table 2.8. Values are free where a
mismatch, a wrong factor set or an error of the row has made them unpredictable (R91, R99, R100). An uncorrectable row is reported as class 1, two
conversions that differ as class 2; both tear the job down, the second unless ACTION is 1. -/
def Obligations.OutputStageStores : Prop :=
  (∀ (s : State) (c : CoreId) (row : BitVec 12) (fset : BitVec 2) (odesc : BitVec 6) (loc : BitVec 14) (flush iter : Bool) (d : TDesc),
     let a := (s.core c).arr
     let k := (s.core c).accRow row iter
     let acc : AccRow := tget {} a.acc k
     let unsure := a.unsure k fset.toNat
     let xs := if unsure then freeRow s.free else outValues acc (tget (List.replicate 32 fOne) a.fsets fset.toNat)
     let q := quantBlock d (d.priv && (s.chanOf c d).2.contains k) xs
     let prior := (a.patch.map OutPatch.rows).getD []
     let rows := prior ++ [q.elems.map Conv.code]
     let last := prior.length + 1 = d.fmt.patchRows ∨ flush = true
     let rec_ := d.statsAddr + 32 * c.val
     let dst := rowAddr c ((s.placeRows c loc 1 true).headD 0)
     let sa := s.scaleAddrOf c loc true d 0
     let one := if d.scaleBytes = 0 then a.scales else holdScale a.scales (sa + prior.length) q.scale
     let held := if last ∧ d.scaleBytes ≠ 0
       then (fromN (prior.length + 1) (d.fmt.patchRows - (prior.length + 1))).foldl (fun h m => holdScale h (sa + m) 0) one else one
     let full := fullScaleRows held flush
     LaneIssues s c (.stOut row fset odesc loc flush iter) → s.calm c → s.memOk → s.descOf c odesc.toNat = (0, d) → s.recordOpen c rec_ →
     ∃ t, exec (.stOut c row fset odesc loc flush iter .none) s = .next t ∧ (t.core c).pc = (s.core c).pc ∧
       OnlyCore s t c [.mem, .regs, .ctrs, .flt, .events, .quarries, .free, .recs] ∧
       (¬ last →
         (t.core c).arr = { a with patch := some ⟨s.areg c odesc.toNat, loc.toNat, rows⟩, scales := held } ∧
         (∀ x, (x < rec_ ∨ rec_ + 32 ≤ x) → memGet t.mem x = memGet s.mem x) ∧ (∀ e, t.slot c e = s.slot c e) ∧
         (let st := statsOf (32 * k) xs q.elems
          s.recordKind rec_ kindArray (s.bytes rec_ 32) = kindArray →
            t.bytes rec_ 32 = ((Stats.ofBytes (s.bytes rec_ 32)).join { st with sat := st.sat + (if acc.sat then 32 else 0) }).bytes ∧
            (unsure = false → t.free = s.free))) ∧
       (last → (plainLoc loc = true → s.foreign c (rowOf dst) = false ∧ ∀ r ∈ full, s.foreign c (rowOf (512 * r)) = false) →
         (t.core c).arr.patch = none ∧ (t.core c).arr.scales = held.filter (fun e => !full.contains (e.1 / 512)) ∧
         ((∀ r ∈ full, 512 * r ≠ dst) → t.bytes dst 512 = patchBytes d.fmt rows) ∧
         (∀ r ∈ full, t.bytes (512 * r) 512 = (List.range 512).map (fun i => BitVec.ofNat 8 ((tfind held (512 * r + i)).getD 0))) ∧
         (∀ x, (x < dst ∨ dst + 512 ≤ x) → (x < rec_ ∨ rec_ + 32 ≤ x) → x / 512 ∉ full → memGet t.mem x = memGet s.mem x) ∧
         tget 0 (t.core c).wet ((s.placeRows c loc 1 true).headD 0) = (s.core c).cclk + 5)) ∧
  (∀ (s : State) (c : CoreId) (row : BitVec 12) (fset : BitVec 2) (odesc : BitVec 6) (loc : BitVec 14) (flush iter : Bool) (d : TDesc) (j : Nat),
     LaneIssues s c (.stOut row fset odesc loc flush iter) → s.calm c → s.descOf c odesc.toNat = (0, d) →
     s.recordOpen c (d.statsAddr + 32 * c.val) → (s.core c).job = some j →
     (∃ t, exec (.stOut c row fset odesc loc flush iter .accUncorrectable) s = .next t ∧ Records s t 1 ∧ Tears s t j) ∧
     (∃ t, exec (.stOut c row fset odesc loc flush iter .stageDiffers) s = .next t ∧ Records s t 2 ∧
       (bitAt (s.preg (.array c) 0x100) 2 = true → t.ctr (.array c) 0x58 = (s.ctr (.array c) 0x58 + 1) % 2 ^ 48 ∧ (t.core c).arr.loose = true) ∧
       (bitAt (s.preg (.array c) 0x100) 2 = false → Tears s t j)))

/-- Completes: SUB_BUNDLE_HOLD, of the sub-bundle that the core has before it (of another one nothing happens). A CCLK in which it does not
issue is counted under the cause that stands first, and nothing of it takes effect; where the evaluation finds a fault, it is a program fault,
class 14, and the job is torn down; one that can issue is left to its lanes. The evaluation: a core whose job is stopped is held under cause 1;
one past its image is in fault 0x0D; a lintel not yet released holds it under cause 4, an instruction block not yet filled under 9, 10 or 11
(R170); a reserved bit is fault 1. -/
def Obligations.SubBundleHolds : Prop :=
  ∀ (s : State) (c : CoreId) (sb : BitVec 256), s.live = true → (s.core c).current = true →
    ((s.core c).faces sb = true → s.counted c = true → (s.core c).cur.issued = 0 →
      (∀ h, s.evaluation c = .held h → 1 ≤ h.cause → ∃ t, exec (.subBundleHold c sb) s = .next t ∧ OnlyCore s t c [.ctrs] ∧
        (h.banks = [] → CtrsBut s t (ctrsAt (.core c) [0x40, 0x50, 0x200 + 8 * (h.cause - 1)])) ∧
        (h.cause ≤ 13 → t.ctr (.core c) (0x200 + 8 * (h.cause - 1)) = (s.ctr (.core c) (0x200 + 8 * (h.cause - 1)) + 1) % 2 ^ 48) ∧
        (t.core c).hold = h.cause ∧ (t.core c).cclk = (s.core c).cclk + 1 ∧ (t.core c).pc = (s.core c).pc ∧
        (t.core c).loops = (s.core c).loops ∧ (t.core c).cur = (s.core c).cur ∧ (t.core c).vec = (s.core c).vec ∧
        (t.core c).arr = (s.core c).arr ∧
        (t.core c).program = { (s.core c).program with heldSlot := (t.core c).heldSlot, heldLint := (t.core c).heldLint }) ∧
      (∀ k j, s.evaluation c = .fault k → (s.core c).job = some j →
        ∃ t, exec (.subBundleHold c sb) s = .next t ∧ Records s t 14 ∧ Tears s t j ∧ (t.core c).faulted = true) ∧
      (s.evaluation c = .issue → ∃ t, exec (.subBundleHold c sb) s = .next t ∧ Unchanged s t [])) ∧
    ((s.counted c = false ∨ (s.core c).cur.issued ≠ 0 ∨ (s.core c).faces sb = false) → ∃ t, exec (.subBundleHold c sb) s = .next t ∧ Unchanged s t []) ∧
    (s.evaluates c = false → ∃ h, s.evaluation c = .held h ∧ h.cause = 1) ∧
    (s.evaluates c = true → (s.core c).pastEnd = true → s.evaluation c = .fault 0x0D) ∧
    (s.evaluates c = true → (s.core c).pastEnd = false → s.draining c = false →
      ((s.core c).fetched = false → ∃ h, s.evaluation c = .held h ∧
        h.cause = if s.lintelHeld c then 4 else s.fetchCause c) ∧
      ((s.core c).fetched = true → decodeSub (BitVec.ofNat 256 (s.core c).word) = none → s.evaluation c = .fault 1) ∧
      ((s.core c).fetched = true → (s.core c).word = 0 →
        if s.lintelHeld c then ∃ h, s.evaluation c = .held h ∧ h.cause = 4 else s.evaluation c = .issue))

/-- Completes: INSTRUCTION_FETCH. A half of the instruction buffer whose 64 requests are answered stands filled, and FETCHES counts its block;
before that, and of a block that no half awaits, nothing happens. Of a request that failed the job is torn down: for an uncorrectable unit as the
read reported it, else as a program fault, class 14. -/
def Obligations.InstructionFetchFills : Prop :=
  ∀ (s : State) (c : CoreId) (block j : Nat), s.live = true → (s.core c).job = some j → (s.core c).running = true →
    (s.core c).faulted = false →
    ((∀ h ∈ (s.core c).h0.toList ++ (s.core c).h1.toList, h.block = block → h.filled = true) →
      ∃ t, exec (.instructionFetch c block) s = .next t ∧ Unchanged s t []) ∧
    (∀ h, ((s.core c).h0.toList ++ (s.core c).h1.toList).find? (fun h => h.block == block && !h.filled) = some h →
      (h.bad = none → h.got.length < 64 → ∃ t, exec (.instructionFetch c block) s = .next t ∧ Unchanged s t []) ∧
      (h.bad = none → 64 ≤ h.got.length → ∃ t, exec (.instructionFetch c block) s = .next t ∧ OnlyCore s t c [.ctrs] ∧
        CtrsBut s t (ctrsAt (.core c) [0x60]) ∧ t.ctr (.core c) 0x60 = (s.ctr (.core c) 0x60 + 1) % 2 ^ 48 ∧
        t.core c = { s.core c with
          h0 := if (s.core c).h0 = some h then some { h with filled := true } else (s.core c).h0
          h1 := if (s.core c).h1 = some h then some { h with filled := true } else (s.core c).h1 }) ∧
      (∀ st a, h.bad = some (st, a) → ∃ t, exec (.instructionFetch c block) s = .next t ∧ Tears s t j ∧ (st ≠ 0x40 → Records s t 14)))

/-- Completes: SLOT_DEADLOCK, LINTEL_WATCHDOG, STREAM_WATCHDOG_SAMPLE. A detector that its wait holds at its limit writes DL_INFO, reports its
class and tears the job down: SLOT_DEADLOCK class 6 with the entry waited on, LINTEL_WATCHDOG class 8 with the lintel; below its limit nothing
happens. The limit is at least 65,536 CCLK. One that stood at its limit as another tore the job down still makes its record (R179). A sample of the
stream watchdog keeps the cycles of blocked queues that it finds; a cycle met at two samples in a row is class 7, reported by its lowest
core, and the job is torn down. -/
def Obligations.DetectorsFire : Prop :=
  (∀ (s : State) (c : CoreId) (j : Nat), s.live = true → (s.core c).current = true → (s.core c).job = some j →
     (∀ h head e, (s.core c).alarm = none → s.counted c = true → (s.core c).cur.issued = 0 → s.evaluation c = .held h → h.slot = some (head, e) →
       bitAt (s.preg (.core c) 0x100) 0 = true → max 65536 (s.preg (.core c) 0x10C) ≤ (s.core c).slotHold →
       ∃ t, exec (.slotDeadlock c) s = .next t ∧ Records s t 6 ∧ Tears s t j ∧
         t.preg (.core c) 0x118 = (2 ^ 30 + sAgent (s.slot c head) * 2 ^ 26 + e * 2 ^ 16 + sAgentId (s.slot c head) * 2 ^ 8) % 2 ^ 32) ∧
     (∀ h id, (s.core c).alarm = none → s.counted c = true → (s.core c).cur.issued = 0 → s.evaluation c = .held h → h.slot = none → h.lint = some id →
       bitAt (s.preg (.core c) 0x100) 1 = true → max 65536 (s.preg (.core c) 0x110) ≤ (s.core c).lintHold →
       ∃ t, exec (.lintelWatchdog c) s = .next t ∧ Records s t 8 ∧ Tears s t j ∧
         t.preg (.core c) 0x118 = (2 ^ 31 + id * 2 ^ 16) % 2 ^ 32) ∧
     (∀ a, (s.core c).alarm = some a →
       (a.lint = false → ∃ t, exec (.slotDeadlock c) s = .next t ∧ Reports s t 6 [.cores, .regs] ∧ (t.core c).alarm = none) ∧
       (a.lint = true → ∃ t, exec (.lintelWatchdog c) s = .next t ∧ Reports s t 8 [.cores, .regs] ∧ (t.core c).alarm = none)) ∧
     ((s.core c).alarm = none → (s.core c).slotHold < 65536 → ∃ t, exec (.slotDeadlock c) s = .next t ∧ Unchanged s t []) ∧
     ((s.core c).alarm = none → (s.core c).lintHold < 65536 → ∃ t, exec (.lintelWatchdog c) s = .next t ∧ Unchanged s t [])) ∧
  (∀ (s : State) (c : CoreId) (j : Nat), s.live = true → (s.core c).current = true → (s.core c).job = some j →
     (s.samples c = false → ∃ t, exec (.streamWatchdogSample c) s = .next t ∧ Unchanged s t []) ∧
     (s.samples c = true →
       let twice (p : List (Nat × Nat)) : Prop := p ∈ s.cycles c ∧ p ∈ (s.core c).swdLast ∧ ∀ x ∈ p, c.val ≤ x.1
       ((∀ p, ¬ twice p) → ∃ t, exec (.streamWatchdogSample c) s = .next t ∧ OnlyCore s t c [] ∧
         t.core c = { s.core c with swdLast := s.cycles c, swdAt := (s.core c).cclk }) ∧
       (∀ p, twice p → ∃ t, exec (.streamWatchdogSample c) s = .next t ∧ Records s t 7 ∧ Tears s t j)))

/-! ### Streams -/

/-- Completes: STREAM_DESCRIPTOR_START. The oldest accepted descriptor of a queue starts once the one before it has issued its last request, a GATHER
with a context free: where its checks pass it goes on, on its ring, after the slots of the queue's last started descriptor of that ring, the first
from CONS_POS outbound, from PROD_POS inbound (R204). One that fails a check waits for those before it, then completes with INTERNAL
and is a program fault, class 14. -/
def Obligations.StreamsStart : Prop :=
  ∀ (s : State) (c : CoreId) (q : BitVec 8) (r : List Byte) (rest : List (List Byte)), s.live = true → s.engineOn c = true →
    (s.sq c q.toNat).pend = r :: rest → (s.sq c q.toNat).halt = 0 → (s.sq c q.toNat).stopping = false →
    (∀ p, (s.sq c q.toNat).run.getLast? = some p → s.allIssued c p = true) → (dMode r = 1 → (s.freeCtx c q.toNat).isSome = true) →
    (dScale r = true → s.calm c ∧ (s.coreRead c (dTdesc r) 64).2.1 = 0) →
    let run := (s.sq c q.toNat).run
    let td := if dScale r then (s.coreRead c (dTdesc r) 64).2.2 else []
    let x := s.newStrm c q.toNat r td
    (x.raw = r ∧ x.head = dHead r ∧ x.tdesc = td ∧ x.slots = 0 ∧ x.got = [] ∧
      ((∀ p ∈ run, p.head ≠ dHead r) → x.start = if dOut r then sCons (s.slot c (dHead r)) else sProd (s.slot c (dHead r))) ∧
      (∀ p, run.reverse.find? (fun p => p.head == dHead r) = some p → x.start = p.start + s.slotTotal c p)) ∧
    (s.strmOk c q.toNat r td = true → ∃ t, exec (.streamDescriptorStart c q) s = .next t ∧ OnlyCore s t c [.quarries, .ctrs] ∧
      (dScale r = false → OnlyCore s t c []) ∧
      t.sq c q.toNat = { s.sq c q.toNat with pend := rest, run := run ++ [x] } ∧ (∀ k, k ≠ q.toNat → t.sq c k = s.sq c k) ∧
      (t.core c).serial = (s.core c).serial + 1) ∧
    (s.strmOk c q.toNat r td = false →
      (run ≠ [] → ∃ t, exec (.streamDescriptorStart c q) s = .next t ∧ Unchanged s t []) ∧
      (∀ j, run = [] → (s.core c).job = some j → ∃ t, exec (.streamDescriptorStart c q) s = .next t ∧ Records s t 14 ∧ Tears s t j ∧
        t.ctr (.core c) 0x400 = (s.ctr (.core c) 0x400 + 1) % 2 ^ 48))

/-- Completes: STREAM_REQUEST_ISSUE. Of an engine's eligible requests the one with the earliest deadline is served, the latency-critical class before
others of the same deadline (R218): one that reads goes in flight under a tag not in use; an outbound one carries the bytes of its ring; one
that an index leaves without a source writes zeros. With none eligible the waits are counted and nothing else happens. A limit overrun at the
demand position is a program fault (R210). -/
def Obligations.StreamRequestsIssue : Prop :=
  (∀ (s : State) (c : CoreId) (e : BitVec 2), s.live = true → (s.core c).current = true → s.engineOn c = true → s.overrun c e.toNat = none →
     let cs := s.cands c e.toNat
     let best := bestCand s.time (s.eligible c e.toNat cs)
     (best = none → ∃ t, exec (.streamRequestIssue c e) s = .next t ∧ Unchanged s t [.ctrs] ∧ CtrsBut s t (ctrsAt (.core c) [0x438, 0x440]) ∧
       ((∃ k ∈ cs, k.block = 1) → t.ctr (.core c) 0x438 = (s.ctr (.core c) 0x438 + 1) % 2 ^ 48) ∧
       ((∃ k ∈ cs, k.block = 2) → (∀ k ∈ cs, k.block ≠ 0) → t.ctr (.core c) 0x440 = (s.ctr (.core c) 0x440 + 1) % 2 ^ 48)) ∧
     (∀ k, best = some k →
       (k ∈ cs ∧ k.block = 0 ∧ (∀ d ∈ s.eligible c e.toNat cs, d.before s.time k = false)) ∧
       (k.zero = false → k.space < 2 → (k.kind = .data → dOut k.x.raw = false) → (k.kind = .index → (quarryOf k.addr).isSome = true) →
         ∃ t, exec (.streamRequestIssue c e) s = .next t ∧ OnlyCore s t c [.ctrs, .flight] ∧ t.flight = s.flight ++ [s.reqOf c k []] ∧
           (s.reqOf c k []).addr = k.addr ∧ (s.reqOf c k []).len = k.len ∧ (s.reqOf c k []).st = .issued) ∧
       (k.zero = false → k.space < 2 → k.kind = .data → dOut k.x.raw = true → s.ecc = [] → s.banksFree c e.toNat (s.seqRows c k.x k.off k.len) →
         ∃ t, exec (.streamRequestIssue c e) s = .next t ∧ OnlyCore s t c [.ctrs, .flight] ∧
           t.flight = s.flight ++ [s.reqOf c k ((s.seqPieces c k.x k.off k.len).flatMap (fun p => s.bytes p.2.1 p.2.2))]) ∧
       (k.zero = true → s.banksFree c e.toNat (s.seqRows c k.x k.off k.len) →
         ∃ t, exec (.streamRequestIssue c e) s = .next t ∧ OnlyCore s t c [.mem, .ctrs, .out, .hif, .flt, .regs] ∧
           (∀ a, ¬ s.strmByte c k.q a → memGet t.mem a = memGet s.mem a) ∧
           t.ctr (.core c) 0x408 = (s.ctr (.core c) 0x408 + k.len) % 2 ^ 48))) ∧
  (∀ (s : State) (c : CoreId) (e : BitVec 2) (q j : Nat) (x : Strm) (a : Nat), s.live = true → (s.core c).current = true →
     s.engineOn c = true → s.overrun c e.toNat = some (q, x, a) → (s.core c).job = some j →
     ∃ t, exec (.streamRequestIssue c e) s = .next t ∧ Records s t 14 ∧ Tears s t j)

/-- Completes: WINDOW_ENTRY_GENERATE. The next slot of a window list is filled with the entries of its pixels, the rest of its row zero, and its
bytes are counted; of memory only ring buffers of the queue's streams change. A row beyond the sill at the demand position is a
program fault; with no list to generate nothing happens. -/
def Obligations.WindowListsAreGenerated : Prop :=
  ∀ (s : State) (c : CoreId) (q : BitVec 8), s.live = true → (s.core c).current = true → s.engineOn c = true →
    (s.sq c q.toNat).halt = 0 → (s.sq c q.toNat).stopping = false →
    let next := (s.sq c q.toNat).run.find? (fun d => dMode d.raw == 2 && decide (512 * d.win < dTotal d.raw))
    (next = none → ∃ t, exec (.windowEntryGenerate c q) s = .next t ∧ Unchanged s t []) ∧
    (∀ d, next = some d → s.slotsReady c (s.sq c q.toNat) d (512 * d.win) 512 = true →
      let es := windowSlot s.free d.raw d.win
      ((∀ e ∈ es, e.isSome = true) → s.banksFree c (q.toNat % 4) (s.seqRows c d (512 * d.win) 512) →
        ∃ t, exec (.windowEntryGenerate c q) s = .next t ∧ OnlyCore s t c [.mem, .ctrs, .free, .out, .hif, .flt, .regs] ∧
          (∀ a, ¬ s.strmByte c q.toNat a → memGet t.mem a = memGet s.mem a) ∧
          (s.memOk → (s.sq c q.toNat).run = [d] → dScale d.raw = false → dTotal d.raw % s.slotBytes c d.head = 0 →
            t.bytes (s.seqAddr c d (512 * d.win)) 512 = fitTo 512 (es.flatMap (fun e => natLe 4 (e.getD 0)))) ∧
          t.ctr (.core c) 0x408 = (s.ctr (.core c) 0x408 + 512) % 2 ^ 48) ∧
      (∀ j, (∃ e ∈ es, e = none) → s.atDemand c (s.sq c q.toNat) d (512 * d.win) 512 = true → (s.core c).job = some j →
        ∃ t, exec (.windowEntryGenerate c q) s = .next t ∧ Records s t 14 ∧ Tears s t j))

/-- Completes: STREAM_REPLY, STREAM_HALT. A reply that no request awaits is counted alone; one of an abandoned epoch is dropped and counted; data that
arrive are written into the ring, a write that completes is counted, an answer of the instruction fetch goes to its half; a refused request
halts its queue at the demand position and is dropped elsewhere; a parked destination halts it; an uncorrectable unit tears the job down, and any
other status is a program fault too. STREAM_HALT, once nothing
of the queue is in flight: STREAMS_HALTED, HALT_INFO, the position kept, its record, and for a translation not present the page
request. -/
def Obligations.StreamRepliesLand : Prop :=
  (∀ (s : State) (c : CoreId) (tag : Nat) (epoch : Bool) (ext : ExtReply), s.live = true → (s.core c).current = true →
     let found := s.flight.find? (fun r => r.core == c.val && r.tag == tag && r.epoch == epoch)
     (found = none →
       ∃ t, exec (.streamReply c tag ⟨epoch, ext⟩) s = .next t ∧ Unchanged s t [.ctrs] ∧ CtrsBut s t (ctrsAt (.core c) [0x450]) ∧
         t.ctr (.core c) 0x450 = (s.ctr (.core c) 0x450 + 1) % 2 ^ 48) ∧
     (∀ r st bs, found = some r →
       ((r.st = .served ∧ st = r.status ∧ bs = r.data) ∨
        (r.st = .issued ∧ r.space = 0 ∧ r.kind ≠ .scale ∧ mirrorBase ≤ r.addr ∧ r.write = false ∧ st = 0 ∧ bs = s.mirrorRead (r.addr - mirrorBase)) ∨
        (r.st = .admitted ∧ r.space = 2 ∧ r.write = false ∧ ∃ code data, ext = .status code data ∧ st = code.toNat ∧ bs = fitTo r.len data)) →
       let landed := s.flight.filter (fun x => !(x.core == c.val && x.tag == tag))
       (r.epoch ≠ (s.core c).epoch → ∃ t, exec (.streamReply c tag ⟨epoch, ext⟩) s = .next t ∧ OnlyCore s t c [.ctrs, .flight] ∧
         t.ctr (.core c) 0x450 = (s.ctr (.core c) 0x450 + 1) % 2 ^ 48 ∧ t.flight = landed) ∧
       (r.epoch = (s.core c).epoch → r.kind = .fetch → ∃ t, exec (.streamReply c tag ⟨epoch, ext⟩) s = .next t ∧ OnlyCore s t c [.flight] ∧
         t.flight = landed ∧ t.core c = (s.core c).fetchGot r.serial r.off st r.addr bs) ∧
       (∀ x j, r.epoch = (s.core c).epoch → r.kind ≠ .fetch → (s.sq c r.queue).run.find? (fun d => d.serial == r.serial) = some x →
         (s.core c).job = some j →
         (st ≤ 1 → (r.kind = .scale → dScale x.raw = true) → s.banksFree c (r.queue % 4) (s.replyRows r) →
           ∃ t, exec (.streamReply c tag ⟨epoch, ext⟩) s = .next t ∧ OnlyCore s t c [.mem, .ctrs, .flight, .out, .hif, .flt, .regs] ∧ t.flight = landed ∧
             (∀ a, ¬ s.strmByte c r.queue a → memGet t.mem a = memGet s.mem a) ∧
             (r.kind = .data → r.write = false → t.ctr (.core c) 0x408 = (s.ctr (.core c) 0x408 + r.len) % 2 ^ 48 ∧
               (s.memOk → (s.sq c r.queue).run = [x] → dScale x.raw = false → dTotal x.raw % s.slotBytes c x.head = 0 →
                 r.off % 512 + r.len ≤ 512 → 0 < r.len → bs.length = r.len → t.bytes (s.seqAddr c x r.off) r.len = bs)) ∧
             (r.kind = .data → r.write = true → t.ctr (.core c) 0x410 = (s.ctr (.core c) 0x410 + r.len) % 2 ^ 48)) ∧
         ((st = 0x60 ∨ st = 0x10 ∨ st = 0x30) → (s.sq c r.queue).stopping = false → (s.sq c r.queue).halt = 0 →
           ((s.land r).reqDemand r x = true → ∃ t, exec (.streamReply c tag ⟨epoch, ext⟩) s = .next t ∧ OnlyCore s t c [.flight] ∧
             t.sq c r.queue = { s.sq c r.queue with halt := st, haltAddr := r.addr, halting := true }) ∧
           ((s.land r).reqDemand r x = false → ∃ t, exec (.streamReply c tag ⟨epoch, ext⟩) s = .next t ∧ OnlyCore s t c [.flight, .ctrs] ∧
             t.ctr (.core c) 0x420 = (s.ctr (.core c) 0x420 + 1) % 2 ^ 48 ∧
             (t.sq c r.queue).run = (s.sq c r.queue).run.map (fun d => if d.serial = r.serial
               then { d with dropped := ⟨r.kind, r.off, x.posOf r.kind r.off⟩ :: d.dropped } else d))) ∧
         (st = 0x51 → (s.sq c r.queue).stopping = false → (s.sq c r.queue).halt = 0 →
           ∃ t, exec (.streamReply c tag ⟨epoch, ext⟩) s = .next t ∧ OnlyCore s t c [.flight] ∧
             t.sq c r.queue = { s.sq c r.queue with halt := 0x51, haltAddr := r.addr, halting := true }) ∧
         (st = 0x40 → ∃ t, exec (.streamReply c tag ⟨epoch, ext⟩) s = .next t ∧ Tears s t j) ∧
         (1 < st → st ≠ 0x60 → st ≠ 0x10 → st ≠ 0x30 → st ≠ 0x51 → st ≠ 0x40 →
           ∃ t, exec (.streamReply c tag ⟨epoch, ext⟩) s = .next t ∧ Records s t 14 ∧ Tears s t j)))) ∧
  (∀ (s : State) (c : CoreId) (q : BitVec 8) (d : Strm) (rest : List Strm), s.live = true →
     (s.sq c q.toNat).run = d :: rest → (s.sq c q.toNat).halting = true → s.inFlight c q.toNat = [] →
     let x := s.sq c q.toNat
     ∃ t, exec (.streamHalt c q) s = .next t ∧ OnlyCore s t c [.ctrs, .regs, .out, .hif, .flt, .events, .mem, .free] ∧
       t.preg (.core c) 0x304 = (x.halt * 2 ^ 24 + q.toNat) % 2 ^ 32 ∧
       t.ctr (.core c) 0x428 = (s.ctr (.core c) 0x428 + 1) % 2 ^ 48 ∧
       (x.stopping = true → t.sq c q.toNat = {} ∧ StopLoses s t c q.toNat) ∧
       (x.stopping = false → OnlyCore s t c [.ctrs, .regs, .out, .hif, .flt, .events] ∧
         t.sq c q.toNat = { x with halting := false, haltPos := d.position, prg := (t.sq c q.toNat).prg } ∧
         (x.halt = 0x50 → (t.sq c q.toNat).prg = .waiting ∨ (t.sq c q.toNat).prg = .sent) ∧ (x.halt ≠ 0x50 → (t.sq c q.toNat).prg = .none)))

/-- Completes: PAGE_REQUEST_SEND, PAGE_REQUEST_RESPONSE, ATS_TRANSLATION_RESPONSE, ATS_INVALIDATION. A page request leaves while the host has enabled
PRI and left room: PAGE_REQUEST is set and HIF counts it. A response of
success resumes the stream where it halted, one of invalid request leaves it failed, a response failure fails every request
that is outstanding; a success for a parked job is kept with its saved queue. A translation that allows reads or writes is cached, and goes when the
host invalidates it; the completion of the invalidation leaves once no request in flight uses the translation. -/
def Obligations.PagesAreTranslated : Prop :=
  (∀ (s : State) (c : CoreId) (q : BitVec 8), s.live = true →
     (∀ j p, (s.core c).job = some j → s.pasidOf j = some p → (s.sq c q.toNat).prg = .waiting → s.hif.pri = true →
       s.hif.prgFailed = false → s.hif.up = true → s.prgOut < min 1024 s.hif.priAlloc →
       ∃ t, exec (.pageRequestSend c q) s = .next t ∧ OnlyCore s t c [.ctrs, .out, .events] ∧
         t.sq c q.toNat = { s.sq c q.toNat with prg := .sent } ∧ bitAt t.dsw.events 5 = true ∧
         t.ctr .hif 0x50 = (s.ctr .hif 0x50 + 1) % 2 ^ 48 ∧
         ∃ w, .pageRequest c q.toNat p ((s.sq c q.toNat).haltAddr / 4096) w ∈ t.out) ∧
     (∀ d rest, (s.sq c q.toNat).prg = .sent → (s.sq c q.toNat).run = d :: rest →
       (∃ t, exec (.pageRequestResponse c q .success) s = .next t ∧ OnlyCore s t c [.ctrs] ∧
         t.sq c q.toNat = { s.sq c q.toNat with
           run := d.restart (s.sq c q.toNat).haltPos (sRows (s.slot c d.head)) :: rest, halt := 0, haltAddr := 0, prg := .none } ∧
         t.ctr (.core c) 0x430 = (s.ctr (.core c) 0x430 + 1) % 2 ^ 48) ∧
       (∃ t, exec (.pageRequestResponse c q .invalidRequest) s = .next t ∧ OnlyCore s t c [.ctrs] ∧
         t.sq c q.toNat = { s.sq c q.toNat with prg := .failed } ∧ t.ctr .hif 0x58 = (s.ctr .hif 0x58 + 1) % 2 ^ 48)) ∧
     (∀ j k, (s.sq c q.toNat).prg ≠ .sent → s.parkedPrg c q.toNat = some j → tfind (s.job j).saved c = some k →
       ∃ t k', exec (.pageRequestResponse c q .success) s = .next t ∧ Unchanged s t [.jobs] ∧ (∀ i, i ≠ j → t.job i = s.job i) ∧
         tfind (t.job j).saved c = some k' ∧ tget {} k'.sq q.toNat = { (tget {} k.sq q.toNat : SQ) with prg := .success }) ∧
     (∃ t, exec (.pageRequestResponse c q .responseFailure) s = .next t ∧ Unchanged s t [.cores, .jobs, .hif, .ctrs] ∧
       t.hif.prgFailed = true ∧ t.ctr .hif 0x58 = (s.ctr .hif 0x58 + 1) % 2 ^ 48 ∧ (∀ n k, (t.sq n k).prg ≠ .sent))) ∧
  (∀ (s : State) (pasid : BitVec 20) (page : BitVec 52), s.live = true →
     (∀ r w, ∃ t, exec (.atsTranslationResponse pasid page r w) s = .next t ∧ Unchanged s t [.hif, .flight, .out] ∧
       ((r || w) = true → ⟨pasid.toNat, page.toNat, r, w⟩ ∈ t.hif.tlb) ∧ ((r || w) = false → Unchanged s t [])) ∧
     (∃ t, exec (.atsInvalidation pasid page) s = .next t ∧ Unchanged s t [.hif, .ctrs, .out] ∧
       (∀ e ∈ t.hif.tlb, ¬ (e.pasid = pasid.toNat ∧ e.page = page.toNat)) ∧
       (∀ e ∈ s.hif.tlb, ¬ (e.pasid = pasid.toNat ∧ e.page = page.toNat) → e ∈ t.hif.tlb) ∧
       ((∀ x ∈ s.flight, x.space = 2 → x.st = .admitted → x.addr / 4096 = page.toNat →
           (s.core x.core).job.bind s.pasidOf ≠ some pasid.toNat) →
         t.ctr .hif 0x48 = (s.ctr .hif 0x48 + 1) % 2 ^ 48 ∧ .invalidated pasid.toNat page.toNat ∈ t.out)))

/-- Completes: RESUME, STOP. RESUME starts a halted queue of the running job again at its saved position, and is ignored and counted for any other;
STOP ends a queue's descriptors with no record, and of memory changes only the buffers of slots that they had yet to fill; where a halt is being
recorded, once that is done. A reserved bit is counted. -/
def Obligations.StreamDoorbellsAct : Prop :=
  ∀ (s : State) (c : CoreId) (q : BitVec 8) (rsvd : Bool), s.live = true →
    let rs := if rsvd then ctrsAt (.core c) [0xF8] else []
    let x := s.sq c q.toNat
    let ours := q.toNat < 160 ∧ (s.core c).job.isSome = true
    (∀ d rest, ours → x.halting = false → x.run = d :: rest → x.halt ≠ 0 →
      ∃ t, exec (.resume c q rsvd) s = .next t ∧ OnlyCore s t c [.ctrs] ∧ CtrsBut s t (ctrsAt (.core c) [0x430] ++ rs) ∧
        t.sq c q.toNat = { x with run := d.restart x.haltPos (sRows (s.slot c d.head)) :: rest, halt := 0, haltAddr := 0, prg := .none }) ∧
    ((¬ ours ∨ x.halting = true ∨ x.halt = 0) → ∃ t, exec (.resume c q rsvd) s = .next t ∧ Unchanged s t [.ctrs] ∧
      CtrsBut s t (ctrsAt (.core c) [0x458] ++ rs) ∧ t.ctr (.core c) 0x458 = (s.ctr (.core c) 0x458 + 1) % 2 ^ 48) ∧
    (ours → x.halting = false →
      ∃ t, exec (.stop c q rsvd) s = .next t ∧ OnlyCore s t c [.ctrs, .mem, .free] ∧ CtrsBut s t rs ∧ StopLoses s t c q.toNat ∧
        t.sq c q.toNat = { ({} : SQ) with stopping := !(s.inFlight c q.toNat).isEmpty } ∧ (∀ k, k ≠ q.toNat → t.sq c k = s.sq c k)) ∧
    (ours → x.halting = true →
      ∃ t, exec (.stop c q rsvd) s = .next t ∧ OnlyCore s t c [.ctrs] ∧ CtrsBut s t rs ∧
        t.sq c q.toNat = { x with pend := [], stopping := true } ∧ (∀ k, k ≠ q.toNat → t.sq c k = s.sq c k)) ∧
    (¬ ours → ∃ t, exec (.stop c q rsvd) s = .next t ∧ Unchanged s t [.ctrs] ∧ CtrsBut s t rs)

/-! ### Sills and quarries -/

/-- Completes: SILL_PATROL_SCRUB, SILL_REPAIR, QUARRY_PATROL_SCRUB, QUARRY_REPAIR, ROW_IDLE_CLOSE, REFRESH. While the scrubber is enabled in an OPEN sill or quarry with no
repair waiting, a patrol step reads one row of every bank, or the next block of 512 bytes, and goes on to the next: what it meets uncorrectable is
poisoned, a row with a corrected symbol waits for repair while the queue has room. Otherwise it reads nothing. A repair reads the row or the unit at the
head of its queue again, writes it back where it is again corrected, and counts both. No byte changes. An idle row closes. A bank's interval refreshes its next row and those that it owes, while no request of the
bank is late; while one is, the refresh is postponed, at most four times, and the next is forced. -/
def Obligations.CellsAreScrubbedAndRefreshed : Prop :=
  ((∀ (s : State) (c : CoreId), s.live = true →
     (∀ errs : List CwUpset,
       let u := s.sillUpsets c errs
       let works := bitAt (s.preg (.sill c) 0x100) 0 = true ∧ (s.coreLife c).st = .opened ∧ (s.core c).repairQ = []
       let read (k : Nat) : Prop := ∃ r ∈ patrolRows (s.core c).scrubPos, rowAddr c r ≤ 32 * k ∧ 32 * k < rowAddr c r + 512
       ∃ t, exec (.sillPatrolScrub c errs) s = .next t ∧ (∀ a, memGet t.mem a = memGet s.mem a) ∧
         (¬ works → Unchanged s t [.mem] ∧ t.ecc = u.ecc) ∧
         (works → OnlyCore s t c [.mem, .ctrs, .regs, .flt] ∧ (t.core c).scrubPos = ((s.core c).scrubPos + 1) % 512 ∧
           t.ctr (.sill c) 0x50 = (s.ctr (.sill c) 0x50 + 16) % 2 ^ 48 ∧
           (∀ k, ¬ read k → tfind t.ecc k = tfind u.ecc k) ∧
           (∀ k w, tfind u.ecc k = some w → read k →
             (w.grade = 2 → (tget ⟨[], false⟩ t.ecc k).poison = true) ∧
             (w.grade = 1 → bitAt (s.preg (.sill c) 0x100) 1 = true →
               (32 * k - sillBase c) / 512 ∈ (t.core c).repairQ ∨ 8 ≤ (t.core c).repairQ.length)))) ∧
     ((s.core c).repairQ = [] → ∃ t, exec (.sillRepair c) s = .next t ∧ Unchanged s t []) ∧
     (∀ r rest, (s.core c).repairQ = r :: rest →
       let again := ∃ e ∈ s.ecc, rowAddr c r ≤ 32 * e.1 ∧ 32 * e.1 < rowAddr c r + 512 ∧ e.2.grade = 1
       ∃ t, exec (.sillRepair c) s = .next t ∧ OnlyCore s t c [.mem, .ctrs, .regs, .flt] ∧ (t.core c).repairQ = rest ∧
         t.ctr (.sill c) 0x50 = (s.ctr (.sill c) 0x50 + 1) % 2 ^ 48 ∧ (∀ a, memGet t.mem a = memGet s.mem a) ∧
         (again → t.ctr (.sill c) 0x58 = (s.ctr (.sill c) 0x58 + 1) % 2 ^ 48) ∧
         (¬ again → t.ctr (.sill c) 0x58 = s.ctr (.sill c) 0x58) ∧
         (∀ e ∈ t.ecc, rowAddr c r ≤ 32 * e.1 → 32 * e.1 < rowAddr c r + 512 → e.2.grade ≠ 1))) ∧
  (∀ (s : State) (q : CoreId), s.live = true → s.admitted q = [] →
     (∀ errs : List CwUpset,
       let u := s.quarryUpsets q errs
       let works := bitAt (s.preg (.quarry q) 0x100) 1 = true ∧ (s.quarry q).life.st = .opened ∧ (s.quarry q).repairQ = []
       let a := quarryBase q + 512 * (s.quarry q).scrubPos
       ∃ t, exec (.quarryPatrolScrub q errs) s = .next t ∧ (∀ x, memGet t.mem x = memGet s.mem x) ∧
         (¬ works → Unchanged s t [.mem] ∧ t.ecc = u.ecc) ∧
         (works → Unchanged s t [.mem, .quarries, .ctrs, .regs, .flt] ∧ (∀ n, n ≠ q.val → t.quarry n = s.quarry n) ∧
           (t.quarry q).scrubPos = ((s.quarry q).scrubPos + 1) % 1572864 ∧
           t.ctr (.quarry q) 0x98 = (s.ctr (.quarry q) 0x98 + 1) % 2 ^ 48 ∧ t.ctr (.quarry q) 0x40 = (s.ctr (.quarry q) 0x40 + 8) % 2 ^ 48 ∧
           (∀ k w, tfind u.ecc k = some w → a ≤ 32 * k → 32 * k < a + 512 →
             (w.grade = 2 → (tget ⟨[], false⟩ t.ecc k).poison = true) ∧
             (w.grade = 1 → bitAt (s.preg (.quarry q) 0x100) 2 = true →
               (32 * k - quarryBase q) / 64 ∈ (t.quarry q).repairQ ∨ 8 ≤ (t.quarry q).repairQ.length)))) ∧
     ((s.quarry q).repairQ = [] → ∃ t, exec (.quarryRepair q) s = .next t ∧ Unchanged s t []) ∧
     (∀ u rest, (s.quarry q).repairQ = u :: rest →
       let a := quarryBase q + 64 * u
       ∃ t, exec (.quarryRepair q) s = .next t ∧ Unchanged s t [.mem, .quarries, .ctrs, .regs, .flt] ∧ (t.quarry q).repairQ = rest ∧
         (∀ x, memGet t.mem x = memGet s.mem x) ∧ (∀ n, n ≠ q.val → t.quarry n = s.quarry n) ∧
         t.ctr (.quarry q) 0x98 = (s.ctr (.quarry q) 0x98 + 1) % 2 ^ 48 ∧
         t.ctr (.quarry q) 0xA0 = (if s.grade a 64 = 1 then (s.ctr (.quarry q) 0xA0 + 1) % 2 ^ 48 else s.ctr (.quarry q) 0xA0) ∧
         (s.grade a 64 = 1 → ∀ e ∈ t.ecc, a ≤ 32 * e.1 → 32 * e.1 < a + 64 → e.2.grade ≠ 1) ∧
         (s.grade a 64 = 2 → (tget ⟨[], false⟩ t.ecc (a / 32)).poison = true ∧ (tget ⟨[], false⟩ t.ecc (a / 32 + 1)).poison = true)))) ∧
  (∀ (s : State) (q : CoreId) (bank : BitVec 7), s.live = true →
    let debt := tget 0 (s.quarry q).postponed bank.toNat
    let late := s.flight.any (fun r => r.space == 0 && r.st == .admitted && quarryOf r.addr == some q.val && qBank r.addr == bank.toNat &&
      untilDue s.time r.deadline == 0)
    let rows (t : State) (k : Nat) : Prop := tget 0 (t.quarry q).refRow bank.toNat = (tget 0 (s.quarry q).refRow bank.toNat + k) % 3072 ∧
      t.ctr (.quarry q) 0x60 = (s.ctr (.quarry q) 0x60 + k) % 2 ^ 48
    (∃ t, exec (.rowIdleClose q bank) s = .next t ∧ Unchanged s t [.quarries] ∧ tfind (t.quarry q).open_ bank.toNat = none ∧
      (∀ k, k ≠ bank.toNat → tfind (t.quarry q).open_ k = tfind (s.quarry q).open_ k) ∧
      t.quarry q = { s.quarry q with open_ := (t.quarry q).open_ } ∧ (∀ n, n ≠ q.val → t.quarry n = s.quarry n)) ∧
    (∃ t, exec (.refresh q bank) s = .next t ∧ Unchanged s t [.quarries, .ctrs] ∧
      (late = false → rows t (debt + 1) ∧ tget 0 (t.quarry q).postponed bank.toNat = 0) ∧
      (late = true → debt < 4 → (t.quarry q).refRow = (s.quarry q).refRow ∧ tget 0 (t.quarry q).postponed bank.toNat = debt + 1 ∧
        t.ctr (.quarry q) 0x68 = (s.ctr (.quarry q) 0x68 + 1) % 2 ^ 48) ∧
      (late = true → 4 ≤ debt → rows t 1 ∧ tget 0 (t.quarry q).postponed bank.toNat = debt)))

/-- Completes: REMOTE_SILL_REQUEST, MESH_PARITY_ERROR. A request that no earlier one of its core to the same sill precedes is answered with 0x10 by
a sill that is fused, retired, not in service, or moved by a switch, with 0x60, counted, where the two cores are not both the running job's, and
reads or writes the sill and waits served for its reply otherwise: once the agent's slot and the banks are free. A mesh packet with a parity
error is discarded: its request is gone, class 11 is reported, and the core's job is torn down. -/
def Obligations.MeshRequestsAct : Prop :=
  (∀ (s : State) (c o : CoreId) (tag : Nat) (r : Req), s.live = true →
     s.flight.find? (fun r => r.core == c.val && r.tag == tag) = some r → r.space = 1 → r.st = .issued →
     sillOf r.addr = some o.val →
     let served (t : State) (st : Nat) (bs : List Byte) : Prop := t.flight = s.flight.map (fun x =>
       if x.core = c.val ∧ x.tag = tag then { x with st := .served, status := st, data := bs } else x)
     (s.behind r o = true → ∃ t, exec (.remoteSillRequest c tag) s = .next t ∧ Unchanged s t []) ∧
     (s.behind r o = false →
       ((s.sillShut o = true ∨ s.sillMoves o = true) →
         ∃ t, exec (.remoteSillRequest c tag) s = .next t ∧ Unchanged s t [.flight] ∧ served t 0x10 []) ∧
       (s.sillShut o = false → s.sillMoves o = false →
         (((s.core o).job ≠ s.runSlot ∨ (s.core c).job ≠ s.runSlot ∨ s.runSlot = none) →
           ∃ t, exec (.remoteSillRequest c tag) s = .next t ∧ Unchanged s t [.flight, .ctrs] ∧ CtrsBut s t (ctrsAt (.sill o) [0x70]) ∧
             t.ctr (.sill o) 0x70 = (s.ctr (.sill o) 0x70 + 1) % 2 ^ 48 ∧ served t 0x60 []) ∧
         (∀ j, s.runSlot = some j → (s.core c).job = some j → (s.core o).job = some j → (s.core o).current = true →
           (s.coreWaits o r = true → ∃ t, exec (.remoteSillRequest c tag) s = .next t ∧ Unchanged s t []) ∧
           (s.coreWaits o r = false →
             ((s.asyncTry o meshPort [rowOf r.addr]).2 = false →
               ∃ t, exec (.remoteSillRequest c tag) s = .next t ∧ OnlyCore s t o [.ctrs]) ∧
             (s.banksFree o meshPort [rowOf r.addr] → s.ecc = [] →
               (r.write = false → ∃ t, exec (.remoteSillRequest c tag) s = .next t ∧ OnlyCore s t o [.flight, .ctrs] ∧
                 served t 0 (s.bytes r.addr r.len) ∧ t.ctr (.sill o) 0x68 = (s.ctr (.sill o) 0x68 + 1) % 2 ^ 48) ∧
               (r.write = true → s.memOk → ∃ t, exec (.remoteSillRequest c tag) s = .next t ∧ OnlyCore s t o [.flight, .ctrs, .mem] ∧
                 (∀ a, (a < r.addr ∨ r.addr + r.data.length ≤ a) → memGet t.mem a = memGet s.mem a) ∧
                 t.bytes r.addr r.data.length = r.data ∧ served t 0 [] ∧
                 t.ctr (.sill o) 0x68 = (s.ctr (.sill o) 0x68 + 1) % 2 ^ 48))))))) ∧
  (∀ (s : State) (c : CoreId) (tag : Nat), s.live = true →
     (s.flight.find? (fun r => r.core == c.val && r.tag == tag) = none → ∃ t, exec (.meshParityError c tag) s = .next t ∧ Unchanged s t []) ∧
     (∀ r, s.flight.find? (fun r => r.core == c.val && r.tag == tag) = some r →
       ∃ t, exec (.meshParityError c tag) s = .next t ∧ Records s t 11 ∧ (∀ x ∈ t.flight, ¬ (x.core = c.val ∧ x.tag = tag)) ∧
         (∀ j, (s.core c).job = some j → Tears s t j)))

/-- Completes: QUARRY_ADMISSION, QUARRY_COMMAND_ISSUE. The next request at an input port waits there while its channel has no entry for it: 8 are
the owning core's alone, 24 are shared (R245). With one, a request of the running job to its core's own OPEN quarry is admitted where the job's
allocation covers it, one to another quarry through the lowest-numbered window of class CORE that admits it, both denied with 0x60 and
counted otherwise; to a quarry that is not OPEN, 0x10; where no quarry is, 0x7F. A channel serves the request that it chooses, its codewords clean:
a read answers the bytes, those of a working copy that an optimizer step writes apart, a write stores them and nothing else, and the request's row
stands open at its bank, a hit where it stood open before. -/
def Obligations.QuarriesServe : Prop :=
  (∀ (s : State) (c : CoreId) (tag : Nat) (r : Req), s.live = true →
     s.flight.find? (fun r => r.core == c.val && r.tag == tag) = some r → r.space = 0 →
     let served (t : State) (st : Nat) : Prop := t.flight = s.flight.map (fun x =>
       if x.core = c.val ∧ x.tag = tag then { x with st := .served, status := st, data := [] } else x)
     let admits (t : State) (q : Nat) (w : Option Nat) : Prop :=
       t.quarry q = { s.quarry q with arrivals := (s.quarry q).arrivals + 1 } ∧ (∀ n, n ≠ q → t.quarry n = s.quarry n) ∧
       t.flight = s.flight.map (fun x => if x.core = c.val ∧ x.tag = tag
         then { x with st := .admitted, arrival := (s.quarry q).arrivals, win := w } else x)
     let go := exec (.quarryAdmission c tag) s
     (quarryOf r.addr = none → r.st = .issued → r.addr < mirrorBase → ∃ t, go = .next t ∧ Unchanged s t [.flight] ∧ served t 0x7F) ∧
     (∀ q, quarryOf r.addr = some q → (r.st = .issued ∨ r.st = .waiting) →
       (s.nextAtPort q r = false → ∃ t, go = .next t ∧ Unchanged s t []) ∧
       (s.nextAtPort q r = true →
         let held (own : Bool) : Nat := (s.admitted q).countP (fun x => qChan x.addr == qChan r.addr && (x.core == q) == own)
         let room := if r.core = q then held false + (held true + 1 - 8) ≤ 24 else held false + 1 + (held true - 8) ≤ 24
         (¬ room → ∃ t, go = .next t ∧ Unchanged s t [.flight] ∧
           t.flight = s.flight.map (fun x => if x.core = c.val ∧ x.tag = tag then { x with st := .waiting } else x)) ∧
         (room → (s.quarry q).life.st ≠ .opened → ∃ t, go = .next t ∧ Unchanged s t [.flight] ∧ served t 0x10) ∧
         (room → (s.quarry q).life.st = .opened → q = r.core →
           let covered := ∃ j, s.runSlot = some j ∧ (s.core c).job = some j ∧ s.inAlloc q j r.addr r.len = true ∧ s.inShutter q r.addr r.len = false
           (covered → ∃ t, go = .next t ∧ Unchanged s t [.flight, .quarries] ∧ admits t q none) ∧
           (¬ covered → ∃ t, go = .next t ∧ Unchanged s t [.flight, .ctrs] ∧ CtrsBut s t (ctrsAt (.quarry q) [0x80]) ∧
             t.ctr (.quarry q) 0x80 = (s.ctr (.quarry q) 0x80 + 1) % 2 ^ 48 ∧ served t 0x60)) ∧
         (room → (s.quarry q).life.st = .opened → q ≠ r.core →
           let win := if quarryOf (r.addr + r.len - 1) = some q ∧ s.inShutter q r.addr r.len = false
             then s.winFor q .core (if r.write then .write else .read) r.addr r.len else none
           (∀ w, win = some w → ∃ t, go = .next t ∧ Unchanged s t [.flight, .quarries, .ctrs] ∧ admits t q (some w) ∧
             t.ctr (.quarry q) (0x810 + 0x20 * w) = (s.ctr (.quarry q) (0x810 + 0x20 * w) + 1) % 2 ^ 48) ∧
           (win = none → ∃ t, go = .next t ∧ Unchanged s t [.flight, .ctrs] ∧ CtrsBut s t (ctrsAt (.quarry q) [0x88]) ∧
             t.ctr (.quarry q) 0x88 = (s.ctr (.quarry q) 0x88 + 1) % 2 ^ 48 ∧ served t 0x60))))) ∧
  (∀ (s : State) (q : CoreId) (ch : Bool), s.live = true →
     let budget := if ch then (s.quarry q).budget else min 4096 ((s.quarry q).budget + 32)
     (s.chosen q ch budget = none → ∃ t, exec (.quarryCommandIssue q ch []) s = .next t ∧ Unchanged s t [.quarries] ∧
       t.quarry q = { s.quarry q with budget := budget }) ∧
     (∀ r, s.chosen q ch budget = some r → s.ecc = [] →
       let served (t : State) (bs : List Byte) : Prop := t.flight = s.flight.map (fun x =>
         if x.core = r.core ∧ x.tag = r.tag then { x with st := .served, status := 0, data := bs } else x)
       let hit := tfind (s.quarry q).open_ (qBank r.addr) = some (qRow r.addr)
       let opens (t : State) : Prop := tfind (t.quarry q).open_ (qBank r.addr) = some (qRow r.addr) ∧
         t.ctr (.quarry q) 0x70 = (if hit then (s.ctr (.quarry q) 0x70 + 1) % 2 ^ 48 else s.ctr (.quarry q) 0x70) ∧
         (t.quarry q).budget = if r.lc && decide (r.len ≤ budget) then budget - r.len else budget
       r ∈ s.flight ∧ r.st = .admitted ∧ quarryOf r.addr = some q.val ∧
       (r.write = false → ∃ t bs, exec (.quarryCommandIssue q ch []) s = .next t ∧ Unchanged s t [.flight, .ctrs, .quarries, .free] ∧
         served t bs ∧ opens t ∧ bs.length = r.len ∧
         (∀ i, i < r.len → s.beingWritten (unitStart (r.addr + i)) 64 = false → bs[i]? = some (memGet s.mem (r.addr + i)))) ∧
       (r.write = true → s.memOk → ∃ t, exec (.quarryCommandIssue q ch []) s = .next t ∧ Unchanged s t [.flight, .ctrs, .quarries, .mem] ∧
         served t [] ∧ opens t ∧ t.bytes r.addr r.data.length = r.data ∧
         (∀ a, (a < r.addr ∨ r.addr + r.data.length ≤ a) → memGet t.mem a = memGet s.mem a))))

/-- Completes: SENSOR_READ, HOT_MODE_EXIT. Stavuf held in reset reads nothing. Otherwise every quarry page and every thermal register shows its reading,
a failed sensor's replaced, reported in class 10 with a bit when it begins to fail; a quarry above 83 °C enters the hot mode and one at or below 80 °C
counts towards its end, which HOT_MODE_EXIT takes after 10,000 readings in a row. A first reading above a maximum sets its bit and is reported in
class 10. Of working sensors within the maxima nothing is reported. -/
def Obligations.SensorsAreRead : Prop :=
  ∀ (s : State) (dram logic : List (Option (BitVec 16))), s.live = true →
    (s.boot.svcHeld = true → ∃ t, exec (.sensorRead dram logic) s = .next t ∧ Unchanged s t []) ∧
    (s.boot.svcHeld = false → dram.length = 128 → logic.length = 64 →
      let dv (k : Nat) : Int := replaced (dram.map sensorOk) meshDist dramNear 1520 k
      let lv (k : Nat) : Int := replaced (logic.map sensorOk) absDiff logicNear 1680 k
      ∃ t, exec (.sensorRead dram logic) s = .next t ∧ Unchanged s t [.regs, .quarries, .ctrs, .pwr, .flt] ∧
        (∀ k : Fin 128, t.preg (.quarry k) 0x10C = enc16 (dv k) ∧
          (t.quarry k).hot = ((s.quarry k).hot || decide (1328 < dv k)) ∧
          (t.quarry k).cool = (if dv k ≤ 1280 then (s.quarry k).cool + 1 else 0)) ∧
        (∀ k, k < 64 → t.preg .thermal (0x200 + 4 * k) = enc16 (lv k)) ∧
        ((∀ k, k < 128 → dv k ≤ 1520) → (∀ k, k < 64 → lv k ≤ 1680) → (∀ x ∈ dram ++ logic, (sensorOk x).isSome = true) →
          Unchanged s t [.regs, .quarries, .ctrs, .pwr]) ∧
        (s.pwr.dramOver = false → (∃ k, k < 128 ∧ 1520 < dv k) → Records s t 10 ∧ bitAt (t.preg .thermal 0x10C) 0 = true) ∧
        (s.pwr.logicOver = false → (∃ k, k < 64 ∧ 1680 < lv k) → Records s t 10 ∧ bitAt (t.preg .thermal 0x10C) 1 = true) ∧
        (∀ k, k < 128 → sensorOk (dram.getD k none) = none → (s.pwr.dram.getD k (some 0)).isSome = true →
          Records s t 10 ∧ bitAt (t.preg .thermal 0x10C) 2 = true)) ∧
    (∀ q : CoreId, (10000 ≤ (s.quarry q).cool → ∃ t, exec (.hotModeExit q) s = .next t ∧ Unchanged s t [.quarries] ∧
        t.quarry q = { s.quarry q with hot := false }) ∧
      ((s.quarry q).cool < 10000 → ∃ t, exec (.hotModeExit q) s = .next t ∧ Unchanged s t []))

/-- Completes: WINDOW_OPEN, WINDOW_CLOSE, WINDOW_CLOSED. A CLOSED window whose entry passes the checks opens with the fields written; one that fails
them stays CLOSED, and a window that is not CLOSED is not opened, both counted. Closing an OPEN window makes it CLOSING, and it is CLOSED
once no request of it is in flight. What the program may not write, or opens wrongly, is a program fault. -/
def Obligations.WindowsOpenAndClose : Prop :=
  ∀ (s : State) (q : CoreId) (w : BitVec 6) (word0 : W32) (who : Agent), s.live = true →
    let st := fld (s.winWord q w.toNat 0) 31 30
    let v := putFld word0.toNat 31 30 1
    let u := s.winFields q w.toNat 0 v
    let counted (t : State) : Prop := t.ctr (.quarry q) 0x90 = (s.ctr (.quarry q) 0x90 + 1) % 2 ^ 48
    let others (t : State) : Prop := RegsBut s t [(Page.quarry q).base + 0x800 + 0x20 * w.toNat] ∧ Unchanged s t [.regs, .ctrs]
    let able (v : Nat) : Prop := who = .program → s.progWin q w.toNat 0 v = true
    let faults (i : Instr) : Prop := ∃ t, exec i s = .next t ∧ Records s t 14 ∧ (∀ j, s.runSlot = some j → Tears s t j)
    (able v →
      (st = 0 → u.winOk q w.toNat = true → ∃ t, exec (.windowOpen q w word0 who) s = .next t ∧ others t ∧ t.winWord q w.toNat 0 = v) ∧
      (st = 0 → u.winOk q w.toNat = false →
        (who ≠ .program → ∃ t, exec (.windowOpen q w word0 who) s = .next t ∧ others t ∧ counted t ∧ fld (t.winWord q w.toNat 0) 31 30 = 0) ∧
        (who = .program → faults (.windowOpen q w word0 who))) ∧
      (st ≠ 0 → ∃ t, exec (.windowOpen q w word0 who) s = .next t ∧ Unchanged s t [.ctrs] ∧ counted t)) ∧
    (¬ able v → faults (.windowOpen q w word0 who)) ∧
    ((who = .program → s.progWin q w.toNat 0 (s.winWord q w.toNat 0) = true) →
      (st = 1 → ∃ t, exec (.windowClose q w who) s = .next t ∧ others t ∧ t.winWord q w.toNat 0 = putFld (s.winWord q w.toNat 0) 31 30 2) ∧
      (st = 2 → ∃ t, exec (.windowClose q w who) s = .next t ∧ others t ∧ fld (t.winWord q w.toNat 0) 31 30 = 2) ∧
      (st = 0 → ∃ t, exec (.windowClose q w who) s = .next t ∧ others t ∧ fld (t.winWord q w.toNat 0) 31 30 = 0)) ∧
    (st = 2 → s.winBusy q w.toNat = false → ∃ t, exec (.windowClosed q w) s = .next t ∧ others t ∧
      t.winWord q w.toNat 0 = putFld (s.winWord q w.toNat 0) 31 30 0) ∧
    ((st ≠ 2 ∨ s.winBusy q w.toNat = true) → ∃ t, exec (.windowClosed q w) s = .next t ∧ Unchanged s t [])

/-! ### The bench -/

/-- Completes: BENCH_COMMAND_START. A queue's next command is read and held. One whose trigger or gate does not let it run waits, counted; so does an
optimizer step whose tensors an EXPORT or IMPORT holds. One whose fields, rings and region pass the checks reads its mask and
operands and runs, its trigger slot taken, the region of an EXPORT or IMPORT held; one that fails a check completes with INTERNAL and is a
program fault, as is one whose bytes may not be read; an uncorrectable unit tears the job down. -/
def Obligations.BenchCommandsStart : Prop :=
  ∀ (s : State) (q : CoreId) (b : BitVec 5) (j : Nat), s.live = true → (s.core q).current = true → s.benchJob q = some j →
    let go := exec (.benchCommandStart q b) s
    let x := s.bq q b.toNat
    ((s.bqLen q b.toNat = 0 ∨ x.st = 1 ∨ x.st = 3) → ∃ t, go = .next t ∧ Unchanged s t []) ∧
    (s.bqLen q b.toNat ≠ 0 → x.st ≠ 1 → x.st ≠ 3 →
      (∀ u st c f, s.nextCmd q j b.toNat = (u, st, c, f) → 1 < st → ∃ t, go = .next t ∧ Tears s t j ∧ (st ≠ 0x40 → Records s t 14)) ∧
      (∀ u c f, s.nextCmd q j b.toNat = (u, 0, c, f) →
        let k : Bc := ⟨q, some b.toNat, some j, c⟩
        let waits (t : State) (o : Nat) : Prop := t.bq q b.toNat = { u.bq q b.toNat with st := 2, cmd := some c } ∧
          t.ctr (.bench q) o = (u.ctr (.bench q) o + 1) % 2 ^ 48 ∧ (x.cmd ≠ none → Unchanged s t [.quarries, .ctrs])
        (u.benchWaits k b.toNat = true → ∃ t, go = .next t ∧ waits t 0x78) ∧
        (u.benchWaits k b.toNat = false → k.isOpt = true → u.locked k = true → ∃ t, go = .next t ∧ waits t 0x70) ∧
        (u.benchWaits k b.toNat = false → (k.isOpt = false ∨ u.locked k = false) →
          let ok := k.fieldsOk && k.regionOk && u.ringsOk k b.toNat
          (ok = false → ∃ t, go = .next t ∧ Records s t 14 ∧ Tears s t j ∧ t.preg (.bench q) 0x104 = 0x7F * 2 ^ 24 + k.op * 2 ^ 16 + b.toNat) ∧
          (ok = true → ∀ v w st snap g, u.benchTries q (u.startRanges k) = (v, true) → v.startReads k (v.startRanges k) = (w, st, snap, g) →
            let y : BQ := { w.bq q b.toNat with st := 1, cmd := some c, done := 0, old := [], snap := snap }
            ((1 < st ∨ y.readsOk k = false) → ∃ t, go = .next t ∧ Tears s t j) ∧
            (st ≤ 1 → y.readsOk k = true → ∃ t, go = .next t ∧
              t.bq q b.toNat = { y with work := if k.isOpt then y.args.work else [] } ∧
              (k.trig = true → let h := s.inHead q b.toNat
                t.slotFull q h (sCons (s.slot q h)) = false ∧ sCons (t.slot q h) = (sCons (s.slot q h) + 1) % sLen (s.slot q h)) ∧
              ((k.op = 0xC ∨ k.op = 0xD) → ⟨some b.toNat, k.dst, k.dst + k.count⟩ ∈ (t.quarry q).locks) ∧
              (x.cmd ≠ none → k.trig = false → k.isOpt = false → k.maskEn = false → Unchanged s t [.quarries]))))))

/-- Completes: ADD, XCHG, FILL. Of elements that one data slot holds, within what the command reaches: each element becomes the sum, but where the
mask discards it, the slot's element, or zero; no other byte of memory changes, the reply's slot apart, which after XCHG holds the old elements. The
slot is empty again and the queue goes on to its next command; a host command leaves the head of its list. A data slot that is not FULL
leaves the command waiting. A difference of the two pipelines is class 2, and with ACTION 0 the job is torn down. -/
def Obligations.BenchElementsAreWritten : Prop :=
  (∀ (s : State) (b : BitVec 5) (q : CoreId) (k : Bc) (j : Nat) (i : Bool → Instr) (op : Nat), k.n = q.val → k.job = some j →
    (i, op) = (Instr.add q b, 1) ∨ (i, op) = (.xchg q b, 2) ∨ (i, op) = (.fill q (some b), 3) →
    let h := s.inHead q b.toNat
    let len := k.count * k.size
    let src := rowAddr q (sBuf (s.ringSlot q h (sCons (s.slot q h))))
    BenchRuns s k b.toNat op (if op = 3 then s.replyRange k else s.dataRange k b.toNat len :: s.replyRange k) →
    (s.bq q b.toNat).done = 0 → k.dtype ≤ 3 → 0 < k.count → k.dst % k.size = 0 → s.tagRoom k [(k.dst, len)] →
    s.benchOpen k (if op = 3 then .write else .atomic) k.dst len →
    let full := s.slotFull q h (sCons (s.slot q h)) = true ∧ len ≤ s.slotBytes q h ∧ s.ringOk q h = true
    let m := k.maskOf (s.bq q b.toNat)
    let keeps (a : Nat) : Prop := op = 1 ∧ discardsAt k m a k.size = true
    (op ≠ 3 → s.slotFull q h (sCons (s.slot q h)) = false → ∃ t, exec (i false) s = .next t ∧ Unchanged s t []) ∧
    ((op = 3 ∨ full) →
      (∃ t, exec (i false) s = .next t ∧ OnlyCore s t q [.quarries, .mem, .ctrs, .flt, .events, .regs, .hif, .out, .red] ∧
        (∀ e, e < k.count →
          let a := k.dst + e * k.size
          (keeps a → t.num a k.size = s.num a k.size) ∧
          (¬ keeps a → t.num a k.size =
            if op = 1 then (addElem k.dtype (s.num a k.size) (s.num (src + e * k.size) k.size)).1
            else if op = 2 then s.num (src + e * k.size) k.size else 0)) ∧
        (∀ a, (a < k.dst ∨ k.dst + len ≤ a) → ¬ s.replyByte k a → memGet t.mem a = memGet s.mem a) ∧
        BenchEnds s t k b.toNat k.count ∧
        (op ≠ 3 → (k.reply = true → h + sCons (s.slot q h) % sLen (s.slot q h) ≠
            s.outHead q b.toNat + sProd (s.slot q (s.outHead q b.toNat)) % sLen (s.slot q (s.outHead q b.toNat))) →
          t.slotFull q h (sCons (s.slot q h)) = false ∧ sCons (t.slot q h) = (sCons (s.slot q h) + 1) % sLen (s.slot q h)) ∧
        (op = 2 → k.reply = true → 64 + len ≤ s.slotBytes q (s.outHead q b.toNat) →
          t.bytes (rowAddr q (sBuf (s.ringSlot q (s.outHead q b.toNat) (sProd (s.slot q (s.outHead q b.toNat))))) + 64) len = s.bytes k.dst len)) ∧
      (bitAt (s.preg (.bench q) 0x100) 0 = true → ∃ t, exec (i true) s = .next t ∧ (s.flt.unack < 29 → Records s t 2) ∧
        (bitAt (s.preg (.bench q) 0x100) 1 = false → Tears s t j)) ∧
      (bitAt (s.preg (.bench q) 0x100) 0 = false → exec (i true) s = exec (i false) s))) ∧
  (∀ (s : State) (q : CoreId) (k : Bc), s.live = true → (s.core q).current = true → s.memOk → s.quiet →
    s.bcOf q none 3 = some k →
    (k.fieldsOk = true → s.benchOpen k .write k.dst (k.count * k.size) → ∃ t, exec (.fill q none false) s = .next t ∧
      Unchanged s t [.quarries, .mem, .ctrs, .flt, .hif, .out, .regs] ∧
      (∀ a, k.dst ≤ a → a < k.dst + k.count * k.size → memGet t.mem a = 0) ∧
      (∀ a, (a < k.dst ∨ k.dst + k.count * k.size ≤ a) → memGet t.mem a = memGet s.mem a) ∧
      (t.quarry q).host = (s.quarry q).host.drop 1 ∧ t.ctr (.bench q) 0x40 = (s.ctr (.bench q) 0x40 + 1) % 2 ^ 48) ∧
    (k.fieldsOk = false → ∃ t, exec (.fill q none false) s = .next t ∧ (∀ a, memGet t.mem a = memGet s.mem a) ∧
      (t.quarry q).host = (s.quarry q).host.drop 1 ∧ t.preg (.bench q) 0x104 = 0x7F * 2 ^ 24 + 3 * 2 ^ 16))

/-- Completes: TOXF, XFADD, SGD, ADAMW, LION. Within what the command reaches, its ranges apart: TOXF converts each block under its header's EXP, discarded
elements to zero, writes the block's header and at the end the sum of the elements. XFADD adds blocks of one EXP element by element as 64-bit
integers and joins their headers: the larger MAXEXP, either RANGE_MISS, either NONFINITE, the same EXP; where the EXP fields of the first block
differ it writes nothing and ends with FAULT_CHECKSUM, class 3. An optimizer step updates each block's master and moments, a discarded element
keeping its values; of a tag that is skipped it completes with SKIPPED and touches nothing. One that fails an access stops with its
status, and the job is torn down. -/
def Obligations.BenchBlocksRun : Prop :=
  ∀ (s : State) (q : CoreId) (b : BitVec 5) (k : Bc) (j : Nat), k.n = q.val → k.job = some j →
    let z := s.bq q b.toNat
    let m := k.maskOf z
    let src := k.src % 2 ^ 48
    let n := k.count
    let u := (s.benchTries q (s.replyRange k)).1
    let parts : List Part := [.quarries, .mem, .ctrs, .flt, .events, .regs, .hif, .out, .red]
    let code (t : State) (st : Nat) : Prop := t.preg (.bench q) 0x104 = st * 2 ^ 24 + k.op * 2 ^ 16 + b.toNat
    let stops (i : Instr) (r : BlkRun) : Prop := r.status ≠ 0 → r.status ≠ 0x41 → ∃ t, exec i s = .next t ∧ Tears s t j ∧ code t r.status
    (BenchRuns s k b.toNat 4 (s.replyRange k) →
      stops (.toxf q b false) (u.toxfRun k m false 0 n 0 0 ones64) ∧
      (s.benchOpen k .read src (128 * n) → s.benchOpen k .read k.hdr (4 * n) → s.benchOpen k .write k.dst (256 * n) →
       s.benchOpen k .write k.hdr (4 * n) → s.benchOpen k .write k.hdr2 8 → s.tagRoom k [(k.dst, 256 * n), (k.hdr, 4 * n), (k.hdr2, 8)] →
       apart src (128 * n) k.dst (256 * n) → apart src (128 * n) k.hdr (4 * n) → apart k.dst (256 * n) k.hdr (4 * n) →
       apart k.hdr2 8 k.dst (256 * n) → apart k.hdr2 8 k.hdr (4 * n) →
       ∃ t, exec (.toxf q b false) s = .next t ∧ OnlyCore s t q parts ∧ BenchEnds s t k b.toNat n ∧
         (∀ i, i < n →
           let xs := (List.range 32).map (fun e => BitVec.ofNat 32 (s.num (src + 128 * i + 4 * e) 4))
           let disc := (List.range 32).map (fun e => discardsAt k m (src + 128 * i + 4 * e) 4)
           let blk := toxfBlock (s.num (k.hdr + 4 * i) 4) xs disc
           t.bytes (k.dst + 256 * i) 256 = blk.1.flatMap (natLe 8) ∧ t.num (k.hdr + 4 * i) 4 = blk.2.1) ∧
         t.num k.hdr2 8 = ((List.range n).map (fun i => blockSum (t.bytes (k.dst + 256 * i) 256))).sum % 2 ^ 64 ∧
         (∀ a, (a < k.dst ∨ k.dst + 256 * n ≤ a) → (a < k.hdr ∨ k.hdr + 4 * n ≤ a) → (a < k.hdr2 ∨ k.hdr2 + 8 ≤ a) → ¬ s.replyByte k a →
           memGet t.mem a = memGet s.mem a))) ∧
    (BenchRuns s k b.toNat 5 (s.replyRange k) →
      stops (.xfadd q b false) (u.xfaddRun k 0 n 0) ∧
      (s.benchOpen k .read src (256 * n) → s.benchOpen k .read k.hdr2 (4 * n) → s.benchOpen k .xfadd k.dst (256 * n) →
       s.benchOpen k .xfadd k.hdr (4 * n) →
       apart src (256 * n) k.dst (256 * n) → apart src (256 * n) k.hdr (4 * n) → apart k.hdr2 (4 * n) k.dst (256 * n) →
       apart k.hdr2 (4 * n) k.hdr (4 * n) → apart k.dst (256 * n) k.hdr (4 * n) →
       let was (i : Nat) : Nat := s.num (k.hdr + 4 * i) 4
       let new (i : Nat) : Nat := s.num (k.hdr2 + 4 * i) 4
       ((∀ i, i < n → fld (was i) 7 0 = fld (new i) 7 0) → s.tagRoom k [(k.dst, 256 * n), (k.hdr, 4 * n)] →
         ∃ t, exec (.xfadd q b false) s = .next t ∧ OnlyCore s t q parts ∧ BenchEnds s t k b.toNat n ∧
         (∀ i e, i < n → e < 32 → t.num (k.dst + 256 * i + 8 * e) 8 = (s.num (k.dst + 256 * i + 8 * e) 8 + s.num (src + 256 * i + 8 * e) 8) % 2 ^ 64) ∧
         (∀ i, i < n → let h := t.num (k.hdr + 4 * i) 4
           fld h 31 24 = max (fld (was i) 31 24) (fld (new i) 31 24) ∧ bitAt h 9 = (bitAt (was i) 9 || bitAt (new i) 9) ∧
           bitAt h 8 = (bitAt (was i) 8 || bitAt (new i) 8) ∧ fld h 7 0 = fld (was i) 7 0) ∧
         (∀ a, (a < k.dst ∨ k.dst + 256 * n ≤ a) → (a < k.hdr ∨ k.hdr + 4 * n ≤ a) → ¬ s.replyByte k a → memGet t.mem a = memGet s.mem a)) ∧
       (0 < n → fld (was 0) 7 0 ≠ fld (new 0) 7 0 → k.tagDone = false → ∃ t, exec (.xfadd q b false) s = .next t ∧ OnlyCore s t q parts ∧
         Records s t 3 ∧ code t 0x41 ∧ (t.bq q b.toNat).st = 0 ∧ ∀ a, ¬ s.replyByte k a → memGet t.mem a = memGet s.mem a))) ∧
    (∀ i op, (i, op) = (Instr.sgd q b false, 8) ∨ (i, op) = (.adamw q b false, 9) ∨ (i, op) = (.lion q b false, 0xA) →
      let o := z.args
      let n := o.rows * o.kb
      BenchRuns s k b.toNat op (s.optRange k o) →
      ((k.gateEn = false ∨ (s.tag j k.tag).skipped = false) → stops i ((s.benchTries q (s.optRange k o)).1.optRun k o m false 0 n 0)) ∧
      (k.gateEn = true → (s.tag j k.tag).skipped = true → k.tagDone = false → ∃ t, exec i s = .next t ∧ Unchanged s t (.cores :: parts) ∧
        code t 0x42 ∧ (t.bq q b.toNat).st = 0 ∧ ∀ a, ¬ s.replyByte k a → memGet t.mem a = memGet s.mem a) ∧
      ((k.gateEn = false ∨ (s.tag j k.tag).skipped = false) → o.wd = none →
        let xf := o.addr 0x20 ≠ 0
        let writes := [(o.addr 0, 128 * n), (o.addr 8, 32 * o.msz * n)] ++ (if op = 9 then [(o.addr 0x10, 32 * o.msz * n)] else [])
        let reads := [if xf then (o.addr 0x18, 256 * n) else (o.addr 0x18, 128 * n)] ++ (if xf then [(o.addr 0x20, 4 * n)] else [])
        (∀ r ∈ writes, s.benchOpen k .read r.1 r.2 ∧ s.benchOpen k .write r.1 r.2 ∧ ∀ p ∈ reads, apart r.1 r.2 p.1 p.2) →
        (∀ r ∈ reads, s.benchOpen k .read r.1 r.2) → writes.Pairwise (fun r p => apart r.1 r.2 p.1 p.2) → s.tagRoom k writes → 0 < o.kb →
        ∃ t, exec i s = .next t ∧ OnlyCore s t q parts ∧ BenchEnds s t k b.toNat (32 * n) ∧
          (∀ x, x < n →
            let blk := o.block op ((o.reads op x).map (fun r => s.bytes r.1 r.2))
            let disc := (List.range 32).map (fun e => discards m (o.row0 + x / o.kb) (32 * (x % o.kb) + e))
            let y := o.stored op (o.update op blk disc)
            t.bytes (o.addr 0 + 128 * x) 128 = y.1 ∧ t.bytes (o.addr 8 + 32 * o.msz * x) (32 * o.msz) = y.2.1 ∧
            (op = 9 → t.bytes (o.addr 0x10 + 32 * o.msz * x) (32 * o.msz) = y.2.2)) ∧
          (∀ a, (∀ r ∈ writes, a < r.1 ∨ r.1 + r.2 ≤ a) → ¬ s.replyByte k a → memGet t.mem a = memGet s.mem a)))

/-- Completes: EXPORT, IMPORT. Each command moves the next 4 KiB of its region, or what is left: EXPORT sends its bytes, to the host under the job's PASID or to the
peer in messages, IMPORT writes those that came, and both count them. With the last of them EXPORT writes the digest of the region, and IMPORT
compares it, MISMATCH where it differs; the region stands in the quarry either way. A remote side that ends badly ends the command with its
status, and nothing is torn down; a host command that fails a check ends with INTERNAL. Without the transactions that it needs it waits. -/
def Obligations.RegionsMove : Prop :=
  ∀ (s : State) (q : CoreId) (b : Option (BitVec 5)) (k : Bc) (i : RemoteEnd → List Byte → Instr) (op done : Nat) (old : List Byte),
    (i, op) = (fun r _ => Instr.benchExport q b r, 0xC) ∨ (i, op) = (Instr.benchImport q b, 0xD) →
    s.live = true → (s.core q).current = true → s.memOk → s.quiet → s.bcOf q (b.map BitVec.toNat) op = some k → s.progress k = (done, old) →
    let len := min 4096 (k.count - done)
    let code (t : State) (st : Nat) : Prop := t.preg (.bench q) 0x104 = st * 2 ^ 24 + op * 2 ^ 16 + (b.map BitVec.toNat).getD 0
    let ended (t : State) : Prop := (∀ c, b = some c → (t.bq q c.toNat).st = 0 ∧ (t.bq q c.toNat).cmd = none) ∧
      (b = none → (t.quarry q).host = (s.quarry q).host.drop 1) ∧ t.ctr (.bench q) 0x40 = (s.ctr (.bench q) 0x40 + 1) % 2 ^ 48
    (k.hostOk = false → ∀ r data, ∃ t, exec (i r data) s = .next t ∧ (∀ a, memGet t.mem a = memGet s.mem a) ∧ ended t ∧ code t 0x7F) ∧
    (k.hostOk = true → k.hostRegion = false → ∀ r data, ∃ t, exec (i r data) s = .next t ∧ (∀ a, memGet t.mem a = memGet s.mem a) ∧ ended t ∧ code t 0x60) ∧
    (k.hostOk = true → k.hostRegion = true → s.remoteReady k done len = false → ∀ r data, ∃ t, exec (i r data) s = .next t ∧ Unchanged s t []) ∧
    (k.hostOk = true → k.hostRegion = true → s.remoteReady k done len = true → s.replyFree k = true →
      (s.benchTries q (s.replyRange k)).2 = true → s.benchOpen k (if op = 0xC then .read else .write) (k.dst + done) len →
      s.benchOpen k (if op = 0xC then .write else .read) k.hdr 32 → apart (k.dst + done) len k.hdr 32 → k.tagDone = false →
      let parts : List Part := [.cores, .quarries, .mem, .ctrs, .ports, .out, .free, .hif, .flt, .regs]
      (∀ data, s.remoteEnd k done .done = (0, 0) →
        let bs := if op = 0xC then s.bytes (k.dst + done) len else fitTo len data
        let sum := regionDigest k.count k.tbase (old ++ bs)
        ∃ t, exec (i .done data) s = .next t ∧ Unchanged s t parts ∧
          (op = 0xC → t.ctr (.bench q) 0x58 = (s.ctr (.bench q) 0x58 + len) % 2 ^ 48 ∧
            (fld k.aux 29 28 = 2 → 0 < len → .hostWrite (k.src + done) (k.job.bind s.pasidOf) bs ∈ t.out)) ∧
          (op = 0xD → t.ctr (.bench q) 0x60 = (s.ctr (.bench q) 0x60 + len) % 2 ^ 48 ∧ t.bytes (k.dst + done) len = bs ∧
            (fld k.aux 29 28 = 2 → 0 < len → .hostRead (k.src + done) (k.job.bind s.pasidOf) len ∈ t.out)) ∧
          (∀ p, fld k.aux 29 28 ≠ 2 → s.routePort k.sender (k.aux % 65536) = some p → 0 < len →
            (t.port p).txq.length = (s.port p).txq.length + (remoteCut (k.src + done) len).length) ∧
          (∀ a, (op = 0xD → a < k.dst + done ∨ k.dst + done + len ≤ a) → (op = 0xC → a < k.hdr ∨ k.hdr + 32 ≤ a) → ¬ s.replyByte k a →
            memGet t.mem a = memGet s.mem a) ∧
          (done + len < k.count → t.progress k = (done + len, old ++ bs) ∧ ∀ a, op = 0xC → memGet t.mem a = memGet s.mem a) ∧
          (k.count ≤ done + len → ended t ∧ (op = 0xC → t.bytes k.hdr 32 = sum) ∧
            (op = 0xD → s.bytes k.hdr 32 ≠ sum → code t 0x41 ∧ t.ctr (.bench q) 0x68 = (s.ctr (.bench q) 0x68 + 1) % 2 ^ 48) ∧
            (op = 0xD → s.bytes k.hdr 32 = sum → t.ctr (.bench q) 0x68 = s.ctr (.bench q) 0x68))) ∧
      (∀ r data e, s.remoteEnd k done r = e → e.1 ≠ 0 → ∃ t, exec (i r data) s = .next t ∧ Unchanged s t parts ∧ ended t ∧ code t e.1 ∧
        ∀ a, (op = 0xD → a < k.dst + done ∨ k.dst + done + k.moved done len e ≤ a) → ¬ s.replyByte k a → memGet t.mem a = memGet s.mem a))

/-- Sums of exact blocks do not depend on the order in which they are formed, nor do the headers of blocks of one exponent. -/
def Obligations.ExactSumsHaveNoOrder : Prop :=
  (∀ a b c : List Byte, xfAdd a b = xfAdd b a ∧ xfAdd (xfAdd a b) c = xfAdd a (xfAdd b c)) ∧
  (∀ a b c : Nat, fld a 7 0 = fld b 7 0 → fld b 7 0 = fld c 7 0 →
    xfJoinHdr a b = xfJoinHdr b a ∧ xfJoinHdr (xfJoinHdr a b) c = xfJoinHdr a (xfJoinHdr b c))

/-! ### The reduction engine -/

/-- Completes: TAG_ARM, SHARD_VERIFY, TAG_REDUCED, VERDICT_TRIGGER, GATHER_SEND, OPEN_RETRY, REDUCTION_WATCHDOG. The engine's own events on a tag of the
running job: a spent tag is armed again in the next step, or IDLE where its descriptor is no longer VALID; a complete sum is compared with the checksums
of its arrivals; a full tag becomes REDUCED, poisoned where a header is; a verdict triggers once the buckets that name it are full; gathers and
retries go out; a tag that has stood REDUCING for RED_LIMIT fails and the job is torn down. A tag that does not meet an event's conditions
stays as it is, and so does every tag of a job that does not run. -/
def Obligations.TagsAdvance : Prop :=
  ∀ (s : State) (j : JobId) (tag : BitVec 12), s.live = true →
    let t := tag.toNat
    let d := s.bucket j t
    let tg := s.tag j t
    let idle (i : Instr) : Prop := ∃ u, exec i s = .next u ∧ Unchanged s u []
    (s.redLocal j = false → idle (.tagArm j tag) ∧ (∀ k, idle (.shardVerify j tag k)) ∧ idle (.tagReduced j tag) ∧ idle (.verdictTrigger j tag) ∧
      idle (.gatherSend j tag) ∧ idle (.openRetry j tag) ∧ idle (.reductionWatchdog j tag)) ∧
    (s.redLocal j = true →
    (s.tagSpent j t = false → idle (.tagArm j tag)) ∧
    (s.tagSpent j t = true → exec (.tagArm j tag) s = .next (finish s (s.armTag false j t)) ∧
      (∀ u, s.redGet false [(s.bucketAt j t, 128)] = (u, 0) →
        (bitAt (bkCtrl d) 31 = false → ∃ v, exec (.tagArm j tag) s = .next v ∧ v.tag j t = { ({} : Tag) with step := tg.step }) ∧
        (∀ v, bitAt (bkCtrl d) 31 = true → u.redGet false (pieces (bkAddr d 0x10) (64 * bucketShards d)) = (v, 0) →
          let es := (List.range (bucketShards d)).map (s.shardEnt d)
          let armed : Tag := { st := .armed, step := (tg.step + 1) % 256, lastStep := tg.lastStep, lastPoison := tg.lastPoison }
          (bucketOk d es = true → ∀ w, (v.onTag j t (fun _ => armed)).armShards false d es = (w, 0) →
            ∃ x, exec (.tagArm j tag) s = .next x ∧ x.tag j t = armed) ∧
          (bucketOk d es = false → ∃ x, exec (.tagArm j tag) s = .next x ∧ Tears s x j)))) ∧
    (∀ k : BitVec 12, (tg.st.inStep = false ∨ (s.shard j t k.toNat).verified = true ∨
        (s.shard j t k.toNat).arrivals < seExpect (s.shardEnt d k.toNat) ∨ bucketShards d ≤ k.toNat) → idle (.shardVerify j tag k)) ∧
    (∀ (k : BitVec 12) (a h : Nat) (v : State), sumArea d (s.shardEnt d k.toNat) = some (a, h) → tg.st.inStep = true →
      (s.shard j t k.toNat).verified = false → seExpect (s.shardEnt d k.toNat) ≤ (s.shard j t k.toNat).arrivals →
      k.toNat < bucketShards d → s.redGet false (pieces a (256 * seBlocks (s.shardEnt d k.toNat))) = (v, 0) →
      let e := s.shardEnt d k.toNat
      let sum := blockSum (v.bytes a (256 * seBlocks e))
      let u := v.onShard j t k.toNat (fun x => { x with verified := true, sum := sum, headers := seRole e == 3 })
      (bitAt (v.preg .red 0x100) 0 = true → sum ≠ (s.shard j t k.toNat).csum → ∃ x, exec (.shardVerify j tag k) s = .next x ∧ Tears s x j ∧
        x.ctr .red 0x60 = (s.ctr .red 0x60 + 1) % 2 ^ 48 ∧ x.preg .red 0x110 = 0x41 * 2 ^ 24 + j.val * 2 ^ 12 + t) ∧
      ((sum = (s.shard j t k.toNat).csum ∨ bitAt (v.preg .red 0x100) 0 = false) →
        (seRole e = 2 → exec (.shardVerify j tag k) s = .next (finish s (u.openXfer j t k.toNat 0 (seParent e)))) ∧
        (seRole e = 3 → exec (.shardVerify j tag k) s = .next (finish s
          (let x := (u.members (bkGroup d)).foldl (fun (x : State) c => x.openXfer j t k.toNat 1 c) u
           if bkMode d then x else (x.members (seUpd e)).foldl (fun (x : State) c => x.openXfer j t k.toNat 2 c) x))))) ∧
    (s.tagFull j t = false → idle (.tagReduced j tag)) ∧
    (∀ v w, s.tagFull j t = true → s.redGet false (pieces (bkAddr d 0x30) (4 * bkBlocks d)) = (v, 0) →
      v.writeHist j t d (v.rhdr d) = (w, 0) →
      let bad := (v.rhdr d).any (fun h => bitAt h 9)
      let skip := if bkPolicy d = 1 then (s.tag j (bkVerdictTag d)).lastPoison else bad
      ∃ x, exec (.tagReduced j tag) s = .next x ∧
        x.tag j t = { tg with st := .reduced, poisoned := bad, skipped := skip, lastStep := some tg.step, lastPoison := bad } ∧
        x.ctr .red 0x40 = (s.ctr .red 0x40 + 1) % 2 ^ 48 ∧
        x.ctr .red 0x70 = (if skip then (s.ctr .red 0x70 + 1) % 2 ^ 48 else s.ctr .red 0x70) ∧
        (bad = true → Records s x 4 ∧ bitAt x.dsw.events 12 = true ∧ x.ctr .red 0x68 = (s.ctr .red 0x68 + 1) % 2 ^ 48)) ∧
    (let full (b : Nat) : Bool := (s.tag j b).st == .reducing &&
       (List.range (bucketShards (s.bucket j b))).all (fun i => (s.shard j b i).headers)
     (bkVerdict d = true → tg.st = .armed → (s.naming j t).all full = true → exec (.verdictTrigger j tag) s =
       .next (finish s ((s.onTag j t (fun x => { x with st := .reducing, since := s.time })).startTag j t))) ∧
     ((bkVerdict d = false ∨ tg.st ≠ .armed ∨ (s.naming j t).all full = false) → idle (.verdictTrigger j tag))) ∧
    (∀ (e : List Byte) (c : Nat), bkMode d = true → tg.st = .reduced → byteFld d 0x4C 2 ≤ tg.optDone → bucketShards d = 1 →
      s.shardEnt d 0 = e → seRole e = 3 → (s.shard j t 0).gathered = false → s.members (bkGroup d) = [c] →
      let u := s.onShard j t 0 (fun x => { x with gathered := true })
      (tg.skipped = false → exec (.gatherSend j tag) s = .next (finish s (u.openXfer j t 0 3 c))) ∧
      (tg.skipped = true → exec (.gatherSend j tag) s = .next (finish s (u.sendRed { id := 0, job := j, tag := t, shard := 0, kind := 3, dst := c } 6 0 0)))) ∧
    ((bkMode d = false ∨ tg.st ≠ .reduced ∨ tg.optDone < byteFld d 0x4C 2) → idle (.gatherSend j tag)) ∧
    (∃ u, exec (.openRetry j tag) s = .next u ∧ Unchanged s u [.red, .ctrs, .ports, .flt, .regs] ∧
      (∀ x ∈ u.red.xfers, x.job = j.val → x.tag = t → x.retry = false) ∧
      u.ctr .red 0x58 % 2 ^ 48 = (s.ctr .red 0x58 + s.red.xfers.countP (fun x => x.job == j.val && x.tag == t && x.retry)) % 2 ^ 48) ∧
    (let late := tg.since + 100 * max 1000 (s.preg .red 0x104) ≤ s.time
     (bitAt (s.preg .red 0x100) 1 = true → tg.st = .reducing → late → ∃ u, exec (.reductionWatchdog j tag) s = .next u ∧ Tears s u j ∧
       u.preg .red 0x110 = 0x7F * 2 ^ 24 + j.val * 2 ^ 12 + t) ∧
     ((bitAt (s.preg .red 0x100) 1 = false ∨ tg.st ≠ .reducing ∨ ¬ late) → idle (.reductionWatchdog j tag))))

/-- Completes: OPEN, ACCEPT, REFUSE, DONE, DELIVER_CHECKSUM, GATHERED, ABORT, LINTEL. A CTL message at the head of its buffer leaves it. For another chip, or
under a key of no job, it is counted and does nothing, the first reported in class 5. Under the key of a loaded job it acts: OPEN is answered with
ACCEPT, or REFUSE with 0x10 where its step has not begun and 0x60 for a tag that is IDLE or FAILED; DONE counts an arrival;
DELIVER_CHECKSUM and GATHERED are kept; ACCEPT drives its transfer on; REFUSE with 0x10 retries it, and with another status fails the tag; ABORT fails the
tag; LINTEL counts in its phase. -/
def Obligations.EngineMessagesAct : Prop :=
  ∀ (s : State) (p : PortId) (e : Nat × List Byte), s.live = true →
    (s.port p).inbox.find? (fun x => x.1 == 2) = some e →
    let m := Msg.ofBytes e.2
    let u := s.takeMsg p e
    let t := rcTag m
    let k := rcShard m
    let mine (i : Instr) : Prop := (m.kind = 0x10 ∧ ((i = .openMsg p ∧ m.sub = 1) ∨ (i = .acceptMsg p ∧ m.sub = 2) ∨ (i = .refuseMsg p ∧ m.sub = 3) ∨
      (i = .doneMsg p ∧ m.sub = 4) ∨ (i = .deliverChecksum p ∧ m.sub = 5) ∨ (i = .gathered p ∧ m.sub = 6) ∨ (i = .abortMsg p ∧ m.sub = 7))) ∨
      (m.kind = 0x11 ∧ i = .lintel p)
    (∀ i, mine i →
      (m.dst ≠ s.chipId → ∃ v, exec i s = .next v ∧ Unchanged s v [.ports, .ctrs, .out, .flt, .regs] ∧ Records s v 5 ∧
        v.ctr (.port p) 0xA8 = (s.ctr (.port p) 0xA8 + 1) % 2 ^ 48) ∧
      (m.dst = s.chipId → s.slotOfKey m.key = none → ∃ v, exec i s = .next v ∧ Unchanged s v [.ports, .ctrs, .out] ∧
        v.ctr (.port p) 0xA0 = (s.ctr (.port p) 0xA0 + 1) % 2 ^ 48) ∧
      (∀ j, m.dst = s.chipId → s.slotOfKey m.key = some j → bitAt (s.preg .links (0x104 + 4 * j)) 30 = true →
        exec i s = .next (finish s (if i = .openMsg p then u.answerOpen m 3 0x31 else u)))) ∧
    (∀ j, m.dst = s.chipId → s.slotOfKey m.key = some j → bitAt (s.preg .links (0x104 + 4 * j)) 30 = false →
      let tg := s.tag j t
      let live := s.rcLive j m = true ∧ tg.st.inStep = true
      (m.kind = 0x10 →
        (m.sub = 1 →
          ((tg.st = .idle ∨ tg.st = .failed) → exec (.openMsg p) s = .next (finish s (u.answerOpen m 3 0x60))) ∧
          ((tg.st.inStep = true ∨ (rcXfer m = 3 ∧ tg.st = .reduced)) → tg.step = rcStep m →
            (rcXfer m ≠ 1 → exec (.openMsg p) s = .next (finish s (u.answerOpen m 2 (rcXfer m)))) ∧
            (rcXfer m = 1 → exec (.openMsg p) s = .next (finish s ((u.onShard j t k (fun x => { x with hdrOpen := true })).answerOpen m 2 1)))) ∧
          (tg.st ≠ .idle → tg.st ≠ .failed → tg.step ≠ rcStep m →
            exec (.openMsg p) s = .next (finish s (u.answerOpen m 3 (if (tg.step + 1) % 256 = rcStep m then 0x10 else 0x60))))) ∧
        (m.sub = 2 →
          (∀ x, s.red.xfers.find? (fun x => answers j m x && x.kind == rcXfer m) = some x →
            exec (.acceptMsg p) s = .next (finish s ((u.onXfer x.id (fun y => { y with accepted := true, retry := false })).pumpOn x.id))) ∧
          (s.red.xfers.find? (fun x => answers j m x && x.kind == rcXfer m) = none →
            ∃ v, exec (.acceptMsg p) s = .next v ∧ Unchanged s v [.ports, .ctrs, .out])) ∧
        (m.sub = 3 → s.red.xfers.any (answers j m) = true →
          (rcXfer m = 0x10 → ∃ v, exec (.refuseMsg p) s = .next v ∧ Unchanged s v [.red, .ports, .ctrs, .out] ∧
            v.red = { s.red with xfers := s.red.xfers.map (fun x => if answers j m x then { x with retry := true } else x) }) ∧
          (rcXfer m ≠ 0x10 → ∃ v, exec (.refuseMsg p) s = .next v ∧ Tears s v j)) ∧
        (m.sub = 4 →
          (live → exec (.doneMsg p) s = .next (finish s (u.arrival j t k (byteFld m.data 0x10 2) (byteFld m.data 8 8))) ∧
            (seRole (s.shardEnt (s.bucket j t) k) ≠ 3 → ∃ v, exec (.doneMsg p) s = .next v ∧ Unchanged s v [.red, .ports, .ctrs, .out] ∧
              v.shard j t k = { s.shard j t k with
                arrivals := (s.shard j t k).arrivals + 1, orig := (s.shard j t k).orig + byteFld m.data 0x10 2
                csum := ((s.shard j t k).csum + byteFld m.data 8 8) % 2 ^ 64 })) ∧
          (¬ live → ∃ v, exec (.doneMsg p) s = .next v ∧ Unchanged s v [.ports, .ctrs, .out])) ∧
        (m.sub = 5 →
          (live → exec (.deliverChecksum p) s = .next (finish s
            ((u.onShard j t k (fun x => { x with dsum := some (byteFld m.data 8 8) })).verifyDelivered j t k))) ∧
          (¬ live → ∃ v, exec (.deliverChecksum p) s = .next v ∧ Unchanged s v [.ports, .ctrs, .out])) ∧
        (m.sub = 6 → s.rcLive j m = true → ∃ v, exec (.gathered p) s = .next v ∧
          v.shard j t k = { s.shard j t k with gathered := true } ∧ Unchanged s v [.red, .ports, .ctrs, .out]) ∧
        (m.sub = 7 →
          ((tg.st = .idle ∨ tg.st = .failed) → ∃ v, exec (.abortMsg p) s = .next v ∧ Unchanged s v [.ports, .ctrs, .out] ∧
            v.ctr .red 0x90 = (s.ctr .red 0x90 + 1) % 2 ^ 48) ∧
          (tg.st ≠ .idle → tg.st ≠ .failed → ∃ v, exec (.abortMsg p) s = .next v ∧ Records s v 5 ∧ Tears s v j ∧
            v.preg .red 0x110 = rcXfer m * 2 ^ 24 + j * 2 ^ 12 + t ∧ v.preg .red 0x114 = byteFld m.data 0x12 2))) ∧
      (m.kind = 0x11 →
        let id := byteFld m.data 0 1
        let ph := byteFld m.data 1 1 % 4
        let l := s.lint j id
        let mends (f : Lint) : Prop := ∃ v, exec (.lintel p) s = .next v ∧ Unchanged s v [.lintels, .ports, .ctrs, .out] ∧ v.lint j id = f ∧
          ∀ a b, 256 * a + b ≠ 256 * j + id → v.lint a b = s.lint a b
        (l.valid = true → l.expect ≠ 0 → ph = l.phase % 4 → mends { l with msgCur := l.msgCur + 1 }) ∧
        (l.valid = true → l.expect ≠ 0 → ph = (l.phase + 1) % 4 → mends { l with msgNext := l.msgNext + 1 }) ∧
        ((l.valid = false ∨ l.expect = 0 ∨ (ph ≠ l.phase % 4 ∧ ph ≠ (l.phase + 1) % 4)) → ∃ v, exec (.lintel p) s = .next v ∧
          Unchanged s v [.ports, .ctrs, .out, .flt, .regs] ∧ Records s v 5 ∧ v.ctr (.port p) 0xD8 = (s.ctr (.port p) 0xD8 + 1) % 2 ^ 48)))

/-! ### Link ports -/

/-- Completes: WRITE, READ, XFADD, HANDOFF. WRITE, READ and XFADD of a loaded job are served and answered: a write that a window admits leaves its bytes
in memory, a read answers them, one that none admits is answered with the status of its denial. One for another chip is reported in class 5, one under an
unknown key counted and denied, one of a torn-down job refused with 0x31. HANDOFF takes the first of the channels whose head is not held: one that finds an
empty slot of its channel lands there; one that matches none is denied; one for a sill that is shut is answered with 0x10; one for a full slot, or of a job
that is parked, is held. -/
def Obligations.PeerRequestsAreServed : Prop :=
  ∀ (s : State) (p : PortId) (e : Nat × List Byte), s.live = true →
    let m := Msg.ofBytes e.2
    let u := s.takeMsg p e
    let torn (j : Nat) : Prop := bitAt (s.preg .links (0x104 + 4 * j)) 30 = true
    (∀ i kind (f : Serve), (i, kind) = (.write p, 1) ∧ f = serveWrite ∨ (i, kind) = (.read p, 2) ∧ f = serveRead ∨
        (i, kind) = (.xfaddRequest p, 3) ∧ f = serveXfadd →
      ((∀ x, (s.port p).inbox.find? (fun x => x.1 == 0) = some x → (Msg.ofBytes x.2).kind ≠ kind) → ∃ t, exec i s = .next t ∧ Unchanged s t []) ∧
      ((s.port p).inbox.find? (fun x => x.1 == 0) = some e → m.kind = kind →
        (m.dst ≠ s.chipId → ∃ t, exec i s = .next t ∧ Unchanged s t [.ports, .ctrs, .out, .flt, .regs] ∧ Records s t 5 ∧
          t.ctr (.port p) 0xA8 = (s.ctr (.port p) 0xA8 + 1) % 2 ^ 48) ∧
        (m.dst = s.chipId → s.slotOfKey m.key = none → exec i s = .next (finish s ((u.bump (.port p) 0xA0).respond p m 0x60 []))) ∧
        (∀ j, m.dst = s.chipId → s.slotOfKey m.key = some j →
          (torn j → exec i s = .next (finish s (u.respond p m 0x31 []))) ∧
          (¬ torn j → exec i s = .next (finish s ((f u j m).1.respond p m (f u j m).2.1 (f u j m).2.2)))))) ∧
    (∀ j, (s.port p).inbox.find? (fun x => x.1 == 0) = some e → m.dst = s.chipId → s.slotOfKey m.key = some j → ¬ torn j → s.quiet →
      (m.kind = 1 → s.memOk → (s.winEnter (.peer m.key) .write m.addr m.data.length).2.1 = 0 →
        ∃ t, exec (.write p) s = .next t ∧ Unchanged s t [.mem, .ports, .quarries, .ctrs, .red, .out] ∧ t.bytes m.addr m.data.length = m.data ∧
          (∀ a, (a < m.addr ∨ m.addr + m.data.length ≤ a) → memGet t.mem a = memGet s.mem a) ∧ t.ecc = []) ∧
      (m.kind = 2 → (s.winEnter (.peer m.key) .read m.addr m.rlen).2.1 = 0 →
        ∃ t, exec (.read p) s = .next t ∧ Unchanged s t [.ports, .quarries, .ctrs, .out] ∧
          ∀ q, s.routePort (portUnit p) m.src = some q → ∃ r : Msg, (t.port q).txq = (u.port q).txq ++ [(1 + 8 * s.laneKey q m.src, r.bytes)] ∧
            r.kind = 9 ∧ r.sub = 0 ∧ r.dst = m.src ∧ r.txn = m.txn ∧ r.data = s.bytes m.addr m.rlen)) ∧
    (let heads := (List.range 4).filterMap (fun c => (s.port p).inbox.find? (fun x => x.1 == c + 3))
     let w := (s.timeHeld p heads).takeMsg p e
     ((∀ x ∈ heads, s.handoffHead p x = none) → ∃ t, exec (.handoff p) s = .next t ∧ Unchanged s t [.ports] ∧
       (∀ q, (t.port q).inbox = (s.port q).inbox) ∧
       ∀ x ∈ heads, s.waitsParked x = true → tfind (t.port p).held x.1 = some (tget s.time (s.port p).held x.1)) ∧
     (∀ j pre post, heads = pre ++ e :: post → (∀ x ∈ pre, s.handoffHead p x = none) →
       m.dst = s.chipId → s.slotOfKey m.key = some j → ¬ torn j →
       (s.handAdmit p j m = .shut → exec (.handoff p) s = .next (finish s (w.respond p m 0x10 []))) ∧
       (s.handAdmit p j m = .denied → exec (.handoff p) s = .next (finish s ((w.bump (.port p) 0x98).respond p m 0x60 []))) ∧
       (∀ n h k, s.handAdmit p j m = .land n h k → (s.core n).current = true →
         (s.banksFree n meshPort (sillRows m.addr m.data.length) → s.memOk → ∃ t, exec (.handoff p) s = .next t ∧
           Unchanged s t [.mem, .ports, .cores, .ctrs, .out] ∧ t.bytes m.addr m.data.length = m.data ∧
           (∀ a, (a < m.addr ∨ m.addr + m.data.length ≤ a) → memGet t.mem a = memGet s.mem a) ∧
           t.ctr (.sill n) 0x68 = (s.ctr (.sill n) 0x68 + 1) % 2 ^ 48 ∧ (∀ c, c ≠ n → t.core c = s.core c)) ∧
         (¬ s.banksFree n meshPort (sillRows m.addr m.data.length) → ∃ t, exec (.handoff p) s = .next t ∧
           Unchanged s t [.ports, .cores, .ctrs] ∧ (∀ q, (t.port q).inbox = (s.port q).inbox)))))

/-- Completes: COMPLETION, READ_DATA, TXN_TIMEOUT, PARK_TIMEOUT. COMPLETION and READ_DATA end the transaction that they answer and serve its request; one
that no transaction waits for, or of another EPOCH, is discarded. TXN_TIMEOUT answers a transaction as old as TXN_TIMEOUT with ABORTED_RESET and reports
it; PARK_TIMEOUT answers the hand-offs of a channel that have been held for PARK_TIMEOUT with HALTED_DEST_PARKED. Elsewhere nothing happens. -/
def Obligations.ResponsesEndTransactions : Prop :=
  ∀ (s : State) (p : PortId), s.live = true →
    let idle (i : Instr) : Prop := ∃ t, exec i s = .next t ∧ Unchanged s t []
    (∀ i kind, (i, kind) = (.completion p, 8) ∨ (i, kind) = (.readData p, 9) →
      ((∀ x, (s.port p).inbox.find? (fun x => x.1 == 1) = some x → (Msg.ofBytes x.2).kind ≠ kind) → idle i) ∧
      (∀ e, (s.port p).inbox.find? (fun x => x.1 == 1) = some e →
        let m := Msg.ofBytes e.2
        let k := m.txn % 512
        m.kind = kind → m.dst = s.chipId →
        ((∀ x, tfind (s.port p).txns k = some x → x.epoch ≠ bitAt m.txn 15) → ∃ t, exec i s = .next t ∧ Unchanged s t [.ports, .ctrs, .out] ∧
          (t.port p).txns = (s.port p).txns) ∧
        (∀ x n tag r, tfind (s.port p).txns k = some x → x.epoch = bitAt m.txn 15 → x.expired = false → x.owner = .stream n tag → s.red.xfers = [] →
          s.flight.find? (fun r => r.core == n && r.tag == tag && r.via == some (p.val, k)) = some r →
          ∃ t, exec i s = .next t ∧ tfind (t.port p).txns k = none ∧ Unchanged s t [.ports, .flight, .ctrs, .out] ∧
            t.flight = s.flight.map (fun y => if y.core = r.core ∧ y.tag = r.tag
              then { y with st := .served, status := m.sub, data := m.data } else y)))) ∧
    (∀ k : BitVec 9,
      (tfind (s.port p).txns k.toNat = none → idle (.txnTimeout p k)) ∧
      (∀ x, tfind (s.port p).txns k.toNat = some x →
        let late := x.at_ + 100 * s.preg (.port p) 0x110 ≤ s.time
        ((x.expired = true ∨ ¬ late) → idle (.txnTimeout p k)) ∧
        (x.expired = false → late → ∃ t, exec (.txnTimeout p k) s = .next t ∧ Records s t 5 ∧
          (∀ n tag r, x.owner = .stream n tag → s.flight.find? (fun r => r.core == n && r.tag == tag && r.via == some (p.val, k.toNat)) = some r →
            Unchanged s t [.ports, .flight, .ctrs, .flt, .regs] ∧ tfind (t.port p).txns k.toNat = some { x with expired := true } ∧
            t.ctr (.port p) 0xB8 = (s.ctr (.port p) 0xB8 + 1) % 2 ^ 48 ∧
            t.flight = s.flight.map (fun y => if y.core = r.core ∧ y.tag = r.tag then { y with st := .served, status := 0x30, data := [] } else y))))) ∧
    (∀ ch : BitVec 2,
      let c := ch.toNat + 3
      ((∀ x, (s.port p).inbox.find? (fun x => x.1 == c) = some x → s.waitsParked x = false) → idle (.parkTimeout p ch)) ∧
      (∀ e j, (s.port p).inbox.find? (fun x => x.1 == c) = some e → s.checkMsg (Msg.ofBytes e.2) = .job j → s.handHeld j = true →
        let mine (x : Nat × List Byte) : Bool := x.1 == c && s.checkMsg (Msg.ofBytes x.2) == .job j
        ((∀ t, tfind (s.port p).held c = some t → s.time < t + 100 * s.preg (.port p) 0x10C) → idle (.parkTimeout p ch)) ∧
        (∀ since, tfind (s.port p).held c = some since → since + 100 * s.preg (.port p) 0x10C ≤ s.time →
          ∃ t, exec (.parkTimeout p ch) s = .next t ∧ Unchanged s t [.ports, .ctrs, .out] ∧
            (∀ x ∈ (t.port p).inbox, mine x = false) ∧ (t.port p).inbox.filter (fun x => !mine x) = (s.port p).inbox.filter (fun x => !mine x) ∧
            t.ctr (.port p) 0x90 = (s.ctr (.port p) 0x90 + (s.port p).inbox.countP mine) % 2 ^ 48)))

/-- Completes: LINK_TRAINING_DONE, LANE_ALIGNMENT_LOSS, ACK_TIMEOUT, RETRAIN_DONE. Training brings a Zelzen link up on the first candidate lane set that is
healthy, with its credits full, and an Ethernet link on all its lanes or not at all; where it fails the link stays down, with an event, and, unless the
rates differ, class 5. A lane alignment loss, or 10 us without an acknowledgment while flits are outstanding, retrains a Zelzen link; the third retraining
in 10 ms takes it down, as a lane alignment loss does an Ethernet link. A link that was retraining comes up again no wider than it was, and sends its
retained flits again. -/
def Obligations.LinksTrain : Prop :=
  ∀ (s : State) (p : PortId) (tr : Training), s.live = true →
    let h := tr.healthy.toNat
    let picks (w m : Nat) : Prop := (s.isEth p = false ∧ pickLanes (s.maxWidth p) h = some (w, m)) ∨
      (s.isEth p = true ∧ w = s.maxWidth p ∧ m = 2 ^ w - 1 ∧ m &&& h = m)
    let idle (i : Instr) : Prop := ∃ t, exec i s = .next t ∧ Unchanged s t []
    let falls (i : Instr) : Prop := ∃ t, exec i s = .next t ∧ (t.port p).link = .down ∧ bitAt t.dsw.events 6 = true ∧
      ((s.port p).txns = [] → Records s t 5)
    ((s.port p).link ≠ .training → idle (.linkTrainingDone p tr)) ∧
    ((s.port p).link = .training →
      (∀ w m, tr.cabled = true → tr.sameRate = true → picks w m → ∃ t, exec (.linkTrainingDone p tr) s = .next t ∧
        Unchanged s t [.ports] ∧ (t.port p).link = .up ∧ (t.port p).width = w ∧ (t.port p).active = m ∧ (t.port p).lanes = [] ∧
        (s.isEth p = false → (t.port p).peer = tr.peer.toNat ∧ ∀ c, c < 7 → tget 0 (t.port p).credits c = bufFlits c) ∧
        ((s.port p).life.st = .opening → (t.port p).life.st = .opened) ∧ (∀ o, o ≠ p.val → t.port o = s.port o)) ∧
      ((tr.cabled = false ∨ tr.sameRate = false ∨ ∀ w m, ¬ picks w m) → ∃ t, exec (.linkTrainingDone p tr) s = .next t ∧
        (t.port p).link = .down ∧ bitAt t.dsw.events 6 = true ∧ (¬ (tr.cabled = true ∧ tr.sameRate = false) → Records s t 5) ∧
        ((s.port p).life.st = .opening → (t.port p).life.st = .faulted))) ∧
    (let recent := (s.port p).retrains.filter (fun t => decide (s.time < t + 1000000))
     let re (i : Instr) : Prop :=
       (recent.length < 2 → ∃ t, exec i s = .next t ∧ Unchanged s t [.ports, .ctrs] ∧ (t.port p).link = .retraining ∧
         t.ctr (.port p) 0x78 = (s.ctr (.port p) 0x78 + 1) % 2 ^ 48) ∧
       (2 ≤ recent.length → falls i)
     let late := (s.lane p 0xFFFF).replay ≠ [] ∧ (s.lane p 0xFFFF).ackAt + 1000 ≤ s.time
     ((s.port p).link ≠ .up → idle (.laneAlignmentLoss p) ∧ idle (.ackTimeout p)) ∧
     ((s.port p).link = .up → s.isEth p = false → re (.laneAlignmentLoss p) ∧ (late → re (.ackTimeout p)) ∧ (¬ late → idle (.ackTimeout p))) ∧
     ((s.port p).link = .up → s.isEth p = true → falls (.laneAlignmentLoss p) ∧ idle (.ackTimeout p))) ∧
    ((s.port p).link ≠ .retraining → idle (.retrainDone p tr)) ∧
    ((s.port p).link = .retraining →
      (∀ w m, s.isEth p = false → tr.cabled = true → tr.sameRate = true → pickLanes (s.port p).width h = some (w, m) →
        ∃ t, exec (.retrainDone p tr) s = .next t ∧ Unchanged s t [.ports, .ctrs, .out, .events] ∧
        (t.port p).link = .up ∧ (t.port p).width = w ∧ (t.port p).active = m ∧ w ≤ (s.port p).width ∧
        (∀ x ∈ (s.lane p 0xFFFF).replay, .flit p x.2 ∈ t.out) ∧
        (w < (s.port p).width → bitAt t.dsw.events 6 = true ∧ t.ctr (.port p) 0x80 = (s.ctr (.port p) 0x80 + 1) % 2 ^ 48)) ∧
      ((tr.cabled = false ∨ tr.sameRate = false ∨ pickLanes (s.port p).width h = none) → falls (.retrainDone p tr)))

/-- Completes: FLIT_TRANSMIT, FLIT_RECEIVE, RETRY_REQ, RETRY_REQ_RESEND. The oldest message leaves in a DATA flit that carries the next SEQ, spends a credit, and
is retained, what does not fit staying behind; without a credit it stays and the stall is counted; a flit without payload leaves then, and with nothing to
send. A DATA flit of the expected SEQ delivers its messages; one that is damaged is counted, and asks for a retry. RETRY_REQ sends the retained flits
again. A retry that was asked for 2 us ago and has brought nothing is asked for again. -/
def Obligations.FlitsMove : Prop :=
  ∀ (s : State) (p : PortId), s.live = true → s.isEth p = false → (s.port p).link = .up → (s.port p).ret = [] →
    let l := s.lane p 0xFFFF
    let bare (type : Nat) (t : State) : Prop := .flit p (mkFlit (flitHdr type 0 0 l.rxSeq 1 0 0 31) []) ∈ t.out
    ((∀ x ∈ (s.port p).lanes, x.2.asking = false) →
      (∀ cls bs, (s.port p).txq = [(cls + 8 * 0xFFFF, bs)] → cls < 7 → l.replay.length < 2048 →
        (0 < tget 0 (s.port p).credits cls →
          let f := mkFlit (flitHdr 1 cls l.txSeq l.rxSeq 1 0 0 0) (bs.take 244)
          ∃ t, exec (.flitTransmit p) s = .next t ∧ Unchanged s t [.ports, .ctrs, .out] ∧ .flit p f ∈ t.out ∧
            t.lane p 0xFFFF = { l with
              txSeq := (l.txSeq + 1) % 4096, replay := l.replay ++ [(l.txSeq, f)], down := false
              ackAt := if l.replay.isEmpty then s.time else l.ackAt } ∧
            (t.port p).txq = (if bs.length ≤ 244 then [] else [(cls + 8 * 0xFFFF + 2 ^ 19, bs.drop 244)]) ∧
            tget 0 (t.port p).credits cls = tget 0 (s.port p).credits cls - 1 ∧
            t.ctr (.port p) 0x40 = (s.ctr (.port p) 0x40 + 1) % 2 ^ 48) ∧
        (tget 0 (s.port p).credits cls = 0 → ∃ t, exec (.flitTransmit p) s = .next t ∧ Unchanged s t [.ctrs, .out] ∧ bare 0 t ∧
          t.ctr (.port p) 0x88 = (s.ctr (.port p) 0x88 + 1) % 2 ^ 48)) ∧
      ((s.port p).txq = [] → ∃ t, exec (.flitTransmit p) s = .next t ∧ Unchanged s t [.out] ∧ bare 0 t)) ∧
    (∀ f corr uncorr,
      let h := flitH f
      let cls := fld h 59 57
      (flitOk f = false → ∃ t, exec (.flitReceive p f corr uncorr) s = .next t ∧ Unchanged s t [.ports, .ctrs] ∧
        t.ctr (.port p) 0x60 = (s.ctr (.port p) 0x60 + 1) % 2 ^ 48 ∧ (t.port p).inbox = (s.port p).inbox ∧
        t.ctr (.port p) 0x50 % 2 ^ 48 = (s.ctr (.port p) 0x50 + corr) % 2 ^ 48 ∧ (l.asks = [] → (t.lane p 0xFFFF).asking = true)) ∧
      (flitOk f = true → bitAt h 32 = false →
        (fld h 63 60 = 0 → ∃ t, exec (.flitReceive p f corr uncorr) s = .next t ∧ Unchanged s t [.ports, .ctrs] ∧
          tget 0 (t.port p).credits (fld h 31 29) = tget 0 (s.port p).credits (fld h 31 29) + fld h 28 20 ∧ t.lane p 0xFFFF = l) ∧
        (fld h 63 60 = 1 → flitSeq f ≠ l.rxSeq → ∃ t, exec (.flitReceive p f corr uncorr) s = .next t ∧ Unchanged s t [.ports, .ctrs] ∧
          (t.port p).inbox = (s.port p).inbox ∧ (l.asks = [] → (t.lane p 0xFFFF).asking = true)) ∧
        (fld h 63 60 = 1 → flitSeq f = l.rxSeq →
          ∃ t, exec (.flitReceive p f corr uncorr) s = .next t ∧ Unchanged s t [.ports, .ctrs] ∧
            (t.lane p 0xFFFF).rxSeq = (l.rxSeq + 1) % 4096 ∧ (t.lane p 0xFFFF).asks = [] ∧ t.ctr (.port p) 0x48 = (s.ctr (.port p) 0x48 + 1) % 2 ^ 48 ∧
            (t.port p).inbox = (s.port p).inbox ++ (((parsePay 245 (tget [] (s.port p).part (cls + 8 * 0xFFFF)) (flitPay f)).1.filter
              (msgKnown cls)).map (fun m => (cls, m)))))) ∧
    (∀ seq : BitVec 12, ∃ t, exec (.retryReq p seq) s = .next t ∧ Unchanged s t [.ctrs, .out] ∧
      t.ctr (.port p) 0x68 = (s.ctr (.port p) 0x68 + 1) % 2 ^ 48 ∧
      (∀ x ∈ l.replay.dropWhile (fun e => e.1 != seq.toNat), .flit p x.2 ∈ t.out)) ∧
    (∀ x, (s.port p).lanes = [(0xFFFF, x)] → x.asks ≠ [] → (∀ t ∈ x.asks.head?, t + 200 ≤ s.time) →
      let recent := x.asks.filter (fun t => decide (s.time < t + 10000))
      (recent.length < 7 → ∃ t, exec (.retryReqResend p) s = .next t ∧ Unchanged s t [.ports, .out] ∧ bare 2 t ∧
        t.lane p 0xFFFF = { x with asking := false, asks := s.time :: recent }) ∧
      (7 ≤ recent.length → ∃ t, exec (.retryReqResend p) s = .next t ∧ bare 2 t ∧ (t.port p).link ≠ .up)) ∧
    ((∀ x ∈ (s.port p).lanes, ∀ t ∈ x.2.asks.head?, s.time < t + 200) → ∃ t, exec (.retryReqResend p) s = .next t ∧ Unchanged s t [])

/-- Completes: ETH_FRAME_RECEIVE, PFC_PAUSE, ETH_RETRY_TIMEOUT. An Ethernet port that is up drops and counts a frame that fails a check, and takes the flits
of one that passes in turn, a new epoch with a first flit of SEQ 0; a pause stops its priority; a path whose ACK has not advanced for ETH_RETRY_TIMEOUT is
replayed, and the sixteenth time it goes down. A port that is not up, or in Zelzen mode, does nothing on these. -/
def Obligations.EthernetPathsMove : Prop :=
  ∀ (s : State) (p : PortId), s.live = true →
    let idle (i : Instr) : Prop := ∃ t, exec i s = .next t ∧ Unchanged s t []
    ((s.isEth p = false ∨ (s.port p).link ≠ .up) →
      (∀ f, idle (.ethFrameReceive p f)) ∧ (∀ prio on, idle (.pfcPause p prio on)) ∧ (∀ peer, idle (.ethRetryTimeout p peer))) ∧
    (s.isEth p = true → (s.port p).link = .up →
      (∀ f,
        let drops : Prop := ∃ t, exec (.ethFrameReceive p f) s = .next t ∧ Unchanged s t [.ctrs] ∧
          CtrsBut s t (ctrsAt (.port p) [0xC0]) ∧ t.ctr (.port p) 0xC0 = (s.ctr (.port p) 0xC0 + 1) % 2 ^ 48
        (s.frameBody p f = none → drops) ∧
        (∀ b, s.frameBody p f = some b →
          let src := byteFld b 4 2
          let flits := chunks 256 (b.drop 8)
          let good := fld (byteFld b 0 1) 7 4 = 1 ∧ byteFld b 1 1 = 0 ∧ byteFld b 2 2 = s.chipId ∧
            (s.pathEnt p src).isSome = true ∧ (b.drop 8).length = 256 * (fld (byteFld b 0 1) 3 0 + 1)
          let opens (g : List Byte) : Prop := flitOk g = true ∧ fld (flitH g) 63 60 = 1 ∧ flitSeq g = 0
          (¬ good → drops) ∧
          (good → (s.lane p src).peerEpoch = byteFld b 6 2 →
            exec (.ethFrameReceive p f) s = .next (finish s (flits.foldl (fun u f => u.takeFlit p src f) s)) ∧
            (∀ g, flits = [g] → flitOk g = true → fld (flitH g) 63 60 = 1 → bitAt (flitH g) 32 = false → flitSeq g = (s.lane p src).rxSeq →
              s.bufRoom p (fld (flitH g) 59 57) = true → ∃ t, exec (.ethFrameReceive p f) s = .next t ∧ Unchanged s t [.ports, .ctrs, .out] ∧
                (t.lane p src).rxSeq = ((s.lane p src).rxSeq + 1) % 4096 ∧ t.ctr (.port p) 0x48 = (s.ctr (.port p) 0x48 + 1) % 2 ^ 48 ∧
                (t.port p).inbox = (s.port p).inbox ++ (((parsePay 245 (tget [] (s.port p).part (fld (flitH g) 59 57 + 8 * src)) (flitPay g)).1.filter
                  (msgKnown (fld (flitH g) 59 57))).map (fun m => (fld (flitH g) 59 57, m))))) ∧
          (good → (s.lane p src).peerEpoch ≠ byteFld b 6 2 →
            (¬ opens (flits.headD []) → drops) ∧
            (opens (flits.headD []) → ∃ t, exec (.ethFrameReceive p f) s = .next t ∧ Unchanged s t [.ports, .ctrs, .out] ∧
              (t.lane p src).peerEpoch = byteFld b 6 2)))) ∧
      (∀ (prio : BitVec 3) (on : Bool), ∃ t, exec (.pfcPause p prio on) s = .next t ∧ Unchanged s t [.ports, .ctrs] ∧
        bitAt (t.port p).paused prio.toNat = on ∧ (∀ k, k ≠ prio.toNat → bitAt (t.port p).paused k = bitAt (s.port p).paused k) ∧
        t.ctr (.port p) 0xD0 = (s.ctr (.port p) 0xD0 + 1) % 2 ^ 48) ∧
      (∀ peer : BitVec 16,
        let l := s.lane p peer.toNat
        let late := l.replay ≠ [] ∧ l.ackAt + 100 * s.preg (.port p) 0x114 ≤ s.time
        (¬ late → idle (.ethRetryTimeout p peer)) ∧
        (late → l.timeouts < 15 → ∃ t, exec (.ethRetryTimeout p peer) s = .next t ∧ Unchanged s t [.ports, .ctrs, .out] ∧
          t.lane p peer.toNat = { l with timeouts := l.timeouts + 1, ackAt := s.time } ∧
          t.ctr (.port p) 0x68 = (s.ctr (.port p) 0x68 + 1) % 2 ^ 48) ∧
        (late → 15 ≤ l.timeouts → ∃ t, exec (.ethRetryTimeout p peer) s = .next t ∧ (t.lane p peer.toNat).down = true ∧
          (t.lane p peer.toNat).replay = [] ∧ (t.lane p peer.toNat).epoch = (l.epoch + 1) % 65536 ∧ bitAt t.dsw.events 6 = true)))

/-! ### The attention block -/

/-- Completes: ATTENTION_REQUEST, PAGED_REQUEST_PROCEED, TILE_ENTRY_EMIT. ATTENTION_REQUEST takes the request that stands in the slot at CONS_POS: one in
error is a program fault with check code 0x0C, a PAGED one waits for its allocation, a TRAIN one has its index list written and begins to emit; the ring
goes on. PAGED_REQUEST_PROCEED leaves a request alone until its step is allocated, then appends its keys and values and has its index list written.
TILE_ENTRY_EMIT fills an empty slot of the tile ring with the next eight entries, NULL after the last real one. -/
def Obligations.AttentionRequestsRun : Prop :=
  ∀ s : State, s.live = true →
    let idle (i : Instr) : Prop := ∃ t, exec i s = .next t ∧ Unchanged s t []
    let readies (i : Instr) (v : State) (k : Nat) (r : AttReq) (served : List Bool) : Prop :=
      exec i s = .next (finish s (v.attReady k r served)) ∧
      (∀ a b, v.kvGet (v.indexReads r served) = (a, 0) → (a.tiles r served).length ≤ r.budget → k < v.att.reqs.length →
        a.kvPut (byteFld r.hdr 0x10 6) ((List.range r.budget).flatMap (fun i => a.indexRec r (a.tiles r served)[i]?)) = (b, 0) →
        ∃ t q, exec i s = .next t ∧ t.att.reqs[k]? = some q ∧ { q with pins := r.pins } = { r with st := 1, served := served })
    (∀ (c : CoreId) (head : BitVec 10) (j : Nat), (s.core c).job = some j →
      let v := s.slot c head.toNat
      let ready := s.attLocal j = true ∧ s.ringOk c head.toNat = true ∧ sOut v = true ∧ sAgent v = 1 ∧ sAgentId v = 0xFF ∧
        s.slotFull c head.toNat (sCons v) = true ∧ s.att.reqs.countP (fun r => r.st != 2) < 4
      (¬ ready → idle (.attentionRequest c head)) ∧
      (ready → s.ecc = [] →
        let a := rowAddr c (sBuf (s.ringSlot c head.toNat (sCons v)))
        let r : AttReq := { core := c, ring := head.toNat, hdr := s.bytes a 512, ents := s.bytes (a + 512) 512, job := j }
        let n := (s.ringReqs c head.toNat).length
        let u := (s.setFull c head.toNat (sCons v) false).advCons c head.toNat 1
        let w := { u with att := { u.att with reqs := retireReqs c head.toNat (min r.retire n) u.att.reqs } }
        (w.attOk r n = false → ∃ t, exec (.attentionRequest c head) s = .next t ∧ Records s t 14 ∧ Tears s t j) ∧
        (w.attOk r n = true → r.paged = true → ∃ t, exec (.attentionRequest c head) s = .next t ∧ OnlyCore s t c [.att] ∧
          t.att = { s.att with reqs := retireReqs c head.toNat (min r.retire n) s.att.reqs ++ [r] } ∧
          t.slotFull c head.toNat (sCons v) = false ∧ sCons (t.slot c head.toNat) = (sCons v + 1) % sLen v) ∧
        (w.attOk r n = true → r.paged = false → readies (.attentionRequest c head)
          { w with att := { w.att with reqs := w.att.reqs ++ [r] } } w.att.reqs.length r (List.replicate r.nent true)))) ∧
    (∀ (n : Nat) (r : AttReq) (x : AttStep), s.att.reqs[n]? = some r → s.att.step = some x →
      let served := x.out.map (· == 0)
      let ready := s.attLocal r.job = true ∧ r.paged = true ∧ r.st = 0 ∧ x.done = true ∧ x.step = r.step
      (¬ ready → idle (.pagedRequestProceed n)) ∧
      (ready → r.entries ≠ (List.range x.out.length).map (lenEnt x.ents) →
        ∃ t, exec (.pagedRequestProceed n) s = .next t ∧ Records s t 14 ∧ Tears s t r.job) ∧
      (∀ u v, ready → r.entries = (List.range x.out.length).map (lenEnt x.ents) →
        s.kvGet (s.indexReads r served) = (u, 0) → u.copyRun (u.appendCopies r served) = (v, 0) →
        readies (.pagedRequestProceed n) v n r served)) ∧
    ((∀ n, (s.att.reqs[n]? = none ∨ s.att.step = none) → idle (.pagedRequestProceed n))) ∧
    (∀ n, s.att.reqs[n]? = none → idle (.tileEntryEmit n)) ∧
    (∀ (n : Nat) (r : AttReq), s.att.reqs[n]? = some r →
      let pos := sProd (s.slot r.core r.tileHead)
      let dst := rowAddr r.core (sBuf (s.ringSlot r.core r.tileHead pos))
      let ts := s.tiles r r.served
      ((s.attLocal r.job = false ∨ r.st ≠ 1 ∨ s.slotFull r.core r.tileHead pos = true) → idle (.tileEntryEmit n)) ∧
      (s.attLocal r.job = true → r.st = 1 → s.slotFull r.core r.tileHead pos = false → s.memOk → ∃ t, exec (.tileEntryEmit n) s = .next t ∧
        OnlyCore s t r.core [.mem, .att, .ctrs] ∧
        t.bytes dst 1024 = (fromN r.tile 8).flatMap (fun i => tileBytes ts[i]?) ∧
        (∀ a, (a < dst ∨ dst + 1024 ≤ a) → memGet t.mem a = memGet s.mem a) ∧
        t.slotFull r.core r.tileHead pos = true ∧
        sProd (t.slot r.core r.tileHead) = (pos + 1) % sLen (s.slot r.core r.tileHead) ∧
        t.ctr .att 0x48 = (s.ctr .att 0x48 + min 8 (ts.length - r.tile)) % 2 ^ 48 ∧
        t.ctr .att 0x50 = (s.ctr .att 0x50 + (8 - min 8 (ts.length - r.tile))) % 2 ^ 48))

/-- Completes: ALLOCATE_STEP, ADMIT, RELEASE, SWAP_OUT_COMPLETE, SWAP_IN_COMPLETE. The pool manager acts for POOL_JOB while it runs. ALLOCATE_STEP begins the
step of the oldest ALLOC request at a boundary, and goes on with it elsewhere. ADMIT takes a FREE slot and its pages, or is refused; RELEASE frees the
slot that names its sequence, waits while it is being swapped, and does nothing else to another. A sequence whose swap write has completed is SWAPPED and
holds no pool page; one read back is RUNNING and holds no swap page; one that is not being swapped stays as it is. -/
def Obligations.PoolSequencesMove : Prop :=
  ∀ s : State, s.live = true →
    let idle (i : Instr) : Prop := ∃ t, exec i s = .next t ∧ Unchanged s t []
    (s.attLocal s.poolJob = false → idle .allocateStep ∧ idle .admitSeq ∧ idle .releaseSeq ∧
      (∀ slot p, idle (.swapOutComplete slot p)) ∧ (∀ slot d, idle (.swapInComplete slot d))) ∧
    (s.attLocal s.poolJob = true →
    (s.boundary = false → exec .allocateStep s = .next (finish s (s.driveStep 200))) ∧
    (∀ r, s.boundary = true → s.att.cmds = [] → s.swappingOut = false → s.att.step = none →
      s.att.reqs.find? (fun r => r.alloc && r.st == 0 && !r.retired && r.job == s.poolJob) = some r →
      exec .allocateStep s = .next (finish s ((s.beginStep r).driveStep 200))) ∧
    (s.boundary = true → s.att.reqs = [] → idle .allocateStep) ∧
    (s.boundary = false ∨ s.swappingOut = true ∨ s.att.cmds = [] → idle .admitSeq ∧ idle .releaseSeq) ∧
    (∀ c : AttCmd, s.att.cmds = [c] → s.boundary = true → s.swappingOut = false →
      (byteFld c.cmd 0 1 = 1 → idle .releaseSeq ∧
        let len := byteFld c.cmd 8 4
        let need := s.nlayer * ceilDiv len 64
        let refused (status reason : Nat) : Prop := ∃ t, exec .admitSeq s = .next t ∧ Unchanged s t [.att, .hif, .ctrs, .out, .flt, .regs] ∧
          t.att = { s.att with cmds := [] } ∧ t = finish s (s.cmdDone status 0 reason)
        (s.freeSeq = none → refused 0x11 1) ∧
        (∀ i, s.freeSeq = some i →
          (262144 < len → refused 0x11 2) ∧
          (len ≤ 262144 → fld (s.preg .att 0x120) 16 0 < need → refused 0x11 3) ∧
          (len ≤ 262144 → need ≤ fld (s.preg .att 0x120) 16 0 → s.freePages.length < need → (∀ e ∈ s.att.seqs, e.2.st ≠ 1) → refused 0x12 4) ∧
          (∀ w, len ≤ 262144 → need ≤ fld (s.preg .att 0x120) 16 0 → need ≤ s.freePages.length →
            let q : Seq := { st := 1, job := s.poolJob, prio := byteFld c.cmd 1 1, id := byteFld c.cmd 4 4, age := s.att.age + 1 }
            ({ s with att := { s.att with age := s.att.age + 1 } }.onSeq i (fun _ => q)).takePages i (ceilDiv len 64) = (w, 0) →
            ∃ t, exec .admitSeq s = .next t ∧ t.seq i = { q with pages := (t.seq i).pages } ∧ t.att.cmds = [] ∧
              (∀ k, k ≠ i → t.seq k = s.seq k)))) ∧
      (byteFld c.cmd 0 1 = 2 → idle .admitSeq ∧
        let i := byteFld c.cmd 2 1
        let names := i < 64 ∧ (s.seq i).st ≠ 0 ∧ (s.seq i).job = s.poolJob ∧ (s.seq i).id = byteFld c.cmd 4 4
        (((s.seq i).st = 2 ∨ (s.seq i).st = 4) → idle .releaseSeq) ∧
        ((s.seq i).st ≠ 2 → (s.seq i).st ≠ 4 → ∃ t, exec .releaseSeq s = .next t ∧ Unchanged s t [.att, .hif] ∧ t.att.cmds = [] ∧
          (∀ k, k ≠ i → t.seq k = s.seq k) ∧ (¬ names → t.seq i = s.seq i ∧ t.att.used = s.att.used) ∧
          (names → t.seq i = {} ∧ (∀ e ∈ t.att.used, e.2 ≠ i) ∧ (∀ e ∈ t.att.swapUsed, e.2 ≠ i))))) ∧
    (∀ slot : BitVec 6,
      let q := s.seq slot.toNat
      (q.st ≠ 2 → ∀ p, idle (.swapOutComplete slot p)) ∧
      (q.st = 2 → ∃ t, exec (.swapOutComplete slot false) s = .next t ∧ t.seq slot.toNat = {} ∧
        (∀ e ∈ t.att.used, e.2 ≠ slot.toNat) ∧ (∀ e ∈ t.att.swapUsed, e.2 ≠ slot.toNat)) ∧
      (∀ v, q.st = 2 → s.listPut ((s.listEntries slot.toNat).zip
          (((s.att.swapUsed.filter (fun e => e.2 == slot.toNat)).map Prod.fst).map (fun p => 2 ^ 30 + p))) = (v, 0) →
        ∃ t, exec (.swapOutComplete slot true) s = .next t ∧ t.seq slot.toNat = { q with st := 3 } ∧
          (∀ e ∈ t.att.used, e.2 ≠ slot.toNat)) ∧
      (q.st ≠ 4 → ∀ d, idle (.swapInComplete slot d)) ∧
      (∀ data v w, q.st = 4 →
        s.pagesPut (((s.pagesOf slot.toNat).zip (List.range q.pages)).map (fun e =>
          (s.pageAt e.1, fitTo s.kvPageBytes (data.drop (s.kvPageBytes * e.2))))) = (v, 0) →
        v.listPut ((v.listEntries slot.toNat).zip (s.pagesOf slot.toNat)) = (w, 0) →
        ∃ t, exec (.swapInComplete slot data) s = .next t ∧ t.seq slot.toNat = { q with st := 1 } ∧
          (∀ e ∈ t.att.swapUsed, e.2 ≠ slot.toNat))))

/-! ### Registers and the host interface -/

/-- Completes: BAR0_INVALID_ACCESS, REGISTER_WRITE, COUNTER_LOW_READ, COUNTER_HIGH_READ, LOSS_IN, BAR2_READ, BAR2_WRITE. An access that R12 does not allow
has no effect, reads as ones and reports class 13. A write sets RW fields, clears the W1C fields written as 1 and stages ST fields; every other register
keeps its value; one of 64 bits writes two registers. A 32-bit read of a counter's low word latches its high word, which the read of the high word
returns; a 64-bit read returns the whole and leaves the latch alone. LOSS_IN takes the first finite sample of a run as the mean, and reports a sample that
is not finite. BAR2 reaches device memory through the windows of class HOST: an access that one admits reads or writes its bytes and no other; one that
none admits writes nothing, reads as ones, and is counted. A poisoned write poisons the units that it touches and reports class 13. -/
def Obligations.RegistersAct : Prop :=
  (∀ s : State, s.svcLive = true →
     (∀ (off : BitVec 25) (size : Nat) (write : Bool),
       (bar0Valid off.toNat size write = true → ∃ t, exec (.bar0InvalidAccess off ⟨size, write⟩) s = .next t ∧ Unchanged s t []) ∧
       (bar0Valid off.toNat size write = false → ∃ t, exec (.bar0InvalidAccess off ⟨size, write⟩) s = .next t ∧ Reports s t 13 [.out] ∧
         (write = false → .readData (List.replicate size 0xFF) ∈ t.out))) ∧
     (∀ (off : BitVec 25) (wide : Bool) (value : W64) (who : Agent), who ≠ .program →
       (bar0Valid off.toNat (if wide then 8 else 4) true = false →
         ∃ t, exec (.registerWrite off wide value who) s = .next t ∧ Reports s t 13 []) ∧
       (∀ p, bar0Valid off.toNat 8 true = true → pageOf off.toNat = some p → exec (.registerWrite off true value who) s = .next (finish s
         ((s.write32 p (off.toNat % 0x1000) (value.toNat % 2 ^ 32) who).write32 p (off.toNat % 0x1000 + 4) (value.toNat / 2 ^ 32) who)))) ∧
     (∀ (off : BitVec 25) (wide : Bool) (value : W64) (j : Nat), s.runSlot = some j → off.toNat % 4 ≠ 0 →
       ∃ t, exec (.registerWrite off wide value .program) s = .next t ∧ Records s t 14 ∧ Tears s t j) ∧
     (∀ (off : BitVec 25) (value : W64) (who : Agent) (p : Page) (d : RegDef),
       let o := off.toNat % 0x1000
       let v := value.toNat % 2 ^ 32
       s.pwr.trip = false → who ≠ .program → pageOf off.toNat = some p → off.toNat % 4 = 0 → 0x100 ≤ o → isCtr p o = false →
       (o % 8 = 4 → isCtr p (o - 4) = false) → regDef p o = some d →
       ((p = .hif ∨ p = .health ∨ p = .red ∨ p = .links ∨ p = .power ∨ p = .thermal) ∨
         ∃ n, p = .core n ∧ o ≠ 0x11C ∨ p = .array n ∨ p = .vector n ∨ p = .sill n ∨ p = .bench n ∨ p = .port n) →
       ∃ t, exec (.registerWrite off false value who) s = .next t ∧ Unchanged s t [.regs, .ctrs] ∧
         CtrsBut s t (ctrsAt p [0xF8]) ∧
         (d.st = 0 → RegsBut s t [p.base + o] ∧ (d.rw = 0 → d.w1c = 0 → t.regs = s.regs) ∧
           ((d.rw ≠ 0 ∨ d.w1c ≠ 0) →
             t.reg (p.base + o) = (s.reg (p.base + o) &&& (all32 - d.rw - (d.w1c &&& v))) ||| (v &&& d.rw))) ∧
         (d.st ≠ 0 → t.regs = s.regs ∧ tfind t.staged (p.base + o) = some (BitVec.ofNat 32 v) ∧
           ∀ k, k ≠ p.base + o → tfind t.staged k = tfind s.staged k)) ∧
     (∀ (off : BitVec 25) (p : Page) (o : Nat), ctrAt off.toNat = some (p, o) →
       (∃ t, exec (.counterLowRead ⟨off, false⟩) s = .next t ∧ Unchanged s t [.latch, .out] ∧
         .readData (natLe 4 (s.counter p o)) ∈ t.out ∧ tfind t.latch off.toNat = some (s.counter p o / 2 ^ 32)) ∧
       (∃ t, exec (.counterLowRead ⟨off, true⟩) s = .next t ∧ Unchanged s t [.out] ∧ .readData (natLe 8 (s.counter p o)) ∈ t.out)) ∧
     (∀ (off : BitVec 25) (wide : Bool), ctrAt off.toNat = none → bar0Valid off.toNat (if wide then 8 else 4) false = true →
       ∃ t, exec (.counterLowRead ⟨off, wide⟩) s = .next t ∧ Unchanged s t [.out] ∧
         .readData (if wide then natLe 8 (s.readReg off.toNat + 2 ^ 32 * s.readReg (off.toNat + 4)) else natLe 4 (s.readReg off.toNat)) ∈ t.out) ∧
     (∀ (off : BitVec 25) (p : Page) (o : Nat), ctrAt (off.toNat - 4) = some (p, o) →
       ∃ t, exec (.counterHighRead off) s = .next t ∧ Unchanged s t [.latch, .out] ∧ tfind t.latch (off.toNat - 4) = none ∧
         (∀ v, tfind s.latch (off.toNat - 4) = some v → .readData (natLe 4 v) ∈ t.out) ∧
         (tfind s.latch (off.toNat - 4) = none → .readData (natLe 4 (s.counter p o / 2 ^ 32)) ∈ t.out)) ∧
     (∀ (c : CoreId) (value : W32) (who : Agent), s.live = true → (who ≠ .program ∨ s.mirrorPage ((Page.core c).base + 0x11C) = true) →
       (∀ j, s.runSlot = some j → bitAt (s.job j).placed c = true → bitAt (s.preg .health 0x100) 0 = true →
         (val32 value).isFin = true → (s.lossOf j).samples = 0 →
         ∃ t, exec (.lossIn c value who) s = .next t ∧ Unchanged s t [.loss, .free] ∧
           t.lossOf j = { s.lossOf j with samples := 1, mean := lossFix value, dev := 0 } ∧ ∀ k, k ≠ j → t.lossOf k = s.lossOf k) ∧
       (∀ j, s.runSlot = some j → bitAt (s.job j).placed c = true → bitAt (s.preg .health 0x100) 0 = true →
         (val32 value).isFin = false →
         ∃ t, exec (.lossIn c value who) s = .next t ∧ t.lossOf j = { s.lossOf j with nonfinite := (s.lossOf j).nonfinite + 1 } ∧
           ((bitAt (s.preg .fault 0x100) 0 = false ∨ bitAt s.dsw.events 12 = true) → Unchanged s t [.loss]) ∧
           (bitAt (s.preg .fault 0x100) 0 = true → bitAt s.dsw.events 12 = false → Records s t 4 ∧ bitAt t.dsw.events 12 = true)) ∧
       ((s.runSlot = none ∨ bitAt (s.preg .health 0x100) 0 = false) →
         ∃ t, exec (.lossIn c value who) s = .next t ∧ Unchanged s t []))) ∧
  (∀ (s : State) (off len : Nat) (data : List Byte), s.live = true →
     let a := s.bar2Addr off
     let denied (t : State) : Prop := t.ctr .hif 0x60 = (s.ctr .hif 0x60 + 1) % 2 ^ 48 ∧
       RegsBut s t [Page.hif.base + 0x110, Page.hif.base + 0x114]
     ((s.winEnter .host .read a len).2.1 = 0 → s.quiet →
       ∃ t, exec (.bar2Read off len) s = .next t ∧ Unchanged s t [.ctrs, .out, .quarries] ∧ .readData (s.bytes a len) ∈ t.out) ∧
     ((s.winEnter .host .read a len).2.1 ≠ 0 →
       ∃ t, exec (.bar2Read off len) s = .next t ∧ Unchanged s t [.ctrs, .out, .regs] ∧ denied t ∧
         .readData (List.replicate len 0xFF) ∈ t.out) ∧
     ((s.winEnter .host .write a data.length).2.1 = 0 → s.memOk → s.quiet →
       (∃ t, exec (.bar2Write off data false) s = .next t ∧ Unchanged s t [.ctrs, .mem, .quarries] ∧ t.bytes a data.length = data ∧
         t.ecc = [] ∧ ∀ x, (x < a ∨ a + data.length ≤ x) → memGet t.mem x = memGet s.mem x) ∧
       (∃ t, exec (.bar2Write off data true) s = .next t ∧ Reports s t 13 [.mem, .quarries] ∧ t.bytes a data.length = data ∧
         t.ctr .hif 0x80 = (s.ctr .hif 0x80 + 1) % 2 ^ 48 ∧
         (∀ k, a / 64 * 64 ≤ 32 * k → 32 * k < roundUp (a + data.length) 64 → (tget ⟨[], false⟩ t.ecc k).poison = true) ∧
         ∀ x, (x < a ∨ a + data.length ≤ x) → memGet t.mem x = memGet s.mem x)) ∧
     ((s.winEnter .host .write a data.length).2.1 ≠ 0 →
       ∀ bad, ∃ t, exec (.bar2Write off data bad) s = .next t ∧ Unchanged s t [.ctrs, .regs] ∧ denied t))

/-- Completes: QUEUE_ENABLE, QUEUE_DISABLE, SQ_STOP_COMPLETE, SQ_DOORBELL, CQ_DOORBELL, SQ_ENTRY_FETCH. A host queue runs once it is enabled with a valid entry, and is in error 4 with one that is not; disabling a completion
queue discards what it held, a submission queue in use stops first. A doorbell moves a running queue's tail or head, in its
range, and is counted for any other; beyond the ring or its entries it is error 1; one that sets a reserved bit is counted as well. A running submission queue's next entry is fetched;
one that breaks the rules of its KIND is completed and reported. -/
def Obligations.HostQueuesMove : Prop :=
  ∀ (s : State) (h : BitVec 10), s.svcLive = true →
    let k := h.toNat
    let q := s.hq k
    let w := s.hqWord k 0
    let others (t : State) : Prop := ∀ m, m ≠ k → t.hq m = s.hq m
    (∀ word0 : W32,
      let v := word0.toNat ||| 2 ^ 31
      (q.st = 0 → (s.setReg (hqOff k) v).hqOk k = true → ∃ t, exec (.queueEnable h word0) s = .next t ∧ Unchanged s t [.regs, .hif] ∧
        RegsBut s t [hqOff k] ∧ t.hqWord k 0 = v ∧ t.hq k = { st := 1 } ∧ others t) ∧
      (q.st = 0 → (s.setReg (hqOff k) v).hqOk k = false → ∃ t, exec (.queueEnable h word0) s = .next t ∧
        Reports s t 13 [.regs, .hif] ∧ bitAt (t.hqWord k 0) 31 = false ∧ t.hq k = { err := 4 } ∧ others t) ∧
      (q.st ≠ 0 → ∃ t, exec (.queueEnable h word0) s = .next t ∧ Unchanged s t [.ctrs])) ∧
    (∃ t, exec (.queueDisable h) s = .next t ∧ Unchanged s t [.regs, .hif, .ctrs] ∧ RegsBut s t [hqOff k] ∧ others t ∧
      (q.st ≠ 3 → bitAt (t.hqWord k 0) 31 = false) ∧
      (q.st ≠ 0 → q.st ≠ 3 → bitAt w 30 = true → t.hq k = {} ∧ (∀ e ∈ t.hif.store, e.1 ≠ k) ∧
        t.ctr .hif 0x68 = (s.ctr .hif 0x68 + s.hqHeld k) % 2 ^ 48) ∧
      (q.st ≠ 0 → q.st ≠ 3 → bitAt w 30 = false → t.hq k = if 0 < q.fetched then { q with st := 3 } else {})) ∧
    (∃ t, exec (.sqStopComplete h) s = .next t ∧ Unchanged s t [.hif] ∧ others t ∧
      t.hq k = if q.st = 3 ∧ q.fetched = 0 then {} else q) ∧
    (∀ (v : W64) (i : Instr), i = .sqDoorbell h v ∨ i = .cqDoorbell h v →
      let x := v.toNat % 2 ^ 16
      let n := s.hqSize k
      let ahead (y : Nat) : Nat := (y + n - q.head) % n
      let rsvd (t : State) : Prop := t.ctr (hqPage k) 0xF8 =
        if v.toNat < 2 ^ 16 then s.ctr (hqPage k) 0xF8 else (s.ctr (hqPage k) 0xF8 + 1) % 2 ^ 48
      let moves (x : Hq) : Prop := ∃ t, exec i s = .next t ∧ Unchanged s t [.hif, .ctrs] ∧ CtrsBut s t (ctrsAt (hqPage k) [0xF8]) ∧ rsvd t ∧
        t.hq k = x ∧ others t
      (q.st ≠ 1 → ∃ t, exec i s = .next t ∧ Unchanged s t [.ctrs] ∧ CtrsBut s t (ctrsAt .hif [0x70] ++ ctrsAt (hqPage k) [0xF8]) ∧ rsvd t ∧
        t.ctr .hif 0x70 = (s.ctr .hif 0x70 + 1) % 2 ^ 48) ∧
      (q.st = 1 → bitAt w 30 = false → x < n → ahead q.tail ≤ ahead x → moves { q with tail := x }) ∧
      (q.st = 1 → bitAt w 30 = true → x < n → ahead x ≤ ahead q.tail → (∀ e ∈ s.hif.store, e.1 ≠ k) → moves { q with head := x }) ∧
      (q.st = 1 → (n ≤ x ∨ if bitAt w 30 then ahead q.tail < ahead x else ahead x < ahead q.tail) →
        ∃ t, exec i s = .next t ∧ Reports s t 13 [.hif] ∧ rsvd t ∧ t.hq k = { q with st := 2, err := 1 } ∧
        (∀ e ∈ t.hif.store, e.1 ≠ k) ∧ others t)) ∧
    (s.live = true → q.st = 1 → bitAt w 30 = false →
      (∀ e, q.head = q.tail → ∃ t, exec (.sqEntryFetch h e) s = .next t ∧ Unchanged s t []) ∧
      (q.head ≠ q.tail → ∃ t, exec (.sqEntryFetch h none) s = .next t ∧ Reports s t 13 [.hif] ∧
        t.hq k = { q with st := 2, err := 3 } ∧ others t) ∧
      (∀ e, q.head ≠ q.tail →
        let next (t : State) : Prop := t.hq k = { q with head := (q.head + 1) % s.hqSize k, fetched := q.fetched + 1 } ∧ others t
        (fld w 29 27 = 3 → jobCmdOk e = true → ∃ t, exec (.sqEntryFetch h (some e)) s = .next t ∧ Unchanged s t [.hif, .jobCmds] ∧
          t.jobCmds = s.jobCmds ++ [⟨k, e⟩] ∧ next t) ∧
        (fld w 29 27 = 2 → hostAttOk e = true → ∃ t, exec (.sqEntryFetch h (some e)) s = .next t ∧ Unchanged s t [.hif, .att] ∧
          t.att = { s.att with cmds := s.att.cmds ++ [⟨k, e.take 16⟩] } ∧ next t) ∧
        (fld w 29 27 = 1 → hostBenchOk e = true → ∃ t, exec (.sqEntryFetch h (some e)) s = .next t ∧ Unchanged s t [.hif, .quarries] ∧
          (t.quarry (fld w 16 10)).host = (s.quarry (fld w 16 10)).host ++ [{ sq := k, cmd := e }] ∧ next t) ∧
        (((fld w 29 27 = 3 ∧ jobCmdOk e = false) ∨ (fld w 29 27 = 2 ∧ hostAttOk e = false) ∨ (fld w 29 27 = 1 ∧ hostBenchOk e = false)) →
          ∃ t, exec (.sqEntryFetch h (some e)) s = .next t ∧ Unchanged s t [.hif, .out, .flt, .ctrs] ∧ Records s t 13 ∧
            t.hq k = { q with head := (q.head + 1) % s.hqSize k })))

/-- Completes: ACK_FAULT_RECORD, CLEAR_EVENT_FLAG, INT_HOLDOFF_EXPIRY, HOST_LINK_UP, HOST_LINK_DOWN, CONFIGURATION_REQUEST. ACK_FAULT_RECORD takes the oldest
record off the ring; CLEAR_EVENT_FLAG clears the event flags that its mask names; a hold-off of INT_HOLDOFF since the last message that has passed sends
the message that is due. The link comes up at a rate and width that it knows, and takes every queue,
held record and configuration with it when it goes down; its configuration is the host's. -/
def Obligations.HostLinkActs : Prop :=
  ∀ s : State, s.svcLive = true →
    let hif (t : State) (x : Hif) : Prop := Unchanged s t [.hif] ∧ t.hif = { x with msixPend := t.hif.msixPend, store := t.hif.store }
    (s.flt.unack = 0 → ∃ t, exec .ackFaultRecord s = .next t ∧ Unchanged s t []) ∧
    (0 < s.flt.unack → ∃ t, exec .ackFaultRecord s = .next t ∧ t.flt.oldest = (s.flt.oldest + 1) % 32 ∧ t.flt.unack = s.flt.unack - 1 ∧
      t.flt.seq = s.flt.seq ∧ (byteFld (tget [] s.flt.ring s.flt.oldest) 0 1 ≠ 1 → Unchanged s t [.flt]) ∧
      (byteFld (tget [] s.flt.ring s.flt.oldest) 0 1 = 1 → Unchanged s t [.flt, .cores, .quarries, .regs])) ∧
    (∀ mask : W32, ∃ t, exec (.clearEventFlag mask) s = .next t ∧ Unchanged s t [.events] ∧ t.dsw.fatal = s.dsw.fatal ∧
      ∀ i, i < 16 → bitAt t.dsw.events i = (bitAt s.dsw.events i && !(bitAt mask.toNat i && bitAt 0x1C68 i))) ∧
    (∀ h : BitVec 10,
      let q := s.hq h.toNat
      let v := fld (s.hqWord h.toNat 0) 25 20
      let past := ∀ at_, q.msgAt = some at_ → at_ + 100 * fld (s.hqWord h.toNat 1) 31 16 ≤ s.time
      ((q.due = false ∨ ¬ past) → ∃ t, exec (.intHoldoffExpiry h) s = .next t ∧ Unchanged s t []) ∧
      (q.due = true → past → ∃ t, exec (.intHoldoffExpiry h) s = .next t ∧ Unchanged s t [.hif, .out] ∧
        t.hq h.toNat = { q with due := false, msgAt := some s.time } ∧
        (if bitAt (s.preg .interrupt (0x800 + 16 * v + 12)) 0 then bitAt t.hif.msixPend v = true else .msix v ∈ t.out))) ∧
    (∀ (rate : BitVec 4) (width : BitVec 5) (flit : Bool),
      let known := 3 ≤ rate.toNat ∧ rate.toNat ≤ 6 ∧ (width = 4 ∨ width = 8 ∨ width = 16)
      (s.hif.up = false → known → ∃ t, exec (.hostLinkUp rate width flit) s = .next t ∧
        hif t { s.hif with up := true, rate := rate.toNat, width := width.toNat, flit := flit }) ∧
      ((s.hif.up = true ∨ ¬ known) → ∃ t, exec (.hostLinkUp rate width flit) s = .next t ∧ Unchanged s t [])) ∧
    (∃ t, exec .hostLinkDown s = .next t ∧ Unchanged s t [.hif, .regs, .ctrs, .cores, .jobs, .flight] ∧
      t.hif = { ({} : Hif) with msixPend := t.hif.msixPend } ∧ t.ctr .hif 0x68 = (s.ctr .hif 0x68 + s.hif.store.length) % 2 ^ 48 ∧
      (∀ r ∈ t.flight, r.space = 2 → r.st = .served) ∧ ∀ h, h < 1024 → bitAt (t.hqWord h 0) 31 = false) ∧
    (s.hif.up = false → ∀ r, ∃ t, exec (.configurationRequest r) s = .next t ∧ Unchanged s t []) ∧
    (s.hif.up = true →
      let cfg (r : CfgReq) (x : Hif) : Prop := ∃ t, exec (.configurationRequest r) s = .next t ∧ hif t x
      (∀ on n, cfg (.enablePri on n) { s.hif with
        pri := on, priAlloc := n, prgFailed := s.hif.prgFailed && !(on && !s.hif.pri) }) ∧
      (∀ on, cfg (.enableAts on) { s.hif with ats := on } ∧ cfg (.enablePasid on) { s.hif with pasid := on } ∧
        cfg (.tenBitTags on) { s.hif with tenBit := on }) ∧
      (∀ n, n ≤ 7 → cfg (.bar2Size n) { s.hif with bar2Log := n }) ∧
      (∀ v : BitVec 6, (∃ t, exec (.configurationRequest (.msixMask v true)) s = .next t ∧ Unchanged s t [.regs] ∧
          t.preg .interrupt (0x800 + 16 * v.toNat + 12) = 1 ∧ RegsBut s t [Page.interrupt.base + (0x800 + 16 * v.toNat + 12)]) ∧
        (bitAt s.hif.msixPend v.toNat = true → ∃ t, exec (.configurationRequest (.msixMask v false)) s = .next t ∧
          Unchanged s t [.regs, .hif, .out] ∧ t.preg .interrupt (0x800 + 16 * v.toNat + 12) = 0 ∧ .msix v.toNat ∈ t.out)))

/-! ### Jobs and lifecycle -/

/-- Completes: LOAD, RUN, PARK, TEARDOWN, UNLOAD. The job command at the head of a queue of its operation runs, refused with the reason that R382 gives or with its effect:
LOAD measures the image and brings it in where every check passes, RUN and PARK begin a switch, TEARDOWN and UNLOAD end a job. With none
waiting nothing happens. -/
def Obligations.JobCommandsRun : Prop :=
  ∀ s : State, s.live = true →
    (∀ image op i, (i, op) = (Instr.load image, 1) ∨ (i, op) = (.run, 2) ∨ (i, op) = (.park, 3) ∨ (i, op) = (.teardown, 4) ∨
      (i, op) = (.unload, 5) → s.jobHead op = none → ∃ t, exec i s = .next t ∧ Unchanged s t []) ∧
    (∀ c image, s.jobHead 1 = some c →
      let j := jcSlot c.cmd
      let u := (s.takeJob c).retireMarked
      (s.dsw.fatal = true → exec (.load image) s = .next (finish s ((s.takeJob c).jobRefuse c 3))) ∧
      (s.dsw.fatal = false → (u.job j).st ≠ .empty → exec (.load image) s = .next (finish s (u.jobRefuse c 5))) ∧
      (s.dsw.fatal = false → (u.job j).st = .empty →
        (∀ o, o < 4 → o ≠ j → ¬ (bitAt (u.preg .links (0x104 + 4 * o)) 31 = true ∧ u.keyOf o = byteFld c.cmd 0x2C 2)) →
        ((∀ img, image = some img → img.length ≠ byteFld c.cmd 0x10 8) → exec (.load image) s = .next (finish s (u.jobRefuse c 8))) ∧
        (∀ img, image = some img → img.length = byteFld c.cmd 0x10 8 →
          (imageOk img = false → exec (.load image) s = .next (finish s (u.jobRefuse c 6))) ∧
          (imageOk img = true →
            let m := (u.setMeas (1 + j) (zeros 32)).extend (1 + j) (digest img)
            let r := m.placeReason j img (byteFld c.cmd 0x18 16) (fld (byteFld c.cmd 0x28 4) 13 0)
            exec (.load image) s = .next (finish s
              (if m.signOk img = false then m.jobRefuse c 7 else if r = 0 then m.loadBody c j img else m.jobRefuse c r)) ∧
            ∃ t, exec (.load image) s = .next t ∧ t.meas (1 + j) = digest (zeros 32 ++ digest img))))) ∧
    (∀ c, s.jobHead 2 = some c →
      let j := jcSlot c.cmd
      let u := s.takeJob c
      (s.dsw.fatal = true → exec .run s = .next (finish s (u.jobRefuse c 3))) ∧
      (s.dsw.fatal = false → s.runSlot = some j → exec .run s = .next (finish s (u.jobDone c (some j) 0 0 0 0 0))) ∧
      (s.dsw.fatal = false → s.runSlot ≠ some j → (s.job j).st ≠ .loaded → (s.job j).st ≠ .parked →
        exec .run s = .next (finish s (u.jobRefuse c 5))) ∧
      (s.dsw.fatal = false → s.runSlot ≠ some j → ((s.job j).st = .loaded ∨ (s.job j).st = .parked) →
        (s.jobOpen j = false → exec .run s = .next (finish s (u.jobRefuse c 3))) ∧
        (s.jobOpen j = true →
          (s.runSlot = none → ∃ t, exec .run s = .next t ∧ Unchanged s t [.jobs, .sw, .runSlot, .jobCmds] ∧
            t.sw = { phase := .restore, incoming := some j, cmd := some c, start := s.time } ∧ t.runSlot = some j ∧
            t.job j = { s.job j with st := .resuming } ∧ (∀ k, k ≠ j → t.job k = s.job k)) ∧
          (∀ o, s.runSlot = some o → ∃ t, exec .run s = .next t ∧ Unchanged s t [.jobs, .sw, .jobCmds, .cores, .quarries, .red] ∧
            t.sw = { phase := .drain, outgoing := some o, incoming := some j, cmd := some c, start := s.time } ∧
            (t.job o).st = .parking ∧ (∀ k, k ≠ o → t.job k = s.job k) ∧
            (∀ n ∈ coresOf (s.job o).placed, (t.core n).finishing = true))))) ∧
    (∀ c, s.jobHead 3 = some c →
      (s.runSlot = none → exec .park s = .next (finish s ((s.takeJob c).jobRefuse c 5))) ∧
      (∀ o, s.runSlot = some o → ∃ t, exec .park s = .next t ∧ Unchanged s t [.jobs, .sw, .jobCmds, .cores, .quarries, .red] ∧
        t.sw = { phase := .drain, outgoing := some o, cmd := some c, start := s.time } ∧ (t.job o).st = .parking ∧
        (∀ n ∈ coresOf (s.job o).placed, (t.core n).finishing = true))) ∧
    (∀ c, s.jobHead 4 = some c →
      let j := jcSlot c.cmd
      ((s.job j).st.tearable = false → exec .teardown s = .next (finish s ((s.takeJob c).jobRefuse c 5))) ∧
      ((s.job j).st.tearable = true →
        exec .teardown s = .next (finish s (((s.takeJob c).tearCore j 0).jobDone c (some j) 0x31 0 0 0 0)) ∧
        ∃ t, exec .teardown s = .next t ∧ (t.job j).st = .tornDown ∧ t.runSlot ≠ some j ∧ (∀ id, id < 256 → t.lint j id = {}))) ∧
    (∀ c, s.jobHead 5 = some c →
      let j := jcSlot c.cmd
      ((s.job j).st ≠ .ended → (s.job j).st ≠ .tornDown → exec .unload s = .next (finish s ((s.takeJob c).jobRefuse c 5))) ∧
      (((s.job j).st = .ended ∨ (s.job j).st = .tornDown) → ∃ t, exec .unload s = .next t ∧ t.job j = {} ∧
        t.meas (1 + j) = zeros 32 ∧ t.preg .links (0x104 + 4 * j) = 0 ∧ (∀ k, k ≠ j → (t.job k) = s.job k)))

/-- Completes: PREEMPT_DRAIN_DONE, DRAIN_LIMIT_EXPIRY, SWITCH_SAVE_DONE, SWITCH_RESTORE_DONE. A switch drains, saves and restores. It goes on once the outgoing
job's cores stand still and nothing of it is in flight, or at DRAIN_LIMIT, held to 10 to 1,000 us, with its requests abandoned; what its cores have
issued has then completed. Saved, the outgoing job is PARKED, and its sills stand in its shutter regions; restored, the incoming job is RUNNING, on cores
that begin at its first sub-bundle with their sills zeroed where it has not run before. -/
def Obligations.SwitchesProceed : Prop :=
  ∀ s : State, s.live = true →
    let idle (i : Instr) : Prop := ∃ t, exec i s = .next t ∧ Unchanged s t []
    let ours (n : Nat) : Prop := ∃ o, s.sw.outgoing = some o ∧ n ∈ coresOf (s.job o).placed
    let stands (t : State) : Prop := (∀ n, ours n → (s.core n).current = true ∧ (s.core n).arr.chkQ = []) →
      t.sw = { s.sw with phase := .save } ∧ Unchanged s t [.sw, .flight, .cores, .quarries, .ctrs] ∧
      (∀ n, ¬ ours n → t.core n = s.core n ∨ ∃ r ∈ s.outFlight, r.core = n) ∧
      ∀ n, ours n → { t.core n with epoch := (s.core n).epoch } = (s.core n).completed
    let past := s.sw.start + 100 * max 10 (min 1000 (s.preg .job 0x100)) ≤ s.time
    ((s.sw.phase ≠ .drain ∨ s.stopped = false) → idle .preemptDrainDone ∧ idle .drainLimitExpiry) ∧
    (s.sw.phase = .drain → s.stopped = true →
      (s.outFlight ≠ [] → idle .preemptDrainDone) ∧
      (s.outFlight = [] → exec .preemptDrainDone s = .next (finish s s.finished.toSave) ∧
        ∃ t, exec .preemptDrainDone s = .next t ∧ stands t ∧
          ((∀ n, ours n → (s.core n).current = true ∧ (s.core n).arr.chkQ = []) → t.flight = s.flight)) ∧
      (¬ past → idle .drainLimitExpiry) ∧
      (past → ∃ t, exec .drainLimitExpiry s = .next t ∧ stands t ∧
        ((∀ n, ours n → (s.core n).current = true ∧ (s.core n).arr.chkQ = []) →
          ∀ r, r ∈ t.flight ↔ r ∈ s.flight ∧ ∀ q ∈ s.outFlight, q.core ≠ r.core))) ∧
    (s.sw.phase ≠ .save → ∃ t, exec .switchSaveDone s = .next t ∧ Unchanged s t []) ∧
    (∀ o, s.sw.phase = .save → s.sw.outgoing = some o → (s.job o).st = .parking →
      let u := (coresOf (s.job o).placed).foldl (fun (u : State) n => u.saveCore o n) s
      let p : State := { (u.onJob o (fun x => { x with st := .parked })) with runSlot := none, lastSlot := o }
      (s.memOk → s.ecc = [] → (s.job o).shutter + 85 ≤ 12288 → ∃ t, exec .switchSaveDone s = .next t ∧ (t.job o).st = .parked ∧
        ∀ n ∈ coresOf (s.job o).placed, ∀ k, k < 0x400000 → memGet t.mem (s.shutterAt o n + k) = memGet s.mem (sillBase n + k)) ∧
      (s.sw.incoming = none → exec .switchSaveDone s = .next (finish s (p.switchEnd (some o))) ∧
        ∃ t, exec .switchSaveDone s = .next t ∧ (t.job o).st = .parked ∧ t.runSlot = none ∧ t.lastSlot = o ∧ t.sw = {} ∧
          ∀ n ∈ coresOf (s.job o).placed, (t.core n).running = false ∧ (t.core n).job = none) ∧
      (∀ i, s.sw.incoming = some i → i ≠ o → exec .switchSaveDone s = .next (finish s (p.switchIn i)) ∧
        ∃ t, exec .switchSaveDone s = .next t ∧ (t.job o).st = .parked ∧ (t.job i).st = .resuming ∧ t.runSlot = some i ∧
          t.sw.phase = .restore)) ∧
    (s.sw.phase ≠ .restore → ∃ t, exec .switchRestoreDone s = .next t ∧ Unchanged s t []) ∧
    (∀ i, s.sw.phase = .restore → s.sw.incoming = some i →
      let u := (s.clearEnded i).putRegs i
      let go (v : State) : State :=
        ((v.onJob i (fun x => { x with st := .running, saved := [], savedBq := [], savedLocks := [] })).redResume i).switchEnd (some i)
      ((s.dsw.fatal = true ∨ s.jobOpen i = false) → ∃ t, exec .switchRestoreDone s = .next t ∧ t.runSlot = none ∧
        t.sw = {} ∧ (t.job i).st = (if (s.job i).saved = [] then .loaded else .parked)) ∧
      (s.dsw.fatal = false → s.jobOpen i = true →
        ((s.job i).saved ≠ [] → exec .switchRestoreDone s = .next (finish s
          (go ((coresOf (u.job i).placed).foldl (fun (v : State) n => v.restoreCore i n) u)))) ∧
        ((s.job i).saved = [] → exec .switchRestoreDone s = .next (finish s
            (go ((coresOf (u.job i).placed).foldl (fun (v : State) n => (v.startCore i n).newJobRegs n) u))) ∧
          ((∀ e ∈ s.red.tags, e.1 / 4096 ≠ i) → (∀ x ∈ s.red.xfers, x.job ≠ i) →
            ∃ t, exec .switchRestoreDone s = .next t ∧ (t.job i).st = .running ∧ t.sw = {} ∧ t.runSlot = s.runSlot ∧
              ∀ n ∈ coresOf (s.job i).placed, (t.core n).job = some i ∧ (t.core n).running = true ∧ (t.core n).pc = 0 ∧
                (t.core n).loops = [] ∧ (t.core n).code = (tget (0, 0) (s.job i).code n).1 ∧
                ∀ a, sillBase n ≤ a → a < sillBase n + 0x400000 → memGet t.mem a = 0))))

/-- Completes: REQ_CLOSE, REQ_RETIRE, REQ_OPEN, BLOCK_CLOSED, BLOCK_SELF_TEST_DONE, CONTROL_PARITY_FAULT. A block closes from OPEN or FAULTED, tearing down a running job that uses it, is CLOSED with its epoch inverted once what
it had in flight has ended, opens from CLOSED unless it is retired, and is OPEN once its test has passed. A test that fails and
control-state parity make it FAULTED with class 11; in a unit without a counterpart the device is FATAL. A port that closes
loses its link. -/
def Obligations.BlocksOpenAndClose : Prop :=
  ∀ s : State, s.live = true →
    (∀ b : Block,
      let l := s.life b
      let isPort := ∃ p, b = .port p
      let others (t : State) : Prop := ∀ d, d ≠ b → t.life d = s.life d
      (l.st ≠ .opened → l.st ≠ .faulted → ∀ i off mask, i = Instr.reqClose b ∨ i = .controlParityFault (.block b) off mask →
        ∃ t, exec i s = .next t ∧ Unchanged s t []) ∧
      (isFused b = false → ¬ isPort → (l.st = .opened ∨ l.st = .faulted) →
        exec (.reqClose b) s = .next (finish s ((s.onLife b (fun l => { l with st := .closing })).tearJob (s.userOf b) 0)) ∧
        (s.userOf b = none → ∃ t, exec (.reqClose b) s = .next t ∧ Unchanged s t [.cores, .quarries] ∧
          t.life b = { l with st := .closing } ∧ others t) ∧
        (∀ j, s.userOf b = some j → ∃ t, exec (.reqClose b) s = .next t ∧ Tears s t j) ∧
        ((∀ n, b ≠ .quarry n) → s.userOf b = none → ∃ t, exec (.reqRetire b) s = .next t ∧ Unchanged s t [.cores, .quarries] ∧
          t.life b = { l with st := .closing, retired := true } ∧ others t)) ∧
      (isFused b = false → ¬ isPort → l.st = .closing → ∃ t, exec (.blockClosed b) s = .next t ∧
        Unchanged s t [.cores, .quarries, .flight] ∧ t.life b = { l with st := .closed, epoch := !l.epoch } ∧ others t) ∧
      (l.st ≠ .closing → ∃ t, exec (.blockClosed b) s = .next t ∧ Unchanged s t []) ∧
      ((l.st ≠ .closed ∨ l.retired = true) → ∃ t, exec (.reqOpen b) s = .next t ∧ Unchanged s t []) ∧
      (isFused b = false → l.st = .closed → l.retired = false → ∃ t, exec (.reqOpen b) s = .next t ∧
        Unchanged s t [.cores, .quarries, .ports, .mem] ∧ t.life b = { l with st := .opening } ∧ others t ∧
        (∀ n, b = .core n → (∀ a, sillBase n ≤ a → a < sillBase n + 0x400000 → memGet t.mem a = 0) ∧
          ∀ a, (a < sillBase n ∨ sillBase n + 0x400000 ≤ a) → memGet t.mem a = memGet s.mem a) ∧
        ((∀ n, b ≠ .core n) → ∀ a, memGet t.mem a = memGet s.mem a) ∧
        (∀ p, b = .port p → (t.port p).link = if bitAt (s.preg (.port p) 0x100) 0 then .training else .down)) ∧
      (l.st ≠ .opening → ∀ pass, ∃ t, exec (.blockSelfTestDone b pass) s = .next t ∧ Unchanged s t []) ∧
      (isFused b = false → l.st = .opening →
        (∃ t, exec (.blockSelfTestDone b true) s = .next t ∧ Unchanged s t [.cores, .quarries, .ports] ∧
          t.life b = { l with st := .opened } ∧ others t) ∧
        (¬ isPort → exec (.blockSelfTestDone b false) s = .next (finish s ({ s with free := s.free + 2 }.blockFaulted b
          (Config.freeValue s.free).toNat (Config.freeValue (s.free + 1)).toNat)))) ∧
      (∀ p, b = .port p →
        (l.st = .opening → ∃ t, exec (.blockSelfTestDone b false) s = .next t ∧ (t.life b).st = .faulted ∧ (t.port p).link = .down) ∧
        (l.st = .opened → ∀ off mask, ∃ t, exec (.controlParityFault (.block b) off mask) s = .next t ∧ (t.life b).st = .faulted ∧
          (t.port p).link = .down ∧ ((s.port p).txns = [] → Records s t 11)) ∧
        (l.st = .closing → ∃ t, exec (.blockClosed b) s = .next t ∧ t.life b = { l with st := .closed, epoch := !l.epoch } ∧
          (t.port p).link = .down) ∧
        (l.st = .opened → (s.port p).link = .down → (s.port p).txns = [] → ∃ t, exec (.reqClose b) s = .next t ∧ Unchanged s t [.ports] ∧
          t.life b = { l with st := .closing } ∧ others t)) ∧
      (∀ off mask, isFused b = false → ¬ isPort → l.st = .opened → s.userOf b = none → s.flight = [] →
        ∃ t, exec (.controlParityFault (.block b) off mask) s = .next t ∧ Reports s t 11 [.cores, .quarries, .regs] ∧
          (t.life b).st = .faulted ∧ others t)) ∧
    (∀ n : CoreId, (s.quarry n).life.st = .opened → (s.core n).life.st = .opened → s.userOf (.quarry n) = none →
      s.userOf (.core n) = none → ∃ t, exec (.reqRetire (.quarry n)) s = .next t ∧ Unchanged s t [.cores, .quarries] ∧
        (t.quarry n).life = { (s.quarry n).life with st := .closing, retired := true } ∧
        t.core n = (if fused n then s.core n
          else { s.core n with life := { (s.core n).life with st := .closing, retired := true } })) ∧
    (∀ p : PortId, (s.port p).life.st = .opened → (s.port p).link ≠ .down → (s.port p).txns = [] →
      ∃ t, exec (.reqClose (.port p)) s = .next t ∧ Reports s t 5 [.ports, .events] ∧ (t.port p).life.st = .closing ∧
        (t.port p).link = .down ∧ (t.port p).txq = [] ∧ bitAt t.dsw.events 6 = true) ∧
    (∀ (u : SoleUnit) (off mask : W32),
      (s.runSlot = none → ∃ t, exec (.controlParityFault (.sole u) off mask) s = .next t ∧ Reports s t 11 [.events] ∧
        t.dsw.fatal = true ∧ t.dsw.events = s.dsw.events) ∧
      (∀ j, s.runSlot = some j → ∃ t, exec (.controlParityFault (.sole u) off mask) s = .next t ∧ Records s t 11 ∧ t.dsw.fatal = true ∧
        Tears s t j))

/-! ### Power, commits, boot, identity -/

/-- Completes: PMBUS_POLL, PMBUS_FAIL_LIMIT, AVS_SETTLE_TIMEOUT, AVS_VOLTAGE_REACHED, LOUVRE_UPDATE, THERMAL_TERM_UPDATE, DROOP_DETECT, DROOP_STEP_DOWN,
PWR_ALERT_N_FALL, PWR_ALERT_N_RISE, ALERT_ROW_RELEASE, ALERT_LIMIT_EXPIRY. A poll reads every VALID regulator entry, a failed read standing for its PMAX; the package power is their sum. A regulator
that has failed 1,000 times in a row, and a voltage that is not reached within 1 ms, are reported once in class 9. LOUVRE_UPDATE
adds the power of the microsecond to the energy and computes the power term over its window, and the louvre is the larger of
the two terms, 224 while Stavuf is held; THERMAL_TERM_UPDATE follows the warmest sensors. A droop detector's rise stretches its
two cores' clock by a quarter or a half and is counted, and it steps down by one level at a time. PWR_ALERT_N gates the mesh
rows until it rises, each core that issues from its fourth CCLK on, each release frees one row, and one that lasts longer than ALERT_LIMIT is reported
once in class 9. -/
def Obligations.PowerIsGoverned : Prop :=
  (∀ s : State, s.svcLive = true →
     (∀ readings,
       (s.boot.svcHeld = true → ∃ t, exec (.pmbusPoll readings) s = .next t ∧ Unchanged s t []) ∧
       (s.boot.svcHeld = false → ∃ t, exec (.pmbusPoll readings) s = .next t ∧ Unchanged s t [.pwr, .ctrs] ∧
         CtrsBut s t (ctrsAt .power [0x68]) ∧
         (∀ r, r < 16 → s.regValid r = true →
           (∀ mw, readings.getD r none = some mw → tget {} t.pwr.reg r = { mw := mw, fails := 0, ok := true }) ∧
           (readings.getD r none = none → tget {} t.pwr.reg r =
             { mw := s.regPmax r, ok := false,
               fails := if (tget {} s.pwr.reg r).fails < 1000 then (tget {} s.pwr.reg r).fails + 1 else (tget {} s.pwr.reg r).fails })) ∧
         (∀ r, s.regValid r = false → tget {} t.pwr.reg r = tget {} s.pwr.reg r) ∧
         t.pwr = { s.pwr with reg := t.pwr.reg, pnow := (((List.range 16).filter s.regValid).map (fun r => (tget {} t.pwr.reg r).mw)).sum })) ∧
     (∀ r : BitVec 4,
       let x := tget {} s.pwr.reg r.toNat
       (s.regValid r.toNat = true → x.fails = 1000 → ∃ t, exec (.pmbusFailLimit r) s = .next t ∧ Reports s t 9 [.pwr] ∧
         t.pwr = { s.pwr with reg := tset s.pwr.reg r.toNat { x with fails := 1001 } }) ∧
       (x.fails ≠ 1000 → ∃ t, exec (.pmbusFailLimit r) s = .next t ∧ Unchanged s t [])) ∧
     (s.pwr.avsBusy = true → s.pwr.avsAt + 100000 ≤ s.time → ∃ t, exec .avsSettleTimeout s = .next t ∧ Reports s t 9 [.pwr] ∧
       t.pwr = { s.pwr with avsBusy := false } ∧ t.ctr .power 0x80 = (s.ctr .power 0x80 + 1) % 2 ^ 48) ∧
     ((s.pwr.avsBusy = false ∨ s.time < s.pwr.avsAt + 100000) → ∃ t, exec .avsSettleTimeout s = .next t ∧ Unchanged s t []) ∧
     (∃ t, exec .avsVoltageReached s = .next t ∧ Unchanged s t [.pwr] ∧ t.pwr = { s.pwr with avsBusy := false }) ∧
     (let c := s.preg .power 0x100
      let x := s.pwr.partial_ + s.pwr.pnow
      ∃ t, exec .louvreUpdate s = .next t ∧ Unchanged s t [.pwr, .ctrs] ∧
       t.pwr = { s.pwr with
         ticks := s.pwr.ticks + 1, energy := s.pwr.energy + s.pwr.pnow
         partial_ := if (s.pwr.ticks + 1) % 10000 = 0 then 0 else x
         blocks := if (s.pwr.ticks + 1) % 10000 = 0 then (x :: s.pwr.blocks).take 3000 else s.pwr.blocks
         pTerm := t.pwr.pTerm, b := t.pwr.b, sat := t.pwr.sat, pavg := t.pwr.pavg } ∧
       (let e := (t.pwr.window (fld c 11 7)).1
        let us := (t.pwr.window (fld c 11 7)).2
        let cap := 1000 * fld c 21 12
        t.pwr.pTerm = (if bitAt c 0 && decide (cap * us < e) then min 224 (256 * fld c 31 24 * (e - cap * us) / (cap * us)) else 0) ∧
        t.pwr.pavg = e / us ∧ t.pwr.sat = (t.pwr.b == 224 && decide (cap * us < e))) ∧
       t.pwr.b = (if s.boot.svcHeld then 224 else max t.pwr.pTerm (if bitAt c 1 then s.pwr.tTerm else 0)) ∧
       t.ctr .power 0x70 = (if 0 < t.pwr.b then (s.ctr .power 0x70 + 1) % 2 ^ 48 else s.ctr .power 0x70) ∧
       t.ctr .thermal 0x40 = (if 0 < s.pwr.tTerm then (s.ctr .thermal 0x40 + 1) % 2 ^ 48 else s.ctr .thermal 0x40) ∧
       t.ctr .power 0x78 = (if t.pwr.sat then (s.ctr .power 0x78 + 1) % 2 ^ 48 else s.ctr .power 0x78)) ∧
     (let c := s.preg .thermal 0x100
      let celsius (hi lo : Nat) : Int := 16 * ((fld c hi lo : Nat) : Int)
      let dram := tempOf (s.preg .thermal 0x104)
      let logic := tempOf (s.preg .thermal 0x108)
      (bitAt (s.preg .power 0x100) 1 = false → ∃ t, exec .thermalTermUpdate s = .next t ∧ Unchanged s t []) ∧
      (bitAt (s.preg .power 0x100) 1 = true → ∃ t, exec .thermalTermUpdate s = .next t ∧ Unchanged s t [.pwr] ∧
        t.pwr = { s.pwr with
         tTerm :=
          if 16 * 95 < dram ∨ 16 * 105 < logic then 224
          else if celsius 31 24 < dram ∨ celsius 23 16 < logic then min 224 (s.pwr.tTerm + 4)
          else if dram ≤ celsius 31 24 - celsius 15 12 ∧ logic ≤ celsius 23 16 - celsius 15 12 then s.pwr.tTerm - 4 else s.pwr.tTerm }))) ∧
  (∀ s : State, s.live = true →
     (∀ k : BitVec 6,
       let l := tget 0 s.pwr.droopK k.toNat
       let sets (t : State) (lv : Nat) : Prop := tget 0 t.pwr.droopK k.toNat = lv ∧
         (∀ i, i ≠ k.toNat → tget 0 t.pwr.droopK i = tget 0 s.pwr.droopK i) ∧
         (∀ n, n / 2 = k.toNat → t.core n = { s.core n with droop := max (2 * lv) (if s.pwr.exc then 4 else 0) }) ∧
         (∀ n, n / 2 ≠ k.toNat → t.core n = s.core n)
       (∀ deep : Bool,
         let level := if deep then 2 else 1
         (l < level → ∃ t, exec (.droopDetect k deep) s = .next t ∧ Unchanged s t [.pwr, .cores, .ctrs, .regs] ∧ sets t level ∧
           t.ctr .power 0x50 = (s.ctr .power 0x50 + 1) % 2 ^ 48 ∧ t.preg .power 0x138 = level * 256 + k.toNat ∧
           RegsBut s t [Page.power.base + 0x138]) ∧
         (level ≤ l → ∃ t, exec (.droopDetect k deep) s = .next t ∧ Unchanged s t [])) ∧
       (l = 0 → ∃ t, exec (.droopStepDown k) s = .next t ∧ Unchanged s t []) ∧
       (l ≠ 0 → ∃ t, exec (.droopStepDown k) s = .next t ∧ Unchanged s t [.pwr, .cores] ∧ sets t (l - 1))) ∧
     (let en := bitAt (s.preg .power 0x100) 2
      (en = true → s.pwr.alertLow = false → ∃ t, exec .pwrAlertNFall s = .next t ∧ Unchanged s t [.pwr, .ctrs, .cores] ∧
        t.pwr = { s.pwr with alertLow := true, rows := 0, reported := false, fellAt := s.time } ∧
        (∀ n, n < 128 → t.core n = if s.pwr.rows ≤ n / 16 then s.core n else { s.core n with alertAt := (s.core n).cclk + 4 }) ∧ t.ctr .power 0x40 = (s.ctr .power 0x40 + 1) % 2 ^ 48) ∧
      ((en = false ∨ s.pwr.alertLow = true) → ∃ t, exec .pwrAlertNFall s = .next t ∧ Unchanged s t [])) ∧
     (∀ ns, (s.pwr.alertLow = true → ∃ t, exec (.pwrAlertNRise ns) s = .next t ∧ Unchanged s t [.pwr, .ctrs] ∧
         t.pwr = { s.pwr with alertLow := false } ∧ t.ctr .power 0x48 = (s.ctr .power 0x48 + ns) % 2 ^ 48) ∧
       (s.pwr.alertLow = false → ∃ t, exec (.pwrAlertNRise ns) s = .next t ∧ Unchanged s t [])) ∧
     (∃ t, exec .alertRowRelease s = .next t ∧ Unchanged s t [.pwr] ∧
       t.pwr = { s.pwr with rows := if s.pwr.alertLow = false ∧ s.pwr.rows < 8 then s.pwr.rows + 1 else s.pwr.rows }) ∧
     (let late := s.pwr.fellAt + 100000 * max 1 (min 1000 (s.preg .power 0x120)) < s.time
      (s.pwr.alertLow = true → s.pwr.reported = false → late → bitAt (s.preg .power 0x100) 2 = true →
        ∃ t, exec .alertLimitExpiry s = .next t ∧ Reports s t 9 [.pwr] ∧ t.pwr = { s.pwr with reported := true }) ∧
      ((s.pwr.alertLow = false ∨ s.pwr.reported = true ∨ ¬ late ∨ bitAt (s.preg .power 0x100) 2 = false) →
        ∃ t, exec .alertLimitExpiry s = .next t ∧ Unchanged s t [])))

/-- Completes: EXCURSION_BEGIN, EXCURSION_END, CORE_DOMAIN_RESET, CORE_DOMAIN_RECOVERY, VDD_CORE_RECOVERY_TIMEOUT, THERMAL_TRIP, SVC_KICK,
STAVUF_WATCHDOG_EXPIRY. An excursion begins below 92 % of the set point: it is counted, flagged and timed, and every core's clock is stretched by a
half until it ends. Below 82 % the core domain is reset: class 9, every core stopped and CLOSED, which opens again on recovery,
and is lost, with FATAL, where the supply does not recover within 100 ms. A trip stops every clock but SVCLK. The Stavuf watchdog is kicked
by Stavuf alone; without a kick for 100 ms Stavuf is held, the louvre stands at 224, and the device is FATAL, with class 8. -/
def Obligations.SupplyExcursionsAct : Prop :=
  (∀ s : State, s.live = true →
     (∀ mv : BitVec 10,
       (92 * s.setPoint ≤ 100 * mv.toNat → ∃ t, exec (.excursionBegin mv) s = .next t ∧ Unchanged s t []) ∧
       (100 * mv.toNat < 92 * s.setPoint → s.pwr.exc = false → ∃ t, exec (.excursionBegin mv) s = .next t ∧
         Unchanged s t [.pwr, .cores, .regs, .ctrs, .events] ∧ t.pwr = { s.pwr with exc := true } ∧
         t.ctr .power 0x58 = (s.ctr .power 0x58 + 1) % 2 ^ 48 ∧ bitAt t.dsw.events 10 = true ∧
         t.preg .power 0x124 = (if 100 * mv.toNat < 82 * s.setPoint then 2 ^ 31 else 0) + mv.toNat ∧
         t.preg .power 0x128 = 0 ∧ t.reg64 (Page.power.base + 0x130) = s.time % 2 ^ 64 ∧
         ∀ n, n < 128 → t.core n = { s.core n with droop := max (2 * tget 0 s.pwr.droopK (n / 2)) 4 }) ∧
       (100 * mv.toNat < 92 * s.setPoint → s.pwr.exc = true → ∃ t, exec (.excursionBegin mv) s = .next t ∧ Unchanged s t [.regs] ∧
         fld (t.preg .power 0x124) 9 0 = min mv.toNat (fld (s.preg .power 0x124) 9 0)) ∧
       (82 * s.setPoint ≤ 100 * mv.toNat → ∃ t, exec (.coreDomainReset mv) s = .next t ∧ Unchanged s t []) ∧
       (100 * mv.toNat < 82 * s.setPoint → ∃ t, exec (.coreDomainReset mv) s = .next t ∧ t.pwr.coreHeld = true ∧ t.pwr.heldAt = s.time ∧
         (∀ j, s.runSlot = some j → Records s t 9 ∧ Tears s t j) ∧
         (∀ n, n < 128 → (t.core n).life.st = .closed ∧ (t.core n).running = false ∧ (t.core n).job = none ∧ (t.core n).sq = []) ∧
         (s.runSlot = none → Reports s t 9 [.pwr, .cores, .regs, .events, .flight] ∧
           t.ctr .power 0x60 = (s.ctr .power 0x60 + 1) % 2 ^ 48 ∧ (∀ n, n < 128 → (t.core n).epoch = !(s.core n).epoch) ∧
           ∀ r ∈ t.flight, r.space = 1 → r.st = .served))) ∧
     (∀ (lowest : BitVec 10) (ns : Nat),
       (s.pwr.exc = false → ∃ t, exec (.excursionEnd lowest ns) s = .next t ∧ Unchanged s t []) ∧
       (s.pwr.exc = true → ∃ t, exec (.excursionEnd lowest ns) s = .next t ∧ Unchanged s t [.pwr, .cores, .regs] ∧
         t.pwr = { s.pwr with exc := false } ∧ fld (t.preg .power 0x124) 9 0 = min lowest.toNat (fld (s.preg .power 0x124) 9 0) ∧
         t.preg .power 0x128 = min ns (2 ^ 32 - 1) ∧
         ∀ n, n < 128 → t.core n = { s.core n with droop := 2 * tget 0 s.pwr.droopK (n / 2) })) ∧
     (∀ i, i = Instr.coreDomainRecovery ∨ i = .vddCoreRecoveryTimeout → s.pwr.coreHeld = false →
       ∃ t, exec i s = .next t ∧ Unchanged s t []) ∧
     (s.pwr.coreHeld = true →
       (∃ t, exec .coreDomainRecovery s = .next t ∧ Unchanged s t [.pwr, .cores, .mem] ∧ t.pwr = { s.pwr with coreHeld := false } ∧
         ∀ n, n < 128 → (t.core n).life.st =
             (if fused n = true ∨ (s.core n).life.retired = true then (s.core n).life.st else .opening) ∧
           (fused n = false → (s.core n).life.retired = false →
             ∀ a, sillBase n ≤ a → a < sillBase n + 0x400000 → memGet t.mem a = 0)) ∧
       (s.time < s.pwr.heldAt + 10000000 → ∃ t, exec .vddCoreRecoveryTimeout s = .next t ∧ Unchanged s t []) ∧
       (s.pwr.heldAt + 10000000 ≤ s.time → ∃ t, exec .vddCoreRecoveryTimeout s = .next t ∧ Unchanged s t [.pwr, .events] ∧
         t.pwr = { s.pwr with coreHeld := false } ∧ t.dsw.fatal = true ∧ t.dsw.events = s.dsw.events)) ∧
     (∀ (logic : Bool) (sensor : BitVec 8) (reading : BitVec 16),
       let tooHot := if logic then sensor.toNat < 64 ∧ 16 * 115 ≤ reading.toInt else sensor.toNat < 128 ∧ 16 * 100 ≤ reading.toInt
       (¬ tooHot → ∃ t, exec (.thermalTrip logic sensor reading) s = .next t ∧ Unchanged s t []) ∧
       (tooHot → s.commit.busy = false → ∃ t, exec (.thermalTrip logic sensor reading) s = .next t ∧
         Reports s t 10 [.mem, .regs, .events, .out, .pwr] ∧ t.live = false ∧ t.svcLive = true ∧ t.dsw.fatal = true ∧
         .thermtrip ∈ t.out ∧ bitAt (t.preg .thermal 0x10C) 3 = true))) ∧
  (∀ s : State, s.svcLive = true →
     (∃ t, exec (.svcKick .svc) s = .next t ∧ Unchanged s t [.boot] ∧ t.boot = { s.boot with kickAt := s.time }) ∧
     (∀ who, who ≠ .svc → ∃ t, exec (.svcKick who) s = .next t ∧ Unchanged s t []) ∧
     ((s.firmware = false ∨ (s.pwr.trip = false ∧ s.time < s.boot.kickAt + 10000000)) →
       ∃ t, exec .stavufWatchdogExpiry s = .next t ∧ Unchanged s t []) ∧
     (s.firmware = true → s.boot.kickAt + 10000000 ≤ s.time →
       (s.runSlot = none → ∃ t, exec .stavufWatchdogExpiry s = .next t ∧ Reports s t 8 [.boot, .pwr, .events] ∧
         t.boot = { s.boot with svcHeld := true } ∧ t.pwr = { s.pwr with b := 224 } ∧ t.dsw.fatal = true ∧
         t.dsw.events = s.dsw.events) ∧
       (∀ j, s.runSlot = some j → ∃ t, exec .stavufWatchdogExpiry s = .next t ∧ Records s t 8 ∧ Tears s t j ∧
         t.boot = { s.boot with svcHeld := true } ∧ t.dsw.fatal = true)))

/-- Completes: COMMIT_REQ, COMMIT_APPLY, DISCARD. A commit takes the staged values of its group, checks them, and applies them at one instant, or fails with the result of
the first check that fails and stages them again. One request at a time is in progress; a group that does not exist and an
empty set complete at once. DISCARD drops what a page has staged. -/
def Obligations.CommitsApplySets : Prop :=
  ∀ s : State, s.live = true →
    (∀ (v : W32) (who : Agent), who ≠ .program →
      let b : State := if fld v.toNat 15 8 = 0 then s else s.bump .commit 0xF8
      let g := fld v.toNat 7 0
      let token := fld v.toNat 31 16
      let svc : Bool := who == .svc
      let mine (e : Nat × W32) : Bool := groupAt e.1 == some g
      let u : State := { b with
        staged := s.staged.filter (fun e => !mine e)
        commit := { busy := true, group := g, token := token, bySvc := svc, taken := s.staged.filter mine, tables := s.routes } }
      let done (t : State) (code : Nat) : Prop := t.preg .commit 0x104 = code * 2 ^ 16 + g * 2 ^ 8 + (if svc then 1 else 0) ∧
        t.preg .commit 0x108 = token ∧ t.commit = {} ∧ bitAt t.dsw.events 3 = true ∧
        t.ctr .commit (if code ≤ 1 then 0x40 else 0x48) = (s.ctr .commit (if code ≤ 1 then 0x40 else 0x48) + 1) % 2 ^ 48
      (s.commit.busy = true → ∃ t, exec (.commitReq v who) s = .next t ∧ Unchanged s t [.ctrs] ∧
        CtrsBut s t (ctrsAt .commit [0x50, 0xF8]) ∧ t.ctr .commit 0x50 = (s.ctr .commit 0x50 + 1) % 2 ^ 48) ∧
      (s.commit.busy = false → g ≠ 1 → g ≠ 2 → ∃ t, exec (.commitReq v who) s = .next t ∧
        Unchanged s t [.regs, .ctrs, .commit, .events] ∧ t.staged = s.staged ∧ done t 0x11) ∧
      (s.commit.busy = false → (g = 1 ∨ g = 2) → s.staged.filter mine = [] → ∃ t, exec (.commitReq v who) s = .next t ∧
        Unchanged s t [.regs, .ctrs, .commit, .events] ∧ t.staged = s.staged ∧ done t 1) ∧
      (s.commit.busy = false → g = 2 → s.staged.filter mine ≠ [] →
        ∃ t, exec (.commitReq v who) s = .next t ∧
          (u.powerBad = [] → Unchanged s t [.regs, .commit, .ctrs] ∧ CtrsBut s t (ctrsAt .commit [0xF8]) ∧ t.regs = s.regs ∧ t.staged = u.staged ∧
            t.commit = { u.commit with applying := true }) ∧
          (∀ b bs, u.powerBad = b :: bs → Unchanged s t [.regs, .ctrs, .commit, .events] ∧ fld (t.preg .commit 0x104) 23 16 = b.code % 256 ∧
            t.preg .commit 0x10C = b.off % 2 ^ 32 ∧ t.commit = {} ∧ bitAt t.dsw.events 3 = true ∧
            ∀ k x, tfind (s.staged.filter mine) k = some x → tfind t.staged k = some x)) ∧
      (s.commit.busy = false → g = 1 → s.staged.filter mine ≠ [] →
        let r := u.readTables
        (r.1.linkBad r.2.1 r.2.2 = [] → exec (.commitReq v who) s = .next (finish s
          { r.1 with commit := { r.1.commit with applying := true, tables := r.2.1 } })) ∧
        (∀ b bs, r.1.linkBad r.2.1 r.2.2 = b :: bs →
          exec (.commitReq v who) s = .next (finish s (r.1.unstage.commitDone b.code g token svc (some b)))))) ∧
    (∀ v, ∃ t, exec (.commitReq v .program) s = .next t ∧ Unchanged s t []) ∧
    (∀ ns,
      (s.commit.applying = false → ∃ t, exec (.commitApply ns) s = .next t ∧ Unchanged s t []) ∧
      (s.commit.applying = true → (s.commit.group = 1 ∨ s.commit.group = 2) → ∃ t, exec (.commitApply ns) s = .next t ∧ t.commit = {} ∧
        t.routes = s.commit.tables ∧ t.staged = s.staged ∧ bitAt t.dsw.events 3 = true) ∧
      (s.commit.applying = true → (s.commit.group = 1 ∨ s.commit.group = 2) → s.setsOk →
        (∀ e ∈ s.commit.taken, ∀ p, p < 8 → e.1 ≠ (Page.port p).base + 0x100) →
        ∃ t, exec (.commitApply ns) s = .next t ∧ Unchanged s t [.regs, .routes, .ctrs, .commit, .events, .pwr, .out] ∧
          t.staged = s.staged ∧ (∀ e ∈ s.commit.taken, t.reg e.1 = e.2.toNat) ∧ t.routes = s.commit.tables ∧ t.commit = {} ∧
          bitAt t.dsw.events 3 = true ∧ t.ctr .commit 0x40 = (s.ctr .commit 0x40 + 1) % 2 ^ 48 ∧
          fld (t.preg .commit 0x104) 23 16 = 0)) ∧
    (∀ (off : BitVec 25) (v : W32) (p : Page), pageOf off.toNat = some p →
      (p.group = none → ∃ t, exec (.discard off v) s = .next t ∧ Unchanged s t [.ctrs] ∧ CtrsBut s t (ctrsAt p [0xF8]) ∧
        t.ctr p 0xF8 = (s.ctr p 0xF8 + 1) % 2 ^ 48) ∧
      (p.group ≠ none → ∃ t, exec (.discard off v) s = .next t ∧ Unchanged s t [.regs, .ctrs] ∧ CtrsBut s t (ctrsAt p [0xF8]) ∧
        t.ctr p 0xF8 = (if v.toNat < 2 then s.ctr p 0xF8 else (s.ctr p 0xF8 + 1) % 2 ^ 48) ∧ t.regs = s.regs ∧
        t.staged = if bitAt v.toNat 0 then s.staged.filter (fun e => e.1 / 0x1000 != p.base / 0x1000) else s.staged))

/-- Completes: PERST_N_ASSERT, DEV_RST_N_ASSERT, PWRGD_CORE_FALL, RESET_RELEASE, KEY_GENERATION_DONE, IMAGE_BEGIN, IMAGE_CHUNK, IMAGE_END, SET_JOBKEY,
IMAGE_VERIFY_DONE, FIRMWARE_START_TIMEOUT, BRING_UP_START, BRING_UP_COMPLETE. A reset input that falls leaves the device at reset, held. Released, it locks the debug port and waits for its image, or
stops at stage 0xF with class 12 where its fuses do not check; the image comes through the mailbox, is verified, and brings the
device up: memory zeroed, stage 5, READY once the key is there. A command out of its order answers 0x10, a malformed one 0x7F; one that finds the mailbox busy is ignored and counted. How
long, up to 10 us, a command keeps it busy is free (the model's choice, log 73). -/
def Obligations.BootRuns : Prop :=
  ∀ s : State,
    (let held (p d g : Bool) : State := { State.reset with
       boot := { perst := p, devRst := d, pwrgd := g }, free := s.free, out := s.out, pending := s.pending }
     exec .perstNAssert s = .next (held false s.boot.devRst s.boot.pwrgd) ∧
     exec .devRstNAssert s = .next (held s.boot.perst false s.boot.pwrgd) ∧
     exec .pwrgdCoreFall s = .next (held s.boot.perst s.boot.devRst false)) ∧
    (s.boot.held = false → ∀ f, exec (.resetRelease f) s = .next s) ∧
    (s.boot.held = true →
      (∃ t, exec (.resetRelease true) s = .next t ∧ Unchanged s t [.boot, .regs] ∧
        t.boot = { perst := true, devRst := true, pwrgd := true, held := false, stage := 1 } ∧
        t.debugLocked = true ∧ bitAt (t.preg .security 0x100) 2 = true) ∧
      (∃ t, exec (.resetRelease false) s = .next t ∧ Reports s t 12 [.boot, .regs] ∧
        t.boot = { perst := true, devRst := true, pwrgd := true, held := false, stage := 0xF, error := 9, fuseFault := true } ∧
        t.debugLocked = true)) ∧
    (s.svcLive = true →
      (s.boot.keyReady = false → s.boot.fuseFault = false → ∃ t, exec .keyGenerationDone s = .next t ∧ Unchanged s t [.boot, .events] ∧
        t.boot = { s.boot with keyReady := true } ∧ t.dsw.ready = (s.boot.stage == 5)) ∧
      ((s.boot.keyReady = true ∨ s.boot.fuseFault = true) → ∃ t, exec .keyGenerationDone s = .next t ∧ Unchanged s t []) ∧
      (∀ (len : BitVec 12) (mail : List Byte) (i : Instr), i = .imageBegin len mail ∨ i = .imageChunk len mail ∨ i = .imageEnd len ∨ i = .setJobkey len mail →
        (s.boot.svcHeld = true → ∃ t, exec i s = .next t ∧ Unchanged s t [.regs]) ∧
        (s.boot.svcHeld = false → s.time < s.boot.busyTill → ∃ t, exec i s = .next t ∧ Unchanged s t [.regs, .ctrs] ∧
          t.ctr .stavuf 0x40 = (s.ctr .stavuf 0x40 + 1) % 2 ^ 48)) ∧
      (s.boot.svcHeld = false → s.boot.busyTill ≤ s.time → ∀ (len : BitVec 12) (mail : List Byte),
        let does (i : Instr) (b : Boot) : Prop := ∃ t, exec i s = .next t ∧ Unchanged s t [.boot, .regs, .free] ∧
          t.boot = { b with busyTill := t.boot.busyTill } ∧ s.time ≤ t.boot.busyTill ∧ t.boot.busyTill ≤ s.time + 1000
        let early (b : Boot) : Prop := b = { s.boot with result := 0x10 }
        let bad : Boot := { s.boot with result := 0x7F, stage := 0xF, error := 7, pushing := false, pushed := [] }
        ((s.boot.stage = 1 ∨ s.boot.stage = 0xF) → len = 8 → 8 ≤ mail.length → does (.imageBegin len mail) { s.boot with
          result := 0, stage := 1, error := 0, pushLen := leNat (mail.take 4), certLen := leNat ((mail.drop 4).take 4)
          pushed := [], pushing := true, bundle := [] }) ∧
        ((s.boot.stage = 1 ∨ s.boot.stage = 0xF) → len ≠ 8 → does (.imageBegin len mail) bad) ∧
        (s.boot.stage ≠ 1 → s.boot.stage ≠ 0xF → ∃ b, early b ∧ does (.imageBegin len mail) b) ∧
        (s.boot.stage = 1 → s.boot.pushing = true → mail.length = len.toNat → 0 < len.toNat → len.toNat ≤ 2048 →
          s.boot.pushed.length + len.toNat ≤ s.boot.pushLen → (len = 2048 ∨ s.boot.pushed.length + len.toNat = s.boot.pushLen) →
          does (.imageChunk len mail) { s.boot with result := 0, pushed := s.boot.pushed ++ mail }) ∧
        (s.boot.stage = 1 → s.boot.pushing = true →
          (len = 0 ∨ 2048 < len.toNat ∨ s.boot.pushLen < s.boot.pushed.length + len.toNat ∨
            (len.toNat < 2048 ∧ s.boot.pushed.length + len.toNat ≠ s.boot.pushLen)) → does (.imageChunk len mail) bad) ∧
        (s.boot.stage = 1 → s.boot.pushing = true → (len ≠ 0 ∨ s.boot.pushed.length ≠ s.boot.pushLen) → does (.imageEnd len) bad) ∧
        (s.boot.stage = 1 → s.boot.pushing = true → len = 0 → s.boot.pushed.length = s.boot.pushLen →
          let certs := s.boot.pushed.drop (s.boot.pushLen - s.boot.certLen)
          does (.imageEnd len) { s.boot with
            result := 0, stage := 2, pushing := false, bundle := if Config.leafKey certs = identityKey then certs else [] }) ∧
        ((s.boot.stage ≠ 1 ∨ s.boot.pushing = false) → ∃ b, early b ∧ does (.imageChunk len mail) b ∧ does (.imageEnd len) b) ∧
        (1 ≤ s.boot.stage → s.boot.stage ≤ 4 → s.boot.jobKeySet = false → len = 32 → mail.length = 32 →
          does (.setJobkey len mail) { s.boot with result := 0, jobKeySet := true } ∧
            ∃ t, exec (.setJobkey len mail) s = .next t ∧ t.jobKeyDigest = mail) ∧
        (1 ≤ s.boot.stage → s.boot.stage ≤ 4 → s.boot.jobKeySet = false → len ≠ 32 → does (.setJobkey len mail) bad) ∧
        ((s.boot.jobKeySet = true ∨ s.boot.stage = 0 ∨ 4 < s.boot.stage) → ∃ b, early b ∧ does (.setJobkey len mail) b)) ∧
      (s.boot.stage ≠ 2 → ∃ t, exec .imageVerifyDone s = .next t ∧ Unchanged s t []) ∧
      (s.boot.stage = 2 →
        let n := s.boot.pushLen - s.boot.certLen
        let img := s.boot.pushed.take n
        let e := imageError img (if s.boot.certLen ≤ s.boot.pushLen then n else 0)
        ∃ t, exec .imageVerifyDone s = .next t ∧ Unchanged s t [.boot, .regs] ∧
          (e = 0 → t.boot = { s.boot with stage := 3, pushed := [], kickAt := s.time } ∧ bitAt (t.preg .security 0x100) 0 = true ∧
            t.preg .identity 0x124 = byteFld img 0xC 4) ∧
          (e ≠ 0 → t.regs = s.regs ∧ t.boot = { s.boot with stage := 0xF, error := e, pushing := false, pushed := [] })) ∧
      (s.boot.stage = 3 → ∃ t, exec .firmwareStartTimeout s = .next t ∧ Unchanged s t [.boot] ∧
        t.boot = { s.boot with stage := 0xF, error := 0xA, pushing := false, pushed := [] }) ∧
      (s.boot.stage ≠ 3 → ∃ t, exec .firmwareStartTimeout s = .next t ∧ Unchanged s t []) ∧
      (s.boot.stage = 3 → s.boot.svcHeld = false → ∃ t, exec .bringUpStart s = .next t ∧ Unchanged s t [.boot, .regs, .pwr, .out] ∧
        t.boot = { s.boot with stage := 4 } ∧ t.preg .power 0x104 = (Config.vcoreFused.toNat + 10) % 1024) ∧
      ((s.boot.stage ≠ 3 ∨ s.boot.svcHeld = true) → ∃ t, exec .bringUpStart s = .next t ∧ Unchanged s t [])) ∧
    (s.live = true →
      ((s.boot.stage ≠ 4 ∨ s.boot.svcHeld = true) → ∀ f u, ∃ t, exec (.bringUpComplete f u) s = .next t ∧ Unchanged s t []) ∧
      (s.boot.stage = 4 → s.boot.svcHeld = false →
        (∃ t, exec (.bringUpComplete [] []) s = .next t ∧ Unchanged s t [.mem, .boot, .events] ∧ (∀ a, memGet t.mem a = 0) ∧
          t.ecc = [] ∧ t.boot = { s.boot with stage := 5 } ∧ t.dsw.ready = s.boot.keyReady) ∧
        (∀ q : CoreId, s.runSlot = none → ∃ t, exec (.bringUpComplete [.quarry q] []) s = .next t ∧
          Reports s t 11 [.mem, .boot, .events, .quarries, .free, .regs] ∧ (t.quarry q).life.st = .faulted ∧ t.boot.stage = 5)))

/-- Completes: SEC_POLICY_WRITE, PRIVATE_DEBUG_INSTRUCTION, SIDEBAND_PAGE_SELECT, SIDEBAND_READ, DOE_DISCOVERY, GET_ID, GET_CERTS, ATTEST. The first write
of SEC_POLICY takes effect and locks it; a later one, and a private debug instruction while the port is
locked, are class 12. The sideband reads three pages once the firmware serves it. The identity service answers over DOE, and
with status 0x10 before its key is ready or while Stavuf is held. -/
def Obligations.IdentityAnswers : Prop :=
  ∀ s : State, s.svcLive = true →
    let answers (i : Instr) (bs : List Byte) : Prop := ∃ t, exec i s = .next t ∧ Unchanged s t [.out] ∧ .answer bs ∈ t.out
    (∀ v : W32,
      (bitAt (s.preg .security 0x100) 3 = false → ∃ t, exec (.secPolicyWrite v) s = .next t ∧ Unchanged s t [.regs, .ctrs] ∧
        t.preg .security 0x104 = v.toNat % 4 ∧ CtrsBut s t (ctrsAt .security [0xF8]) ∧
        t.ctr .security 0xF8 = (if v.toNat < 4 then s.ctr .security 0xF8 else (s.ctr .security 0xF8 + 1) % 2 ^ 48) ∧ bitAt (t.preg .security 0x100) 3 = true ∧
        RegsBut s t [Page.security.base + 0x100, Page.security.base + 0x104]) ∧
      (bitAt (s.preg .security 0x100) 3 = true → ∃ t, exec (.secPolicyWrite v) s = .next t ∧ Reports s t 12 [])) ∧
    (∀ ir, (s.debugLocked = true → ∃ t, exec (.privateDebugInstruction ir) s = .next t ∧ Reports s t 12 []) ∧
      (s.debugLocked = false → exec (.privateDebugInstruction ir) s = .refused .privateDebugEffect)) ∧
    (∀ (page : Byte) (off : BitVec 16),
      ((s.sideband = false ∨ 3 ≤ page.toNat) → ∃ t, exec (.sidebandPageSelect page off) s = .next t ∧ Unchanged s t []) ∧
      (s.sideband = true → page.toNat < 3 → ∃ t, exec (.sidebandPageSelect page off) s = .next t ∧ Unchanged s t [.boot] ∧
        t.boot = { s.boot with sbPage := page.toNat, sbOff := off.toNat })) ∧
    (s.sideband = false → ∃ t, exec .sidebandRead s = .next t ∧ Unchanged s t []) ∧
    (∀ p, s.sideband = true → sbPages[s.boot.sbPage]? = some p → s.boot.sbOff < 0x1000 → s.boot.sbOff % 4 = 0 →
      ∃ t, exec .sidebandRead s = .next t ∧ Unchanged s t [.boot, .out] ∧
        .answer (natLe 4 (s.readReg (p.base + s.boot.sbOff))) ∈ t.out ∧ t.boot = { s.boot with sbOff := s.boot.sbOff + 4 }) ∧
    (∀ p, s.sideband = true → sbPages[s.boot.sbPage]? = some p → (0x1000 ≤ s.boot.sbOff ∨ s.boot.sbOff % 4 ≠ 0) →
      ∃ t bs, exec .sidebandRead s = .next t ∧ Unchanged s t [.boot, .out, .free] ∧ .answer bs ∈ t.out ∧ bs.length = 4 ∧
        t.boot = { s.boot with sbOff := (s.boot.sbOff + 4) % 65536 }) ∧
    (answers (.doeDiscovery 0) [0x01, 0x00, 0x00, 0x01] ∧
      answers (.doeDiscovery 1) (natLe 2 Config.yarferVendorId.toNat ++ [0x01, 0x00])) ∧
    ((s.boot.keyReady = false ∨ s.boot.svcHeld = true) →
      answers .getId [0x01, 0x10, 0x00, 0x00] ∧ (∀ off len, answers (.getCerts off len) [0x02, 0x10, 0x00, 0x00]) ∧
      ∀ nonce mask, answers (.attest nonce mask) [0x03, 0x10, 0x00, 0x00]) ∧
    (s.boot.keyReady = true → s.boot.svcHeld = false →
      answers .getId ([0x01, 0x00, 0x00, 0x00] ++ natLe 4 (s.identReg 0x100) ++ natLe 8 Config.serial.toNat ++ identityKey) ∧
      (∀ off len : W32, (len.toNat ≤ 4096 → answers (.getCerts off len)
          ([0x02, 0x00, 0x00, 0x00] ++ natLe 4 s.boot.bundle.length ++ (s.boot.bundle.drop off.toNat).take len.toNat)) ∧
        (4096 < len.toNat → answers (.getCerts off len) [0x02, 0x7F, 0x00, 0x00])) ∧
      (∀ (nonce : List Byte) (mask : Byte),
        let head : List Byte := [0x03, 0x00, 0x00, 0x00]
        let body := nonce ++ natLe 1 mask.toNat ++ natLe 4 (s.identReg 0x124) ++ natLe 4 (s.preg .security 0x100) ++
          natLe 4 s.dswWord ++ natLe 8 s.time ++ ((List.range 6).filter (bitAt mask.toNat)).flatMap s.meas
        (nonce.length = 32 → mask.toNat < 64 →
          answers (.attest nonce mask) (head ++ body ++ identitySign (attestTag ++ head ++ body))) ∧
        ((nonce.length ≠ 32 ∨ 64 ≤ mask.toNat) → answers (.attest nonce mask) [0x03, 0x7F, 0x00, 0x00])))
end

