-- ==== Sys2Proof/Laws/Bits.lean ====
section
/-! SUPPORT. Bit fields: what a written field reads, and which fields a write leaves alone. -/

namespace Sys2Proof.Machine

/-- A field by division. -/
theorem fld_eq (v hi lo : Nat) : fld v hi lo = v / 2 ^ lo % 2 ^ (hi - lo + 1) := by simp [fld, Nat.shiftRight_eq_div_pow]

/-- A bit is a field of one bit. -/
theorem bitAt_eq_fld (v n : Nat) : bitAt v n = (fld v n n == 1) := by simp [bitAt, fld]

/-- A number by the bits above a field, the field, and those below. -/
theorem nat_split (v lo w : Nat) : v = v / 2 ^ (lo + w) * 2 ^ (lo + w) + v / 2 ^ lo % 2 ^ w * 2 ^ lo + v % 2 ^ lo := by
  have h1 := Nat.div_add_mod v (2 ^ lo)
  have h2 := Nat.div_add_mod (v / 2 ^ lo) (2 ^ w)
  rw [Nat.div_div_eq_div_mul, ← Nat.pow_add] at h2
  calc v = 2 ^ lo * (v / 2 ^ lo) + v % 2 ^ lo := h1.symm
    _ = 2 ^ lo * (2 ^ w * (v / 2 ^ (lo + w)) + v / 2 ^ lo % 2 ^ w) + v % 2 ^ lo := by rw [h2]
    _ = _ := by rw [Nat.pow_add]; ring

/-- A field written, by the bits above it, the new value, and those below. -/
theorem putFld_eq (v hi lo x : Nat) :
    putFld v hi lo x = v / 2 ^ (lo + (hi - lo + 1)) * 2 ^ (lo + (hi - lo + 1)) + x % 2 ^ (hi - lo + 1) * 2 ^ lo + v % 2 ^ lo := by
  have h := nat_split v lo (hi - lo + 1)
  unfold putFld
  rw [fld_eq]
  generalize v / 2 ^ (lo + (hi - lo + 1)) * 2 ^ (lo + (hi - lo + 1)) = A at *
  generalize v / 2 ^ lo % 2 ^ (hi - lo + 1) * 2 ^ lo = B at *
  generalize v % 2 ^ lo = C at *
  omega

/-- A field written is read. -/
theorem fld_putFld_same (v hi lo x : Nat) : fld (putFld v hi lo x) hi lo = x % 2 ^ (hi - lo + 1) := by
  rw [fld_eq, putFld_eq]
  generalize hw : hi - lo + 1 = w
  have : v / 2 ^ (lo + w) * 2 ^ (lo + w) + x % 2 ^ w * 2 ^ lo + v % 2 ^ lo =
      2 ^ lo * (2 ^ w * (v / 2 ^ (lo + w)) + x % 2 ^ w) + v % 2 ^ lo := by rw [Nat.pow_add]; ring
  rw [this, Nat.mul_add_div (by positivity), Nat.div_eq_of_lt (Nat.mod_lt _ (by positivity)), Nat.add_zero, Nat.mul_add_mod]
  exact Nat.mod_mod _ _

/-- A field below a written one stands. -/
theorem fld_putFld_below (v x : Nat) {hi lo hi' lo' : Nat} (h : hi' < lo) (hl : lo' ≤ hi') :
    fld (putFld v hi lo x) hi' lo' = fld v hi' lo' := by
  have key : ∀ u, fld u hi' lo' = fld (u % 2 ^ lo) hi' lo' := by
    intro u
    rw [fld_eq, fld_eq]
    obtain ⟨k, rfl⟩ : ∃ k, lo = lo' + (hi' - lo' + 1) + k := ⟨lo - (hi' + 1), by omega⟩
    generalize hi' - lo' + 1 = w
    have : 2 ^ (lo' + w + k) = 2 ^ lo' * 2 ^ (w + k) := by rw [← Nat.pow_add]; congr 1; omega
    rw [this, Nat.mod_mul_right_div_self, Nat.mod_mod_of_dvd]
    exact Nat.pow_dvd_pow 2 (by omega)
  rw [key, key v, putFld_eq]
  congr 1
  generalize hi - lo + 1 = w
  have : v / 2 ^ (lo + w) * 2 ^ (lo + w) + x % 2 ^ w * 2 ^ lo + v % 2 ^ lo =
      2 ^ lo * (2 ^ w * (v / 2 ^ (lo + w)) + x % 2 ^ w) + v % 2 ^ lo := by rw [Nat.pow_add]; ring
  rw [this, Nat.mul_add_mod]
  exact Nat.mod_mod _ _

/-- A field above a written one stands. -/
theorem fld_putFld_above (v x : Nat) {hi lo hi' lo' : Nat} (h : hi < lo') (hl : lo ≤ hi) :
    fld (putFld v hi lo x) hi' lo' = fld v hi' lo' := by
  rw [fld_eq, fld_eq]
  congr 1
  rw [putFld_eq]
  obtain ⟨k, rfl⟩ : ∃ k, lo' = lo + (hi - lo + 1) + k := ⟨lo' - (hi + 1), by omega⟩
  generalize hi - lo + 1 = w
  have hlt : x % 2 ^ w * 2 ^ lo + v % 2 ^ lo < 2 ^ (lo + w) := by
    have h1 : x % 2 ^ w < 2 ^ w := Nat.mod_lt _ (by positivity)
    have h2 : v % 2 ^ lo < 2 ^ lo := Nat.mod_lt _ (by positivity)
    calc x % 2 ^ w * 2 ^ lo + v % 2 ^ lo < x % 2 ^ w * 2 ^ lo + 2 ^ lo := by omega
      _ = (x % 2 ^ w + 1) * 2 ^ lo := by ring
      _ ≤ 2 ^ w * 2 ^ lo := Nat.mul_le_mul_right _ h1
      _ = 2 ^ (lo + w) := by rw [Nat.pow_add]; ring
  rw [Nat.pow_add _ (lo + w) k, ← Nat.div_div_eq_div_mul, ← Nat.div_div_eq_div_mul, Nat.add_assoc, Nat.mul_comm,
    Nat.mul_add_div (by positivity), Nat.div_eq_of_lt hlt, Nat.add_zero]

end Sys2Proof.Machine
end

