-- ==== Sys2Proof/Laws/Tables.lean ====
section
/-! SUPPORT. Laws of the sparse tables and of byte numbers. -/

namespace Sys2Proof.Machine

/-- What was written is read. -/
@[simp] theorem tget_tset_same {α : Type} (d : α) (t : Tab α) (k : Nat) (v : α) : tget d (tset t k v) k = v := by
  induction t with
  | nil => simp [tset, tget]
  | cons e t ih =>
    obtain ⟨a, w⟩ := e
    simp only [tset]
    split
    · next h => subst h; simp [tget]
    · split
      · simp [tget]
      · simp [tget, *]

/-- A write leaves every other entry alone. -/
theorem tget_tset_ne {α : Type} (d : α) (t : Tab α) {k x : Nat} (v : α) (h : x ≠ k) :
    tget d (tset t k v) x = tget d t x := by
  induction t with
  | nil => simp [tset, tget, h]
  | cons e t ih =>
    obtain ⟨a, w⟩ := e
    simp only [tset]
    split
    · next hk => subst hk; simp [tget, h]
    · split
      · simp [tget, h]
      · simp [tget, ih]

/-- What was written is found. -/
@[simp] theorem tfind_tset_same {α : Type} (t : Tab α) (k : Nat) (v : α) : tfind (tset t k v) k = some v := by
  induction t with
  | nil => simp [tset, tfind]
  | cons e t ih =>
    obtain ⟨a, w⟩ := e
    simp only [tset]
    split
    · next h => subst h; simp [tfind]
    · next h =>
      split
      · simp [tfind]
      · have : (a == k) = false := by simpa using fun e => h e.symm
        simpa [tfind, List.find?_cons, this] using ih

/-- A write leaves what is found elsewhere alone. -/
theorem tfind_tset_ne {α : Type} (t : Tab α) {k x : Nat} (v : α) (h : x ≠ k) : tfind (tset t k v) x = tfind t x := by
  have hk : (k == x) = false := by simpa using fun e => h e.symm
  induction t with
  | nil => simp [tset, tfind, hk]
  | cons e t ih =>
    obtain ⟨a, w⟩ := e
    simp only [tset]
    split
    · next e => subst e; simp [tfind, hk]
    · split
      · simp [tfind, List.find?_cons, hk]
      · simp only [tfind, List.find?_cons] at ih ⊢
        split <;> simp_all

/-- The later of two writes stands. -/
@[simp] theorem tset_tset {α : Type} (t : Tab α) (k : Nat) (v w : α) : tset (tset t k v) k w = tset t k w := by
  induction t with
  | nil => simp [tset]
  | cons e t ih =>
    obtain ⟨a, u⟩ := e
    simp only [tset]
    split
    · next h => subst h; simp [tset]
    · split
      · simp [tset]
      · next h1 h2 => simp [tset, h1, h2, ih]

end Sys2Proof.Machine
end

