-- ==== Sys2Proof/Laws/State.lean ====
section
/-! SUPPORT. What each named update of the state leaves alone, field by field, and what it writes. -/

namespace Sys2Proof.Machine

variable (s : State)

/-! ### put -/

@[simp] theorem State.put_regs (a : Nat) (bs : List Byte) : (s.put a bs).regs = s.regs := rfl
@[simp] theorem State.put_staged (a : Nat) (bs : List Byte) : (s.put a bs).staged = s.staged := rfl
@[simp] theorem State.put_ctrs (a : Nat) (bs : List Byte) : (s.put a bs).ctrs = s.ctrs := rfl
@[simp] theorem State.put_latch (a : Nat) (bs : List Byte) : (s.put a bs).latch = s.latch := rfl
@[simp] theorem State.put_cores (a : Nat) (bs : List Byte) : (s.put a bs).cores = s.cores := rfl
@[simp] theorem State.put_quarries (a : Nat) (bs : List Byte) : (s.put a bs).quarries = s.quarries := rfl
@[simp] theorem State.put_ports (a : Nat) (bs : List Byte) : (s.put a bs).ports = s.ports := rfl
@[simp] theorem State.put_lintels (a : Nat) (bs : List Byte) : (s.put a bs).lintels = s.lintels := rfl
@[simp] theorem State.put_red (a : Nat) (bs : List Byte) : (s.put a bs).red = s.red := rfl
@[simp] theorem State.put_att (a : Nat) (bs : List Byte) : (s.put a bs).att = s.att := rfl
@[simp] theorem State.put_routes (a : Nat) (bs : List Byte) : (s.put a bs).routes = s.routes := rfl
@[simp] theorem State.put_hif (a : Nat) (bs : List Byte) : (s.put a bs).hif = s.hif := rfl
@[simp] theorem State.put_jobs (a : Nat) (bs : List Byte) : (s.put a bs).jobs = s.jobs := rfl
@[simp] theorem State.put_sw (a : Nat) (bs : List Byte) : (s.put a bs).sw = s.sw := rfl
@[simp] theorem State.put_jobCmds (a : Nat) (bs : List Byte) : (s.put a bs).jobCmds = s.jobCmds := rfl
@[simp] theorem State.put_runSlot (a : Nat) (bs : List Byte) : (s.put a bs).runSlot = s.runSlot := rfl
@[simp] theorem State.put_lastSlot (a : Nat) (bs : List Byte) : (s.put a bs).lastSlot = s.lastSlot := rfl
@[simp] theorem State.put_flt (a : Nat) (bs : List Byte) : (s.put a bs).flt = s.flt := rfl
@[simp] theorem State.put_loss (a : Nat) (bs : List Byte) : (s.put a bs).loss = s.loss := rfl
@[simp] theorem State.put_pwr (a : Nat) (bs : List Byte) : (s.put a bs).pwr = s.pwr := rfl
@[simp] theorem State.put_boot (a : Nat) (bs : List Byte) : (s.put a bs).boot = s.boot := rfl
@[simp] theorem State.put_commit (a : Nat) (bs : List Byte) : (s.put a bs).commit = s.commit := rfl
@[simp] theorem State.put_dsw (a : Nat) (bs : List Byte) : (s.put a bs).dsw = s.dsw := rfl
@[simp] theorem State.put_flight (a : Nat) (bs : List Byte) : (s.put a bs).flight = s.flight := rfl
@[simp] theorem State.put_free (a : Nat) (bs : List Byte) : (s.put a bs).free = s.free := rfl
@[simp] theorem State.put_recs (a : Nat) (bs : List Byte) : (s.put a bs).recs = s.recs := rfl
@[simp] theorem State.put_time (a : Nat) (bs : List Byte) : (s.put a bs).time = s.time := rfl
@[simp] theorem State.put_out (a : Nat) (bs : List Byte) : (s.put a bs).out = s.out := rfl
@[simp] theorem State.put_pending (a : Nat) (bs : List Byte) : (s.put a bs).pending = s.pending := rfl

/-! ### setReg -/

@[simp] theorem State.setReg_mem (off v : Nat) : (s.setReg off v).mem = s.mem := rfl
@[simp] theorem State.setReg_ecc (off v : Nat) : (s.setReg off v).ecc = s.ecc := rfl
@[simp] theorem State.setReg_staged (off v : Nat) : (s.setReg off v).staged = s.staged := rfl
@[simp] theorem State.setReg_ctrs (off v : Nat) : (s.setReg off v).ctrs = s.ctrs := rfl
@[simp] theorem State.setReg_latch (off v : Nat) : (s.setReg off v).latch = s.latch := rfl
@[simp] theorem State.setReg_cores (off v : Nat) : (s.setReg off v).cores = s.cores := rfl
@[simp] theorem State.setReg_quarries (off v : Nat) : (s.setReg off v).quarries = s.quarries := rfl
@[simp] theorem State.setReg_ports (off v : Nat) : (s.setReg off v).ports = s.ports := rfl
@[simp] theorem State.setReg_lintels (off v : Nat) : (s.setReg off v).lintels = s.lintels := rfl
@[simp] theorem State.setReg_red (off v : Nat) : (s.setReg off v).red = s.red := rfl
@[simp] theorem State.setReg_att (off v : Nat) : (s.setReg off v).att = s.att := rfl
@[simp] theorem State.setReg_routes (off v : Nat) : (s.setReg off v).routes = s.routes := rfl
@[simp] theorem State.setReg_hif (off v : Nat) : (s.setReg off v).hif = s.hif := rfl
@[simp] theorem State.setReg_jobs (off v : Nat) : (s.setReg off v).jobs = s.jobs := rfl
@[simp] theorem State.setReg_sw (off v : Nat) : (s.setReg off v).sw = s.sw := rfl
@[simp] theorem State.setReg_jobCmds (off v : Nat) : (s.setReg off v).jobCmds = s.jobCmds := rfl
@[simp] theorem State.setReg_runSlot (off v : Nat) : (s.setReg off v).runSlot = s.runSlot := rfl
@[simp] theorem State.setReg_lastSlot (off v : Nat) : (s.setReg off v).lastSlot = s.lastSlot := rfl
@[simp] theorem State.setReg_flt (off v : Nat) : (s.setReg off v).flt = s.flt := rfl
@[simp] theorem State.setReg_loss (off v : Nat) : (s.setReg off v).loss = s.loss := rfl
@[simp] theorem State.setReg_pwr (off v : Nat) : (s.setReg off v).pwr = s.pwr := rfl
@[simp] theorem State.setReg_boot (off v : Nat) : (s.setReg off v).boot = s.boot := rfl
@[simp] theorem State.setReg_commit (off v : Nat) : (s.setReg off v).commit = s.commit := rfl
@[simp] theorem State.setReg_dsw (off v : Nat) : (s.setReg off v).dsw = s.dsw := rfl
@[simp] theorem State.setReg_flight (off v : Nat) : (s.setReg off v).flight = s.flight := rfl
@[simp] theorem State.setReg_free (off v : Nat) : (s.setReg off v).free = s.free := rfl
@[simp] theorem State.setReg_recs (off v : Nat) : (s.setReg off v).recs = s.recs := rfl
@[simp] theorem State.setReg_time (off v : Nat) : (s.setReg off v).time = s.time := rfl
@[simp] theorem State.setReg_out (off v : Nat) : (s.setReg off v).out = s.out := rfl
@[simp] theorem State.setReg_pending (off v : Nat) : (s.setReg off v).pending = s.pending := rfl

/-! ### bump -/

@[simp] theorem State.bump_mem (p : Page) (o n : Nat) : (s.bump p o n).mem = s.mem := rfl
@[simp] theorem State.bump_ecc (p : Page) (o n : Nat) : (s.bump p o n).ecc = s.ecc := rfl
@[simp] theorem State.bump_regs (p : Page) (o n : Nat) : (s.bump p o n).regs = s.regs := rfl
@[simp] theorem State.bump_staged (p : Page) (o n : Nat) : (s.bump p o n).staged = s.staged := rfl
@[simp] theorem State.bump_latch (p : Page) (o n : Nat) : (s.bump p o n).latch = s.latch := rfl
@[simp] theorem State.bump_cores (p : Page) (o n : Nat) : (s.bump p o n).cores = s.cores := rfl
@[simp] theorem State.bump_quarries (p : Page) (o n : Nat) : (s.bump p o n).quarries = s.quarries := rfl
@[simp] theorem State.bump_ports (p : Page) (o n : Nat) : (s.bump p o n).ports = s.ports := rfl
@[simp] theorem State.bump_lintels (p : Page) (o n : Nat) : (s.bump p o n).lintels = s.lintels := rfl
@[simp] theorem State.bump_red (p : Page) (o n : Nat) : (s.bump p o n).red = s.red := rfl
@[simp] theorem State.bump_att (p : Page) (o n : Nat) : (s.bump p o n).att = s.att := rfl
@[simp] theorem State.bump_routes (p : Page) (o n : Nat) : (s.bump p o n).routes = s.routes := rfl
@[simp] theorem State.bump_hif (p : Page) (o n : Nat) : (s.bump p o n).hif = s.hif := rfl
@[simp] theorem State.bump_jobs (p : Page) (o n : Nat) : (s.bump p o n).jobs = s.jobs := rfl
@[simp] theorem State.bump_sw (p : Page) (o n : Nat) : (s.bump p o n).sw = s.sw := rfl
@[simp] theorem State.bump_jobCmds (p : Page) (o n : Nat) : (s.bump p o n).jobCmds = s.jobCmds := rfl
@[simp] theorem State.bump_runSlot (p : Page) (o n : Nat) : (s.bump p o n).runSlot = s.runSlot := rfl
@[simp] theorem State.bump_lastSlot (p : Page) (o n : Nat) : (s.bump p o n).lastSlot = s.lastSlot := rfl
@[simp] theorem State.bump_flt (p : Page) (o n : Nat) : (s.bump p o n).flt = s.flt := rfl
@[simp] theorem State.bump_loss (p : Page) (o n : Nat) : (s.bump p o n).loss = s.loss := rfl
@[simp] theorem State.bump_pwr (p : Page) (o n : Nat) : (s.bump p o n).pwr = s.pwr := rfl
@[simp] theorem State.bump_boot (p : Page) (o n : Nat) : (s.bump p o n).boot = s.boot := rfl
@[simp] theorem State.bump_commit (p : Page) (o n : Nat) : (s.bump p o n).commit = s.commit := rfl
@[simp] theorem State.bump_dsw (p : Page) (o n : Nat) : (s.bump p o n).dsw = s.dsw := rfl
@[simp] theorem State.bump_flight (p : Page) (o n : Nat) : (s.bump p o n).flight = s.flight := rfl
@[simp] theorem State.bump_free (p : Page) (o n : Nat) : (s.bump p o n).free = s.free := rfl
@[simp] theorem State.bump_recs (p : Page) (o n : Nat) : (s.bump p o n).recs = s.recs := rfl
@[simp] theorem State.bump_time (p : Page) (o n : Nat) : (s.bump p o n).time = s.time := rfl
@[simp] theorem State.bump_out (p : Page) (o n : Nat) : (s.bump p o n).out = s.out := rfl
@[simp] theorem State.bump_pending (p : Page) (o n : Nat) : (s.bump p o n).pending = s.pending := rfl

/-! ### useFree -/

@[simp] theorem State.useFree_mem : (s.useFree).mem = s.mem := rfl
@[simp] theorem State.useFree_ecc : (s.useFree).ecc = s.ecc := rfl
@[simp] theorem State.useFree_regs : (s.useFree).regs = s.regs := rfl
@[simp] theorem State.useFree_staged : (s.useFree).staged = s.staged := rfl
@[simp] theorem State.useFree_ctrs : (s.useFree).ctrs = s.ctrs := rfl
@[simp] theorem State.useFree_latch : (s.useFree).latch = s.latch := rfl
@[simp] theorem State.useFree_cores : (s.useFree).cores = s.cores := rfl
@[simp] theorem State.useFree_quarries : (s.useFree).quarries = s.quarries := rfl
@[simp] theorem State.useFree_ports : (s.useFree).ports = s.ports := rfl
@[simp] theorem State.useFree_lintels : (s.useFree).lintels = s.lintels := rfl
@[simp] theorem State.useFree_red : (s.useFree).red = s.red := rfl
@[simp] theorem State.useFree_att : (s.useFree).att = s.att := rfl
@[simp] theorem State.useFree_routes : (s.useFree).routes = s.routes := rfl
@[simp] theorem State.useFree_hif : (s.useFree).hif = s.hif := rfl
@[simp] theorem State.useFree_jobs : (s.useFree).jobs = s.jobs := rfl
@[simp] theorem State.useFree_sw : (s.useFree).sw = s.sw := rfl
@[simp] theorem State.useFree_jobCmds : (s.useFree).jobCmds = s.jobCmds := rfl
@[simp] theorem State.useFree_runSlot : (s.useFree).runSlot = s.runSlot := rfl
@[simp] theorem State.useFree_lastSlot : (s.useFree).lastSlot = s.lastSlot := rfl
@[simp] theorem State.useFree_flt : (s.useFree).flt = s.flt := rfl
@[simp] theorem State.useFree_loss : (s.useFree).loss = s.loss := rfl
@[simp] theorem State.useFree_pwr : (s.useFree).pwr = s.pwr := rfl
@[simp] theorem State.useFree_boot : (s.useFree).boot = s.boot := rfl
@[simp] theorem State.useFree_commit : (s.useFree).commit = s.commit := rfl
@[simp] theorem State.useFree_dsw : (s.useFree).dsw = s.dsw := rfl
@[simp] theorem State.useFree_flight : (s.useFree).flight = s.flight := rfl
@[simp] theorem State.useFree_time : (s.useFree).time = s.time := rfl
@[simp] theorem State.useFree_out : (s.useFree).out = s.out := rfl
@[simp] theorem State.useFree_pending : (s.useFree).pending = s.pending := rfl

/-! ### setCore -/

@[simp] theorem State.setCore_mem (n : Nat) (c : Core) : (s.setCore n c).mem = s.mem := rfl
@[simp] theorem State.setCore_ecc (n : Nat) (c : Core) : (s.setCore n c).ecc = s.ecc := rfl
@[simp] theorem State.setCore_regs (n : Nat) (c : Core) : (s.setCore n c).regs = s.regs := rfl
@[simp] theorem State.setCore_staged (n : Nat) (c : Core) : (s.setCore n c).staged = s.staged := rfl
@[simp] theorem State.setCore_ctrs (n : Nat) (c : Core) : (s.setCore n c).ctrs = s.ctrs := rfl
@[simp] theorem State.setCore_latch (n : Nat) (c : Core) : (s.setCore n c).latch = s.latch := rfl
@[simp] theorem State.setCore_quarries (n : Nat) (c : Core) : (s.setCore n c).quarries = s.quarries := rfl
@[simp] theorem State.setCore_ports (n : Nat) (c : Core) : (s.setCore n c).ports = s.ports := rfl
@[simp] theorem State.setCore_lintels (n : Nat) (c : Core) : (s.setCore n c).lintels = s.lintels := rfl
@[simp] theorem State.setCore_red (n : Nat) (c : Core) : (s.setCore n c).red = s.red := rfl
@[simp] theorem State.setCore_att (n : Nat) (c : Core) : (s.setCore n c).att = s.att := rfl
@[simp] theorem State.setCore_routes (n : Nat) (c : Core) : (s.setCore n c).routes = s.routes := rfl
@[simp] theorem State.setCore_hif (n : Nat) (c : Core) : (s.setCore n c).hif = s.hif := rfl
@[simp] theorem State.setCore_jobs (n : Nat) (c : Core) : (s.setCore n c).jobs = s.jobs := rfl
@[simp] theorem State.setCore_sw (n : Nat) (c : Core) : (s.setCore n c).sw = s.sw := rfl
@[simp] theorem State.setCore_jobCmds (n : Nat) (c : Core) : (s.setCore n c).jobCmds = s.jobCmds := rfl
@[simp] theorem State.setCore_runSlot (n : Nat) (c : Core) : (s.setCore n c).runSlot = s.runSlot := rfl
@[simp] theorem State.setCore_lastSlot (n : Nat) (c : Core) : (s.setCore n c).lastSlot = s.lastSlot := rfl
@[simp] theorem State.setCore_flt (n : Nat) (c : Core) : (s.setCore n c).flt = s.flt := rfl
@[simp] theorem State.setCore_loss (n : Nat) (c : Core) : (s.setCore n c).loss = s.loss := rfl
@[simp] theorem State.setCore_pwr (n : Nat) (c : Core) : (s.setCore n c).pwr = s.pwr := rfl
@[simp] theorem State.setCore_boot (n : Nat) (c : Core) : (s.setCore n c).boot = s.boot := rfl
@[simp] theorem State.setCore_commit (n : Nat) (c : Core) : (s.setCore n c).commit = s.commit := rfl
@[simp] theorem State.setCore_dsw (n : Nat) (c : Core) : (s.setCore n c).dsw = s.dsw := rfl
@[simp] theorem State.setCore_flight (n : Nat) (c : Core) : (s.setCore n c).flight = s.flight := rfl
@[simp] theorem State.setCore_free (n : Nat) (c : Core) : (s.setCore n c).free = s.free := rfl
@[simp] theorem State.setCore_recs (n : Nat) (c : Core) : (s.setCore n c).recs = s.recs := rfl
@[simp] theorem State.setCore_time (n : Nat) (c : Core) : (s.setCore n c).time = s.time := rfl
@[simp] theorem State.setCore_out (n : Nat) (c : Core) : (s.setCore n c).out = s.out := rfl
@[simp] theorem State.setCore_pending (n : Nat) (c : Core) : (s.setCore n c).pending = s.pending := rfl

/-! ### onQuarry -/

@[simp] theorem State.onQuarry_mem (n : Nat) (f : Quarry → Quarry) : (s.onQuarry n f).mem = s.mem := rfl
@[simp] theorem State.onQuarry_ecc (n : Nat) (f : Quarry → Quarry) : (s.onQuarry n f).ecc = s.ecc := rfl
@[simp] theorem State.onQuarry_regs (n : Nat) (f : Quarry → Quarry) : (s.onQuarry n f).regs = s.regs := rfl
@[simp] theorem State.onQuarry_staged (n : Nat) (f : Quarry → Quarry) : (s.onQuarry n f).staged = s.staged := rfl
@[simp] theorem State.onQuarry_ctrs (n : Nat) (f : Quarry → Quarry) : (s.onQuarry n f).ctrs = s.ctrs := rfl
@[simp] theorem State.onQuarry_latch (n : Nat) (f : Quarry → Quarry) : (s.onQuarry n f).latch = s.latch := rfl
@[simp] theorem State.onQuarry_cores (n : Nat) (f : Quarry → Quarry) : (s.onQuarry n f).cores = s.cores := rfl
@[simp] theorem State.onQuarry_ports (n : Nat) (f : Quarry → Quarry) : (s.onQuarry n f).ports = s.ports := rfl
@[simp] theorem State.onQuarry_lintels (n : Nat) (f : Quarry → Quarry) : (s.onQuarry n f).lintels = s.lintels := rfl
@[simp] theorem State.onQuarry_red (n : Nat) (f : Quarry → Quarry) : (s.onQuarry n f).red = s.red := rfl
@[simp] theorem State.onQuarry_att (n : Nat) (f : Quarry → Quarry) : (s.onQuarry n f).att = s.att := rfl
@[simp] theorem State.onQuarry_routes (n : Nat) (f : Quarry → Quarry) : (s.onQuarry n f).routes = s.routes := rfl
@[simp] theorem State.onQuarry_hif (n : Nat) (f : Quarry → Quarry) : (s.onQuarry n f).hif = s.hif := rfl
@[simp] theorem State.onQuarry_jobs (n : Nat) (f : Quarry → Quarry) : (s.onQuarry n f).jobs = s.jobs := rfl
@[simp] theorem State.onQuarry_sw (n : Nat) (f : Quarry → Quarry) : (s.onQuarry n f).sw = s.sw := rfl
@[simp] theorem State.onQuarry_jobCmds (n : Nat) (f : Quarry → Quarry) : (s.onQuarry n f).jobCmds = s.jobCmds := rfl
@[simp] theorem State.onQuarry_runSlot (n : Nat) (f : Quarry → Quarry) : (s.onQuarry n f).runSlot = s.runSlot := rfl
@[simp] theorem State.onQuarry_lastSlot (n : Nat) (f : Quarry → Quarry) : (s.onQuarry n f).lastSlot = s.lastSlot := rfl
@[simp] theorem State.onQuarry_flt (n : Nat) (f : Quarry → Quarry) : (s.onQuarry n f).flt = s.flt := rfl
@[simp] theorem State.onQuarry_loss (n : Nat) (f : Quarry → Quarry) : (s.onQuarry n f).loss = s.loss := rfl
@[simp] theorem State.onQuarry_pwr (n : Nat) (f : Quarry → Quarry) : (s.onQuarry n f).pwr = s.pwr := rfl
@[simp] theorem State.onQuarry_boot (n : Nat) (f : Quarry → Quarry) : (s.onQuarry n f).boot = s.boot := rfl
@[simp] theorem State.onQuarry_commit (n : Nat) (f : Quarry → Quarry) : (s.onQuarry n f).commit = s.commit := rfl
@[simp] theorem State.onQuarry_dsw (n : Nat) (f : Quarry → Quarry) : (s.onQuarry n f).dsw = s.dsw := rfl
@[simp] theorem State.onQuarry_flight (n : Nat) (f : Quarry → Quarry) : (s.onQuarry n f).flight = s.flight := rfl
@[simp] theorem State.onQuarry_free (n : Nat) (f : Quarry → Quarry) : (s.onQuarry n f).free = s.free := rfl
@[simp] theorem State.onQuarry_recs (n : Nat) (f : Quarry → Quarry) : (s.onQuarry n f).recs = s.recs := rfl
@[simp] theorem State.onQuarry_time (n : Nat) (f : Quarry → Quarry) : (s.onQuarry n f).time = s.time := rfl
@[simp] theorem State.onQuarry_out (n : Nat) (f : Quarry → Quarry) : (s.onQuarry n f).out = s.out := rfl
@[simp] theorem State.onQuarry_pending (n : Nat) (f : Quarry → Quarry) : (s.onQuarry n f).pending = s.pending := rfl

/-! ### onPort -/

@[simp] theorem State.onPort_mem (p : Nat) (f : Port → Port) : (s.onPort p f).mem = s.mem := rfl
@[simp] theorem State.onPort_ecc (p : Nat) (f : Port → Port) : (s.onPort p f).ecc = s.ecc := rfl
@[simp] theorem State.onPort_regs (p : Nat) (f : Port → Port) : (s.onPort p f).regs = s.regs := rfl
@[simp] theorem State.onPort_staged (p : Nat) (f : Port → Port) : (s.onPort p f).staged = s.staged := rfl
@[simp] theorem State.onPort_ctrs (p : Nat) (f : Port → Port) : (s.onPort p f).ctrs = s.ctrs := rfl
@[simp] theorem State.onPort_latch (p : Nat) (f : Port → Port) : (s.onPort p f).latch = s.latch := rfl
@[simp] theorem State.onPort_cores (p : Nat) (f : Port → Port) : (s.onPort p f).cores = s.cores := rfl
@[simp] theorem State.onPort_quarries (p : Nat) (f : Port → Port) : (s.onPort p f).quarries = s.quarries := rfl
@[simp] theorem State.onPort_lintels (p : Nat) (f : Port → Port) : (s.onPort p f).lintels = s.lintels := rfl
@[simp] theorem State.onPort_red (p : Nat) (f : Port → Port) : (s.onPort p f).red = s.red := rfl
@[simp] theorem State.onPort_att (p : Nat) (f : Port → Port) : (s.onPort p f).att = s.att := rfl
@[simp] theorem State.onPort_routes (p : Nat) (f : Port → Port) : (s.onPort p f).routes = s.routes := rfl
@[simp] theorem State.onPort_hif (p : Nat) (f : Port → Port) : (s.onPort p f).hif = s.hif := rfl
@[simp] theorem State.onPort_jobs (p : Nat) (f : Port → Port) : (s.onPort p f).jobs = s.jobs := rfl
@[simp] theorem State.onPort_sw (p : Nat) (f : Port → Port) : (s.onPort p f).sw = s.sw := rfl
@[simp] theorem State.onPort_jobCmds (p : Nat) (f : Port → Port) : (s.onPort p f).jobCmds = s.jobCmds := rfl
@[simp] theorem State.onPort_runSlot (p : Nat) (f : Port → Port) : (s.onPort p f).runSlot = s.runSlot := rfl
@[simp] theorem State.onPort_lastSlot (p : Nat) (f : Port → Port) : (s.onPort p f).lastSlot = s.lastSlot := rfl
@[simp] theorem State.onPort_flt (p : Nat) (f : Port → Port) : (s.onPort p f).flt = s.flt := rfl
@[simp] theorem State.onPort_loss (p : Nat) (f : Port → Port) : (s.onPort p f).loss = s.loss := rfl
@[simp] theorem State.onPort_pwr (p : Nat) (f : Port → Port) : (s.onPort p f).pwr = s.pwr := rfl
@[simp] theorem State.onPort_boot (p : Nat) (f : Port → Port) : (s.onPort p f).boot = s.boot := rfl
@[simp] theorem State.onPort_commit (p : Nat) (f : Port → Port) : (s.onPort p f).commit = s.commit := rfl
@[simp] theorem State.onPort_dsw (p : Nat) (f : Port → Port) : (s.onPort p f).dsw = s.dsw := rfl
@[simp] theorem State.onPort_flight (p : Nat) (f : Port → Port) : (s.onPort p f).flight = s.flight := rfl
@[simp] theorem State.onPort_free (p : Nat) (f : Port → Port) : (s.onPort p f).free = s.free := rfl
@[simp] theorem State.onPort_recs (p : Nat) (f : Port → Port) : (s.onPort p f).recs = s.recs := rfl
@[simp] theorem State.onPort_time (p : Nat) (f : Port → Port) : (s.onPort p f).time = s.time := rfl
@[simp] theorem State.onPort_out (p : Nat) (f : Port → Port) : (s.onPort p f).out = s.out := rfl
@[simp] theorem State.onPort_pending (p : Nat) (f : Port → Port) : (s.onPort p f).pending = s.pending := rfl

/-! ### onJob -/

@[simp] theorem State.onJob_mem (j : Nat) (f : Job → Job) : (s.onJob j f).mem = s.mem := rfl
@[simp] theorem State.onJob_ecc (j : Nat) (f : Job → Job) : (s.onJob j f).ecc = s.ecc := rfl
@[simp] theorem State.onJob_regs (j : Nat) (f : Job → Job) : (s.onJob j f).regs = s.regs := rfl
@[simp] theorem State.onJob_staged (j : Nat) (f : Job → Job) : (s.onJob j f).staged = s.staged := rfl
@[simp] theorem State.onJob_ctrs (j : Nat) (f : Job → Job) : (s.onJob j f).ctrs = s.ctrs := rfl
@[simp] theorem State.onJob_latch (j : Nat) (f : Job → Job) : (s.onJob j f).latch = s.latch := rfl
@[simp] theorem State.onJob_cores (j : Nat) (f : Job → Job) : (s.onJob j f).cores = s.cores := rfl
@[simp] theorem State.onJob_quarries (j : Nat) (f : Job → Job) : (s.onJob j f).quarries = s.quarries := rfl
@[simp] theorem State.onJob_ports (j : Nat) (f : Job → Job) : (s.onJob j f).ports = s.ports := rfl
@[simp] theorem State.onJob_lintels (j : Nat) (f : Job → Job) : (s.onJob j f).lintels = s.lintels := rfl
@[simp] theorem State.onJob_red (j : Nat) (f : Job → Job) : (s.onJob j f).red = s.red := rfl
@[simp] theorem State.onJob_att (j : Nat) (f : Job → Job) : (s.onJob j f).att = s.att := rfl
@[simp] theorem State.onJob_routes (j : Nat) (f : Job → Job) : (s.onJob j f).routes = s.routes := rfl
@[simp] theorem State.onJob_hif (j : Nat) (f : Job → Job) : (s.onJob j f).hif = s.hif := rfl
@[simp] theorem State.onJob_sw (j : Nat) (f : Job → Job) : (s.onJob j f).sw = s.sw := rfl
@[simp] theorem State.onJob_jobCmds (j : Nat) (f : Job → Job) : (s.onJob j f).jobCmds = s.jobCmds := rfl
@[simp] theorem State.onJob_runSlot (j : Nat) (f : Job → Job) : (s.onJob j f).runSlot = s.runSlot := rfl
@[simp] theorem State.onJob_lastSlot (j : Nat) (f : Job → Job) : (s.onJob j f).lastSlot = s.lastSlot := rfl
@[simp] theorem State.onJob_flt (j : Nat) (f : Job → Job) : (s.onJob j f).flt = s.flt := rfl
@[simp] theorem State.onJob_loss (j : Nat) (f : Job → Job) : (s.onJob j f).loss = s.loss := rfl
@[simp] theorem State.onJob_pwr (j : Nat) (f : Job → Job) : (s.onJob j f).pwr = s.pwr := rfl
@[simp] theorem State.onJob_boot (j : Nat) (f : Job → Job) : (s.onJob j f).boot = s.boot := rfl
@[simp] theorem State.onJob_commit (j : Nat) (f : Job → Job) : (s.onJob j f).commit = s.commit := rfl
@[simp] theorem State.onJob_dsw (j : Nat) (f : Job → Job) : (s.onJob j f).dsw = s.dsw := rfl
@[simp] theorem State.onJob_flight (j : Nat) (f : Job → Job) : (s.onJob j f).flight = s.flight := rfl
@[simp] theorem State.onJob_free (j : Nat) (f : Job → Job) : (s.onJob j f).free = s.free := rfl
@[simp] theorem State.onJob_recs (j : Nat) (f : Job → Job) : (s.onJob j f).recs = s.recs := rfl
@[simp] theorem State.onJob_time (j : Nat) (f : Job → Job) : (s.onJob j f).time = s.time := rfl
@[simp] theorem State.onJob_out (j : Nat) (f : Job → Job) : (s.onJob j f).out = s.out := rfl
@[simp] theorem State.onJob_pending (j : Nat) (f : Job → Job) : (s.onJob j f).pending = s.pending := rfl

/-! ### onLint -/

@[simp] theorem State.onLint_mem (j id : Nat) (f : Lint → Lint) : (s.onLint j id f).mem = s.mem := rfl
@[simp] theorem State.onLint_ecc (j id : Nat) (f : Lint → Lint) : (s.onLint j id f).ecc = s.ecc := rfl
@[simp] theorem State.onLint_regs (j id : Nat) (f : Lint → Lint) : (s.onLint j id f).regs = s.regs := rfl
@[simp] theorem State.onLint_staged (j id : Nat) (f : Lint → Lint) : (s.onLint j id f).staged = s.staged := rfl
@[simp] theorem State.onLint_ctrs (j id : Nat) (f : Lint → Lint) : (s.onLint j id f).ctrs = s.ctrs := rfl
@[simp] theorem State.onLint_latch (j id : Nat) (f : Lint → Lint) : (s.onLint j id f).latch = s.latch := rfl
@[simp] theorem State.onLint_cores (j id : Nat) (f : Lint → Lint) : (s.onLint j id f).cores = s.cores := rfl
@[simp] theorem State.onLint_quarries (j id : Nat) (f : Lint → Lint) : (s.onLint j id f).quarries = s.quarries := rfl
@[simp] theorem State.onLint_ports (j id : Nat) (f : Lint → Lint) : (s.onLint j id f).ports = s.ports := rfl
@[simp] theorem State.onLint_red (j id : Nat) (f : Lint → Lint) : (s.onLint j id f).red = s.red := rfl
@[simp] theorem State.onLint_att (j id : Nat) (f : Lint → Lint) : (s.onLint j id f).att = s.att := rfl
@[simp] theorem State.onLint_routes (j id : Nat) (f : Lint → Lint) : (s.onLint j id f).routes = s.routes := rfl
@[simp] theorem State.onLint_hif (j id : Nat) (f : Lint → Lint) : (s.onLint j id f).hif = s.hif := rfl
@[simp] theorem State.onLint_jobs (j id : Nat) (f : Lint → Lint) : (s.onLint j id f).jobs = s.jobs := rfl
@[simp] theorem State.onLint_sw (j id : Nat) (f : Lint → Lint) : (s.onLint j id f).sw = s.sw := rfl
@[simp] theorem State.onLint_jobCmds (j id : Nat) (f : Lint → Lint) : (s.onLint j id f).jobCmds = s.jobCmds := rfl
@[simp] theorem State.onLint_runSlot (j id : Nat) (f : Lint → Lint) : (s.onLint j id f).runSlot = s.runSlot := rfl
@[simp] theorem State.onLint_lastSlot (j id : Nat) (f : Lint → Lint) : (s.onLint j id f).lastSlot = s.lastSlot := rfl
@[simp] theorem State.onLint_flt (j id : Nat) (f : Lint → Lint) : (s.onLint j id f).flt = s.flt := rfl
@[simp] theorem State.onLint_loss (j id : Nat) (f : Lint → Lint) : (s.onLint j id f).loss = s.loss := rfl
@[simp] theorem State.onLint_pwr (j id : Nat) (f : Lint → Lint) : (s.onLint j id f).pwr = s.pwr := rfl
@[simp] theorem State.onLint_boot (j id : Nat) (f : Lint → Lint) : (s.onLint j id f).boot = s.boot := rfl
@[simp] theorem State.onLint_commit (j id : Nat) (f : Lint → Lint) : (s.onLint j id f).commit = s.commit := rfl
@[simp] theorem State.onLint_dsw (j id : Nat) (f : Lint → Lint) : (s.onLint j id f).dsw = s.dsw := rfl
@[simp] theorem State.onLint_flight (j id : Nat) (f : Lint → Lint) : (s.onLint j id f).flight = s.flight := rfl
@[simp] theorem State.onLint_free (j id : Nat) (f : Lint → Lint) : (s.onLint j id f).free = s.free := rfl
@[simp] theorem State.onLint_recs (j id : Nat) (f : Lint → Lint) : (s.onLint j id f).recs = s.recs := rfl
@[simp] theorem State.onLint_time (j id : Nat) (f : Lint → Lint) : (s.onLint j id f).time = s.time := rfl
@[simp] theorem State.onLint_out (j id : Nat) (f : Lint → Lint) : (s.onLint j id f).out = s.out := rfl
@[simp] theorem State.onLint_pending (j id : Nat) (f : Lint → Lint) : (s.onLint j id f).pending = s.pending := rfl

/-! ### onTag -/

@[simp] theorem State.onTag_mem (j t : Nat) (f : Tag → Tag) : (s.onTag j t f).mem = s.mem := rfl
@[simp] theorem State.onTag_ecc (j t : Nat) (f : Tag → Tag) : (s.onTag j t f).ecc = s.ecc := rfl
@[simp] theorem State.onTag_regs (j t : Nat) (f : Tag → Tag) : (s.onTag j t f).regs = s.regs := rfl
@[simp] theorem State.onTag_staged (j t : Nat) (f : Tag → Tag) : (s.onTag j t f).staged = s.staged := rfl
@[simp] theorem State.onTag_ctrs (j t : Nat) (f : Tag → Tag) : (s.onTag j t f).ctrs = s.ctrs := rfl
@[simp] theorem State.onTag_latch (j t : Nat) (f : Tag → Tag) : (s.onTag j t f).latch = s.latch := rfl
@[simp] theorem State.onTag_cores (j t : Nat) (f : Tag → Tag) : (s.onTag j t f).cores = s.cores := rfl
@[simp] theorem State.onTag_quarries (j t : Nat) (f : Tag → Tag) : (s.onTag j t f).quarries = s.quarries := rfl
@[simp] theorem State.onTag_ports (j t : Nat) (f : Tag → Tag) : (s.onTag j t f).ports = s.ports := rfl
@[simp] theorem State.onTag_lintels (j t : Nat) (f : Tag → Tag) : (s.onTag j t f).lintels = s.lintels := rfl
@[simp] theorem State.onTag_att (j t : Nat) (f : Tag → Tag) : (s.onTag j t f).att = s.att := rfl
@[simp] theorem State.onTag_routes (j t : Nat) (f : Tag → Tag) : (s.onTag j t f).routes = s.routes := rfl
@[simp] theorem State.onTag_hif (j t : Nat) (f : Tag → Tag) : (s.onTag j t f).hif = s.hif := rfl
@[simp] theorem State.onTag_jobs (j t : Nat) (f : Tag → Tag) : (s.onTag j t f).jobs = s.jobs := rfl
@[simp] theorem State.onTag_sw (j t : Nat) (f : Tag → Tag) : (s.onTag j t f).sw = s.sw := rfl
@[simp] theorem State.onTag_jobCmds (j t : Nat) (f : Tag → Tag) : (s.onTag j t f).jobCmds = s.jobCmds := rfl
@[simp] theorem State.onTag_runSlot (j t : Nat) (f : Tag → Tag) : (s.onTag j t f).runSlot = s.runSlot := rfl
@[simp] theorem State.onTag_lastSlot (j t : Nat) (f : Tag → Tag) : (s.onTag j t f).lastSlot = s.lastSlot := rfl
@[simp] theorem State.onTag_flt (j t : Nat) (f : Tag → Tag) : (s.onTag j t f).flt = s.flt := rfl
@[simp] theorem State.onTag_loss (j t : Nat) (f : Tag → Tag) : (s.onTag j t f).loss = s.loss := rfl
@[simp] theorem State.onTag_pwr (j t : Nat) (f : Tag → Tag) : (s.onTag j t f).pwr = s.pwr := rfl
@[simp] theorem State.onTag_boot (j t : Nat) (f : Tag → Tag) : (s.onTag j t f).boot = s.boot := rfl
@[simp] theorem State.onTag_commit (j t : Nat) (f : Tag → Tag) : (s.onTag j t f).commit = s.commit := rfl
@[simp] theorem State.onTag_dsw (j t : Nat) (f : Tag → Tag) : (s.onTag j t f).dsw = s.dsw := rfl
@[simp] theorem State.onTag_flight (j t : Nat) (f : Tag → Tag) : (s.onTag j t f).flight = s.flight := rfl
@[simp] theorem State.onTag_free (j t : Nat) (f : Tag → Tag) : (s.onTag j t f).free = s.free := rfl
@[simp] theorem State.onTag_recs (j t : Nat) (f : Tag → Tag) : (s.onTag j t f).recs = s.recs := rfl
@[simp] theorem State.onTag_time (j t : Nat) (f : Tag → Tag) : (s.onTag j t f).time = s.time := rfl
@[simp] theorem State.onTag_out (j t : Nat) (f : Tag → Tag) : (s.onTag j t f).out = s.out := rfl
@[simp] theorem State.onTag_pending (j t : Nat) (f : Tag → Tag) : (s.onTag j t f).pending = s.pending := rfl

/-! ### onSeq -/

@[simp] theorem State.onSeq_mem (i : Nat) (f : Seq → Seq) : (s.onSeq i f).mem = s.mem := rfl
@[simp] theorem State.onSeq_ecc (i : Nat) (f : Seq → Seq) : (s.onSeq i f).ecc = s.ecc := rfl
@[simp] theorem State.onSeq_regs (i : Nat) (f : Seq → Seq) : (s.onSeq i f).regs = s.regs := rfl
@[simp] theorem State.onSeq_staged (i : Nat) (f : Seq → Seq) : (s.onSeq i f).staged = s.staged := rfl
@[simp] theorem State.onSeq_ctrs (i : Nat) (f : Seq → Seq) : (s.onSeq i f).ctrs = s.ctrs := rfl
@[simp] theorem State.onSeq_latch (i : Nat) (f : Seq → Seq) : (s.onSeq i f).latch = s.latch := rfl
@[simp] theorem State.onSeq_cores (i : Nat) (f : Seq → Seq) : (s.onSeq i f).cores = s.cores := rfl
@[simp] theorem State.onSeq_quarries (i : Nat) (f : Seq → Seq) : (s.onSeq i f).quarries = s.quarries := rfl
@[simp] theorem State.onSeq_ports (i : Nat) (f : Seq → Seq) : (s.onSeq i f).ports = s.ports := rfl
@[simp] theorem State.onSeq_lintels (i : Nat) (f : Seq → Seq) : (s.onSeq i f).lintels = s.lintels := rfl
@[simp] theorem State.onSeq_red (i : Nat) (f : Seq → Seq) : (s.onSeq i f).red = s.red := rfl
@[simp] theorem State.onSeq_routes (i : Nat) (f : Seq → Seq) : (s.onSeq i f).routes = s.routes := rfl
@[simp] theorem State.onSeq_hif (i : Nat) (f : Seq → Seq) : (s.onSeq i f).hif = s.hif := rfl
@[simp] theorem State.onSeq_jobs (i : Nat) (f : Seq → Seq) : (s.onSeq i f).jobs = s.jobs := rfl
@[simp] theorem State.onSeq_sw (i : Nat) (f : Seq → Seq) : (s.onSeq i f).sw = s.sw := rfl
@[simp] theorem State.onSeq_jobCmds (i : Nat) (f : Seq → Seq) : (s.onSeq i f).jobCmds = s.jobCmds := rfl
@[simp] theorem State.onSeq_runSlot (i : Nat) (f : Seq → Seq) : (s.onSeq i f).runSlot = s.runSlot := rfl
@[simp] theorem State.onSeq_lastSlot (i : Nat) (f : Seq → Seq) : (s.onSeq i f).lastSlot = s.lastSlot := rfl
@[simp] theorem State.onSeq_flt (i : Nat) (f : Seq → Seq) : (s.onSeq i f).flt = s.flt := rfl
@[simp] theorem State.onSeq_loss (i : Nat) (f : Seq → Seq) : (s.onSeq i f).loss = s.loss := rfl
@[simp] theorem State.onSeq_pwr (i : Nat) (f : Seq → Seq) : (s.onSeq i f).pwr = s.pwr := rfl
@[simp] theorem State.onSeq_boot (i : Nat) (f : Seq → Seq) : (s.onSeq i f).boot = s.boot := rfl
@[simp] theorem State.onSeq_commit (i : Nat) (f : Seq → Seq) : (s.onSeq i f).commit = s.commit := rfl
@[simp] theorem State.onSeq_dsw (i : Nat) (f : Seq → Seq) : (s.onSeq i f).dsw = s.dsw := rfl
@[simp] theorem State.onSeq_flight (i : Nat) (f : Seq → Seq) : (s.onSeq i f).flight = s.flight := rfl
@[simp] theorem State.onSeq_free (i : Nat) (f : Seq → Seq) : (s.onSeq i f).free = s.free := rfl
@[simp] theorem State.onSeq_recs (i : Nat) (f : Seq → Seq) : (s.onSeq i f).recs = s.recs := rfl
@[simp] theorem State.onSeq_time (i : Nat) (f : Seq → Seq) : (s.onSeq i f).time = s.time := rfl
@[simp] theorem State.onSeq_out (i : Nat) (f : Seq → Seq) : (s.onSeq i f).out = s.out := rfl
@[simp] theorem State.onSeq_pending (i : Nat) (f : Seq → Seq) : (s.onSeq i f).pending = s.pending := rfl

/-! ### onHq -/

@[simp] theorem State.onHq_mem (h : Nat) (f : Hq → Hq) : (s.onHq h f).mem = s.mem := rfl
@[simp] theorem State.onHq_ecc (h : Nat) (f : Hq → Hq) : (s.onHq h f).ecc = s.ecc := rfl
@[simp] theorem State.onHq_regs (h : Nat) (f : Hq → Hq) : (s.onHq h f).regs = s.regs := rfl
@[simp] theorem State.onHq_staged (h : Nat) (f : Hq → Hq) : (s.onHq h f).staged = s.staged := rfl
@[simp] theorem State.onHq_ctrs (h : Nat) (f : Hq → Hq) : (s.onHq h f).ctrs = s.ctrs := rfl
@[simp] theorem State.onHq_latch (h : Nat) (f : Hq → Hq) : (s.onHq h f).latch = s.latch := rfl
@[simp] theorem State.onHq_cores (h : Nat) (f : Hq → Hq) : (s.onHq h f).cores = s.cores := rfl
@[simp] theorem State.onHq_quarries (h : Nat) (f : Hq → Hq) : (s.onHq h f).quarries = s.quarries := rfl
@[simp] theorem State.onHq_ports (h : Nat) (f : Hq → Hq) : (s.onHq h f).ports = s.ports := rfl
@[simp] theorem State.onHq_lintels (h : Nat) (f : Hq → Hq) : (s.onHq h f).lintels = s.lintels := rfl
@[simp] theorem State.onHq_red (h : Nat) (f : Hq → Hq) : (s.onHq h f).red = s.red := rfl
@[simp] theorem State.onHq_att (h : Nat) (f : Hq → Hq) : (s.onHq h f).att = s.att := rfl
@[simp] theorem State.onHq_routes (h : Nat) (f : Hq → Hq) : (s.onHq h f).routes = s.routes := rfl
@[simp] theorem State.onHq_jobs (h : Nat) (f : Hq → Hq) : (s.onHq h f).jobs = s.jobs := rfl
@[simp] theorem State.onHq_sw (h : Nat) (f : Hq → Hq) : (s.onHq h f).sw = s.sw := rfl
@[simp] theorem State.onHq_jobCmds (h : Nat) (f : Hq → Hq) : (s.onHq h f).jobCmds = s.jobCmds := rfl
@[simp] theorem State.onHq_runSlot (h : Nat) (f : Hq → Hq) : (s.onHq h f).runSlot = s.runSlot := rfl
@[simp] theorem State.onHq_lastSlot (h : Nat) (f : Hq → Hq) : (s.onHq h f).lastSlot = s.lastSlot := rfl
@[simp] theorem State.onHq_flt (h : Nat) (f : Hq → Hq) : (s.onHq h f).flt = s.flt := rfl
@[simp] theorem State.onHq_loss (h : Nat) (f : Hq → Hq) : (s.onHq h f).loss = s.loss := rfl
@[simp] theorem State.onHq_pwr (h : Nat) (f : Hq → Hq) : (s.onHq h f).pwr = s.pwr := rfl
@[simp] theorem State.onHq_boot (h : Nat) (f : Hq → Hq) : (s.onHq h f).boot = s.boot := rfl
@[simp] theorem State.onHq_commit (h : Nat) (f : Hq → Hq) : (s.onHq h f).commit = s.commit := rfl
@[simp] theorem State.onHq_dsw (h : Nat) (f : Hq → Hq) : (s.onHq h f).dsw = s.dsw := rfl
@[simp] theorem State.onHq_flight (h : Nat) (f : Hq → Hq) : (s.onHq h f).flight = s.flight := rfl
@[simp] theorem State.onHq_free (h : Nat) (f : Hq → Hq) : (s.onHq h f).free = s.free := rfl
@[simp] theorem State.onHq_recs (h : Nat) (f : Hq → Hq) : (s.onHq h f).recs = s.recs := rfl
@[simp] theorem State.onHq_time (h : Nat) (f : Hq → Hq) : (s.onHq h f).time = s.time := rfl
@[simp] theorem State.onHq_out (h : Nat) (f : Hq → Hq) : (s.onHq h f).out = s.out := rfl
@[simp] theorem State.onHq_pending (h : Nat) (f : Hq → Hq) : (s.onHq h f).pending = s.pending := rfl

/-! ### send -/

@[simp] theorem State.send_mem (o : Out) : (s.send o).mem = s.mem := rfl
@[simp] theorem State.send_ecc (o : Out) : (s.send o).ecc = s.ecc := rfl
@[simp] theorem State.send_regs (o : Out) : (s.send o).regs = s.regs := rfl
@[simp] theorem State.send_staged (o : Out) : (s.send o).staged = s.staged := rfl
@[simp] theorem State.send_ctrs (o : Out) : (s.send o).ctrs = s.ctrs := rfl
@[simp] theorem State.send_latch (o : Out) : (s.send o).latch = s.latch := rfl
@[simp] theorem State.send_cores (o : Out) : (s.send o).cores = s.cores := rfl
@[simp] theorem State.send_quarries (o : Out) : (s.send o).quarries = s.quarries := rfl
@[simp] theorem State.send_ports (o : Out) : (s.send o).ports = s.ports := rfl
@[simp] theorem State.send_lintels (o : Out) : (s.send o).lintels = s.lintels := rfl
@[simp] theorem State.send_red (o : Out) : (s.send o).red = s.red := rfl
@[simp] theorem State.send_att (o : Out) : (s.send o).att = s.att := rfl
@[simp] theorem State.send_routes (o : Out) : (s.send o).routes = s.routes := rfl
@[simp] theorem State.send_hif (o : Out) : (s.send o).hif = s.hif := rfl
@[simp] theorem State.send_jobs (o : Out) : (s.send o).jobs = s.jobs := rfl
@[simp] theorem State.send_sw (o : Out) : (s.send o).sw = s.sw := rfl
@[simp] theorem State.send_jobCmds (o : Out) : (s.send o).jobCmds = s.jobCmds := rfl
@[simp] theorem State.send_runSlot (o : Out) : (s.send o).runSlot = s.runSlot := rfl
@[simp] theorem State.send_lastSlot (o : Out) : (s.send o).lastSlot = s.lastSlot := rfl
@[simp] theorem State.send_flt (o : Out) : (s.send o).flt = s.flt := rfl
@[simp] theorem State.send_loss (o : Out) : (s.send o).loss = s.loss := rfl
@[simp] theorem State.send_pwr (o : Out) : (s.send o).pwr = s.pwr := rfl
@[simp] theorem State.send_boot (o : Out) : (s.send o).boot = s.boot := rfl
@[simp] theorem State.send_commit (o : Out) : (s.send o).commit = s.commit := rfl
@[simp] theorem State.send_dsw (o : Out) : (s.send o).dsw = s.dsw := rfl
@[simp] theorem State.send_flight (o : Out) : (s.send o).flight = s.flight := rfl
@[simp] theorem State.send_free (o : Out) : (s.send o).free = s.free := rfl
@[simp] theorem State.send_recs (o : Out) : (s.send o).recs = s.recs := rfl
@[simp] theorem State.send_time (o : Out) : (s.send o).time = s.time := rfl
@[simp] theorem State.send_pending (o : Out) : (s.send o).pending = s.pending := rfl

/-! ### event -/

@[simp] theorem State.event_mem (b : Nat) : (s.event b).mem = s.mem := rfl
@[simp] theorem State.event_ecc (b : Nat) : (s.event b).ecc = s.ecc := rfl
@[simp] theorem State.event_regs (b : Nat) : (s.event b).regs = s.regs := rfl
@[simp] theorem State.event_staged (b : Nat) : (s.event b).staged = s.staged := rfl
@[simp] theorem State.event_ctrs (b : Nat) : (s.event b).ctrs = s.ctrs := rfl
@[simp] theorem State.event_latch (b : Nat) : (s.event b).latch = s.latch := rfl
@[simp] theorem State.event_cores (b : Nat) : (s.event b).cores = s.cores := rfl
@[simp] theorem State.event_quarries (b : Nat) : (s.event b).quarries = s.quarries := rfl
@[simp] theorem State.event_ports (b : Nat) : (s.event b).ports = s.ports := rfl
@[simp] theorem State.event_lintels (b : Nat) : (s.event b).lintels = s.lintels := rfl
@[simp] theorem State.event_red (b : Nat) : (s.event b).red = s.red := rfl
@[simp] theorem State.event_att (b : Nat) : (s.event b).att = s.att := rfl
@[simp] theorem State.event_routes (b : Nat) : (s.event b).routes = s.routes := rfl
@[simp] theorem State.event_hif (b : Nat) : (s.event b).hif = s.hif := rfl
@[simp] theorem State.event_jobs (b : Nat) : (s.event b).jobs = s.jobs := rfl
@[simp] theorem State.event_sw (b : Nat) : (s.event b).sw = s.sw := rfl
@[simp] theorem State.event_jobCmds (b : Nat) : (s.event b).jobCmds = s.jobCmds := rfl
@[simp] theorem State.event_runSlot (b : Nat) : (s.event b).runSlot = s.runSlot := rfl
@[simp] theorem State.event_lastSlot (b : Nat) : (s.event b).lastSlot = s.lastSlot := rfl
@[simp] theorem State.event_flt (b : Nat) : (s.event b).flt = s.flt := rfl
@[simp] theorem State.event_loss (b : Nat) : (s.event b).loss = s.loss := rfl
@[simp] theorem State.event_pwr (b : Nat) : (s.event b).pwr = s.pwr := rfl
@[simp] theorem State.event_boot (b : Nat) : (s.event b).boot = s.boot := rfl
@[simp] theorem State.event_commit (b : Nat) : (s.event b).commit = s.commit := rfl
@[simp] theorem State.event_flight (b : Nat) : (s.event b).flight = s.flight := rfl
@[simp] theorem State.event_free (b : Nat) : (s.event b).free = s.free := rfl
@[simp] theorem State.event_recs (b : Nat) : (s.event b).recs = s.recs := rfl
@[simp] theorem State.event_time (b : Nat) : (s.event b).time = s.time := rfl
@[simp] theorem State.event_out (b : Nat) : (s.event b).out = s.out := rfl
@[simp] theorem State.event_pending (b : Nat) : (s.event b).pending = s.pending := rfl

/-! ### setFatal -/

@[simp] theorem State.setFatal_mem : (s.setFatal).mem = s.mem := rfl
@[simp] theorem State.setFatal_ecc : (s.setFatal).ecc = s.ecc := rfl
@[simp] theorem State.setFatal_regs : (s.setFatal).regs = s.regs := rfl
@[simp] theorem State.setFatal_staged : (s.setFatal).staged = s.staged := rfl
@[simp] theorem State.setFatal_ctrs : (s.setFatal).ctrs = s.ctrs := rfl
@[simp] theorem State.setFatal_latch : (s.setFatal).latch = s.latch := rfl
@[simp] theorem State.setFatal_cores : (s.setFatal).cores = s.cores := rfl
@[simp] theorem State.setFatal_quarries : (s.setFatal).quarries = s.quarries := rfl
@[simp] theorem State.setFatal_ports : (s.setFatal).ports = s.ports := rfl
@[simp] theorem State.setFatal_lintels : (s.setFatal).lintels = s.lintels := rfl
@[simp] theorem State.setFatal_red : (s.setFatal).red = s.red := rfl
@[simp] theorem State.setFatal_att : (s.setFatal).att = s.att := rfl
@[simp] theorem State.setFatal_routes : (s.setFatal).routes = s.routes := rfl
@[simp] theorem State.setFatal_hif : (s.setFatal).hif = s.hif := rfl
@[simp] theorem State.setFatal_jobs : (s.setFatal).jobs = s.jobs := rfl
@[simp] theorem State.setFatal_sw : (s.setFatal).sw = s.sw := rfl
@[simp] theorem State.setFatal_jobCmds : (s.setFatal).jobCmds = s.jobCmds := rfl
@[simp] theorem State.setFatal_runSlot : (s.setFatal).runSlot = s.runSlot := rfl
@[simp] theorem State.setFatal_lastSlot : (s.setFatal).lastSlot = s.lastSlot := rfl
@[simp] theorem State.setFatal_flt : (s.setFatal).flt = s.flt := rfl
@[simp] theorem State.setFatal_loss : (s.setFatal).loss = s.loss := rfl
@[simp] theorem State.setFatal_pwr : (s.setFatal).pwr = s.pwr := rfl
@[simp] theorem State.setFatal_boot : (s.setFatal).boot = s.boot := rfl
@[simp] theorem State.setFatal_commit : (s.setFatal).commit = s.commit := rfl
@[simp] theorem State.setFatal_flight : (s.setFatal).flight = s.flight := rfl
@[simp] theorem State.setFatal_free : (s.setFatal).free = s.free := rfl
@[simp] theorem State.setFatal_recs : (s.setFatal).recs = s.recs := rfl
@[simp] theorem State.setFatal_time : (s.setFatal).time = s.time := rfl
@[simp] theorem State.setFatal_out : (s.setFatal).out = s.out := rfl
@[simp] theorem State.setFatal_pending : (s.setFatal).pending = s.pending := rfl

/-! ### onPwr -/

@[simp] theorem State.onPwr_mem (f : Pwr → Pwr) : (s.onPwr f).mem = s.mem := rfl
@[simp] theorem State.onPwr_ecc (f : Pwr → Pwr) : (s.onPwr f).ecc = s.ecc := rfl
@[simp] theorem State.onPwr_regs (f : Pwr → Pwr) : (s.onPwr f).regs = s.regs := rfl
@[simp] theorem State.onPwr_staged (f : Pwr → Pwr) : (s.onPwr f).staged = s.staged := rfl
@[simp] theorem State.onPwr_ctrs (f : Pwr → Pwr) : (s.onPwr f).ctrs = s.ctrs := rfl
@[simp] theorem State.onPwr_latch (f : Pwr → Pwr) : (s.onPwr f).latch = s.latch := rfl
@[simp] theorem State.onPwr_cores (f : Pwr → Pwr) : (s.onPwr f).cores = s.cores := rfl
@[simp] theorem State.onPwr_quarries (f : Pwr → Pwr) : (s.onPwr f).quarries = s.quarries := rfl
@[simp] theorem State.onPwr_ports (f : Pwr → Pwr) : (s.onPwr f).ports = s.ports := rfl
@[simp] theorem State.onPwr_lintels (f : Pwr → Pwr) : (s.onPwr f).lintels = s.lintels := rfl
@[simp] theorem State.onPwr_red (f : Pwr → Pwr) : (s.onPwr f).red = s.red := rfl
@[simp] theorem State.onPwr_att (f : Pwr → Pwr) : (s.onPwr f).att = s.att := rfl
@[simp] theorem State.onPwr_routes (f : Pwr → Pwr) : (s.onPwr f).routes = s.routes := rfl
@[simp] theorem State.onPwr_hif (f : Pwr → Pwr) : (s.onPwr f).hif = s.hif := rfl
@[simp] theorem State.onPwr_jobs (f : Pwr → Pwr) : (s.onPwr f).jobs = s.jobs := rfl
@[simp] theorem State.onPwr_sw (f : Pwr → Pwr) : (s.onPwr f).sw = s.sw := rfl
@[simp] theorem State.onPwr_jobCmds (f : Pwr → Pwr) : (s.onPwr f).jobCmds = s.jobCmds := rfl
@[simp] theorem State.onPwr_runSlot (f : Pwr → Pwr) : (s.onPwr f).runSlot = s.runSlot := rfl
@[simp] theorem State.onPwr_lastSlot (f : Pwr → Pwr) : (s.onPwr f).lastSlot = s.lastSlot := rfl
@[simp] theorem State.onPwr_flt (f : Pwr → Pwr) : (s.onPwr f).flt = s.flt := rfl
@[simp] theorem State.onPwr_loss (f : Pwr → Pwr) : (s.onPwr f).loss = s.loss := rfl
@[simp] theorem State.onPwr_boot (f : Pwr → Pwr) : (s.onPwr f).boot = s.boot := rfl
@[simp] theorem State.onPwr_commit (f : Pwr → Pwr) : (s.onPwr f).commit = s.commit := rfl
@[simp] theorem State.onPwr_dsw (f : Pwr → Pwr) : (s.onPwr f).dsw = s.dsw := rfl
@[simp] theorem State.onPwr_flight (f : Pwr → Pwr) : (s.onPwr f).flight = s.flight := rfl
@[simp] theorem State.onPwr_free (f : Pwr → Pwr) : (s.onPwr f).free = s.free := rfl
@[simp] theorem State.onPwr_recs (f : Pwr → Pwr) : (s.onPwr f).recs = s.recs := rfl
@[simp] theorem State.onPwr_time (f : Pwr → Pwr) : (s.onPwr f).time = s.time := rfl
@[simp] theorem State.onPwr_out (f : Pwr → Pwr) : (s.onPwr f).out = s.out := rfl
@[simp] theorem State.onPwr_pending (f : Pwr → Pwr) : (s.onPwr f).pending = s.pending := rfl

/-! ### onBoot -/

@[simp] theorem State.onBoot_mem (f : Boot → Boot) : (s.onBoot f).mem = s.mem := rfl
@[simp] theorem State.onBoot_ecc (f : Boot → Boot) : (s.onBoot f).ecc = s.ecc := rfl
@[simp] theorem State.onBoot_regs (f : Boot → Boot) : (s.onBoot f).regs = s.regs := rfl
@[simp] theorem State.onBoot_staged (f : Boot → Boot) : (s.onBoot f).staged = s.staged := rfl
@[simp] theorem State.onBoot_ctrs (f : Boot → Boot) : (s.onBoot f).ctrs = s.ctrs := rfl
@[simp] theorem State.onBoot_latch (f : Boot → Boot) : (s.onBoot f).latch = s.latch := rfl
@[simp] theorem State.onBoot_cores (f : Boot → Boot) : (s.onBoot f).cores = s.cores := rfl
@[simp] theorem State.onBoot_quarries (f : Boot → Boot) : (s.onBoot f).quarries = s.quarries := rfl
@[simp] theorem State.onBoot_ports (f : Boot → Boot) : (s.onBoot f).ports = s.ports := rfl
@[simp] theorem State.onBoot_lintels (f : Boot → Boot) : (s.onBoot f).lintels = s.lintels := rfl
@[simp] theorem State.onBoot_red (f : Boot → Boot) : (s.onBoot f).red = s.red := rfl
@[simp] theorem State.onBoot_att (f : Boot → Boot) : (s.onBoot f).att = s.att := rfl
@[simp] theorem State.onBoot_routes (f : Boot → Boot) : (s.onBoot f).routes = s.routes := rfl
@[simp] theorem State.onBoot_hif (f : Boot → Boot) : (s.onBoot f).hif = s.hif := rfl
@[simp] theorem State.onBoot_jobs (f : Boot → Boot) : (s.onBoot f).jobs = s.jobs := rfl
@[simp] theorem State.onBoot_sw (f : Boot → Boot) : (s.onBoot f).sw = s.sw := rfl
@[simp] theorem State.onBoot_jobCmds (f : Boot → Boot) : (s.onBoot f).jobCmds = s.jobCmds := rfl
@[simp] theorem State.onBoot_runSlot (f : Boot → Boot) : (s.onBoot f).runSlot = s.runSlot := rfl
@[simp] theorem State.onBoot_lastSlot (f : Boot → Boot) : (s.onBoot f).lastSlot = s.lastSlot := rfl
@[simp] theorem State.onBoot_flt (f : Boot → Boot) : (s.onBoot f).flt = s.flt := rfl
@[simp] theorem State.onBoot_loss (f : Boot → Boot) : (s.onBoot f).loss = s.loss := rfl
@[simp] theorem State.onBoot_pwr (f : Boot → Boot) : (s.onBoot f).pwr = s.pwr := rfl
@[simp] theorem State.onBoot_commit (f : Boot → Boot) : (s.onBoot f).commit = s.commit := rfl
@[simp] theorem State.onBoot_dsw (f : Boot → Boot) : (s.onBoot f).dsw = s.dsw := rfl
@[simp] theorem State.onBoot_flight (f : Boot → Boot) : (s.onBoot f).flight = s.flight := rfl
@[simp] theorem State.onBoot_free (f : Boot → Boot) : (s.onBoot f).free = s.free := rfl
@[simp] theorem State.onBoot_recs (f : Boot → Boot) : (s.onBoot f).recs = s.recs := rfl
@[simp] theorem State.onBoot_time (f : Boot → Boot) : (s.onBoot f).time = s.time := rfl
@[simp] theorem State.onBoot_out (f : Boot → Boot) : (s.onBoot f).out = s.out := rfl
@[simp] theorem State.onBoot_pending (f : Boot → Boot) : (s.onBoot f).pending = s.pending := rfl

/-! ### What the updates write -/

@[simp] theorem State.put_mem (a : Nat) (bs : List Byte) : (s.put a bs).mem = memWrite s.mem a bs := rfl
@[simp] theorem State.setReg_regs (off v : Nat) : (s.setReg off v).regs = tset s.regs off (BitVec.ofNat 32 v) := rfl
@[simp] theorem State.bump_ctrs (p : Page) (o n : Nat) : (s.bump p o n).ctrs = tset s.ctrs (p.base + o) ((s.ctr p o + n) % 2 ^ 48) := rfl
@[simp] theorem State.useFree_free : s.useFree.free = s.free + 1 := rfl
@[simp] theorem State.setCore_cores (n : Nat) (c : Core) : (s.setCore n c).cores = tset s.cores n c := rfl
@[simp] theorem State.onQuarry_quarries (n : Nat) (f : Quarry → Quarry) : (s.onQuarry n f).quarries = tset s.quarries n (f (s.quarry n)) := rfl
@[simp] theorem State.onPort_ports (p : Nat) (f : Port → Port) : (s.onPort p f).ports = tset s.ports p (f (s.port p)) := rfl
@[simp] theorem State.onJob_jobs (j : Nat) (f : Job → Job) : (s.onJob j f).jobs = tset s.jobs j (f (s.job j)) := rfl
@[simp] theorem State.send_out (o : Out) : (s.send o).out = o :: s.out := rfl
@[simp] theorem State.onPwr_pwr (f : Pwr → Pwr) : (s.onPwr f).pwr = f s.pwr := rfl
@[simp] theorem State.onBoot_boot (f : Boot → Boot) : (s.onBoot f).boot = f s.boot := rfl
@[simp] theorem State.event_events (b : Nat) : (s.event b).dsw.events = s.dsw.events ||| 2 ^ b := rfl
@[simp] theorem State.setFatal_fatal : s.setFatal.dsw.fatal = true := rfl

/-! ### Derived updates and accessors -/

@[simp] theorem State.setPreg_eq (p : Page) (o v : Nat) : s.setPreg p o v = s.setReg (p.base + o) v := rfl
@[simp] theorem State.onCore_eq (n : Nat) (f : Core → Core) : s.onCore n f = s.setCore n (f (s.core n)) := rfl
@[simp] theorem State.core_setCore_same (n : Nat) (c : Core) : (s.setCore n c).core n = c := by simp [State.core]
theorem State.core_setCore_ne {n m : Nat} (c : Core) (h : m ≠ n) : (s.setCore n c).core m = s.core m := by
  simp [State.core, tget_tset_ne _ _ _ h]
@[simp] theorem State.quarry_onQuarry_same (n : Nat) (f : Quarry → Quarry) : (s.onQuarry n f).quarry n = f (s.quarry n) := by
  simp [State.quarry]
theorem State.quarry_onQuarry_ne {n m : Nat} (f : Quarry → Quarry) (h : m ≠ n) : (s.onQuarry n f).quarry m = s.quarry m := by
  simp [State.quarry, tget_tset_ne _ _ _ h]
@[simp] theorem State.port_onPort_same (p : Nat) (f : Port → Port) : (s.onPort p f).port p = f (s.port p) := by simp [State.port]
theorem State.port_onPort_ne {p q : Nat} (f : Port → Port) (h : q ≠ p) : (s.onPort p f).port q = s.port q := by
  simp [State.port, tget_tset_ne _ _ _ h]
@[simp] theorem State.job_onJob_same (j : Nat) (f : Job → Job) : (s.onJob j f).job j = f (s.job j) := by simp [State.job]
theorem State.job_onJob_ne {j k : Nat} (f : Job → Job) (h : k ≠ j) : (s.onJob j f).job k = s.job k := by
  simp [State.job, tget_tset_ne _ _ _ h]
@[simp] theorem State.hq_onHq_same (h : Nat) (f : Hq → Hq) : (s.onHq h f).hq h = f (s.hq h) := by simp [State.hq, State.onHq]
theorem State.hq_onHq_ne {h k : Nat} (f : Hq → Hq) (e : k ≠ h) : (s.onHq h f).hq k = s.hq k := by
  simp [State.hq, State.onHq, tget_tset_ne _ _ _ e]
@[simp] theorem State.reg_setReg_same (off v : Nat) : (s.setReg off v).reg off = v % 2 ^ 32 := by simp [State.reg]
theorem State.reg_setReg_ne {off o : Nat} (v : Nat) (h : o ≠ off) : (s.setReg off v).reg o = s.reg o := by
  simp [State.reg, tfind_tset_ne _ _ h]
@[simp] theorem State.ctr_bump_same (p : Page) (o n : Nat) : (s.bump p o n).ctr p o = (s.ctr p o + n) % 2 ^ 48 := by simp [State.ctr]
theorem State.ctr_bump_ne {p q : Page} {o m : Nat} (n : Nat) (h : q.base + m ≠ p.base + o) : (s.bump p o n).ctr q m = s.ctr q m := by
  simp [State.ctr, tget_tset_ne _ _ _ h]

end Sys2Proof.Machine
end

