-- ==== Sys2Proof/Laws/Finish.lean ====
section
/-! SUPPORT. What the end of a command does to a state, and when a command has its effect. -/

namespace Sys2Proof.Machine

/-- A live device runs a command of every domain. -/
theorem act_live {s : State} (h : s.live = true) (f : State → State) : act s f = .next (finish s (f s)) := by simp [act, h]
/-- A stopped or held device does not. -/
theorem act_dead {s : State} (h : s.live = false) (f : State → State) : act s f = .next s := by simp [act, h]
/-- Out of reset, a command of the service domain runs. -/
theorem actSvc_live {s : State} (h : s.svcLive = true) (f : State → State) : actSvc s f = .next (finish s (f s)) := by simp [actSvc, h]
/-- Held in reset, it does not. -/
theorem actSvc_dead {s : State} (h : s.svcLive = false) (f : State → State) : actSvc s f = .next s := by simp [actSvc, h]
/-- A live device is out of reset. -/
theorem State.svcLive_of_live {s : State} (h : s.live = true) : s.svcLive = true := by simp_all [State.live, State.svcLive]

/-- An MSI-X message changes what is sent and what is pending, and nothing else. -/
theorem State.msix_eq (s : State) (v : Nat) : s.msix v = { s with hif := { s.hif with msixPend := (s.msix v).hif.msixPend }, out := (s.msix v).out } := by
  unfold State.msix
  split <;> rfl

/-- The interrupt of the state word changes no more. -/
theorem State.dswInterrupt_eq (s : State) (b : Nat) :
    s.dswInterrupt b = { s with hif := { s.hif with msixPend := (s.dswInterrupt b).hif.msixPend }, out := (s.dswInterrupt b).out } := by
  unfold State.dswInterrupt
  split
  · exact State.msix_eq _ _
  · rfl

variable (s0 s : State)

@[simp] theorem finish_mem : (finish s0 s).mem = s.mem := by unfold finish; rw [State.dswInterrupt_eq]; rfl
@[simp] theorem finish_ecc : (finish s0 s).ecc = s.ecc := by unfold finish; rw [State.dswInterrupt_eq]; rfl
@[simp] theorem finish_regs : (finish s0 s).regs = s.regs := by unfold finish; rw [State.dswInterrupt_eq]; rfl
@[simp] theorem finish_staged : (finish s0 s).staged = s.staged := by unfold finish; rw [State.dswInterrupt_eq]; rfl
@[simp] theorem finish_ctrs : (finish s0 s).ctrs = s.ctrs := by unfold finish; rw [State.dswInterrupt_eq]; rfl
@[simp] theorem finish_latch : (finish s0 s).latch = s.latch := by unfold finish; rw [State.dswInterrupt_eq]; rfl
@[simp] theorem finish_cores : (finish s0 s).cores = s.cores := by unfold finish; rw [State.dswInterrupt_eq]; rfl
@[simp] theorem finish_quarries : (finish s0 s).quarries = s.quarries := by unfold finish; rw [State.dswInterrupt_eq]; rfl
@[simp] theorem finish_ports : (finish s0 s).ports = s.ports := by unfold finish; rw [State.dswInterrupt_eq]; rfl
@[simp] theorem finish_lintels : (finish s0 s).lintels = s.lintels := by unfold finish; rw [State.dswInterrupt_eq]; rfl
@[simp] theorem finish_red : (finish s0 s).red = s.red := by unfold finish; rw [State.dswInterrupt_eq]; rfl
@[simp] theorem finish_att : (finish s0 s).att = s.att := by unfold finish; rw [State.dswInterrupt_eq]; rfl
@[simp] theorem finish_routes : (finish s0 s).routes = s.routes := by unfold finish; rw [State.dswInterrupt_eq]; rfl
@[simp] theorem finish_jobs : (finish s0 s).jobs = s.jobs := by unfold finish; rw [State.dswInterrupt_eq]; rfl
@[simp] theorem finish_sw : (finish s0 s).sw = s.sw := by unfold finish; rw [State.dswInterrupt_eq]; rfl
@[simp] theorem finish_jobCmds : (finish s0 s).jobCmds = s.jobCmds := by unfold finish; rw [State.dswInterrupt_eq]; rfl
@[simp] theorem finish_runSlot : (finish s0 s).runSlot = s.runSlot := by unfold finish; rw [State.dswInterrupt_eq]; rfl
@[simp] theorem finish_lastSlot : (finish s0 s).lastSlot = s.lastSlot := by unfold finish; rw [State.dswInterrupt_eq]; rfl
@[simp] theorem finish_loss : (finish s0 s).loss = s.loss := by unfold finish; rw [State.dswInterrupt_eq]; rfl
@[simp] theorem finish_pwr : (finish s0 s).pwr = s.pwr := by unfold finish; rw [State.dswInterrupt_eq]; rfl
@[simp] theorem finish_boot : (finish s0 s).boot = s.boot := by unfold finish; rw [State.dswInterrupt_eq]; rfl
@[simp] theorem finish_commit : (finish s0 s).commit = s.commit := by unfold finish; rw [State.dswInterrupt_eq]; rfl
@[simp] theorem finish_flight : (finish s0 s).flight = s.flight := by unfold finish; rw [State.dswInterrupt_eq]; rfl
@[simp] theorem finish_free : (finish s0 s).free = s.free := by unfold finish; rw [State.dswInterrupt_eq]; rfl
@[simp] theorem finish_recs : (finish s0 s).recs = s.recs := by unfold finish; rw [State.dswInterrupt_eq]; rfl
@[simp] theorem finish_time : (finish s0 s).time = s.time := by unfold finish; rw [State.dswInterrupt_eq]; rfl
@[simp] theorem finish_pending : (finish s0 s).pending = s.pending := by unfold finish; rw [State.dswInterrupt_eq]; rfl

@[simp] theorem finish_count : (finish s0 s).dsw.count = nextCount s0 s := by unfold finish; rw [State.dswInterrupt_eq]; rfl
@[simp] theorem finish_events : (finish s0 s).dsw.events = s.dsw.events := by unfold finish; rw [State.dswInterrupt_eq]; rfl
@[simp] theorem finish_fatal : (finish s0 s).dsw.fatal = s.dsw.fatal := by unfold finish; rw [State.dswInterrupt_eq]; rfl
@[simp] theorem finish_ready : (finish s0 s).dsw.ready = s.dsw.ready := by unfold finish; rw [State.dswInterrupt_eq]; rfl
@[simp] theorem finish_oldest : (finish s0 s).flt.oldest = s.flt.oldest := by unfold finish; rw [State.dswInterrupt_eq]; rfl
@[simp] theorem finish_unack : (finish s0 s).flt.unack = s.flt.unack := by unfold finish; rw [State.dswInterrupt_eq]; rfl
@[simp] theorem finish_seq : (finish s0 s).flt.seq = s.flt.seq := by unfold finish; rw [State.dswInterrupt_eq]; rfl
@[simp] theorem finish_hqs : (finish s0 s).hif.hqs = s.hif.hqs := by unfold finish; rw [State.dswInterrupt_eq]; rfl
@[simp] theorem finish_hifUp : (finish s0 s).hif.up = s.hif.up := by unfold finish; rw [State.dswInterrupt_eq]; rfl

/-- The flags are the effect's own. -/
@[simp] theorem finish_flags : (finish s0 s).flags = s.flags := by unfold finish; rw [State.dswInterrupt_eq]; rfl

@[simp] theorem finish_get_core (n : Nat) : (finish s0 s).core n = s.core n := by simp [State.core]
@[simp] theorem finish_get_quarry (n : Nat) : (finish s0 s).quarry n = s.quarry n := by simp [State.quarry]
@[simp] theorem finish_get_port (n : Nat) : (finish s0 s).port n = s.port n := by simp [State.port]
@[simp] theorem finish_get_job (n : Nat) : (finish s0 s).job n = s.job n := by simp [State.job]
@[simp] theorem finish_get_hq (n : Nat) : (finish s0 s).hq n = s.hq n := by simp [State.hq]
@[simp] theorem finish_get_reg (n : Nat) : (finish s0 s).reg n = s.reg n := by simp [State.reg]
@[simp] theorem finish_get_ctr (p : Page) (o : Nat) : (finish s0 s).ctr p o = s.ctr p o := by simp [State.ctr]
@[simp] theorem finish_get_preg (p : Page) (o : Nat) : (finish s0 s).preg p o = s.preg p o := by simp [State.preg]
@[simp] theorem finish_get_tag (j t : Nat) : (finish s0 s).tag j t = s.tag j t := by simp [State.tag]
@[simp] theorem finish_get_sq (n q : Nat) : (finish s0 s).sq n q = s.sq n q := by simp [State.sq]

end Sys2Proof.Machine
end

