-- ==== Sys2Proof/Laws/Frame.lean ====
section
/-! SUPPORT. Frames: what the end of a command adds to the parts that its effect leaves alone. -/

namespace Sys2Proof.Machine

/-- A part that an effect leaves as it stands. -/
def Part.same (s u : State) : Part → Prop
  | .mem => u.mem = s.mem ∧ u.ecc = s.ecc
  | .hif => u.hif = s.hif
  | .flt => u.flt = s.flt
  | .out => u.out = s.out
  | p => p.kept s u

/-- What two effects in a row leave as it stands. -/
theorem Part.same_trans {s u v : State} {p : Part} (h1 : p.same s u) (h2 : p.same u v) : p.same s v := by
  cases p <;> simp_all [Part.same, Part.kept]

/-- Parts that an effect leaves as they stand are kept by the whole command. -/
theorem Part.kept_finish {s u : State} (p : Part) (h : p.same s u) : p.kept s (finish s u) := by
  cases p with
  | hif =>
    replace h : u.hif = s.hif := h
    unfold finish
    rw [State.dswInterrupt_eq]
    simp [Part.kept, State.fillRecords, h, Function.comp_def]
  | flt =>
    replace h : u.flt = s.flt := h
    unfold finish
    rw [State.dswInterrupt_eq]
    simp [Part.kept, State.fillRecords, h, Function.comp_def]
  | out =>
    replace h : u.out = s.out := h
    have : (finish s u).out = u.out ∨ ∃ v, (finish s u).out = .msix v :: u.out := by
      unfold finish State.dswInterrupt State.msix
      split
      · split
        · left; simp [State.fillRecords, h]
        · right; exact ⟨_, by simp [State.fillRecords, h, State.send]; rfl⟩
      · left; simp [State.fillRecords, h]
    simpa [Part.kept, h] using this
  | mem =>
    replace h : u.mem = s.mem ∧ u.ecc = s.ecc := h
    simp [Part.kept, h]
  | _ => simpa [Part.kept, Part.same] using h

/-- A frame from the effect's own equalities. -/
theorem unchanged_finish {s u : State} {may : List Part} (hp : u.pending = s.pending) (h : ∀ p, p ∉ may → p.same s u) :
    Unchanged s (finish s u) may := ⟨by simpa using hp, fun p hm => Part.kept_finish p (h p hm)⟩

end Sys2Proof.Machine
end

