-- ==== Sys2Proof/Laws/Reads.lean ====
section
/-! SUPPORT. What each named update leaves alone in each named read, and what it writes there. -/

namespace Sys2Proof.Machine

variable (s : State)

@[simp] theorem State.put_get_core (a : Nat) (bs : List Byte) (n : Nat) : (s.put a bs).core n = s.core n := rfl
@[simp] theorem State.put_get_quarry (a : Nat) (bs : List Byte) (n : Nat) : (s.put a bs).quarry n = s.quarry n := rfl
@[simp] theorem State.put_get_port (a : Nat) (bs : List Byte) (n : Nat) : (s.put a bs).port n = s.port n := rfl
@[simp] theorem State.put_get_job (a : Nat) (bs : List Byte) (n : Nat) : (s.put a bs).job n = s.job n := rfl
@[simp] theorem State.put_get_lint (a : Nat) (bs : List Byte) (n m : Nat) : (s.put a bs).lint n m = s.lint n m := rfl
@[simp] theorem State.put_get_tag (a : Nat) (bs : List Byte) (n m : Nat) : (s.put a bs).tag n m = s.tag n m := rfl
@[simp] theorem State.put_get_seq (a : Nat) (bs : List Byte) (n : Nat) : (s.put a bs).seq n = s.seq n := rfl
@[simp] theorem State.put_get_hq (a : Nat) (bs : List Byte) (n : Nat) : (s.put a bs).hq n = s.hq n := rfl
@[simp] theorem State.put_get_reg (a : Nat) (bs : List Byte) (n : Nat) : (s.put a bs).reg n = s.reg n := rfl
@[simp] theorem State.put_get_ctr (a : Nat) (bs : List Byte) (r : Page) (n : Nat) : (s.put a bs).ctr r n = s.ctr r n := rfl
@[simp] theorem State.setReg_get_core (off v : Nat) (n : Nat) : (s.setReg off v).core n = s.core n := rfl
@[simp] theorem State.setReg_get_quarry (off v : Nat) (n : Nat) : (s.setReg off v).quarry n = s.quarry n := rfl
@[simp] theorem State.setReg_get_port (off v : Nat) (n : Nat) : (s.setReg off v).port n = s.port n := rfl
@[simp] theorem State.setReg_get_job (off v : Nat) (n : Nat) : (s.setReg off v).job n = s.job n := rfl
@[simp] theorem State.setReg_get_lint (off v : Nat) (n m : Nat) : (s.setReg off v).lint n m = s.lint n m := rfl
@[simp] theorem State.setReg_get_tag (off v : Nat) (n m : Nat) : (s.setReg off v).tag n m = s.tag n m := rfl
@[simp] theorem State.setReg_get_seq (off v : Nat) (n : Nat) : (s.setReg off v).seq n = s.seq n := rfl
@[simp] theorem State.setReg_get_hq (off v : Nat) (n : Nat) : (s.setReg off v).hq n = s.hq n := rfl
@[simp] theorem State.setReg_get_ctr (off v : Nat) (r : Page) (n : Nat) : (s.setReg off v).ctr r n = s.ctr r n := rfl
@[simp] theorem State.bump_get_core (p : Page) (o k : Nat) (n : Nat) : (s.bump p o k).core n = s.core n := rfl
@[simp] theorem State.bump_get_quarry (p : Page) (o k : Nat) (n : Nat) : (s.bump p o k).quarry n = s.quarry n := rfl
@[simp] theorem State.bump_get_port (p : Page) (o k : Nat) (n : Nat) : (s.bump p o k).port n = s.port n := rfl
@[simp] theorem State.bump_get_job (p : Page) (o k : Nat) (n : Nat) : (s.bump p o k).job n = s.job n := rfl
@[simp] theorem State.bump_get_lint (p : Page) (o k : Nat) (n m : Nat) : (s.bump p o k).lint n m = s.lint n m := rfl
@[simp] theorem State.bump_get_tag (p : Page) (o k : Nat) (n m : Nat) : (s.bump p o k).tag n m = s.tag n m := rfl
@[simp] theorem State.bump_get_seq (p : Page) (o k : Nat) (n : Nat) : (s.bump p o k).seq n = s.seq n := rfl
@[simp] theorem State.bump_get_hq (p : Page) (o k : Nat) (n : Nat) : (s.bump p o k).hq n = s.hq n := rfl
@[simp] theorem State.bump_get_reg (p : Page) (o k : Nat) (n : Nat) : (s.bump p o k).reg n = s.reg n := rfl
@[simp] theorem State.useFree_get_core (n : Nat) : (s.useFree).core n = s.core n := rfl
@[simp] theorem State.useFree_get_quarry (n : Nat) : (s.useFree).quarry n = s.quarry n := rfl
@[simp] theorem State.useFree_get_port (n : Nat) : (s.useFree).port n = s.port n := rfl
@[simp] theorem State.useFree_get_job (n : Nat) : (s.useFree).job n = s.job n := rfl
@[simp] theorem State.useFree_get_lint (n m : Nat) : (s.useFree).lint n m = s.lint n m := rfl
@[simp] theorem State.useFree_get_tag (n m : Nat) : (s.useFree).tag n m = s.tag n m := rfl
@[simp] theorem State.useFree_get_seq (n : Nat) : (s.useFree).seq n = s.seq n := rfl
@[simp] theorem State.useFree_get_hq (n : Nat) : (s.useFree).hq n = s.hq n := rfl
@[simp] theorem State.useFree_get_reg (n : Nat) : (s.useFree).reg n = s.reg n := rfl
@[simp] theorem State.useFree_get_ctr (r : Page) (n : Nat) : (s.useFree).ctr r n = s.ctr r n := rfl
@[simp] theorem State.setCore_get_quarry (i : Nat) (c : Core) (n : Nat) : (s.setCore i c).quarry n = s.quarry n := rfl
@[simp] theorem State.setCore_get_port (i : Nat) (c : Core) (n : Nat) : (s.setCore i c).port n = s.port n := rfl
@[simp] theorem State.setCore_get_job (i : Nat) (c : Core) (n : Nat) : (s.setCore i c).job n = s.job n := rfl
@[simp] theorem State.setCore_get_lint (i : Nat) (c : Core) (n m : Nat) : (s.setCore i c).lint n m = s.lint n m := rfl
@[simp] theorem State.setCore_get_tag (i : Nat) (c : Core) (n m : Nat) : (s.setCore i c).tag n m = s.tag n m := rfl
@[simp] theorem State.setCore_get_seq (i : Nat) (c : Core) (n : Nat) : (s.setCore i c).seq n = s.seq n := rfl
@[simp] theorem State.setCore_get_hq (i : Nat) (c : Core) (n : Nat) : (s.setCore i c).hq n = s.hq n := rfl
@[simp] theorem State.setCore_get_reg (i : Nat) (c : Core) (n : Nat) : (s.setCore i c).reg n = s.reg n := rfl
@[simp] theorem State.setCore_get_ctr (i : Nat) (c : Core) (r : Page) (n : Nat) : (s.setCore i c).ctr r n = s.ctr r n := rfl
@[simp] theorem State.onQuarry_get_core (i : Nat) (f : Quarry → Quarry) (n : Nat) : (s.onQuarry i f).core n = s.core n := rfl
@[simp] theorem State.onQuarry_get_port (i : Nat) (f : Quarry → Quarry) (n : Nat) : (s.onQuarry i f).port n = s.port n := rfl
@[simp] theorem State.onQuarry_get_job (i : Nat) (f : Quarry → Quarry) (n : Nat) : (s.onQuarry i f).job n = s.job n := rfl
@[simp] theorem State.onQuarry_get_lint (i : Nat) (f : Quarry → Quarry) (n m : Nat) : (s.onQuarry i f).lint n m = s.lint n m := rfl
@[simp] theorem State.onQuarry_get_tag (i : Nat) (f : Quarry → Quarry) (n m : Nat) : (s.onQuarry i f).tag n m = s.tag n m := rfl
@[simp] theorem State.onQuarry_get_seq (i : Nat) (f : Quarry → Quarry) (n : Nat) : (s.onQuarry i f).seq n = s.seq n := rfl
@[simp] theorem State.onQuarry_get_hq (i : Nat) (f : Quarry → Quarry) (n : Nat) : (s.onQuarry i f).hq n = s.hq n := rfl
@[simp] theorem State.onQuarry_get_reg (i : Nat) (f : Quarry → Quarry) (n : Nat) : (s.onQuarry i f).reg n = s.reg n := rfl
@[simp] theorem State.onQuarry_get_ctr (i : Nat) (f : Quarry → Quarry) (r : Page) (n : Nat) : (s.onQuarry i f).ctr r n = s.ctr r n := rfl
@[simp] theorem State.onPort_get_core (i : Nat) (f : Port → Port) (n : Nat) : (s.onPort i f).core n = s.core n := rfl
@[simp] theorem State.onPort_get_quarry (i : Nat) (f : Port → Port) (n : Nat) : (s.onPort i f).quarry n = s.quarry n := rfl
@[simp] theorem State.onPort_get_job (i : Nat) (f : Port → Port) (n : Nat) : (s.onPort i f).job n = s.job n := rfl
@[simp] theorem State.onPort_get_lint (i : Nat) (f : Port → Port) (n m : Nat) : (s.onPort i f).lint n m = s.lint n m := rfl
@[simp] theorem State.onPort_get_tag (i : Nat) (f : Port → Port) (n m : Nat) : (s.onPort i f).tag n m = s.tag n m := rfl
@[simp] theorem State.onPort_get_seq (i : Nat) (f : Port → Port) (n : Nat) : (s.onPort i f).seq n = s.seq n := rfl
@[simp] theorem State.onPort_get_hq (i : Nat) (f : Port → Port) (n : Nat) : (s.onPort i f).hq n = s.hq n := rfl
@[simp] theorem State.onPort_get_reg (i : Nat) (f : Port → Port) (n : Nat) : (s.onPort i f).reg n = s.reg n := rfl
@[simp] theorem State.onPort_get_ctr (i : Nat) (f : Port → Port) (r : Page) (n : Nat) : (s.onPort i f).ctr r n = s.ctr r n := rfl
@[simp] theorem State.onJob_get_core (i : Nat) (f : Job → Job) (n : Nat) : (s.onJob i f).core n = s.core n := rfl
@[simp] theorem State.onJob_get_quarry (i : Nat) (f : Job → Job) (n : Nat) : (s.onJob i f).quarry n = s.quarry n := rfl
@[simp] theorem State.onJob_get_port (i : Nat) (f : Job → Job) (n : Nat) : (s.onJob i f).port n = s.port n := rfl
@[simp] theorem State.onJob_get_lint (i : Nat) (f : Job → Job) (n m : Nat) : (s.onJob i f).lint n m = s.lint n m := rfl
@[simp] theorem State.onJob_get_tag (i : Nat) (f : Job → Job) (n m : Nat) : (s.onJob i f).tag n m = s.tag n m := rfl
@[simp] theorem State.onJob_get_seq (i : Nat) (f : Job → Job) (n : Nat) : (s.onJob i f).seq n = s.seq n := rfl
@[simp] theorem State.onJob_get_hq (i : Nat) (f : Job → Job) (n : Nat) : (s.onJob i f).hq n = s.hq n := rfl
@[simp] theorem State.onJob_get_reg (i : Nat) (f : Job → Job) (n : Nat) : (s.onJob i f).reg n = s.reg n := rfl
@[simp] theorem State.onJob_get_ctr (i : Nat) (f : Job → Job) (r : Page) (n : Nat) : (s.onJob i f).ctr r n = s.ctr r n := rfl
@[simp] theorem State.onLint_get_core (i k : Nat) (f : Lint → Lint) (n : Nat) : (s.onLint i k f).core n = s.core n := rfl
@[simp] theorem State.onLint_get_quarry (i k : Nat) (f : Lint → Lint) (n : Nat) : (s.onLint i k f).quarry n = s.quarry n := rfl
@[simp] theorem State.onLint_get_port (i k : Nat) (f : Lint → Lint) (n : Nat) : (s.onLint i k f).port n = s.port n := rfl
@[simp] theorem State.onLint_get_job (i k : Nat) (f : Lint → Lint) (n : Nat) : (s.onLint i k f).job n = s.job n := rfl
@[simp] theorem State.onLint_get_tag (i k : Nat) (f : Lint → Lint) (n m : Nat) : (s.onLint i k f).tag n m = s.tag n m := rfl
@[simp] theorem State.onLint_get_seq (i k : Nat) (f : Lint → Lint) (n : Nat) : (s.onLint i k f).seq n = s.seq n := rfl
@[simp] theorem State.onLint_get_hq (i k : Nat) (f : Lint → Lint) (n : Nat) : (s.onLint i k f).hq n = s.hq n := rfl
@[simp] theorem State.onLint_get_reg (i k : Nat) (f : Lint → Lint) (n : Nat) : (s.onLint i k f).reg n = s.reg n := rfl
@[simp] theorem State.onLint_get_ctr (i k : Nat) (f : Lint → Lint) (r : Page) (n : Nat) : (s.onLint i k f).ctr r n = s.ctr r n := rfl
@[simp] theorem State.onTag_get_core (i k : Nat) (f : Tag → Tag) (n : Nat) : (s.onTag i k f).core n = s.core n := rfl
@[simp] theorem State.onTag_get_quarry (i k : Nat) (f : Tag → Tag) (n : Nat) : (s.onTag i k f).quarry n = s.quarry n := rfl
@[simp] theorem State.onTag_get_port (i k : Nat) (f : Tag → Tag) (n : Nat) : (s.onTag i k f).port n = s.port n := rfl
@[simp] theorem State.onTag_get_job (i k : Nat) (f : Tag → Tag) (n : Nat) : (s.onTag i k f).job n = s.job n := rfl
@[simp] theorem State.onTag_get_lint (i k : Nat) (f : Tag → Tag) (n m : Nat) : (s.onTag i k f).lint n m = s.lint n m := rfl
@[simp] theorem State.onTag_get_seq (i k : Nat) (f : Tag → Tag) (n : Nat) : (s.onTag i k f).seq n = s.seq n := rfl
@[simp] theorem State.onTag_get_hq (i k : Nat) (f : Tag → Tag) (n : Nat) : (s.onTag i k f).hq n = s.hq n := rfl
@[simp] theorem State.onTag_get_reg (i k : Nat) (f : Tag → Tag) (n : Nat) : (s.onTag i k f).reg n = s.reg n := rfl
@[simp] theorem State.onTag_get_ctr (i k : Nat) (f : Tag → Tag) (r : Page) (n : Nat) : (s.onTag i k f).ctr r n = s.ctr r n := rfl
@[simp] theorem State.onSeq_get_core (i : Nat) (f : Seq → Seq) (n : Nat) : (s.onSeq i f).core n = s.core n := rfl
@[simp] theorem State.onSeq_get_quarry (i : Nat) (f : Seq → Seq) (n : Nat) : (s.onSeq i f).quarry n = s.quarry n := rfl
@[simp] theorem State.onSeq_get_port (i : Nat) (f : Seq → Seq) (n : Nat) : (s.onSeq i f).port n = s.port n := rfl
@[simp] theorem State.onSeq_get_job (i : Nat) (f : Seq → Seq) (n : Nat) : (s.onSeq i f).job n = s.job n := rfl
@[simp] theorem State.onSeq_get_lint (i : Nat) (f : Seq → Seq) (n m : Nat) : (s.onSeq i f).lint n m = s.lint n m := rfl
@[simp] theorem State.onSeq_get_tag (i : Nat) (f : Seq → Seq) (n m : Nat) : (s.onSeq i f).tag n m = s.tag n m := rfl
@[simp] theorem State.onSeq_get_hq (i : Nat) (f : Seq → Seq) (n : Nat) : (s.onSeq i f).hq n = s.hq n := rfl
@[simp] theorem State.onSeq_get_reg (i : Nat) (f : Seq → Seq) (n : Nat) : (s.onSeq i f).reg n = s.reg n := rfl
@[simp] theorem State.onSeq_get_ctr (i : Nat) (f : Seq → Seq) (r : Page) (n : Nat) : (s.onSeq i f).ctr r n = s.ctr r n := rfl
@[simp] theorem State.onHq_get_core (i : Nat) (f : Hq → Hq) (n : Nat) : (s.onHq i f).core n = s.core n := rfl
@[simp] theorem State.onHq_get_quarry (i : Nat) (f : Hq → Hq) (n : Nat) : (s.onHq i f).quarry n = s.quarry n := rfl
@[simp] theorem State.onHq_get_port (i : Nat) (f : Hq → Hq) (n : Nat) : (s.onHq i f).port n = s.port n := rfl
@[simp] theorem State.onHq_get_job (i : Nat) (f : Hq → Hq) (n : Nat) : (s.onHq i f).job n = s.job n := rfl
@[simp] theorem State.onHq_get_lint (i : Nat) (f : Hq → Hq) (n m : Nat) : (s.onHq i f).lint n m = s.lint n m := rfl
@[simp] theorem State.onHq_get_tag (i : Nat) (f : Hq → Hq) (n m : Nat) : (s.onHq i f).tag n m = s.tag n m := rfl
@[simp] theorem State.onHq_get_seq (i : Nat) (f : Hq → Hq) (n : Nat) : (s.onHq i f).seq n = s.seq n := rfl
@[simp] theorem State.onHq_get_reg (i : Nat) (f : Hq → Hq) (n : Nat) : (s.onHq i f).reg n = s.reg n := rfl
@[simp] theorem State.onHq_get_ctr (i : Nat) (f : Hq → Hq) (r : Page) (n : Nat) : (s.onHq i f).ctr r n = s.ctr r n := rfl
@[simp] theorem State.send_get_core (x : Out) (n : Nat) : (s.send x).core n = s.core n := rfl
@[simp] theorem State.send_get_quarry (x : Out) (n : Nat) : (s.send x).quarry n = s.quarry n := rfl
@[simp] theorem State.send_get_port (x : Out) (n : Nat) : (s.send x).port n = s.port n := rfl
@[simp] theorem State.send_get_job (x : Out) (n : Nat) : (s.send x).job n = s.job n := rfl
@[simp] theorem State.send_get_lint (x : Out) (n m : Nat) : (s.send x).lint n m = s.lint n m := rfl
@[simp] theorem State.send_get_tag (x : Out) (n m : Nat) : (s.send x).tag n m = s.tag n m := rfl
@[simp] theorem State.send_get_seq (x : Out) (n : Nat) : (s.send x).seq n = s.seq n := rfl
@[simp] theorem State.send_get_hq (x : Out) (n : Nat) : (s.send x).hq n = s.hq n := rfl
@[simp] theorem State.send_get_reg (x : Out) (n : Nat) : (s.send x).reg n = s.reg n := rfl
@[simp] theorem State.send_get_ctr (x : Out) (r : Page) (n : Nat) : (s.send x).ctr r n = s.ctr r n := rfl
@[simp] theorem State.event_get_core (x : Nat) (n : Nat) : (s.event x).core n = s.core n := rfl
@[simp] theorem State.event_get_quarry (x : Nat) (n : Nat) : (s.event x).quarry n = s.quarry n := rfl
@[simp] theorem State.event_get_port (x : Nat) (n : Nat) : (s.event x).port n = s.port n := rfl
@[simp] theorem State.event_get_job (x : Nat) (n : Nat) : (s.event x).job n = s.job n := rfl
@[simp] theorem State.event_get_lint (x : Nat) (n m : Nat) : (s.event x).lint n m = s.lint n m := rfl
@[simp] theorem State.event_get_tag (x : Nat) (n m : Nat) : (s.event x).tag n m = s.tag n m := rfl
@[simp] theorem State.event_get_seq (x : Nat) (n : Nat) : (s.event x).seq n = s.seq n := rfl
@[simp] theorem State.event_get_hq (x : Nat) (n : Nat) : (s.event x).hq n = s.hq n := rfl
@[simp] theorem State.event_get_reg (x : Nat) (n : Nat) : (s.event x).reg n = s.reg n := rfl
@[simp] theorem State.event_get_ctr (x : Nat) (r : Page) (n : Nat) : (s.event x).ctr r n = s.ctr r n := rfl

@[simp] theorem State.seq_onSeq_same (i : Nat) (f : Seq → Seq) : (s.onSeq i f).seq i = f (s.seq i) := by simp [State.onSeq, State.seq]
theorem State.seq_onSeq_ne {i n : Nat} (f : Seq → Seq) (h : n ≠ i) : (s.onSeq i f).seq n = s.seq n := by simp [State.onSeq, State.seq, tget_tset_ne _ _ _ h]

/-- A lintel updated. -/
@[simp] theorem State.lint_onLint_same (i k : Nat) (f : Lint → Lint) : (s.onLint i k f).lint i k = f (s.lint i k) := by
  simp [State.onLint, State.lint]
theorem State.lint_onLint_ne {i k n m : Nat} (f : Lint → Lint) (h : 256 * n + m ≠ 256 * i + k) : (s.onLint i k f).lint n m = s.lint n m := by
  simp [State.onLint, State.lint, tget_tset_ne _ _ _ h]
/-- A bucket tag updated. -/
@[simp] theorem State.tag_onTag_same (i k : Nat) (f : Tag → Tag) : (s.onTag i k f).tag i k = f (s.tag i k) := by
  simp [State.onTag, State.tag]
theorem State.tag_onTag_ne {i k n m : Nat} (f : Tag → Tag) (h : 4096 * n + m ≠ 4096 * i + k) : (s.onTag i k f).tag n m = s.tag n m := by
  simp [State.onTag, State.tag, tget_tset_ne _ _ _ h]
/-- A counter advanced leaves the others. -/
theorem State.ctrs_bump_ne (p : Page) (o k x : Nat) (h : x ≠ p.base + o) : tget 0 (s.bump p o k).ctrs x = tget 0 s.ctrs x := by
  simp [State.bump, tget_tset_ne _ _ _ h]

end Sys2Proof.Machine
end

