-- ==== Sys2Proof/Laws/Clean.lean ====
section
/-! SUPPORT. Reads of memory whose codewords are all clean: the bytes, and nothing besides. -/

namespace Sys2Proof.Machine

/-- No codeword is out of order. -/
@[simp] theorem badCws_clean {s : State} (h : s.ecc = []) (a len : Nat) : s.badCws a len = [] := by simp [State.badCws, h]
/-- The grade of a clean range. -/
@[simp] theorem grade_clean {s : State} (h : s.ecc = []) (a len : Nat) : s.grade a len = 0 := by simp [State.grade, h, maxOf]
/-- A sill read of clean codewords. -/
theorem sillRead_clean {s : State} (h : s.ecc = []) (n a len source : Nat) (job : Option Nat) (flags : Nat) :
    s.sillRead n a len source job flags = (s, s.bytes a len, 0) := by
  simp [State.sillRead, h, gradeStatus]
/-- No store is in flight on a core that has settled (R171), -/
theorem wetAt_settled {s : State} {n : Nat} (h : (s.core n).settled = true) (a len : Nat) : s.wetAt n a len = false := by
  simp only [Core.settled, Bool.and_eq_true, List.all_eq_true, decide_eq_true_eq] at h
  simp only [State.wetAt, List.any_eq_false, Bool.and_eq_true, decide_eq_true_eq, not_and]
  intro e he hlt
  exact absurd (h.1 e he) (by omega)

/-- nor an entry of its slot table not yet in effect, so that no ring is named early -/
theorem early_settled {s : State} {n : Nat} (h : (s.core n).settled = true) (r : Nat) : s.early n r = s := by
  simp only [Core.settled, Bool.and_eq_true, List.all_eq_true, decide_eq_true_eq] at h
  have key : ∀ e, tget 0 (s.core n).slotAt e ≤ (s.core n).cclk := by
    intro e
    have h2 := h.2
    generalize (s.core n).slotAt = t at h2
    induction t with
    | nil => exact Nat.zero_le _
    | cons x t ih =>
      simp only [tget]
      split
      · exact h2 x (List.mem_cons_self ..)
      · exact ih (fun y hy => h2 y (List.mem_cons_of_mem _ hy))
  have : ((s.ringEntries n r).filter (fun e => decide ((s.core n).cclk < tget 0 (s.core n).slotAt e))) = [] := by
    rw [List.filter_eq_nil_iff]
    intro e _
    simpa using key e
  simp [State.early, this]

/-- nor a place; -/
theorem earlyAt_settled {s : State} {n : Nat} (h : (s.core n).settled = true) (loc : BitVec 14) : s.earlyAt n loc = s := by
  unfold State.earlyAt
  split
  · rfl
  · exact early_settled h _

/-- what its operations see in their sill are the bytes. -/
theorem seen_settled {s : State} {n : Nat} (h : (s.core n).settled = true) (a len : Nat) : s.seen n a len = s.bytes a len := by
  simp [State.seen, wetAt_settled h]

/-- A scheduled read of clean codewords. -/
theorem schedRead_clean {s : State} (h : s.ecc = []) (n : Nat) (hw : (s.core n).settled = true) (a len : Nat) :
    s.schedRead n a len = (s, s.bytes a len) := by
  simp [State.schedRead, sillRead_clean h, wetAt_settled hw]
/-- Where nothing waits at a quarry nothing is served before an access. -/
theorem settle_idle {s : State} {q : Nat} (h : s.admitted q = []) (a len : Nat) : s.settle q a len = s := by
  simp [State.settle, h]
/-- A row opened touches its quarry and the hits. -/
theorem openRow_same (s : State) (n a : Nat) {p : Part} (h : p ≠ .quarries ∧ p ≠ .ctrs) : p.same s (s.openRow n a) := by
  unfold State.openRow
  dsimp only
  split_ifs <;> cases p <;> simp_all [Part.same, Part.kept]
/-- Rows opened, too. -/
theorem openRows_same (s : State) (n a len : Nat) {p : Part} (h : p ≠ .quarries ∧ p ≠ .ctrs) : p.same s (s.openRows n a len) := by
  unfold State.openRows
  generalize fromN (a / 64) (units a len) = us
  induction us generalizing s with
  | nil => cases p <;> simp [Part.same, Part.kept]
  | cons u us ih => exact Part.same_trans (openRow_same s n (64 * u) h) (ih _)
/-- Units read among clean codewords: the bytes, the units counted. -/
theorem unitsRead_clean {s : State} (h : s.ecc = []) (n a len source : Nat) (job : Option Nat) (flags : Nat) :
    s.unitsRead n a len source job flags = (s.bump (.quarry n) 0x40 (units a len), s.bytes a len, 0) := by
  simp [State.unitsRead, State.unitEvents, h, gradeStatus]
/-- A quarry read of clean codewords where nothing waits: the bytes, its rows opened, its units counted. -/
theorem quarryRead_clean {s : State} {n : Nat} (h : s.ecc = []) (hw : s.admitted n = []) (a len source : Nat) (job : Option Nat) (flags : Nat) :
    s.quarryRead n a len source job flags =
      ((s.openRows n a len).bump (.quarry n) 0x40 (units a len), s.bytes a len, 0) := by
  have hm : (s.openRows n a len).mem = s.mem ∧ (s.openRows n a len).ecc = s.ecc := openRows_same s n a len (p := .mem) (by decide)
  rw [State.quarryRead, settle_idle hw, unitsRead_clean (hm.2.trans h)]
  simp [State.bytes, hm.1]
/-- Units written among clean codewords: the bytes; a unit covered in part is read too. -/
theorem unitsWrite_clean {s : State} (h : s.ecc = []) (n a : Nat) (bs : List Byte) (source : Nat) (job : Option Nat) (flags : Nat) :
    s.unitsWrite n a bs source job flags =
      ((((partUnits a bs.length).foldl (fun (s : State) u => s.bump (.quarry n) 0x40 (units u 64)) s).put a bs).bump (.quarry n) 0x48
        (units a bs.length), 0) := by
  have hr : ∀ (us : List Nat) (s : State), s.ecc = [] →
      us.foldl (fun (s : State) u => (s.unitsRead n u 64 source job flags).1) s =
        us.foldl (fun (s : State) u => s.bump (.quarry n) 0x40 (units u 64)) s ∧
      (us.foldl (fun (s : State) u => s.bump (.quarry n) 0x40 (units u 64)) s).ecc = [] := by
    intro us
    induction us with
    | nil => intro s h; exact ⟨rfl, h⟩
    | cons u us ih =>
      intro s h
      simp only [List.foldl_cons, unitsRead_clean h]
      exact ih _ (by simpa using h)
  have hs : ∀ (us : List Nat) (s : State), s.ecc = [] → us.foldl (fun (s : State) u => s.scrubbed u 64) s = s := by
    intro us
    induction us with
    | nil => intros; rfl
    | cons u us ih =>
      intro s h
      have : s.scrubbed u 64 = s := by cases s; simp_all [State.scrubbed]
      simp only [List.foldl_cons, this, ih s h]
  have hl : (partUnits a bs.length).filter (fun u => s.grade u 64 == 2) = [] := by
    simp [grade_clean h]
  simp [State.unitsWrite, hl, (hr _ s h).1, hs _ _ (hr _ s h).2]
/-- A quarry write among clean codewords where nothing waits: the bytes, and of the rest only its rows and counts. -/
theorem quarryWrite_clean {s : State} {n : Nat} (h : s.ecc = []) (hw : s.admitted n = []) (a : Nat) (bs : List Byte) (source : Nat)
    (job : Option Nat) (flags : Nat) :
    (s.quarryWrite n a bs source job flags).2 = 0 ∧ (s.quarryWrite n a bs source job flags).1.mem = memWrite s.mem a bs ∧
    (s.quarryWrite n a bs source job flags).1.ecc = [] ∧
    ∀ p : Part, p ≠ .mem → p ≠ .quarries → p ≠ .ctrs → p.same s (s.quarryWrite n a bs source job flags).1 := by
  have hm : (s.openRows n a bs.length).mem = s.mem ∧ (s.openRows n a bs.length).ecc = s.ecc :=
    openRows_same s n a bs.length (p := .mem) (by decide)
  have he : (s.openRows n a bs.length).ecc = [] := hm.2.trans h
  have hb : ∀ (us : List Nat) (s : State) (p : Part), p ≠ .ctrs →
      p.same s (us.foldl (fun (s : State) u => s.bump (.quarry n) 0x40 (units u 64)) s) := by
    intro us
    induction us with
    | nil => intro s p _; cases p <;> simp [Part.same, Part.kept]
    | cons u us ih =>
      intro s p hp
      refine Part.same_trans ?_ (ih _ p hp)
      cases p <;> simp_all [Part.same, Part.kept]
  rw [State.quarryWrite, settle_idle hw, unitsWrite_clean he]
  have hk := hb (partUnits a bs.length) (s.openRows n a bs.length) .mem (by decide)
  refine ⟨rfl, ?_, ?_, ?_⟩
  · have := hk.1.trans hm.1
    simp [this]
  · have := hk.2.trans he
    show List.filter _ (State.ecc _) = []
    rw [this]; rfl
  · intro p h1 h2 h3
    refine Part.same_trans (openRows_same s n a bs.length ⟨h2, h3⟩) (Part.same_trans (hb (partUnits a bs.length) _ p h3) ?_)
    have hq : ∀ u : State, p.same u ((u.put a bs).bump (.quarry n) 0x48 (units a bs.length)) := by
      clear hb hk hm he hw h
      intro u
      cases p <;> first | exact absurd rfl h1 | exact absurd rfl h2 | exact absurd rfl h3 | simp [Part.same, Part.kept]
    exact hq _

end Sys2Proof.Machine
end

