-- ==== Sys2Proof/Laws/Flits.lean ====
section
/-! SUPPORT. Little-endian numbers and the flits built from them: what was put into a flit is read from it, and a flit that was
formed passes its check. -/

namespace Sys2Proof.Laws

open Sys2Proof.Machine

@[simp] theorem natLe_length (n v : Nat) : (natLe n v).length = n := by
  induction n generalizing v with
  | zero => rfl
  | succ n ih => simp [natLe, ih]

@[simp] theorem leNat_natLe (n v : Nat) : leNat (natLe n v) = v % 256 ^ n := by
  induction n generalizing v with
  | zero => simp [natLe, leNat, Nat.mod_one]
  | succ n ih =>
    have h : (256 : Nat) ^ (n + 1) = 256 * 256 ^ n := Nat.pow_succ'
    rw [natLe, leNat, ih, BitVec.toNat_ofNat, h, Nat.mod_mul]

/-- The last field of a structure is the number put there. -/
theorem byteFld_last (b : List Byte) (n v : Nat) : byteFld (b ++ natLe n v) b.length n = v % 256 ^ n := by
  simp [byteFld, List.take_of_length_le]

theorem fitTo_length (n : Nat) (bs : List Byte) : (fitTo n bs).length = n := by
  simp [fitTo, zeros]; omega

/-- The header of a flit formed is the header put into it. -/
theorem flitH_mkFlit (hdr : Nat) (pay : List Byte) : flitH (mkFlit hdr pay) = hdr % 2 ^ 64 := by
  simp [flitH, mkFlit, byteFld]

/-- The payload of a flit formed is the payload put into it. -/
theorem flitPay_mkFlit (hdr : Nat) (pay : List Byte) : flitPay (mkFlit hdr pay) = fitTo 244 pay := by
  simp [flitPay, mkFlit, fitTo_length]

/-- A flit formed passes the check of a flit received where its header does. -/
theorem flitOk_mkFlit (hdr : Nat) (pay : List Byte) (r : fld (hdr % 2 ^ 64) 14 0 = 0) (t : fld (hdr % 2 ^ 64) 63 60 ≤ 2)
    (c : ¬ (fld (hdr % 2 ^ 64) 63 60 = 1 ∧ fld (hdr % 2 ^ 64) 59 57 = 7)) : flitOk (mkFlit hdr pay) = true := by
  have h := flitH_mkFlit hdr pay
  have hb : (natLe 8 hdr ++ fitTo 244 pay).length = 252 := by simp [fitTo_length]
  have hc := byteFld_last (natLe 8 hdr ++ fitTo 244 pay) 4 (crc32 (natLe 8 hdr ++ fitTo 244 pay)).toNat
  rw [hb, Nat.mod_eq_of_lt (show _ < 256 ^ 4 from BitVec.isLt _)] at hc
  have ht : (mkFlit hdr pay).take 252 = natLe 8 hdr ++ fitTo 244 pay := by
    simp only [mkFlit]; rw [← hb]; exact List.take_left
  have hl : (mkFlit hdr pay).length = 256 := by simp [mkFlit, fitTo_length]
  simp only [flitOk, h, ht, hl, Bool.and_eq_true, Bool.not_eq_true', beq_iff_eq, decide_eq_true_eq]
  exact ⟨⟨⟨⟨trivial, hc⟩, r⟩, t⟩, by simpa using c⟩

end Sys2Proof.Laws
end

