-- ==== Sys2Proof/Laws/Lanes.lean ====
section
/-! SUPPORT. The lanes of a sub-bundle: when one issues, and what the close of a sub-bundle leaves. -/

namespace Sys2Proof.Machine

/-- What is due is done where nothing is. -/
theorem catchUp_current {s : State} {n : Nat} (h : (s.core n).current = true) : s.catchUp n = s := by simp [State.catchUp, h]

/-- A meaning of a core on which nothing is due. -/
theorem actCore_current {s : State} {n : Nat} (hl : s.live = true) (h : (s.core n).current = true) (f : State → State) :
    actCore s n f = .next (finish s (f s)) := by simp [actCore, act, hl, catchUp_current h]

/-- A lane that issues has its effect, and only that. -/
theorem lane_issues {s : State} {n : Nat} {op : LaneOp} (e : Eval) (fin : State → State) (h : LaneIssues s n op) :
    lane s n op e fin = fin (e.issued n) := by
  obtain ⟨⟨_, _, he, hp, hf⟩, ops, hd, hn, hj⟩ := h
  simp only [lane, he, hp, hf, hd, hn, Bool.not_true, Bool.false_eq_true, if_false, ne_eq, not_true_eq_false]
  by_cases h0 : (s.core n).cur.issued = 0
  · have := hj.resolve_left (fun c => c h0)
    simp [h0, this]
  · simp [h0]

/-- A lane that issues, as its command answers. -/
theorem opLane_next {s : State} {n : Nat} {op : LaneOp} (e : Eval) (h : LaneIssues s n op) :
    actCore s n (fun s => lane s n op e) = .next (finish s (e.issued n)) := by
  rw [actCore_current h.1.1 h.1.2.1, lane_issues e id h, id]

/-- The core that the close of a sub-bundle leaves. -/
theorem closeSub_core (s : State) (n skip : Nat) (push : Option Loop) :
    (s.closeSub n skip push).core n =
      (let c : Core := { s.core n with cclk := (s.core n).cclk + 1, louvreAcc := ((s.core n).louvreAcc + s.pwr.b) % 256 }
       let c := c.commit
       let p := stepLoops c.pc c.loops
       Core.refill { c with
          pc := if skip = 0 then p.1 else c.pc + 1 + skip, loops := push.toList ++ p.2
          hold := 0, slotHold := 0, lintHold := 0, waitMark := none, finishing := false, refetch := false }) := by
  simp [State.closeSub, State.tick, State.onCore]

/-- It leaves every other core alone. -/
theorem closeSub_core_ne (s : State) {n m : Nat} (skip : Nat) (push : Option Loop) (h : m ≠ n) :
    (s.closeSub n skip push).core m = s.core m := by
  simp [State.closeSub, State.tick, State.core_setCore_ne _ _ h]

/-- Parts that the close of a sub-bundle leaves alone. -/
theorem closeSub_same (s : State) (n skip : Nat) (push : Option Loop) (p : Part) (h : p ≠ .cores ∧ p ≠ .ctrs) :
    p.same s (s.closeSub n skip push) := by
  obtain ⟨h1, h2⟩ := h
  cases p <;> first | exact absurd rfl h1 | exact absurd rfl h2 | (simp [Part.same, Part.kept, State.closeSub, State.tick])

/-- The counters that it leaves alone. -/
theorem closeSub_ctrs (s : State) (n skip : Nat) (push : Option Loop) {k : Nat} (h : k ∉ closeCtrs n) :
    tget 0 (s.closeSub n skip push).ctrs k = tget 0 s.ctrs k := by
  simp only [closeCtrs, ctrsAt, List.map_cons, List.map_nil, List.mem_cons, List.not_mem_nil, or_false, not_or] at h
  obtain ⟨h1, h2, h3⟩ := h
  show tget 0 ((((s.bump (.core n) 0x48).bump (.core n) 0x40).bump (.core n) 0x50 _).ctrs) k = _
  rw [State.ctrs_bump_ne _ _ _ _ _ h3, State.ctrs_bump_ne _ _ _ _ _ h1, State.ctrs_bump_ne _ _ _ _ _ h2]

/-- ISSUED and CCLK advance. -/
theorem closeSub_issued (s : State) (n skip : Nat) (push : Option Loop) :
    (s.closeSub n skip push).ctr (.core n) 0x48 = (s.ctr (.core n) 0x48 + 1) % 2 ^ 48 ∧
    (s.closeSub n skip push).ctr (.core n) 0x40 = (s.ctr (.core n) 0x40 + 1) % 2 ^ 48 := by
  constructor
  · show (((s.bump (.core n) 0x48).bump (.core n) 0x40).bump (.core n) 0x50 _).ctr (.core n) 0x48 = _
    rw [State.ctr_bump_ne _ _ (by omega), State.ctr_bump_ne _ _ (by omega), State.ctr_bump_same]
  · show (((s.bump (.core n) 0x48).bump (.core n) 0x40).bump (.core n) 0x50 _).ctr (.core n) 0x40 = _
    rw [State.ctr_bump_ne _ _ (by omega), State.ctr_bump_same]
    rw [State.ctr_bump_ne _ _ (by omega)]

/-- The refill changes the fetch alone. -/
theorem Core.refill_eq (c : Core) : c.refill = { c with h0 := c.refill.h0, h1 := c.refill.h1 } := by
  unfold Core.refill
  dsimp only
  split_ifs <;> rfl

/-- What the program of a core sees does not change with the close of its sub-bundle. -/
theorem closeSub_program (s : State) (n skip : Nat) (push : Option Loop) :
    ((s.closeSub n skip push).core n).program = (s.core n).program := by
  rw [closeSub_core]
  dsimp only
  rw [Core.refill_eq]
  rfl

/-- A CONTROL lane that issues closes its sub-bundle. -/
theorem ctlLane_next {s : State} {n : Nat} {op : LaneOp} {skip : Nat} {push : Option Loop} (h : LaneIssues s n op) :
    actCore s n (fun s => ctlLane s n op skip push) = .next (finish s (((evalOp s n op).issued n).closeSub n skip push)) := by
  rw [actCore_current h.1.1 h.1.2.1, ctlLane, lane_issues _ _ h]

/-- Frame of a CONTROL lane from the frame of its effect. -/
theorem ctl_only {s u : State} {n skip : Nat} {push : Option Loop} {may : List Part} (hp : u.pending = s.pending)
    (hs : ∀ p, p ∉ may → p ≠ .cores → p ≠ .ctrs → p.same s u) (hc : ∀ m, m ≠ n → u.core m = s.core m) :
    OnlyCore s (finish s (u.closeSub n skip push)) n (.ctrs :: may) := by
  refine ⟨unchanged_finish ?_ ?_, ?_⟩
  · simpa [State.closeSub, State.tick] using hp
  · intro p hm
    simp only [List.mem_cons, not_or] at hm
    exact Part.same_trans (hs p hm.2.2 hm.1 hm.2.1) (closeSub_same u n skip push p ⟨hm.1, hm.2.1⟩)
  · intro m hm
    simp [closeSub_core_ne _ _ _ hm, hc m hm]

/-- What a CONTROL lane leaves of the sub-bundle. -/
theorem ctl_closed {s u : State} {n : CoreId} {skip : Nat} {push : Option Loop}
    (h1 : (u.core n).pc = (s.core n).pc) (h2 : (u.core n).loops = (s.core n).loops) (h3 : (u.core n).cclk = (s.core n).cclk)
    (h4 : (u.core n).vecNext = (s.core n).vecNext) (h5 : u.ctr (.core n) 0x48 = s.ctr (.core n) 0x48)
    (h6 : u.ctr (.core n) 0x40 = s.ctr (.core n) 0x40) :
    Closed s (finish s (u.closeSub n skip push)) n
      (if skip = 0 then (stepLoops (s.core n).pc (s.core n).loops).1 else (s.core n).pc + 1 + skip)
      (push.toList ++ (stepLoops (s.core n).pc (s.core n).loops).2) := by
  have hi := closeSub_issued u n skip push
  unfold Closed
  simp only [finish_get_core, finish_get_ctr, hi, h5, h6, and_true]
  rw [closeSub_core, Core.refill_eq]
  dsimp only [Core.commit]
  simp only [h1, h2, h3, true_and]
  exact h4

/-- An issued lane moves neither the PC -/
theorem issued_pc (e : Eval) (n : Nat) : ((e.issued n).core n).pc = (e.run.core n).pc := by simp [Eval.issued, Eval.names]

/-- nor the loop stack -/
theorem issued_loops (e : Eval) (n : Nat) : ((e.issued n).core n).loops = (e.run.core n).loops := by simp [Eval.issued, Eval.names]

/-- nor the clock -/
theorem issued_cclk (e : Eval) (n : Nat) : ((e.issued n).core n).cclk = (e.run.core n).cclk := by simp [Eval.issued, Eval.names]

/-- nor the vector unit, -/
theorem issued_vecNext (e : Eval) (n : Nat) : ((e.issued n).core n).vecNext = (e.run.core n).vecNext := by simp [Eval.issued, Eval.names, Core.vecNext]

/-- nor what its program sees, beyond its effect; -/
theorem issued_program (e : Eval) (n : Nat) : ((e.issued n).core n).program = (e.run.core n).program := by simp [Eval.issued, Eval.names]; rfl

/-- nor another core, -/
theorem issued_ne (e : Eval) {n m : Nat} (h : m ≠ n) : (e.issued n).core m = e.run.core m := by
  simp [Eval.issued, Eval.names, State.onCore, State.core_setCore_ne _ _ h]

/-- nor a counter, -/
theorem issued_ctr (e : Eval) (n : Nat) (p : Page) (o : Nat) : (e.issued n).ctr p o = e.run.ctr p o := rfl

/-- nor any of them, -/
theorem issued_ctrs (e : Eval) (n : Nat) : (e.issued n).ctrs = e.run.ctrs := rfl

/-- nor any part but the cores. -/
theorem issued_same (e : Eval) (n : Nat) (p : Part) (h : p ≠ .cores) : p.same e.run (e.issued n) := by
  cases p <;> first | exact absurd rfl h | simp [Part.same, Part.kept, Eval.issued, Eval.names]

/-- Everything about a CONTROL lane whose evaluation leaves the state alone. -/
theorem ctl_still {s : State} {c : CoreId} {op : LaneOp} {skip : Nat} {push : Option Loop}
    (h : LaneIssues s c op) (hr : (evalOp s c op).run = s) :
    ∃ t, actCore s c (fun s => ctlLane s c op skip push) = .next t ∧ OnlyCore s t c [.ctrs] ∧ CtrsBut s t (closeCtrs c) ∧
      (t.core c).program = (s.core c).program ∧
      Closed s t c (if skip = 0 then (stepLoops (s.core c).pc (s.core c).loops).1 else (s.core c).pc + 1 + skip)
        (push.toList ++ (stepLoops (s.core c).pc (s.core c).loops).2) := by
  refine ⟨_, ctlLane_next h, ?_, ?_, ?_, ?_⟩
  · refine ctl_only (show (evalOp s c op).run.pending = _ from congrArg State.pending hr) ?_ ?_
    · intro p _ hc _
      have := issued_same (evalOp s c op) c p hc
      rwa [hr] at this
    · intro m hm; rw [issued_ne _ hm, hr]
  · intro k hk
    simp only [finish_ctrs]
    rw [closeSub_ctrs _ _ _ _ hk, issued_ctrs, hr]
  · simp only [finish_get_core]
    rw [closeSub_program, issued_program, hr]
  · apply ctl_closed <;> simp only [issued_pc, issued_loops, issued_cclk, issued_vecNext, issued_ctr, hr]

/-- Where no active loop ends, the next sub-bundle follows. -/
theorem stepLoops_pass (pc : Nat) (ls : List Loop) (h : ∀ l ∈ ls, pc < l.last) : stepLoops pc ls = (pc + 1, ls) := by
  cases ls with
  | nil => rfl
  | cons l rest => have := h l (by simp); simp [stepLoops, show l.last ≠ pc by omega]

/-- A CONTROL lane whose effect touches its core (not its sequencing) and counters. -/
theorem ctl_effect {s : State} {c : CoreId} {op : LaneOp} {may : List Part} (h : LaneIssues s c op)
    (hp : (evalOp s c op).run.pending = s.pending) (hs : ∀ p, p ∉ may → p ≠ .cores → p ≠ .ctrs → p.same s (evalOp s c op).run)
    (hc : ∀ m, m ≠ c.val → (evalOp s c op).run.core m = s.core m)
    (h1 : ((evalOp s c op).run.core c).pc = (s.core c).pc) (h2 : ((evalOp s c op).run.core c).loops = (s.core c).loops)
    (h3 : ((evalOp s c op).run.core c).cclk = (s.core c).cclk) (h4 : ((evalOp s c op).run.core c).vecNext = (s.core c).vecNext)
    (h5 : (evalOp s c op).run.ctr (.core c) 0x48 = s.ctr (.core c) 0x48) (h6 : (evalOp s c op).run.ctr (.core c) 0x40 = s.ctr (.core c) 0x40) :
    ∃ t, actCore s c (fun s => ctlLane s c op) = .next t ∧ OnlyCore s t c (.ctrs :: may) ∧
      Closed s t c (stepLoops (s.core c).pc (s.core c).loops).1 (stepLoops (s.core c).pc (s.core c).loops).2 ∧
      (t.core c).program = ((evalOp s c op).run.core c).program ∧
      (∀ k, k ∉ closeCtrs c → tget 0 t.ctrs k = tget 0 (evalOp s c op).run.ctrs k) ∧
      (∀ p : Part, p ≠ .cores → p ≠ .ctrs → p.same (evalOp s c op).run (((evalOp s c op).issued c).closeSub c 0 none)) ∧
      t = finish s (((evalOp s c op).issued c).closeSub c 0 none) := by
  refine ⟨_, ctlLane_next h, ctl_only hp ?_ ?_, ?_, ?_, ?_, ?_, rfl⟩
  · intro p h1 h2 h3
    exact Part.same_trans (hs p h1 h2 h3) (issued_same _ c p h2)
  · intro m hm; rw [issued_ne _ hm]; exact hc m hm
  · have := ctl_closed (s := s) (u := (evalOp s c op).issued c) (n := c) (skip := 0) (push := none)
      (by rw [issued_pc, h1]) (by rw [issued_loops, h2]) (by rw [issued_cclk, h3]) (by rw [issued_vecNext, h4])
      (by rw [issued_ctr, h5]) (by rw [issued_ctr, h6])
    simpa using this
  · simp only [finish_get_core]; rw [closeSub_program, issued_program]
  · intro k hk; simp only [finish_ctrs]; rw [closeSub_ctrs _ _ _ _ hk, issued_ctrs]
  · intro p h1 h2
    exact Part.same_trans (issued_same _ c p h1) (closeSub_same _ c 0 none p ⟨h1, h2⟩)

/-- The address registers are among what a program sees. -/
theorem areg_program (s : State) (n r : Nat) : s.areg n r = tget 0 (s.core n).program.areg r := rfl
/-- So is the slot table. -/
theorem slot_program (s : State) (n r : Nat) : s.slot n r = tget 0 (s.core n).program.slots r := rfl

end Sys2Proof.Machine
end

