-- ==== Sys2Proof/Laws/Memory.lean ====
section
/-! SUPPORT. Byte memory: every operation keeps its canonical form; a read after a write. -/

namespace Sys2Proof.Machine

/-- A bound of the first address may be lowered. -/
theorem Memory.wfFrom_mono {lo hi : Nat} {m : List Host.Cell} (h : Memory.wfFrom hi m = true) (le : lo ≤ hi) :
    Memory.wfFrom lo m = true := by
  cases m with
  | nil => rfl
  | cons c t =>
    obtain ⟨a, v⟩ := c
    simp only [Memory.wfFrom, Bool.and_eq_true, decide_eq_true_eq] at h ⊢
    exact ⟨⟨by omega, h.1.2⟩, h.2⟩

/-- Writing one byte keeps the canonical form. -/
theorem Memory.wfFrom_memSet {lo x : Nat} {m : List Host.Cell} (w : Byte) (h : Memory.wfFrom lo m = true) (hx : lo ≤ x) :
    Memory.wfFrom lo (memSet m x w) = true := by
  induction m generalizing lo with
  | nil =>
    by_cases hw : w = 0#8
    · simp [memSet, hw, Memory.wfFrom]
    · simp [memSet, hw, Memory.wfFrom, hx]
  | cons c t ih =>
    obtain ⟨a, v⟩ := c
    simp only [Memory.wfFrom, Bool.and_eq_true, decide_eq_true_eq] at h
    simp only [memSet]
    split
    · next e =>
      subst e
      split
      · exact Memory.wfFrom_mono h.2 (by omega)
      · next hw =>
        have hw : ¬w = 0#8 := hw
        simp [Memory.wfFrom, hw, h.1.1, h.2]
    · next ne =>
      split
      · next lt =>
        have hv : (v != 0) = true := h.1.2
        split
        · simp only [Memory.wfFrom, Bool.and_eq_true, decide_eq_true_eq]; exact h
        · next hw =>
          have hw : (w != 0) = true := by simpa using hw
          simp only [Memory.wfFrom, Bool.and_eq_true, decide_eq_true_eq]
          exact ⟨⟨hx, hw⟩, ⟨by omega, hv⟩, h.2⟩
      · next ge =>
        have := ih (lo := a + 1) h.2 (by omega)
        simp only [Memory.wfFrom, Bool.and_eq_true, decide_eq_true_eq]
        exact ⟨h.1, this⟩

/-- Writing one byte keeps the canonical form. -/
theorem Memory.wf_memSet {m : List Host.Cell} (x : Nat) (w : Byte) (h : Memory.wf m = true) : Memory.wf (memSet m x w) = true :=
  Memory.wfFrom_memSet w h (Nat.zero_le _)

/-- Writing bytes keeps the canonical form. -/
theorem Memory.wf_memWrite {m : List Host.Cell} (a : Nat) (bs : List Byte) (h : Memory.wf m = true) :
    Memory.wf (memWrite m a bs) = true := by
  induction bs generalizing m a with
  | nil => exact h
  | cons b bs ih => exact ih (a + 1) (Memory.wf_memSet a b h)

/-- Leaving cells out keeps the canonical form. -/
theorem Memory.wfFrom_filter {lo : Nat} {m : List Host.Cell} (p : Host.Cell → Bool) (h : Memory.wfFrom lo m = true) :
    Memory.wfFrom lo (m.filter p) = true := by
  induction m generalizing lo with
  | nil => rfl
  | cons c t ih =>
    obtain ⟨a, v⟩ := c
    simp only [Memory.wfFrom, Bool.and_eq_true, decide_eq_true_eq] at h
    simp only [List.filter_cons]
    split
    · simp only [Memory.wfFrom, Bool.and_eq_true, decide_eq_true_eq]
      exact ⟨h.1, ih h.2⟩
    · exact Memory.wfFrom_mono (ih h.2) (by omega)

/-- Zeroing a range keeps the canonical form. -/
theorem Memory.wf_memZero {m : List Host.Cell} (lo hi : Nat) (h : Memory.wf m = true) : Memory.wf (memZero m lo hi) = true :=
  Memory.wfFrom_filter _ h

/-- Copying a range keeps the canonical form. -/
theorem Memory.wf_memCopy {m : List Host.Cell} (src dst n : Nat) (h : Memory.wf m = true) : Memory.wf (memCopy m src dst n) = true := by
  have : ∀ (cs acc : List Host.Cell), Memory.wf acc = true →
      Memory.wf (cs.foldl (fun acc c => memSet acc (dst + (c.1 - src)) c.2) acc) = true := by
    intro cs
    induction cs with
    | nil => intro acc ha; exact ha
    | cons c cs ih => intro acc ha; exact ih _ (Memory.wf_memSet _ _ ha)
  exact this _ _ (Memory.wf_memZero _ _ h)

/-- Below a memory's first address nothing is listed. -/
theorem memGet_below {lo x : Nat} {m : List Host.Cell} (h : Memory.wfFrom lo m = true) (hx : x < lo) : memGet m x = 0 := by
  induction m generalizing lo with
  | nil => rfl
  | cons c t ih =>
    obtain ⟨a, v⟩ := c
    simp only [Memory.wfFrom, Bool.and_eq_true, decide_eq_true_eq] at h
    have : x ≠ a := by omega
    simp [memGet, this, ih (lo := a + 1) h.2 (by omega)]

/-- A byte written leaves every other byte alone. -/
theorem memGet_memSet_ne {m : List Host.Cell} {x y : Nat} (w : Byte) (h : y ≠ x) : memGet (memSet m x w) y = memGet m y := by
  induction m with
  | nil => by_cases hw : w = 0#8 <;> simp [memSet, hw, memGet, h]
  | cons c t ih =>
    obtain ⟨a, v⟩ := c
    simp only [memSet]
    split
    · next e =>
      subst e
      split <;> simp [memGet, h]
    · split
      · split <;> simp [memGet, h]
      · simp [memGet, ih]

/-- A byte written is read. -/
theorem memGet_memSet_same {m : List Host.Cell} (x : Nat) (w : Byte) (h : Memory.wf m = true) : memGet (memSet m x w) x = w := by
  have key : ∀ (lo : Nat) (m : List Host.Cell), Memory.wfFrom lo m = true → memGet (memSet m x w) x = w := by
    intro lo m
    induction m generalizing lo with
    | nil => intro _; by_cases hw : w = 0#8 <;> simp [memSet, hw, memGet]
    | cons c t ih =>
      obtain ⟨a, v⟩ := c
      intro hm
      simp only [Memory.wfFrom, Bool.and_eq_true, decide_eq_true_eq] at hm
      simp only [memSet]
      split
      · next e =>
        subst e
        split
        · next hw => rw [hw]; exact memGet_below hm.2 (by omega)
        · simp [memGet]
      · next ne =>
        split
        · next lt =>
          split
          · next hw =>
            have := memGet_below (x := x) hm.2 (by omega)
            simp [memGet, ne, this, hw]
          · simp [memGet]
        · simp [memGet, ne, ih (a + 1) hm.2]
  exact key 0 m h

/-- Bytes outside a write are as before. -/
theorem memGet_memWrite_outside {m : List Host.Cell} {a y : Nat} (bs : List Byte) (h : y < a ∨ a + bs.length ≤ y) :
    memGet (memWrite m a bs) y = memGet m y := by
  induction bs generalizing m a with
  | nil => rfl
  | cons b bs ih =>
    simp only [List.length_cons] at h
    rw [memWrite, ih (by omega), memGet_memSet_ne b (by omega)]

/-- A byte of a write is read. -/
theorem memGet_memWrite_inside {m : List Host.Cell} {a : Nat} (bs : List Byte) {i : Nat} (hm : Memory.wf m = true) (h : i < bs.length) :
    memGet (memWrite m a bs) (a + i) = bs[i] := by
  induction bs generalizing m a i with
  | nil => simp at h
  | cons b bs ih =>
    cases i with
    | zero => simp [memWrite, memGet_memWrite_outside, memGet_memSet_same a b hm]
    | succ i =>
      have := ih (m := memSet m a b) (a := a + 1) (i := i) (Memory.wf_memSet _ _ hm) (by simpa using h)
      simpa [memWrite, Nat.add_assoc, Nat.add_comm 1 i] using this

end Sys2Proof.Machine
end

