-- ==== Sys2Proof/Laws/Reports.lean ====
section
/-! SUPPORT. What a report changes: an MSI-X message, a completion record, a fault record. -/

namespace Sys2Proof.Machine

/-- An MSI-X message touches the host interface and what leaves. -/
theorem msix_same (s : State) (v : Nat) {p : Part} (h : p ≠ .hif ∧ p ≠ .out) : p.same s (s.msix v) := by
  rw [State.msix_eq]
  cases p <;> simp_all [Part.same, Part.kept]

/-- The interrupt of a record, too. -/
theorem cqInterrupt_same (s : State) (q : Nat) {p : Part} (h : p ≠ .hif ∧ p ≠ .out) : p.same s (s.cqInterrupt q) := by
  have hq : ∀ f, p.same s (s.onHq q f) := by intro f; cases p <;> simp_all [Part.same, Part.kept]
  have h0 : p.same s s := by cases p <;> simp [Part.same, Part.kept]
  unfold State.cqInterrupt State.cqMessage
  split_ifs
  · exact h0
  · exact Part.same_trans (hq _) (msix_same _ _ h)
  · exact hq _

/-- A record written, too. -/
theorem writeRecord_same (s : State) (q : Nat) (bs : List Byte) {p : Part} (h : p ≠ .hif ∧ p ≠ .out) :
    p.same s (s.writeRecord q bs) := by
  unfold State.writeRecord
  refine Part.same_trans ?_ (cqInterrupt_same _ _ h)
  cases p <;> simp_all [Part.same, Part.kept]

/-- The parts that a fault record touches. -/
def faultParts : List Part := [.regs, .ctrs, .flt, .cores, .quarries]

/-- A latch released touches its register and its block. -/
theorem releaseLatch_same (s : State) (unit seq : Nat) {p : Part} (h : p ∉ faultParts) : p.same s (s.releaseLatch unit seq) := by
  unfold State.releaseLatch
  dsimp only
  split_ifs <;> cases p <;> simp_all [Part.same, Part.kept, faultParts]

/-- A record kept or lost touches those parts alone. -/
theorem keepFault_same (s : State) (cls unit sub seq : Nat) (bytes : List Byte) {p : Part} (h : p ∉ faultParts) :
    p.same s (s.keepFault cls unit sub seq bytes) := by
  unfold State.keepFault
  dsimp only
  split_ifs
  · cases p <;> simp_all [Part.same, Part.kept, faultParts]
  · refine Part.same_trans ?_ (releaseLatch_same _ _ _ h)
    cases p <;> simp_all [Part.same, Part.kept, faultParts]

/-- So does a mark for retirement. -/
theorem markRetire_same (s : State) (unit : Nat) {p : Part} (h : p ∉ faultParts) : p.same s (s.markRetire unit) := by
  cases p <;> simp_all [Part.same, Part.kept, faultParts, State.markRetire, State.setBit128]

/-- A fault record touches those parts alone. -/
theorem fault_same (s : State) (cls status : Nat) (job : Option Nat) (unit flags : Nat) (detail : List Byte) (sub : Nat)
    {p : Part} (h : p ∉ faultParts) : p.same s (s.fault cls status job unit flags detail sub) := by
  unfold State.fault
  dsimp only
  split
  · exact Part.same_trans (keepFault_same _ _ _ _ _ _ h) (markRetire_same _ _ h)
  · exact keepFault_same _ _ _ _ _ _ h

/-- The parts that a completion record can touch. -/
def postParts : List Part := .hif :: .out :: faultParts

/-- A latch stands where the unit is no core and no quarry. -/
theorem releaseLatch_other (s : State) {unit : Nat} (seq : Nat) (h : unit / 2 ^ 24 ≠ 0x10 ∧ unit / 2 ^ 24 ≠ 0x20) :
    s.releaseLatch unit seq = s := by
  unfold State.releaseLatch
  dsimp only
  rw [if_neg (fun c => h.1 c.1), if_neg (fun c => h.2 c.1)]

/-- A record of another unit leaves cores and quarries alone. -/
theorem fault_blocks (s : State) (cls status : Nat) (job : Option Nat) {unit : Nat} (flags : Nat) (detail : List Byte) (sub : Nat)
    (h : unit / 2 ^ 24 ≠ 0x10 ∧ unit / 2 ^ 24 ≠ 0x20) :
    (s.fault cls status job unit flags detail sub).cores = s.cores ∧
    (s.fault cls status job unit flags detail sub).quarries = s.quarries := by
  have hk : ∀ c u b q, (s.keepFault c unit u q b).cores = s.cores ∧ (s.keepFault c unit u q b).quarries = s.quarries := by
    intro c u b q
    unfold State.keepFault
    dsimp only
    split_ifs
    · exact ⟨rfl, rfl⟩
    · rw [releaseLatch_other _ _ h]; exact ⟨rfl, rfl⟩
  unfold State.fault
  dsimp only
  split
  · exact hk _ _ _ _
  · exact hk _ _ _ _

/-- The unit of a host queue page is no core and no quarry. -/
theorem hqUnit_other (q : Nat) : (Page.hq (fld q 9 6)).unit / 2 ^ 24 ≠ 0x10 ∧ (Page.hq (fld q 9 6)).unit / 2 ^ 24 ≠ 0x20 := by
  have hk : fld q 9 6 < 16 := by simp [fld]; omega
  generalize fld q 9 6 = k at hk
  interval_cases k <;> decide

/-- A host queue in error: its records are dropped and counted. -/
theorem hqError_same (s : State) (q err : Nat) {p : Part} (h : p ≠ .hif ∧ p ≠ .ctrs) : p.same s (s.hqError q err) := by
  cases p <;> simp_all [Part.same, Part.kept, State.hqError, State.dropHeld]

/-- A completion record touches those parts alone. -/
theorem post_same (s : State) (q status source : Nat) (job : Option Nat) (sq head : Nat) (detail : List Byte) {p : Part}
    (h : p ∉ postParts) : p.same s (s.post q status source job sq head detail) := by
  have hb : ∀ (x : State) q o k, p.same x (x.bump q o k) := by
    intro x q o k; cases p <;> simp_all [Part.same, Part.kept, postParts, faultParts]
  have hh : ∀ (x : State) f, p.same x { x with hif := f } := by
    intro x f; cases p <;> simp_all [Part.same, Part.kept, postParts, faultParts]
  have hf : p ∉ faultParts := by simp only [postParts, List.mem_cons, not_or] at h; exact h.2.2
  have hw : p ≠ .hif ∧ p ≠ .out := by simp only [postParts, List.mem_cons, not_or] at h; exact ⟨h.1, h.2.1⟩
  unfold State.post
  dsimp only
  split_ifs
  · exact hb _ _ _ _
  · exact writeRecord_same _ _ _ hw
  · exact hh _ _
  · have hc : p ≠ .hif ∧ p ≠ .ctrs := by simp only [faultParts, List.mem_cons, not_or] at hf; exact ⟨hw.1, hf.2.1⟩
    exact Part.same_trans (hb _ _ _ _) (Part.same_trans (hqError_same _ _ _ hc) (fault_same _ _ _ _ _ _ _ _ hf))

/-- No report touches the queue. -/
@[simp] theorem msix_pending (s : State) (v : Nat) : (s.msix v).pending = s.pending := by rw [State.msix_eq]
@[simp, inherit_doc msix_pending] theorem cqInterrupt_pending (s : State) (q : Nat) : (s.cqInterrupt q).pending = s.pending := by
  unfold State.cqInterrupt State.cqMessage; split_ifs <;> simp
@[simp, inherit_doc msix_pending] theorem writeRecord_pending (s : State) (q : Nat) (bs : List Byte) : (s.writeRecord q bs).pending = s.pending := by
  simp [State.writeRecord]
@[simp, inherit_doc msix_pending] theorem releaseLatch_pending (s : State) (u q : Nat) : (s.releaseLatch u q).pending = s.pending := by
  unfold State.releaseLatch; dsimp only; split_ifs <;> rfl
@[simp, inherit_doc msix_pending] theorem keepFault_pending (s : State) (c u b q : Nat) (bs : List Byte) : (s.keepFault c u b q bs).pending = s.pending := by
  unfold State.keepFault; dsimp only; split_ifs <;> simp
@[simp, inherit_doc msix_pending] theorem fault_pending (s : State) (c t : Nat) (j : Option Nat) (u f : Nat) (d : List Byte) (b : Nat) :
    (s.fault c t j u f d b).pending = s.pending := by
  unfold State.fault; dsimp only; split <;> simp [State.markRetire, State.setBit128]
@[simp, inherit_doc msix_pending] theorem post_pending (s : State) (q t c : Nat) (j : Option Nat) (a b : Nat) (d : List Byte) :
    (s.post q t c j a b d).pending = s.pending := by
  unfold State.post; dsimp only; split_ifs <;> simp [State.hostFault, State.hqError, State.dropHeld]

/-- A completion record leaves cores and quarries alone. -/
theorem post_blocks (s : State) (q : Nat) (status source : Nat) (job : Option Nat) (sq head : Nat) (detail : List Byte) :
    (s.post q status source job sq head detail).cores = s.cores ∧
    (s.post q status source job sq head detail).quarries = s.quarries := by
  have hw : ∀ bs, (s.writeRecord q bs).cores = s.cores ∧ (s.writeRecord q bs).quarries = s.quarries := by
    intro bs
    exact ⟨writeRecord_same s q bs (p := .cores) (by decide), writeRecord_same s q bs (p := .quarries) (by decide)⟩
  unfold State.post
  dsimp only
  split_ifs
  · exact ⟨rfl, rfl⟩
  · exact hw _
  · exact ⟨rfl, rfl⟩
  · exact fault_blocks _ _ _ _ _ _ _ (hqUnit_other q)

end Sys2Proof.Machine
end

