-- ==== Sys2Proof/Laws/Slots.lean ====
section
/-! SUPPORT. Slot rings: what emptying or filling a slot and moving a position change. -/

namespace Sys2Proof.Machine

/-- An entry of the slot table written. -/
theorem slot_setSlot (s : State) (n e v x : Nat) : (s.setSlot n e v).slot n x = if x = e then v else s.slot n x := by
  unfold State.slot State.setSlot
  simp only [State.onCore_eq, State.core_setCore_same]
  split
  · next h => subst h; simp
  · next h => rw [tget_tset_ne _ _ _ h]

/-- An entry's FULL written: the entry at the ring position, that bit alone. -/
theorem slot_setFull (s : State) (n h pos : Nat) (b : Bool) (x : Nat) :
    (s.setFull n h pos b).slot n x = if x = h + pos % sLen (s.slot n h)
      then putFld (s.slot n x) 63 63 (if b then 1 else 0) else s.slot n x := by
  unfold State.setFull
  rw [slot_setSlot]
  split
  · next e => rw [e]
  · rfl

/-- Fields below FULL stand. -/
theorem fld_setFull (s : State) (n h pos : Nat) (b : Bool) (x hi lo : Nat) (h1 : hi < 63) (h2 : lo ≤ hi) :
    fld ((s.setFull n h pos b).slot n x) hi lo = fld (s.slot n x) hi lo := by
  rw [slot_setFull]
  split
  · exact fld_putFld_below _ _ h1 h2
  · rfl

/-- Consecutive slots with FULL written. -/
def State.setFulls (s : State) (n h pos k : Nat) (b : Bool) : State :=
  (List.range k).foldl (fun s i => s.setFull n h (pos + i) b) s

/-- One more slot. -/
theorem setFulls_succ (s : State) (n h pos k : Nat) (b : Bool) :
    s.setFulls n h pos (k + 1) b = (s.setFulls n h pos k b).setFull n h (pos + k) b := by
  simp [State.setFulls, List.range_succ]

/-- Their entries: fields below FULL stand, FULL is written, no other entry changes. -/
theorem setFulls_slots (s : State) (n h pos k : Nat) (b : Bool) :
    (∀ x hi lo, hi < 63 → lo ≤ hi → fld ((s.setFulls n h pos k b).slot n x) hi lo = fld (s.slot n x) hi lo) ∧
    (∀ i, i < k → bitAt ((s.setFulls n h pos k b).slot n (h + (pos + i) % sLen (s.slot n h))) 63 = b) ∧
    (∀ x, (∀ i, i < k → x ≠ h + (pos + i) % sLen (s.slot n h)) → (s.setFulls n h pos k b).slot n x = s.slot n x) := by
  induction k with
  | zero => exact ⟨fun _ _ _ _ _ => rfl, fun _ h => absurd h (by omega), fun _ _ => rfl⟩
  | succ k ih =>
    obtain ⟨i1, i2, i3⟩ := ih
    have hlen : sLen ((s.setFulls n h pos k b).slot n h) = sLen (s.slot n h) := by
      unfold sLen; rw [i1 _ _ _ (by omega) (by omega)]
    rw [setFulls_succ]
    refine ⟨?_, ?_, ?_⟩
    · intro x hi lo h1 h2; rw [fld_setFull _ _ _ _ _ _ _ _ h1 h2, i1 _ _ _ h1 h2]
    · intro i hi
      rw [slot_setFull, hlen]
      split
      · rw [bitAt_eq_fld, fld_putFld_same]; cases b <;> rfl
      · next hne =>
        rcases Nat.lt_succ_iff_lt_or_eq.mp hi with h | h
        · exact i2 i h
        · exact absurd (by rw [h]) hne
    · intro x hx
      rw [slot_setFull, hlen, if_neg (hx k (by omega)), i3 x (fun i hi => hx i (by omega))]

/-- The later of two writes of a core stands. -/
@[simp] theorem setCore_setCore (s : State) (n : Nat) (a b : Core) : (s.setCore n a).setCore n b = s.setCore n b := by
  simp [State.setCore]

/-- An entry written changes the slot table of its core. -/
theorem setFull_eq (s : State) (n h pos : Nat) (b : Bool) :
    ∃ sl, s.setFull n h pos b = s.setCore n { s.core n with slots := sl } := ⟨_, rfl⟩

/-- Slots written change the slot table of their core. -/
theorem setFulls_eq (s : State) (n h pos k : Nat) (b : Bool) :
    ∃ sl, s.setFulls n h pos (k + 1) b = s.setCore n { s.core n with slots := sl } := by
  induction k with
  | zero => exact ⟨_, rfl⟩
  | succ k ih =>
    obtain ⟨sl, h1⟩ := ih
    obtain ⟨sl', h2⟩ := setFull_eq (s.setFulls n h pos (k + 1) b) n h (pos + (k + 1)) b
    refine ⟨sl', ?_⟩
    rw [setFulls_succ, h2, h1, State.core_setCore_same, setCore_setCore]

/-- CONS_POS moved, around the ring. -/
theorem slot_advCons (s : State) (n h k x : Nat) :
    (s.advCons n h k).slot n x = if x = h
      then putFld (s.slot n h) 43 38 ((sCons (s.slot n h) + k) % sLen (s.slot n h)) else s.slot n x := by
  unfold State.advCons
  rw [slot_setSlot]

/-- PROD_POS moved, around the ring. -/
theorem slot_advProd (s : State) (n h k x : Nat) :
    (s.advProd n h k).slot n x = if x = h
      then putFld (s.slot n h) 49 44 ((sProd (s.slot n h) + k) % sLen (s.slot n h)) else s.slot n x := by
  unfold State.advProd
  rw [slot_setSlot]

end Sys2Proof.Machine
end

