-- ==== Sys2Proof/Tests/Slice0.lean ====
section
/-! SUPPORT. Tests: an ill-formed term for every check of WellFormed, the manual's worked cases, and for each statement with
hypotheses a state and operands that meet them. -/

namespace Sys2Proof.Tests

open Sys2Proof Sys2Proof.Machine

set_option Elab.async false

/-! ### WellFormed refuses -/

theorem test_ill_queue : (Instr.streamHalt 0 160).wellFormed = false ∧ (Instr.stop 0 159 true).wellFormed = true ∧
    (Instr.streamDescriptorStart 0 224).wellFormed = false ∧ (Instr.windowEntryGenerate 0 160).wellFormed = false ∧
    (Instr.pageRequestSend 0 160).wellFormed = false ∧ (Instr.pageRequestResponse 0 160 .success).wellFormed = false ∧
    (Instr.resume 0 160 false).wellFormed = false := by decide
theorem test_ill_codeword : (Instr.sillPatrolScrub 0 [⟨256, 0⟩]).wellFormed = false ∧
    (Instr.sillPatrolScrub 0 [⟨255, 36⟩]).wellFormed = false ∧ (Instr.quarryCommandIssue 0 false [⟨128, 0⟩]).wellFormed = false ∧
    (Instr.quarryPatrolScrub 0 [⟨16, 0⟩]).wellFormed = false := by decide
theorem test_ill_sensors : (Instr.sensorRead [] []).wellFormed = false ∧ (Instr.pmbusPoll []).wellFormed = false := by decide
theorem test_ill_window : (Instr.windowOpen 0 0 0x80000000 .host).wellFormed = false := by decide
theorem test_ill_flit : (Instr.flitReceive 0 [] 0 0).wellFormed = false := by decide
theorem test_ill_frame : (Instr.ethFrameReceive 0 (zeros 9217)).wellFormed = false := by decide +kernel
theorem test_ill_register : (Instr.registerWrite 2 false 0 .host).wellFormed = false ∧
    (Instr.registerWrite 4 true 0 .host).wellFormed = false ∧ (Instr.registerWrite 4 false 0x100000000 .host).wellFormed = false := by
  decide
theorem test_ill_access : (Instr.bar0InvalidAccess 0 ⟨0, false⟩).wellFormed = false ∧ (Instr.bar0InvalidAccess 0 ⟨4097, true⟩).wellFormed = false := by decide
theorem test_ill_counter : (Instr.counterLowRead ⟨4, false⟩).wellFormed = false ∧ (Instr.counterHighRead 8).wellFormed = false := by decide
theorem test_ill_bar2 : (Instr.bar2Read 0 0).wellFormed = false ∧ (Instr.bar2Read 0 513).wellFormed = false ∧
    (Instr.bar2Read (2 ^ 37) 1).wellFormed = false ∧ (Instr.bar2Write 0 [] false).wellFormed = false ∧
    (Instr.bar2Write (2 ^ 37) [0] false).wellFormed = false := by decide
theorem test_ill_entry : (Instr.queueEnable 0 0).wellFormed = false ∧ (Instr.sqEntryFetch 0 (some [])).wellFormed = false := by decide
theorem test_ill_trip : (Instr.thermalTrip true 64 0).wellFormed = false ∧ (Instr.thermalTrip false 128 0).wellFormed = false := by decide
theorem test_ill_discard : (Instr.discard 0x410014 1).wellFormed = false := by decide
theorem test_ill_mail : (Instr.imageBegin 2049 []).wellFormed = false ∧ (Instr.imageChunk 2049 []).wellFormed = false ∧
    (Instr.imageEnd 2049).wellFormed = false ∧ (Instr.setJobkey 2049 []).wellFormed = false := by decide
theorem test_ill_long_mail : (Instr.imageBegin 0 (zeros 2049)).wellFormed = false ∧ (Instr.imageChunk 0 (zeros 2049)).wellFormed = false ∧
    (Instr.setJobkey 0 (zeros 2049)).wellFormed = false := by decide +kernel
theorem test_ill_failed : (Instr.bringUpComplete [.quarry 0, .quarry 0] []).wellFormed = false ∧
    (Instr.bringUpComplete [] [.management, .management]).wellFormed = false := by decide
theorem test_ill_nonce : (Instr.attest [] 0).wellFormed = false := by decide
theorem test_ill_link : (Instr.hostLinkUp 2 16 true).wellFormed = false ∧ (Instr.hostLinkUp 7 16 true).wellFormed = false ∧
    (Instr.hostLinkUp 6 2 true).wellFormed = false := by decide
theorem test_ill_config : (Instr.configurationRequest (.bar2Size 8)).wellFormed = false ∧
    (Instr.configurationRequest (.enablePri true (2 ^ 32))).wellFormed = false := by decide

/-! ### The manual's worked cases -/

/-- Worked case under R11: the state word 0x3005_A103 in memory. -/
theorem test_little_endian : natLe 4 0x3005A103 = [0x03, 0xA1, 0x05, 0x30] ∧ leNat [0x03, 0xA1, 0x05, 0x30] = 0x3005A103 := by decide
/-- Worked case under R24: quarry and sill of core 37; under R197: row 300 of the sill of core 100. -/
theorem test_addresses : quarryBase 37 = 0x6F0000000 ∧ sillBase 37 = 0x2009400000 ∧ rowAddr 100 300 = 0x2019025800 := by decide
/-- Worked case under R149: the sub-bundle of ARR.MUL with ADD at row 0x123 and V3 = V1 × V2 + V4 under M0. -/
theorem test_sub_bundle : decodeSub (BitVec.ofNat 256 (0x1306111000000000 + 0x180123 * 2 ^ 64)) = some [
    .arrMul true false 0x123, .vecAlu { fn := 3, mask := 0, vd := 3, va := 1, vb := 2, vc := 4, imm := false, imm16 := 0, cond := 0, msel := 0, md := 0, lane := 0 }, .ctlNop] := by decide +kernel

/-! ### Worked cases of the number formats -/

/-- Worked case under R49 (conversion to E4M3): 3.3 sets X = −7; 3.3, −0.01 and 0.0001 as codes. -/
theorem test_ordinary_block :
    let q := quantOrdinary .e4m3 [0x40533333#32, 0xBC23D70A#32, 0x38D1B717#32]
    q.scale = 0x78 ∧ q.elems.map Conv.code = [0x7D, 0xBA, 0x07] := by decide +kernel
/-- Worked case under R50: a privileged block of 3.6 under T = 2^−7. -/
theorem test_privileged_block :
    let q := quantPrivileged .e4m3 0x3C000000#32 [0x40666666#32]
    q.scale = 0x39 ∧ q.elems.map Conv.code = [0x7D] := by decide +kernel
/-- Worked case under R65: 0.1 and −2^−52 under EXP 0x88, and the saturation of 0.3. -/
theorem test_exact_elements : toXf 0x88 0x3DCCCCCD#32 = (0x3333334000000, false, false) ∧
    toXf 0x88 0xA5400000#32 = (-2, false, false) ∧ toXf 0x88 0x3E99999A#32 = (0x7FFFFFFFFFFFF, true, false) := by decide +kernel

/-- Worked case under R434: two samples of a loss monitor with SHIFT 3 and K_Q4 64, past its warm-up. -/
theorem test_loss_monitor :
    let m : Loss := { samples := 300, mean := 0x02800000, dev := 0x00100000 }
    let a := lossStep 0 0x4031 m 0x02C00000
    a.2 = false ∧ a.1.mean = 0x02880000 ∧ (lossStep 0 0x4031 a.1 0x03800000).2 = true ∧
      (lossStep 0 0x4031 a.1 0x03800000).1.mean = 0x02930000 := by decide +kernel
/-- The rule of R69: 12 above the largest of the history, 4 more after a range miss. -/
theorem test_next_exp : nextExp [0x7B, 0x7C, 0x7A, 0x7C] false = 0x88 ∧ nextExp [0x7D, 0x7C, 0x7A, 0x7C] true = 0x8D := by decide

/-! ### States that meet the statements' hypotheses -/

/-- A device that has come up, with memory of its own. -/
def up : State := { State.reset with
  boot := { perst := true, devRst := true, pwrgd := true, held := false, stage := 5, keyReady := true } }
/-- Job 0 running on core 0, which stands as given in its first block, with a sub-bundle at its PC; the first 64 KiB of quarry 0 are its. -/
def on0 (c : Core) (w : Nat := 0) : State := { up with
  runSlot := some 0, jobs := [(0, { st := .running, ncores := 1, placed := 1 })], regs := [((Page.quarry 0).base + 0x200, 0x80010000)]
  cores := [(0, { c with job := some 0, running := true, codeLen := 65536
                         h0 := some { block := 0, filled := true, code := memWrite [] (32 * c.pc) (natLe 32 w) } })] }
/-- A state with bytes in core 0's sill, from a row. -/
def withRow (s : State) (row : Nat) (bs : List Byte) : State := { s with mem := memWrite s.mem (rowAddr 0 row) bs }
/-- A descriptor in row 0 of core 0's sill that register 1 names: of FP32 elements, or of another format's CTRL. -/
def withDesc (s : State) (ctrl : Nat) : State :=
  (withRow s 0 (natLe 4 ctrl)).onCore 0 (fun c => { c with areg := tset c.areg 1 (sillBase 0) })

/-! ### Cores -/

/-- Where an operation issues, as a check. -/
def laneCheck (s : State) (n : Nat) (op : LaneOp) : Bool :=
  s.live && (s.core n).current && s.evaluates n && !(s.core n).pastEnd && (s.core n).fetched &&
    (decodeSub (BitVec.ofNat 256 (s.core n).word)).any (fun ops => ops[(s.core n).cur.issued]? == some op &&
      ((s.core n).cur.issued != 0 || s.judge n ops == .issue))
theorem lane_iff (s : State) (n : Nat) (op : LaneOp) : LaneIssues s n op ↔ laneCheck s n op = true := by
  simp [LaneIssues, CoreIssues, laneCheck, Option.any_eq_true, and_assoc]
theorem calm_iff {s : State} {n : Nat} (f : s.flight = []) : s.calm n ↔ s.ecc = [] ∧ (s.core n).settled = true := by
  simp [State.calm, State.admitted, f]
theorem quiet_iff {s : State} (f : s.flight = []) : s.quiet ↔ s.ecc = [] := by simp [State.quiet, State.admitted, f]
theorem all_cons {α : Type} {p : α → Prop} (a : α) (l : List α) : (∀ x ∈ a :: l, p x) ↔ p a ∧ ∀ x ∈ l, p x := List.forall_mem_cons
theorem some_all {α : Type} {o : Option α} {p : α → Bool} : (∀ a, o = some a → p a = true) ↔ o.all p = true := by cases o <;> simp
theorem all_nil {α : Type} {p : α → Prop} : (∀ x ∈ ([] : List α), p x) ↔ True := by simp

/-- The lanes of a sub-bundle at their places (Table 5.1). -/
def ctlW (v : Nat) : Nat := v * 2 ^ 208
@[inherit_doc ctlW] def strW (v : Nat) : Nat := v * 2 ^ 184
@[inherit_doc ctlW] def loadW (v : Nat) : Nat := v * 2 ^ 136
@[inherit_doc ctlW] def storeW (v : Nat) : Nat := v * 2 ^ 88
@[inherit_doc ctlW] def arrW (v : Nat) : Nat := v * 2 ^ 64

theorem witness_StepsTheLoops :
    let end_ := ctlW (2 * 2 ^ 42 + 3)
    LaneIssues (on0 {}) 0 .ctlNop ∧ ((on0 {}).core 0).loops = [] ∧
    LaneIssues (on0 { pc := 4, loops := [⟨3, 5, 2, 0⟩] }) 0 .ctlNop ∧
    LaneIssues (on0 { pc := 5, loops := [⟨3, 5, 2, 0⟩] }) 0 .ctlNop ∧
    LaneIssues (on0 { pc := 5, loops := [⟨3, 5, 1, 1⟩] }) 0 .ctlNop ∧
    LaneIssues (on0 { pc := 1021 } (ctlW (2 ^ 42 + 2 ^ 20 + 1))) 0 (.ctlLoop 1 1) ∧
    (let s := on0 { pc := 5, loops := [⟨3, 9, 2, 0⟩] } end_
     LaneIssues s 0 (.ctlSkip 0 0 3) ∧ (s.core 0).loops.reverse[0]? = some ⟨3, 9, 2, 0⟩ ∧
       ∀ k ∈ (s.core 0).loops, (s.core 0).pc + 1 + 3 ≤ k.last) := by
  simp only [lane_iff]; decide +kernel
theorem witness_SetaSlotld :
    let s := withRow (on0 {} (ctlW (13 * 2 ^ 42 + 1023 * 2 ^ 32 + 8191))) 8191 (natLe 8 0x5000000000000000)
    LaneIssues (on0 {} (ctlW (12 * 2 ^ 42 + 63 * 2 ^ 36 + 2 ^ 35 + 5))) 0 (.ctlSeta 63 true 5) ∧
    LaneIssues s 0 (.ctlSlotld 1023 0 8191) ∧ s.ecc = [] ∧ (s.core 0).settled = true := by
  simp only [lane_iff]; decide +kernel
/-- Entries of an inbound and of an outbound ring of two slots: VALID, HEAD, AGENT_ID 0. -/
def ringIn : Nat := 2 ^ 62 + 2 ^ 60 + 2 ^ 32 + 4
@[inherit_doc ringIn] def ringOut : Nat := ringIn + 2 ^ 61
theorem witness_SwaitSdrop :
    let w (empty : Bool) : Nat := ctlW (8 * 2 ^ 42 + (if empty then 2 ^ 41 else 0) + 1022)
    let s (empty : Bool) (slots : Tab Nat) : State := on0 { slots := slots } (w empty)
    let d := on0 { slots := [(1022, ringIn + 2 ^ 63), (1023, 2 ^ 63)] } (ctlW (9 * 2 ^ 42 + 2 ^ 10 + 1022))
    (LaneIssues (s true [(1022, ringOut)]) 0 (.ctlSwait true 1022) ∧ ((s true [(1022, ringOut)]).core 0).settled = true) ∧
    (∀ x ∈ [(true, ringOut), (true, ringOut + 2 ^ 63), (false, ringIn), (false, ringIn + 2 ^ 63)],
      let u := s x.1 [(1022, x.2)]
      CoreIssues u 0 ∧ decodeSub (BitVec.ofNat 256 (u.core 0).word) = some [.ctlSwait x.1 1022] ∧ (u.core 0).cur = {} ∧
        u.lintelHeld 0 = false ∧ u.ringOk 0 1022 = true ∧ sOut (u.slot 0 1022) = x.1 ∧
        (u.slotFull 0 1022 (if x.1 then sProd (u.slot 0 1022) else sCons (u.slot 0 1022))) = decide (2 ^ 63 ≤ x.2)) ∧
    LaneIssues d 0 (.ctlSdrop 1 1022) ∧ (d.core 0).settled = true ∧ d.ringOk 0 1022 = true := by
  simp only [lane_iff, CoreIssues]; decide +kernel
/-- Core 0 a participant of lintel 255 of job 0, as given. -/
def atLintel (s : State) (l : Lint) : State := { s with lintels := [(255, { l with valid := true })] }
theorem witness_Lintels :
    let at_ (op : Nat) (l : Lint) : State := atLintel (on0 {} (ctlW (op * 2 ^ 42 + 255))) l
    let gone : Lint := { mask := 3, phase := 1, last := [(0, 0)] }
    let wait (l : Lint) : State := at_ 5 l
    (LaneIssues (at_ 4 { mask := 1, notify := 3 }) 0 (.ctlArrive 255) ∧ LaneIssues (at_ 6 { mask := 3 }) 0 (.ctlLintel 255) ∧
      ((at_ 6 {}).core 0).job = some 0) ∧
    (LaneIssues (wait gone) 0 (.ctlWait 255) ∧ ∀ l ∈ [gone, { gone with phase := 0 }],
      let w := wait l
      CoreIssues w 0 ∧ decodeSub (BitVec.ofNat 256 (w.core 0).word) = some [.ctlWait 255] ∧ (w.core 0).cur = {} ∧
        w.lintelHeld 0 = false ∧ (w.core 0).job = some 0 ∧ (w.lint 0 255).valid = true ∧ bitAt (w.lint 0 255).mask 0 = true ∧
        tfind (w.lint 0 255).last 0 = some 0) ∧
    (let r := at_ 0 { mask := 1, arrived := 1 }
     r.live = true ∧ (r.lint 0 255).valid = true ∧ (r.lint 0 255).arrived &&& (r.lint 0 255).mask = (r.lint 0 255).mask ∧
       (r.lint 0 255).expect ≤ (r.lint 0 255).msgCur ∧ (r.lint 0 255).mask ≠ 0 ∧ r.red.tags = []) ∧
    (let m := at_ 0 { mask := 1, arrived := 1, expect := 1 }
     m.live = true ∧ ¬ (m.lint 0 255).expect ≤ (m.lint 0 255).msgCur) := by
  simp only [lane_iff, CoreIssues]; decide +kernel
theorem witness_End :
    let s := on0 {} (ctlW (16 * 2 ^ 42))
    let t := { s with jobs := [(0, { st := .running, ncores := 2, placed := 3 })] }
    let p := s.onCore 0 (fun c => { c with pc := 2048 })
    (LaneIssues s 0 .ctlEnd ∧ (s.core 0).job = some 0 ∧ ∀ k ∈ coresOf (s.job 0).placed, k ≠ 0 → (s.core k).ended = true) ∧
    (LaneIssues t 0 .ctlEnd ∧ (t.core 0).job = some 0 ∧ ∃ k ∈ coresOf (t.job 0).placed, k ≠ 0 ∧ (t.core k).ended = false) ∧
    (p.live = true ∧ (p.core 0).current = true ∧ p.evaluates 0 = true ∧ (p.core 0).pastEnd = true ∧ (p.core 0).job = some 0) := by
  simp only [lane_iff]; decide +kernel
theorem witness_IssueStop :
    let s := withDesc (on0 {} (strW (2 ^ 20 + 159 * 2 ^ 12 + 1))) 0
    let t (h : Bool) : State := on0 { sq := [(159, { halting := h })] } (strW (2 * 2 ^ 20 + 159 * 2 ^ 12))
    LaneIssues s 0 (.strIssue 159 1) ∧ s.ecc = [] ∧ (s.core 0).settled = true ∧
      ∀ h, LaneIssues (t h) 0 (.strStop 159) ∧ ((t h).sq 0 159).halting = h := by
  simp only [lane_iff]; decide +kernel

/-! ### The array and the vector unit -/

/-- A tensor format of no scales. -/
def plain (f : EFmt) (mode : Nat) (t : W32) : TDesc := ⟨f, mode, false, t, 0, 0, 0⟩
/-- A loaded tile of a format, zeros. -/
def aTile (d : TDesc) : Tile := { desc := d, transposed := false, chan := [], trow := 0, loc := 0, completeAt := some 0 }
/-- A filled half of the staging buffer, of one zero vector. -/
def aStage (f : EFmt) : Stage := { fmt := f, vecs := [zeroVec f] }
/-- A descriptor of BLOCK E4M3 elements in row 0 of core 0's sill that register 1 names, its scales from row 0 on. -/
def withBlocks (s : State) : State :=
  (withRow s 0 (natLe 4 0x10 ++ zeros 12 ++ natLe 8 (sillBase 0))).onCore 0 (fun c => { c with areg := tset c.areg 1 (sillBase 0) })
@[inherit_doc withBlocks] def blocks : TDesc := ⟨.e4m3, 1, false, 0, sillBase 0, 0, 0⟩
theorem witness_TileLoad :
    let s (loc : Nat) : State := withDesc (on0 { slots := [(9, 2 ^ 63 + 2 ^ 62 + 2 ^ 60 + 127 * 2 ^ 13)] } (loadW (2 ^ 44 + loc * 2 ^ 29 + 2 ^ 23 + 0xFFFFF))) 3
    let t (loc : Nat) (v : List Resv) : State := on0 { cclk := 1, resv := v, slots := [(9, ringIn)]
                                                       arr := { shadow := some { aTile (plain .bf16 0 0) with completeAt := none, loc := loc } } }
    let l (loc : Nat) (v : List Resv) : State := (t loc v).onCore 0 (fun c => { c with life := { st := .opened } })
    (∀ loc ∈ [8064, 8201], (s loc).calm 0 ∧ LaneIssues (s loc) 0 (.ldTload false (BitVec.ofNat 14 loc) 1 0xFFFFF) ∧
      (s loc).descOf 0 1 = (0, plain .bf16 0 0)) ∧ (s 8201).ringOk 0 9 = true ∧ (s 8201).companion 0 9 (plain .bf16 0 0) = false ∧
    (∀ x ∈ [(8064, [], false, some (8064, 0)), (8064, [⟨0, 12, false⟩], true, some (8064, 0)), (8201, [], false, none)],
      let u := l x.1 x.2.1
      u.live = true ∧ (u.core 0).life.st = .opened ∧ u.calm 0 ∧ (u.core 0).due = [] ∧
        (u.core 0).arr.shadow = some { aTile (plain .bf16 0 0) with completeAt := none, loc := x.1 } ∧ 0 + 1 = (u.core 0).cclk ∧
        u.loaderNext 0 { aTile (plain .bf16 0 0) with completeAt := none, loc := x.1 } = x.2.2.2 ∧
        (u.core 0).loaderLoses 0 (bankOf 8064) = x.2.2.1 ∧
        u.rowsFree 0 (plainLoc (BitVec.ofNat 14 x.1)) (plain .bf16 0 0) [(8064, 0)]) := by
  simp only [all_cons, all_nil, lane_iff, and_true]
  simp (disch := decide +kernel) only [calm_iff]
  simp only [State.rowsFree]
  and_intros <;> decide +kernel
theorem witness_Stage :
    let s (v : Nat) : State := withDesc (on0 { slots := [(9, ringIn - 2 ^ 32 + 1 + 2 ^ 63)] } (loadW v)) 3
    let at_ (half : Bool) (loc mode w : Nat) : State :=
      withRow (s (2 * 2 ^ 44 + (if half then 2 ^ 43 else 0) + loc * 2 ^ 29 + 2 ^ 23 + mode * 2 ^ 21 + w * 2 ^ 9)) 5
        ((List.range 8).flatMap (fun _ => natLe 4 (2 ^ 31)))
    ∀ x ∈ [(true, 1, 0, 0), (false, 8064, 2, 0), (false, 0, 1, 9)],
      let u := at_ x.1 x.2.1 x.2.2.1 x.2.2.2
      u.calm 0 ∧ LaneIssues u 0 (.ldStage x.1 (BitVec.ofNat 14 x.2.1) 1 (BitVec.ofNat 2 x.2.2.1) 0 (BitVec.ofNat 10 x.2.2.2)) ∧
        u.descOf 0 1 = (0, plain .bf16 0 0) ∧ u.rowsFree 0 true (plain .bf16 0 0) ((List.range 128).map (fun i => (8064 + i, 0))) := by
  simp only [all_cons, all_nil, lane_iff, and_true]
  simp (disch := decide +kernel) only [calm_iff]
  simp only [State.rowsFree]
  and_intros <;> decide +kernel
theorem witness_Mul :
    let w (add iter : Bool) (row : Nat) : Nat := arrW (2 ^ 20 + (if add then 2 ^ 19 else 0) + (if iter then 2 ^ 18 else 0) + row)
    let s := on0 { arr := { active := some (aTile (plain .bf16 0 0)), s0 := aStage .bf16 } } (w true true 4095)
    let i := on0 { arr := { active := some (aTile (plain .int8 2 fOne)), s1 := aStage .int8 } } (w false false 0)
    (LaneIssues s 0 (.arrMul true true 4095) ∧ (s.core 0).oldest = some (false, aStage .bf16) ∧ (s.core 0).job = some 0) ∧
    (LaneIssues i 0 (.arrMul false false 0) ∧ (i.core 0).oldest = some (true, aStage .int8)) := by
  simp only [lane_iff]; decide +kernel
theorem witness_Swap :
    let s := withDesc (on0 { arr := { shadow := some (aTile (plain .bf16 0 0)) } } (arrW (2 * 2 ^ 20 + 3 * 2 ^ 18 + 2 ^ 12))) 3
    LaneIssues s 0 (.arrSwap 3 1) ∧ s.ecc = [] ∧ (s.core 0).settled = true ∧ (s.core 0).arr.shadow = some (aTile (plain .bf16 0 0)) ∧
      s.descOf 0 1 = (0, plain .bf16 0 0) := by
  simp only [lane_iff]; decide +kernel
/-- A result that waits for the checker: 32 outputs of 1, or none that are finite, and a checksum output. -/
def anEnt (probe int8 nan : Bool) (c : Nat) : ChkEnt :=
  { probe := probe, int8 := int8, y := List.replicate 32 (if nan then .nan else .fin false 1 0), c := .fin false c 0
    sums := List.replicate 32 (.fin false 1 0) ++ [.fin false 32 0], bounds := [], tileSeq := 0, vec := 1, at_ := 0 }
/-- Core 0 with it, one CCLK later, under an ARRAY_CTRL. -/
def withEnt (ctl : Nat) (e : ChkEnt) : State :=
  { on0 { cclk := 1, arr := { chkQ := [e] } } with regs := [((Page.array 0).base + 0x100, BitVec.ofNat 32 ctl)] }
theorem witness_Checker :
    let fin (e : ChkEnt) : Bool := ((e.y ++ [e.c]).take 32).all Machine.Num.isFin && e.c.isFin
    let sum (e : ChkEnt) : Machine.Num := sumNum ((e.y ++ [e.c]).take 32)
    let past (e : ChkEnt) : Bool := exceeds e.c (sum e) 0 1
    (∀ p, ∀ x ∈ [anEnt p true false 32, anEnt p true false 33, anEnt p false false 32, anEnt p false false 1000, anEnt p false true 32],
      ∀ ctl ∈ [0, 3, 7], let s := withEnt ctl x
      s.live = true ∧ (s.core 0).arr.chkQ.find? (fun e => e.probe == p) = some x ∧ s.counted 0 = true ∧ x.at_ < (s.core 0).cclk ∧
        (s.core 0).job = some 0 ∧ fld (s.preg (.array 0) 0x100) 27 16 = 0) ∧
    bitAt ((withEnt 3 (anEnt false true false 0)).preg (.array 0) 0x100) 0 = true ∧
    (let e := anEnt false true false 32
     (sum e).eqv e.c = true ∧ (sum e).eqv (anEnt false true false 33).c = false) ∧
    (let e := anEnt false false false 32
     fin e = true ∧ past e = false ∧ past (anEnt false false false 1000) = true) ∧ fin (anEnt false false true 32) = false ∧
    (let e := anEnt true true false 33
     (e.y ++ [e.c]).getD 32 .nan ≠ e.sums.getD 32 .nan) := by decide +kernel
/-- A state with a full register 1, and a VECTOR operation at its PC. -/
def vecState (v : Nat) : State := on0 { vec := { v := [(1, List.replicate 256 fOne)] } } v
/-- A VEC.ALU operation of a function, and its bits. -/
def aluOp (fn : BitVec 4) : AluLane :=
  { fn := fn, mask := 0, vd := 2, va := 1, vb := 31, vc := 0, imm := true, imm16 := 0x3F80, cond := 5, msel := 0, md := 3, lane := 255 }
@[inherit_doc aluOp] def aluW (fn : Nat) : Nat :=
  2 ^ 60 + fn * 2 ^ 56 + 2 * 2 ^ 49 + 2 ^ 44 + 31 * 2 ^ 39 + 2 ^ 33 + 0x3F80 * 2 ^ 16 + 5 * 2 ^ 13 + 3 * 2 ^ 9 + 255
/-- An operation of another class, and its bits. -/
def fnOp (fn : BitVec 4) (seg : BitVec 2) (base : BitVec 8) : FnLane :=
  { fn := fn, mask := 3, vd := 2, va := 1, vb := 31, seg := seg, dbase := base }
@[inherit_doc fnOp] def fnW (cls fn seg base : Nat) : Nat :=
  cls * 2 ^ 60 + fn * 2 ^ 56 + 3 * 2 ^ 54 + 2 * 2 ^ 49 + 2 ^ 44 + 31 * 2 ^ 39 + seg * 2 ^ 8 + base
theorem witness_Alu : ∀ fn ∈ [0, 8, 9, 10],
    LaneIssues (vecState (aluW fn)) 0 (.vecAlu (aluOp (BitVec.ofNat 4 fn))) ∧ (aluOp (BitVec.ofNat 4 fn)).md ≠ 0 := by
  simp only [lane_iff]; decide +kernel
theorem witness_VectorFunctions : LaneIssues (vecState (fnW 2 12 0 0)) 0 (.vecSfu (fnOp 12 0 0)) ∧
    LaneIssues (vecState (fnW 4 6 0 0)) 0 (.vecDact (fnOp 6 0 0)) ∧ LaneIssues (vecState (fnW 3 1 0 248)) 0 (.vecRed (fnOp 1 0 248)) ∧
    LaneIssues (vecState (fnW 3 0 3 255)) 0 (.vecRed (fnOp 0 3 255)) ∧
    (let s := vecState 0
     ((s.core 0).vecNext.reg 2).length = 256 ∧ ((s.core 0).vec.reg 1).length = 256 ∧ (s.core 0).job = some 0) := by
  simp only [lane_iff]; decide +kernel
/-- DUP_EN and ACTION of VEC_CTRL, as the clauses on a mismatch name them. -/
theorem witness_Duplicates : ∀ ctl ∈ [0, 1, 3],
    let s : State := { vecState (aluW 0) with regs := [((Page.vector 0).base + 0x100, BitVec.ofNat 32 ctl)] }
    LaneIssues s 0 (.vecAlu (aluOp 0)) ∧ bitAt (s.preg (.vector 0) 0x100) 0 = decide (ctl ≠ 0) ∧
      bitAt (s.preg (.vector 0) 0x100) 1 = decide (ctl = 3) := by
  simp only [lane_iff]; decide +kernel
/-- Worked case of R118: the sigmoid of 1.0 is 0x3F3B_26A8 within 2 ULP; the same value bounds the model's choice. -/
theorem test_sigmoid : withinUlp 2 (sfuExact 7 (val32 0x3F800000#32)).1 0x3F3B26A8#32 = true ∧ (sfuExact 7 (val32 0x3F800000#32)).2 = 2 ∧
    (sfuExact 7 (val32 0x3F800000#32)).1.isFin = true ∧ (sfuExact 7 (val32 0x3F800000#32)).1.lg < 128 := by decide +kernel
theorem witness_VecConverts :
    let w (v : Nat) : State := on0 {} v
    let ld := loadW (3 * 2 ^ 44 + 31 * 2 ^ 39 + 8190 * 2 ^ 23 + 2 ^ 17)
    let st := storeW (2 * 2 ^ 44 + 31 * 2 ^ 39 + 8190 * 2 ^ 23 + 2 ^ 17)
    ∀ x ∈ [(withDesc (w ld) 5, LaneOp.ldVec 31 0 8190 1, plain .fp32 0 0), (withBlocks (w ld), .ldVec 31 0 8190 1, blocks),
        (withDesc (w st) 5, .stVec 31 0 8190 1, plain .fp32 0 0), (withBlocks (w st), .stVec 31 0 8190 1, blocks)],
      x.1.calm 0 ∧ LaneIssues x.1 0 x.2.1 ∧ x.1.memOk ∧ x.1.descOf 0 1 = (0, x.2.2) ∧ x.1.recordOpen 0 (0 + 32 * 0) ∧ 0 < x.2.2.fmt.parts ∧
        ((x.1.core 0).vec.reg 31).length = 256 ∧
        (let rows := x.1.placeRows 0 8190 x.2.2.fmt.vecRows true
         rows.Nodup ∧ x.1.vecScaleAddr 0 8190 true x.2.2 0 % 512 + 8 ≤ 512 ∧
           x.1.rowsFree 0 true x.2.2 (rows.map (fun r => (r, x.1.vecScaleAddr 0 8190 true x.2.2 0)))) := by
  simp only [all_cons, all_nil, lane_iff, and_true]
  simp (disch := decide +kernel) only [calm_iff]
  simp only [State.rowsFree, State.memOk, State.recordOpen]
  and_intros <;> decide +kernel
theorem witness_Out :
    let s (row fset loc : Nat) (flush iter : Bool) : State :=
      withDesc (on0 {} (storeW (2 ^ 44 + row * 2 ^ 32 + fset * 2 ^ 30 + 2 ^ 24 + loc * 2 ^ 10 + (if flush then 2 ^ 9 else 0) +
        (if iter then 2 ^ 8 else 0)))) 3
    ∀ x ∈ [(4095, 3, 8191, false, true), (0, 0, 8191, true, false)],
      let u := s x.1 x.2.1 x.2.2.1 x.2.2.2.1 x.2.2.2.2
      u.calm 0 ∧ LaneIssues u 0 (.stOut (BitVec.ofNat 12 x.1) (BitVec.ofNat 2 x.2.1) 1 (BitVec.ofNat 14 x.2.2.1) x.2.2.2.1 x.2.2.2.2) ∧
        u.memOk ∧ u.descOf 0 1 = (0, plain .bf16 0 0) ∧ u.recordOpen 0 (0 + 32 * 0) ∧ (u.core 0).arr.patch = none ∧ (u.core 0).arr.scales = [] ∧
        (u.core 0).arr.unsure x.1 x.2.1 = false ∧ u.recordKind 0 kindArray (u.bytes 0 32) = kindArray ∧ u.foreign 0 8191 = false ∧
        (u.core 0).job = some 0 := by
  simp only [all_cons, all_nil, lane_iff, and_true]
  simp (disch := decide +kernel) only [calm_iff]
  simp only [State.memOk, State.recordOpen]
  and_intros <;> decide +kernel
/-- R91: a row written through a tile whose set is 1, drained under 0 and under 1. -/
theorem test_factor_set : ({ acc := [(5, { sets := 2 })] } : Arr).unsure 5 0 = true ∧
    ({ acc := [(5, { sets := 2 })] } : Arr).unsure 5 1 = false := by decide
/-- R171: a row stored at CCLK 7 may be loaded at 10. -/
theorem test_row_in_flight : ((on0 { cclk := 9 }).soak 0 [8191] 10).wetAt 0 (rowAddr 0 8191 + 511) 1 = true ∧
    ((on0 { cclk := 10 }).soak 0 [8191] 10).wetAt 0 (rowAddr 0 8191 + 511) 1 = false := by decide
/-- R61: a record that the vector unit wrote, met by the array; cleared, it begins a new period. -/
theorem test_record_kinds :
    let s : State := { State.reset with recs := [(64, kindVector)] }
    let r : List Byte := ({ amax := fOne } : Stats).bytes
    s.recordKind 64 kindArray r = 0 ∧ s.recordKind 64 kindVector r = kindVector ∧
      s.recordKind 64 kindArray ({} : Stats).bytes = kindArray := by decide +kernel

/-! ### Holds, the fetch, the detectors -/

theorem witness_Holds :
    let all (s : State) (e : Evaluation) : Prop :=
      s.live = true ∧ (s.core 0).current = true ∧ s.counted 0 = true ∧ (s.core 0).cur.issued = 0 ∧ s.draining 0 = false ∧
      (s.core 0).faces (BitVec.ofNat 256 (s.core 0).word) = true ∧ s.evaluation 0 = e
    let swait (v : Nat) : State := on0 { slots := [(1022, v)] } (ctlW (8 * 2 ^ 42 + 1022))
    let cold := (on0 {}).onCore 0 (fun c => { c with h0 := none })
    all ((on0 {}).onJob 0 (fun j => { j with st := .parking })) (.held { cause := 1 }) ∧
    all ((on0 {}).onCore 0 (fun c => { c with pc := 2048 })) (.fault 0x0D) ∧ all (on0 {} 1) (.fault 1) ∧ all (on0 {}) .issue ∧
    all (swait ringIn) (.held { cause := 12, slot := some (1022, 1022) }) ∧
    all (atLintel (on0 { lintWait := some (255, 0) }) { mask := 1 }) (.held { cause := 4, lint := some 255 }) ∧
    all cold (.held { cause := 11 }) ∧ ((on0 {}).core 0).job = some 0 ∧
    ((on0 { ended := true }).live = true ∧ (on0 { ended := true }).counted 0 = false) ∧
    (((on0 {}).core 0).faces 1 = false ∧ (cold.core 0).faces 1 = true) := by
  decide +kernel
theorem witness_Fetch :
    let h : IHalf := { block := 1, filled := false, sent := 64 }
    let s (h : IHalf) : State := (on0 {}).onCore 0 (fun c => { c with h1 := some h })
    let all (b : Nat) (s : State) : Prop := s.live = true ∧ (s.core 0).job = some 0 ∧ (s.core 0).running = true ∧ (s.core 0).faulted = false ∧
      ((s.core 0).h0.toList ++ (s.core 0).h1.toList).find? (fun h => h.block == b && !h.filled) = if b = 1 then (s.core 0).h1 else none
    (∀ x ∈ [h, { h with got := List.range 64 }, { h with bad := some (0x60, 0) }, { h with bad := some (0x40, 0) }], all 1 (s x)) ∧
      all 0 (s h) ∧ h.got.length < 64 := by decide +kernel
theorem witness_Detectors :
    let on (n : Nat) (c : Core) (w : Nat) : State :=
      { atLintel (on0 { c with slotHold := n, lintHold := n } w) { mask := 1 } with
        regs := [((Page.core 0).base + 0x100, 7), ((Page.core 0).base + 0x10C, 0), ((Page.core 0).base + 0x110, 0)] }
    let slot := on 65536 { slots := [(1022, ringIn)] } (ctlW (8 * 2 ^ 42 + 1022))
    let lint := on 65536 { lintWait := some (255, 0) } 0
    let all (s : State) : Prop := s.live = true ∧ (s.core 0).current = true ∧ (s.core 0).job = some 0
    (∀ s ∈ [slot, lint], all s ∧ (s.core 0).alarm = none ∧ s.counted 0 = true ∧ (s.core 0).cur.issued = 0 ∧ bitAt (s.preg (.core 0) 0x100) 0 = true ∧
      bitAt (s.preg (.core 0) 0x100) 1 = true ∧ max 65536 (s.preg (.core 0) 0x10C) ≤ (s.core 0).slotHold ∧
      max 65536 (s.preg (.core 0) 0x110) ≤ (s.core 0).lintHold) ∧
    slot.evaluation 0 = .held { cause := 12, slot := some (1022, 1022) } ∧ lint.evaluation 0 = .held { cause := 4, lint := some 255 } ∧
    (∀ b, all (on 0 { alarm := some ⟨b, 0, 0⟩ } 0) ∧ ((on 0 { alarm := some ⟨b, 0, 0⟩ } 0).core 0).alarm = some ⟨b, 0, 0⟩) ∧
    all (on 65535 {} 0) ∧ ((on 65535 {} 0).core 0).slotHold < 65536 ∧ ((on 65535 {} 0).core 0).lintHold < 65536 := by decide +kernel
/-- A descriptor of one span on a ring, from the start of quarry 0 up to 64: LINEAR and inbound where its CTRL is 0. -/
def aStream (span : Nat) (head : Nat := 9) (ctrl : Nat := 0) : List Byte :=
  natLe 4 ctrl ++ natLe 4 head ++ zeros 16 ++ natLe 8 64 ++ zeros 16 ++ natLe 4 span ++ (List.range 5).flatMap (fun _ => natLe 4 1) ++ zeros 56
theorem witness_Cycle :
    let q (h : Nat) : SQ := { run := [{ serial := 0, raw := aStream 64 h, head := h, start := 0 }] }
    let p : List (Nat × Nat) := [(0, 10), (0, 20)]
    let s (last : List (List (Nat × Nat))) (en : BitVec 32) : State :=
      { on0 { cclk := 65536, sq := [(0, q 10), (1, q 20)], slots := [(10, ringIn + 2 ^ 63 + 2 ^ 50), (20, ringIn + 2 ^ 63)], swdLast := last } with
        regs := [((Page.core 0).base + 0x100, en), ((Page.core 0).base + 0x114, 0)] }
    (∀ x ∈ [([], 7), ([p], 7), ([p], 3)], let u := s x.1 x.2
      u.live = true ∧ (u.core 0).current = true ∧ (u.core 0).job = some 0 ∧ u.samples 0 = decide (x.2 = 7#32)) ∧
    p ∈ (s [p] 7).cycles 0 ∧ p ∈ ((s [p] 7).core 0).swdLast ∧ (∀ x ∈ p, 0 ≤ x.1) ∧ (∀ x ∈ (s [] 7).cycles 0, x ∉ ((s [] 7).core 0).swdLast) := by
  decide +kernel

/-! ### Streams -/

/-- Core 0 with queue 159 as given, on a ring of two slots. -/
def withQueue (x : SQ) (ring : Nat := ringIn) : State := on0 { sq := [(159, x)], slots := [(9, ring + 159 * 2 ^ 50)] }
/-- The started form of the descriptor. -/
def started : Strm := { serial := 0, raw := aStream 64, head := 9, start := 0 }
/-- A WINDOW descriptor of eight pixels, of eight output columns, the last one or all within the tensor. -/
def aWindow : Strm := { started with
  raw := natLe 4 (2 ^ 29) ++ natLe 4 9 ++ zeros 40 ++ natLe 4 0x00080001 ++ natLe 4 0x00080008 ++ zeros 4 ++ natLe 4 8 ++ natLe 4 0x1111 ++
    natLe 4 0x10000 ++ zeros 56 }
theorem witness_StreamStarts :
    let s (run : List Strm) (r : List Byte) : State := withQueue { run := run, pend := [r] }
    let done : Strm := { started with got := [(0, 64)] }
    ∀ x ∈ [([], aStream 64, true), ([done], aStream 64, true), ([], aStream 64 9 (2 ^ 27), true), ([], aStream 0, false), ([done], aStream 0, false)],
      let u := s x.1 x.2.1
      u.live = true ∧ u.engineOn 0 = true ∧ (u.sq 0 159).pend = [x.2.1] ∧ (u.sq 0 159).halt = 0 ∧ (u.sq 0 159).stopping = false ∧
        (∀ p, (u.sq 0 159).run.getLast? = some p → u.allIssued 0 p = true) ∧ dScale x.2.1 = false ∧ dMode x.2.1 ≠ 1 ∧ (u.core 0).job = some 0 ∧
        (dOut x.2.1 = false → u.strmOk 0 159 x.2.1 [] = x.2.2) := by
  simp only [all_cons, all_nil, some_all, and_true]; and_intros <;> decide +kernel
theorem witness_StreamIssues :
    let cand (r : List Byte) (z : Bool) : Cand :=
      { q := 159, x := { started with raw := r, ctx := if dMode r = 1 then some 12 else none, idxBase := if z then some 0 else none
                                      idx := if z then [0xFFFFFFFF] else [] }
        kind := .data, zero := z, off := 0, len := 64, addr := 0, due := 32767 }
    let s (ring : Nat) (k : Cand) : State := withQueue { run := [k.x] } ring
    let best (u : State) : Option Cand := bestCand u.time (u.eligible 0 3 (u.cands 0 3))
    let all (u : State) : Prop := u.live = true ∧ (u.core 0).current = true ∧ u.engineOn 0 = true ∧ u.ecc = [] ∧ (u.core 0).job = some 0
    let rd := cand (aStream 64) false
    let wr := cand (aStream 64 9 (2 ^ 27)) false
    let zero := cand (aStream 64 9 (2 ^ 28)) true
    (∀ x ∈ [(ringIn, rd), (ringOut + 2 ^ 63, wr), (ringIn, zero)], all (s x.1 x.2) ∧ (s x.1 x.2).overrun 0 3 = none ∧ best (s x.1 x.2) = some x.2 ∧
      (s x.1 x.2).banksFree 0 3 ((s x.1 x.2).seqRows 0 x.2.x 0 64)) ∧
    (let i := s ringIn (cand (aStream 64 9 (2 ^ 28)) false)
     all i ∧ i.overrun 0 3 = none ∧ ∃ k, best i = some k ∧ k.kind = .index ∧ k.zero = false ∧ k.space < 2 ∧ (quarryOf k.addr).isSome = true) ∧
    (all (withQueue {}) ∧ (withQueue {}).overrun 0 3 = none ∧ best (withQueue {}) = none) ∧
    (let o := s ringIn (cand (aStream 128) false)
     all o ∧ o.overrun 0 3 = some (159, (cand (aStream 128) false).x, 0)) := by
  simp only [State.banksFree]
  refine ⟨by decide +kernel, ⟨by decide +kernel, by decide +kernel, ?_⟩, by decide +kernel, by decide +kernel⟩
  refine ⟨_, rfl, by decide +kernel, by decide +kernel, by decide +kernel, by decide +kernel⟩
theorem witness_WindowFills :
    let all (x : SQ) (next : Option Strm) : Prop := let s := withQueue x
      s.live = true ∧ (s.core 0).current = true ∧ s.engineOn 0 = true ∧ (s.sq 0 159).halt = 0 ∧ (s.sq 0 159).stopping = false ∧
        (s.sq 0 159).run.find? (fun d => dMode d.raw == 2 && decide (512 * d.win < dTotal d.raw)) = next
    let s := withQueue { run := [aWindow] }
    all { run := [aWindow] } (some aWindow) ∧ all {} none ∧ s.slotsReady 0 (s.sq 0 159) aWindow 0 512 = true ∧
      (∀ e ∈ windowSlot s.free aWindow.raw 0, e.isSome = true) ∧ s.banksFree 0 3 (s.seqRows 0 aWindow 0 512) ∧
      s.memOk ∧ (s.sq 0 159).run = [aWindow] ∧ dScale aWindow.raw = false ∧ dTotal aWindow.raw % s.slotBytes 0 9 = 0 ∧
      (let out := { aWindow with raw := aWindow.raw.set 0x38 0xFF }
       let u := withQueue { run := [out] }
       u.slotsReady 0 (u.sq 0 159) out 0 512 = true ∧ u.atDemand 0 (u.sq 0 159) out 0 512 = true ∧ (u.core 0).job = some 0 ∧
         all { run := [out] } (some out)) := by
  simp only [State.banksFree, State.memOk]; decide +kernel
/-- A request of queue 159 under tag 96, served with a status. -/
def aReq (st : ReqSt) (status : Nat) : Req :=
  { core := 0, tag := 96, queue := 159, serial := 0, kind := .data, off := 0, len := 64, addr := 0, space := 0, write := false
    lc := false, deadline := 0, epoch := false, st := st, status := status }
theorem witness_Replies :
    let s (x : SQ) (r : Req) : State := { withQueue x with flight := [r] }
    let q : SQ := { run := [started] }
    let next : Strm := { started with start := 1 }
    let late : SQ := { run := [{ started with serial := 1 }, next] }
    let found (u : State) (epoch : Bool) : Option Req := u.flight.find? (fun r => r.core == 0 && r.tag == 96 && r.epoch == epoch)
    let all (u : State) : Prop := u.live = true ∧ (u.core 0).current = true ∧ (u.core 0).job = some 0 ∧ (u.core 0).epoch = false
    (all (s q (aReq .served 0)) ∧ found (s q (aReq .served 0)) true = none) ∧
    (let old := { aReq .served 0 with epoch := true }
     all (s q old) ∧ found (s q old) true = some old) ∧
    (let f := { aReq .served 0 with kind := .fetch }
     all (s q f) ∧ found (s q f) false = some f) ∧
    (∀ st ∈ [0, 1, 0x10, 0x30, 0x60, 0x51, 0x40, 0x7F], let u := s q (aReq .served st)
      all u ∧ found u false = some (aReq .served st) ∧ (u.sq 0 159).run.find? (fun d => d.serial == 0) = some started ∧
        u.banksFree 0 3 (u.replyRows (aReq .served st)) ∧ (u.sq 0 159).stopping = false ∧ (u.sq 0 159).halt = 0 ∧
        (u.land (aReq .served st)).reqDemand (aReq .served st) started = true) ∧
    (let u := s late (aReq .served 0x60)
     (u.sq 0 159).run.find? (fun d => d.serial == 0) = some next ∧ (u.land (aReq .served 0x60)).reqDemand (aReq .served 0x60) next = false) ∧
    (let m := { aReq .issued 0 with addr := mirrorBase }
     found (s q m) false = some m ∧ m.kind ≠ .scale) ∧
    (let h := { aReq .admitted 0 with space := 2 }
     found (s q h) false = some h) ∧
    (let w := { aReq .served 0 with write := true }
     found (s q w) false = some w) ∧
    (let u := s q (aReq .served 0)
     u.memOk ∧ (u.sq 0 159).run = [started] ∧ dScale started.raw = false ∧ dTotal started.raw % 64 = 0) := by
  simp only [State.banksFree, State.memOk, all_cons, all_nil]; and_intros <;> decide +kernel
theorem witness_Halts : ∀ stop, ∀ st ∈ [0x50, 0x60],
    let s := withQueue { run := [started], halt := st, halting := true, stopping := stop }
    s.live = true ∧ (s.sq 0 159).run = [started] ∧ (s.sq 0 159).halting = true ∧ s.inFlight 0 159 = [] ∧ (s.sq 0 159).stopping = stop := by
  decide +kernel
theorem witness_Pages :
    let s := { withQueue { run := [started], halt := 0x50, prg := .waiting } with
      hif := { up := true, pri := true, priAlloc := 1 }, regs := [(Page.hif.base + 0x120, 0x80000001)] }
    let t := withQueue { run := [started], halt := 0x50, prg := .sent }
    let p := (on0 {}).onJob 1 (fun j => { j with saved := [(0, { sq := [(159, { prg := .sent })] })] })
    (s.live = true ∧ (s.core 0).job = some 0 ∧ s.pasidOf 0 = some 1 ∧ (s.sq 0 159).prg = .waiting ∧ s.hif.pri = true ∧
      s.hif.prgFailed = false ∧ s.hif.up = true ∧ s.prgOut < min 1024 s.hif.priAlloc) ∧
    (t.live = true ∧ (t.sq 0 159).prg = .sent ∧ (t.sq 0 159).run = [started]) ∧
    (p.live = true ∧ (p.sq 0 159).prg ≠ .sent ∧ p.parkedPrg 0 159 = some 1 ∧
      tfind (p.job 1).saved 0 = some { sq := [(159, { prg := .sent })] } ∧ p.flight = []) := by decide +kernel
theorem witness_StreamBells :
    let all (x : SQ) : Prop := let s := withQueue x
      s.live = true ∧ (s.core 0).job.isSome = true ∧ (s.sq 0 159).halting = x.halting ∧ (s.sq 0 159).halt = x.halt
    all { run := [started], halt := 0x60 } ∧ all { run := [started] } ∧ all { run := [started], halt := 0x60, halting := true } ∧
      ((withQueue { run := [started], halt := 0x60 }).sq 0 159).run = [started] ∧ ¬ (160 : Nat) < 160 := by decide +kernel

/-! ### Sills and quarries -/

/-- Some core is not fused: eight are at most. -/
theorem some_core_unfused : ∃ o : CoreId, fused o = false := by
  have len : ∀ k, (fusedFirst k).length = k := by intro k; induction k <;> simp_all [fusedFirst]
  by_contra h
  have sub : List.range 128 ⊆ fusedFirst 8 := fun n hn => by
    have f : fused n = true := by
      by_contra e
      exact h ⟨⟨n, List.mem_range.mp hn⟩, by simpa using e⟩
    simp only [fused, Bool.and_eq_true, List.contains_iff_mem] at f
    exact f.2
  have := (List.nodup_range.subperm sub).length_le
  rw [List.length_range, len] at this
  omega
/-- The lifecycle of a core that is not fused, and when its sill is shut. -/
theorem coreLife_of {s : State} {n : Nat} (h : fused n = false) : s.coreLife n = (s.core n).life := by simp [State.coreLife, h]
@[inherit_doc coreLife_of] theorem sillShut_of {s : State} {n : Nat} (h : fused n = false) :
    s.sillShut n = ((s.core n).life.retired || (s.core n).life.st != .opened) := by simp [State.sillShut, coreLife_of, h]

theorem witness_Scrubs : ∀ o : CoreId, fused o = false → ∀ x ∈ [([], 1), ([8191], 1), ([], 0)],
    let s : State := { up with regs := [((Page.sill o).base + 0x100, BitVec.ofNat 32 (3 * x.2)), ((Page.quarry o).base + 0x100, BitVec.ofNat 32 (6 * x.2))]
                               ecc := [(0, ⟨[0], false⟩)], cores := [(o, { repairQ := x.1, scrubPos := 511 })]
                               quarries := [(o, { repairQ := x.1, scrubPos := 1572863 })] }
    s.live = true ∧ bitAt (s.preg (.sill o) 0x100) 0 = decide (x.2 = 1) ∧ (s.coreLife o).st = .opened ∧ (s.core o).repairQ = x.1 ∧
      s.admitted o = [] ∧ bitAt (s.preg (.quarry o) 0x100) 1 = decide (x.2 = 1) ∧ (s.quarry o).life.st = .opened ∧ (s.quarry o).repairQ = x.1 ∧
      tfind s.ecc 0 = some ⟨[0], false⟩ := by
  intro o h
  have f {s : State} (e : s.flight = []) : s.admitted o = [] := by simp [State.admitted, e]
  simp only [all_cons, all_nil, coreLife_of h]
  rw [f (by rfl), f (by rfl), f (by rfl)]
  clear h f; revert o; decide +kernel
theorem witness_Refresh :
    let r : Req := { aReq .admitted 0 with deadline := 0 }
    let s (n : Nat) : State := { up with flight := [r], quarries := [(0, { postponed := [(0, n)] })] }
    let late (s : State) : Bool := s.flight.any (fun r => r.space == 0 && r.st == .admitted && quarryOf r.addr == some 0 && qBank r.addr == 0 &&
      untilDue s.time r.deadline == 0)
    up.live = true ∧ late up = false ∧ (s 3).live = true ∧ late (s 3) = true ∧ tget 0 ((s 3).quarry 0).postponed 0 < 4 ∧
      late (s 4) = true ∧ 4 ≤ tget 0 ((s 4).quarry 0).postponed 0 := by decide +kernel
/-- A request of core 0 to the sill of core o, both of job 0. -/
def meshState (o : CoreId) (w : Bool) : State :=
  { on0 {} with flight := [{ aReq .issued 0 with addr := sillBase o, space := 1, write := w }]
                cores := [(o, { job := some 0, running := true }), (0, { job := some 0 })] }
theorem witness_MeshRequests : ∀ o : CoreId, fused o = false → ∀ w,
    let s := meshState o w
    let r : Req := { aReq .issued 0 with addr := sillBase o, space := 1, write := w }
    s.live = true ∧ s.flight.find? (fun r => r.core == 0 && r.tag == 96) = some r ∧ r.space = 1 ∧ r.st = .issued ∧ sillOf r.addr = some o.val ∧
      s.behind r o = false ∧ s.sillShut o = false ∧ s.sillMoves o = false ∧ s.runSlot = some 0 ∧ (s.core 0).job = some 0 ∧ (s.core o).job = some 0 ∧
      (s.core o).current = true ∧ s.coreWaits o r = false ∧ s.banksFree o meshPort [rowOf r.addr] ∧ s.ecc = [] ∧ s.memOk ∧
      ({ s with runSlot := none } : State).sillShut o = false := by
  intro o h w
  simp only [sillShut_of h, State.banksFree, State.memOk]
  clear h; revert o w; decide +kernel
/-- The other answers: another request first, a sill that a switch moves, a slot not yet empty, a bank that is taken. -/
theorem witness_MeshHolds : ∀ o : CoreId, fused o = false →
    let s := meshState o true
    let r : Req := { aReq .issued 0 with addr := sillBase o, space := 1, write := true }
    let b : State := { s with flight := [{ r with tag := 95 }, r] }
    let m : State := { s with sw := { s.sw with phase := .save, outgoing := some 0 }, jobs := [(0, { st := .running, placed := 2 ^ 128 - 1 })] }
    let f := s.onCore o (fun c => { c with slots := [(0, 2 ^ 63 + 2 ^ 62 + 2 ^ 60 + 2 ^ 58)] })
    let t := s.onCore o (fun c => { c with cclk := 1, resv := [⟨0, 0, false⟩] })
    b.flight.find? (fun r => r.core == 0 && r.tag == 96) = some r ∧ b.behind r o = true ∧ m.sillMoves o = true ∧
      f.coreWaits o r = true ∧ f.sillShut o = false ∧ (t.core o).current = true ∧ (t.asyncTry o meshPort [rowOf r.addr]).2 = false := by
  intro o h
  simp only [sillShut_of h]
  clear h; revert o; decide +kernel
/-- A request of core 0 to a quarry address. -/
def qReq (st : ReqSt) (a : Nat) (w : Bool) : Req := { aReq st 0 with addr := a, write := w }
theorem witness_QuarryServes :
    let s (rs : List Req) : State := { on0 {} with flight := rs }
    let all (u : State) (r : Req) (q : Nat) : Prop :=
      u.live = true ∧ u.flight.find? (fun x => x.core == 0 && x.tag == 96) = some r ∧ r.space = 0 ∧ (r.st = .issued ∨ r.st = .waiting) ∧
        quarryOf r.addr = some q ∧ (u.quarry q).life.st = .opened
    let room (u : State) (r : Req) : Prop := ((u.flight.filter (fun x => x.st == .admitted)).countP (fun x => qChan x.addr == qChan r.addr)) + 1 - 8 ≤ 24
    let r (st : ReqSt) (a : Nat) : Req := qReq st a false
    let far := quarryBase 1
    let open_ : State := { s [r .issued far] with
      regs := [((Page.quarry 1).base + 0x800 + 0x20 * 63, 0x40010100), ((Page.quarry 1).base + 0x80C + 0x20 * 63, 0x1000)] }
    (let n := r .issued quarryEnd
     (s [n]).flight.find? (fun x => x.core == 0 && x.tag == 96) = some n ∧ quarryOf n.addr = none ∧ n.addr < mirrorBase) ∧
    (∀ st ∈ [ReqSt.issued, .waiting], all (s [r st 0xFFC0]) (r st 0xFFC0) 0 ∧ (s [r st 0xFFC0]).nextAtPort 0 (r st 0xFFC0) = true ∧
      room (s [r st 0xFFC0]) (r st 0xFFC0) ∧ (s []).runSlot = some 0 ∧ ((s []).core 0).job = some 0 ∧
      (s []).inAlloc 0 0 0xFFC0 64 = true ∧ (s []).inAlloc 0 0 0xFFC1 64 = false ∧ (s []).inShutter 0 0xFFC0 64 = false) ∧
    (let b := s [{ r .issued 0 with tag := 95 }, r .issued 0]
     all b (r .issued 0) 0 ∧ b.nextAtPort 0 (r .issued 0) = false) ∧
    (let f := s (r .issued 0 :: (List.range 32).map (fun k => { r .admitted 0 with tag := k }))
     all f (r .issued 0) 0 ∧ f.nextAtPort 0 (r .issued 0) = true ∧ ¬ room f (r .issued 0)) ∧
    (all open_ (r .issued far) 1 ∧ open_.nextAtPort 1 (r .issued far) = true ∧ open_.winFor 1 .core .read far 64 = some 63 ∧
      quarryOf (far + 64 - 1) = some 1 ∧ open_.inShutter 1 far 64 = false ∧ open_.winFor 1 .core .write far 64 = none) ∧
    (∀ w, let a := qReq .admitted 0x200 w
      (s [a]).live = true ∧ (s [a]).chosen 0 true ((s [a]).quarry 0).budget = some a ∧ (s [a]).ecc = [] ∧ (s [a]).memOk ∧ a.len = 64) ∧
    (s [qReq .admitted 0x200 false]).chosen 0 false 32 = none := by
  simp only [State.memOk]; and_intros <;> decide +kernel
theorem witness_Sensors :
    let s : State := { up with quarries := [(0, { cool := 10000 }), (1, { cool := 9999 })] }
    let h : State := { up with boot := { up.boot with svcHeld := true } }
    let b : BitVec 16 := 1520
    let hot : BitVec 16 := 1681
    s.live = true ∧ s.boot.svcHeld = false ∧ (List.replicate 128 b).length = 128 ∧ (List.replicate 64 b).length = 64 ∧
      sensorOk (some b) = some 1520 ∧ sensorOk (some hot) = some 1681 ∧ sensorOk none = none ∧ s.pwr.dramOver = false ∧ s.pwr.logicOver = false ∧
      (s.pwr.dram.getD 127 (some 0)).isSome = true ∧ 10000 ≤ (s.quarry 0).cool ∧ (s.quarry 1).cool < 10000 ∧
      h.live = true ∧ h.boot.svcHeld = true := by
  decide +kernel
/-- Window 63 of quarry 0 with a word 0 and an end at 0x1000, and requests in flight; the first 64 KiB are job 0's, which runs. -/
def winState (word0 : W32) (rs : List Req := []) : State := { on0 {} with
  flight := rs
  regs := [((Page.quarry 0).base + 0x200, 0x80010000), ((Page.quarry 0).base + 0xFE0, word0), ((Page.quarry 0).base + 0xFEC, 0x1000)] }
theorem witness_WindowOpens : (winState 0).live = true ∧ fld ((winState 0).winWord 0 63 0) 31 30 = 0 ∧
    ((winState 0).winFields 0 63 0 (putFld 0x10100 31 30 1)).winOk 0 63 = true := by
  refine ⟨by decide +kernel, by decide +kernel, ?_⟩
  simp only [State.winOk, Bool.and_eq_true, Bool.or_eq_true]
  exact ⟨by decide +kernel, Or.inr (by decide +kernel)⟩
theorem witness_Windows :
    let w (s : State) : Nat := fld (s.winWord 0 63 0) 31 30
    ((winState 0).winFields 0 63 0 (putFld 0x20000100 31 30 1)).winOk 0 63 = false ∧ w (winState 0x40000000) = 1 ∧
      w (winState 0x80000000) = 2 ∧ (winState 0x80000000).winBusy 0 63 = false ∧
      (winState 0x80000000 [{ qReq .admitted 0 false with win := some 63 }]).winBusy 0 63 = true ∧
      (winState 0).progWin 0 63 0 (putFld 0x10100 31 30 1) = true ∧ (winState 0).progWin 0 63 0 (putFld 0x20000100 31 30 1) = false ∧
      (winState 0x40000000).progWin 0 63 0 ((winState 0x40000000).winWord 0 63 0) = true ∧ (winState 0).runSlot = some 0 := by decide +kernel

/-! ### The bench -/

/-- A bench command of an operation, element type, count and destination. -/
def aCmd (op dtype count dst : Nat) : List Byte :=
  natLe 4 (op * 2 ^ 24 + dtype * 2 ^ 20) ++ zeros 4 ++ natLe 4 count ++ zeros 4 ++ natLe 8 dst ++ zeros 40
/-- Queue 31 of bench 0 as given, on an inbound data ring with a FULL slot; job 0 holds the first 64 KiB. -/
def withBench (x : BQ) : State := { on0 { slots := [(9, ringOut + 2 ^ 63 + 3 * 2 ^ 58 + 31 * 2 ^ 50)] } with
  quarries := [(0, { bq := [(31, x)] })]
  regs := [((Page.quarry 0).base + 0x200, 0x80010000), ((Page.bench 0).base + 0x5F4, 0x10000), ((Page.bench 0).base + 0x5F8, 0x80000009)] }
/-- Its command. -/
def aBc (c : List Byte) : Bc := ⟨0, some 31, some 0, c⟩
/-- A queue's command reaches all of the first 64 KiB of quarry 0. -/
theorem open_of {s : State} {k : Bc} {op : WinOp} {a len : Nat} (hk : k.job = some 0 ∧ k.n = 0)
    (hs : (s.quarry 0).life.st = .opened ∧ s.allocOf 0 0 = [(0, 65536)] ∧ ∀ j ∈ List.range 4, bitAt (s.preg (.quarry 0) (0x240 + 4 * j)) 31 = false)
    (h : a + len ≤ 65536) : s.benchOpen k op a len := by
  intro x n ax np xn
  have q : quarryOf x = some 0 := by
    simp only [quarryOf]; rw [if_pos (by simp [quarryEnd]; omega)]; simp [quarrySize]; omega
  have sh : s.inShutter 0 x n = false := by
    rw [Bool.eq_false_iff]; intro e
    simp only [State.inShutter, List.any_eq_true, Bool.and_eq_true] at e
    obtain ⟨j, m, e, -⟩ := e
    simp [hs.2.2 j m] at e
  have al : s.inAlloc 0 0 x n = true := by
    have z : quarryBase 0 = 0 := rfl
    simp only [State.inAlloc, hs.2.1, covers, z, Nat.sub_zero]
    rw [if_neg (by omega), List.find?_cons_of_pos (by simp; omega)]
    simp; omega
  simp [State.benchEnter, q, hk.1, hk.2, State.directEnter, hs.1, al, sh]
/-- A host command in its bench's own quarry, with no shutter range there. -/
theorem open_host {s : State} {k : Bc} {op : WinOp} {a len : Nat} (f : fused k.n = false) (hk : k.job = none) (hn : k.n < 128)
    (hs : (s.quarry k.n).life.st = .opened ∧ ∀ j ∈ List.range 4, bitAt (s.preg (.quarry k.n) (0x240 + 4 * j)) 31 = false)
    (lo : quarryBase k.n ≤ a) (hi : a + len ≤ quarryBase k.n + quarrySize) : s.benchOpen k op a len := by
  intro x n ax np xn
  have z : quarryBase k.n = k.n * 0x30000000 := rfl
  have w : quarrySize = 0x30000000 := rfl
  have e : quarryEnd = 0x1800000000 := rfl
  have at_ (y : Nat) (h : quarryBase k.n ≤ y) (g : y < quarryBase k.n + quarrySize) : quarryOf y = some k.n := by
    simp only [quarryOf]; rw [if_pos (by omega)]; simp only [Option.some.injEq]; rw [w] at *; omega
  have sh : s.inShutter k.n x n = false := by
    rw [Bool.eq_false_iff]; intro e
    simp only [State.inShutter, List.any_eq_true, Bool.and_eq_true] at e
    obtain ⟨j, m, e, -⟩ := e
    simp [hs.2 j m] at e
  simp [State.benchEnter, at_ x (by omega) (by omega), at_ (x + n - 1) (by omega) (by omega), hk, hs.1, sh, f]
theorem room_of {s : State} {k : Bc} {rs : List (Nat × Nat)} (h : k.tagDone = false) : s.tagRoom k rs := fun _ t => by simp [h] at t
/-- A queue's command that runs, as a check. -/
theorem runs_of {s : State} {k : Bc} {b op : Nat} {rs : List (Nat × Nat)} (h : s.live = true ∧ (s.core k.n).current = true ∧ Memory.wf s.mem = true ∧
    s.ecc = [] ∧ s.flight = [] ∧ s.bcOf k.n (some b) op = some k ∧ k.b = some b ∧ s.steady (s.bq k.n b) = true ∧ s.replyFree k = true ∧
    (s.benchTries k.n rs).2 = true) : BenchRuns s k b op rs := by
  obtain ⟨l, c, m, e, f, g⟩ := h
  exact ⟨l, c, m, (quiet_iff f).mpr e, g⟩

theorem witness_BenchStarts :
    let fill := aCmd 3 1 1 0
    let gated := natLe 4 (3 * 2 ^ 24 + 2 ^ 17) ++ zeros 60
    let bad := aCmd 6 0 0 0
    let step (src : Nat) := natLe 4 (8 * 2 ^ 24) ++ zeros 20 ++ natLe 8 src ++ zeros 32
    let s (c : List Byte) : State := withBench { st := 2, cmd := some c }
    let held : State := { s (step 1024) with
      quarries := [(0, { bq := [(31, { st := 2, cmd := some (step 1024) })], locks := [⟨none, 0, 4096⟩] })], mem := memWrite [] (1024 + 0x40) (natLe 8 (2 ^ 32 + 1)) }
    let all (u : State) (c : List Byte) : Prop := u.live = true ∧ (u.core 0).current = true ∧ u.benchJob 0 = some 0 ∧ u.bqLen 0 31 ≠ 0 ∧
      (u.bq 0 31).st ≠ 1 ∧ (u.bq 0 31).st ≠ 3 ∧ (u.nextCmd 0 0 31).2 = (0, c, 0) ∧ (u.bq 0 31).cmd = some c
    let ok (u : State) (k : Bc) : Bool := k.fieldsOk && k.regionOk && u.ringsOk k 31
    (∀ c ∈ [fill, gated, bad, step 1024, step 65536], all (s c) c) ∧ all held (step 1024) ∧
    (s gated).benchWaits (aBc gated) 31 = true ∧
    (∀ c ∈ [fill, bad, step 1024, step 65536], (s c).benchWaits (aBc c) 31 = false ∧ (s c).locked (aBc c) = false ∧ ok (s c) (aBc c) = decide (c ≠ bad) ∧
      ((s c).benchTries 0 ((s c).startRanges (aBc c))).2 = true) ∧
    (aBc (step 1024)).isOpt = true ∧ held.locked (aBc (step 1024)) = true ∧ held.benchWaits (aBc (step 1024)) 31 = false ∧
    (let r (c : List Byte) := (s c).startReads (aBc c) ((s c).startRanges (aBc c))
     (r fill).2.1 = 0 ∧ ({ st := 1, cmd := some fill, snap := (r fill).2.2.1 } : BQ).readsOk (aBc fill) = true ∧
       (r (step 65536)).2.1 = 0x60 ∧ (r (step 1024)).2.1 = 0 ∧ ({ st := 1, snap := (r (step 1024)).2.2.1 } : BQ).readsOk (aBc (step 1024)) = false) ∧
    (let u : State := { withBench {} with
       regs := [((Page.bench 0).base + 0x5F0, 0x10000), ((Page.bench 0).base + 0x5F4, 0x10000), ((Page.bench 0).base + 0x5F8, 0x80000009)] }
     u.bqLen 0 31 ≠ 0 ∧ 1 < (u.nextCmd 0 0 31).2.1) ∧ ((withBench { st := 1 }).bq 0 31).st = 1 := by
  decide +kernel
theorem witness_BenchElements :
    let c (op : Nat) := aCmd op 1 1 0
    let s (op : Nat) : State := withBench { st := 1, cmd := some (c op) }
    (∀ op ∈ [1, 2, 3], BenchRuns (s op) (aBc (c op)) 31 op (if op = 3 then (s op).replyRange (aBc (c op)) else (s op).dataRange (aBc (c op)) 31 2 :: (s op).replyRange (aBc (c op))) ∧
      ((s op).bq 0 31).done = 0 ∧ (aBc (c op)).dtype ≤ 3 ∧ 0 < (aBc (c op)).count ∧ (aBc (c op)).dst % (aBc (c op)).size = 0 ∧
      (s op).tagRoom (aBc (c op)) [(0, 2)] ∧ (∀ o, (s op).benchOpen (aBc (c op)) o 0 2) ∧
      (let h := (s op).inHead 0 31
       (s op).slotFull 0 h (sCons ((s op).slot 0 h)) = true ∧ 2 ≤ (s op).slotBytes 0 h ∧ (s op).ringOk 0 h = true)) ∧
    (let e := (s 1).onCore 0 (fun k => { k with slots := [(9, ringOut + 3 * 2 ^ 58 + 31 * 2 ^ 50)] })
     e.slotFull 0 (e.inHead 0 31) (sCons (e.slot 0 (e.inHead 0 31))) = false ∧ e.bcOf 0 (some 31) 1 = some (aBc (c 1))) := by
  simp only [all_cons, all_nil, and_true]
  refine ⟨⟨?_, ?_, ?_⟩, by decide +kernel⟩ <;>
    exact ⟨runs_of (by decide +kernel), by decide +kernel, by decide +kernel, by decide +kernel, by decide +kernel,
      room_of (by decide +kernel), fun w => open_of ⟨rfl, rfl⟩ (by decide +kernel) (by decide), by decide +kernel⟩
theorem witness_HostFill : ∀ o : CoreId, fused o = false → ∀ op ∈ [3, 6],
    let c := aCmd op 1 1 (quarryBase o)
    let k : Bc := ⟨o, none, none, natLe 4 (3 * 2 ^ 24 + (op - 3)) ++ c.drop 4⟩
    let s : State := { up with quarries := [(o, { host := [{ sq := 0, cmd := k.cmd }] })] }
    s.live = true ∧ (s.core o).current = true ∧ s.memOk ∧ s.quiet ∧ s.bcOf o none 3 = some k ∧ k.fieldsOk = decide (op = 3) ∧
      s.benchOpen k .write k.dst (k.count * k.size) := by
  intro o f op m
  refine ⟨by rfl, ?_, by rfl, (quiet_iff (by rfl)).mpr (by rfl), ?_, ?_, open_host f rfl o.isLt ?_ ?_ ?_⟩ <;>
    (clear f; revert op; revert o; decide +kernel)
/-- A TOXF, XFADD or region command. -/
def blkCmd (op count dst src hdr hdr2 : Nat) (aux : Nat := 0) : List Byte :=
  natLe 4 (op * 2 ^ 24) ++ zeros 4 ++ natLe 4 count ++ natLe 4 aux ++ natLe 8 dst ++ natLe 8 src ++ natLe 8 hdr ++ natLe 8 hdr2 ++ zeros 16
theorem witness_ToxfXfadd :
    let t (src : Nat) := blkCmd 4 1 0 src 512 520
    let x (src : Nat) := blkCmd 5 1 0 src 512 516
    let s (c : List Byte) : State := withBench { st := 1, cmd := some c }
    let y : State := { s (x 256) with mem := [(512, 1)] }
    let u (c : List Byte) : State := ((s c).benchTries 0 ((s c).replyRange (aBc c))).1
    (∀ a, BenchRuns (s (t (256 + a * 65280))) (aBc (t (256 + a * 65280))) 31 4 ((s (t (256 + a * 65280))).replyRange (aBc (t (256 + a * 65280)))) ∨ 1 < a) ∧
    (∀ a, BenchRuns (s (x (256 + a * 65280))) (aBc (x (256 + a * 65280))) 31 5 ((s (x (256 + a * 65280))).replyRange (aBc (x (256 + a * 65280)))) ∨ 1 < a) ∧
    ((u (t 65536)).toxfRun (aBc (t 65536)) none false 0 1 0 0 ones64).status = 0x60 ∧ ((u (x 65536)).xfaddRun (aBc (x 65536)) 0 1 0).status = 0x60 ∧
    (∀ op a len, a + len ≤ 65536 → (s (t 256)).benchOpen (aBc (t 256)) op a len ∧ (s (x 256)).benchOpen (aBc (x 256)) op a len ∧
      y.benchOpen (aBc (x 256)) op a len) ∧
    apart 256 128 0 256 ∧ apart 256 256 0 256 ∧ apart 256 128 512 4 ∧ apart 0 256 512 4 ∧ apart 520 8 0 256 ∧ apart 520 8 512 4 ∧ apart 516 4 512 4 ∧
    (aBc (t 256)).tagDone = false ∧ (aBc (x 256)).tagDone = false ∧
    BenchRuns y (aBc (x 256)) 31 5 (y.replyRange (aBc (x 256))) ∧ fld (y.num 512 4) 7 0 ≠ fld (y.num 516 4) 7 0 := by
  refine ⟨?_, ?_, by decide +kernel, by decide +kernel, ?_, ?_⟩
  · intro a
    match a with
    | 0 => exact .inl (runs_of (by decide +kernel))
    | 1 => exact .inl (runs_of (by decide +kernel))
    | _ + 2 => exact .inr (by omega)
  · intro a
    match a with
    | 0 => exact .inl (runs_of (by decide +kernel))
    | 1 => exact .inl (runs_of (by decide +kernel))
    | _ + 2 => exact .inr (by omega)
  · exact fun op a len h => ⟨open_of ⟨rfl, rfl⟩ (by decide +kernel) h, open_of ⟨rfl, rfl⟩ (by decide +kernel) h, open_of ⟨rfl, rfl⟩ (by decide +kernel) h⟩
  · simp only [apart]
    refine ⟨by decide, by decide, by decide, by decide, by decide, by decide, by decide, by decide +kernel, by decide +kernel, runs_of (by decide +kernel), by decide +kernel⟩
/-- The operands of an optimizer step at 1024, master at 0, moments at 256 and 768, gradient as given: one row of one block; as read. -/
def stepArgs (op grad : Nat) : List Byte :=
  natLe 8 0 ++ natLe 8 256 ++ natLe 8 (if op = 9 then 768 else 0) ++ natLe 8 grad ++ zeros 24 ++ natLe 8 2048 ++ natLe 4 1 ++ natLe 4 1 ++ zeros 56
@[inherit_doc stepArgs] def withStep (op grad : Nat) (gate : Nat) : State :=
  { withBench { st := 1, cmd := some (natLe 4 (op * 2 ^ 24 + gate * 2 ^ 17) ++ zeros 20 ++ natLe 8 1024 ++ zeros 32)
                snap := [(0, []), (1024, stepArgs op grad), (2048, zeros 64), (0, []), (0, [])] } with
    mem := memWrite [] 1024 (stepArgs op grad), red := { tags := [(0, { st := .reduced, skipped := true })] } }
theorem witness_Optimizers : ∀ op ∈ [8, 9, 0xA],
    let s (grad gate : Nat) : State := withStep op grad gate
    let k (grad gate : Nat) : Bc := aBc ((((s grad gate).bq 0 31).cmd).getD [])
    let o (grad : Nat) : OptArgs := ((s grad 0).bq 0 31).args
    (∀ x ∈ [(512, 0), (65536, 0), (512, 1)],
      BenchRuns (s x.1 x.2) (k x.1 x.2) 31 op ((s x.1 x.2).optRange (k x.1 x.2) (o x.1)) ∧ (k x.1 x.2).gateEn = decide (x.2 = 1) ∧ (k x.1 x.2).tagDone = false) ∧
    (o 512).rows = 1 ∧ (o 512).kb = 1 ∧ (o 512).wd = none ∧ ((s 512 1).tag 0 (k 512 1).tag).skipped = true ∧
    (((s 65536 0).benchTries 0 ((s 65536 0).optRange (k 65536 0) (o 65536))).1.optRun (k 65536 0) (o 65536) none false 0 1 0).status = 0x60 ∧
    (o 512).addr 0 = 0 ∧ (o 512).addr 8 = 256 ∧ (o 512).addr 0x18 = 512 ∧ (o 512).addr 0x20 = 0 ∧ (op = 9 → (o 512).addr 0x10 = 768) ∧
    (∀ w a len, a + len ≤ 65536 → (s 512 0).benchOpen (k 512 0) w a len) := by
  simp only [all_cons, all_nil, and_true]
  refine ⟨?_, ?_, ?_⟩ <;>
    refine ⟨⟨⟨runs_of (by decide +kernel), by decide +kernel, by decide +kernel⟩, ⟨runs_of (by decide +kernel), by decide +kernel, by decide +kernel⟩,
      runs_of (by decide +kernel), by decide +kernel, by decide +kernel⟩, by decide +kernel, by decide +kernel, by decide +kernel, by decide +kernel,
      by decide +kernel, by decide +kernel, by decide +kernel, by decide +kernel, by decide +kernel, by decide +kernel,
      fun w a len h => open_of ⟨rfl, rfl⟩ (by decide +kernel) h⟩
theorem witness_Regions :
    let c (op count : Nat) := blkCmd op count 4096 0 0 0 0x20000000
    let s (op count : Nat) (pasid : BitVec 32) : State := { withBench { st := 1, cmd := some (c op count) } with
      regs := (Page.hif.base + 0x120, pasid) :: (withBench {}).regs }
    (∀ op ∈ [0xC, 0xD], ∀ count ∈ [4096, 8192],
      let u := s op count 0x80000001
      let k := aBc (c op count)
      u.live = true ∧ (u.core 0).current = true ∧ u.memOk ∧ u.quiet ∧ u.bcOf 0 (some 31) op = some k ∧ u.progress k = (0, []) ∧ k.hostOk = true ∧
        k.hostRegion = true ∧ u.remoteReady k 0 4096 = true ∧ u.replyFree k = true ∧ (u.benchTries 0 (u.replyRange k)).2 = true ∧ k.tagDone = false ∧
        u.remoteEnd k 0 .done = (0, 0) ∧ (u.remoteEnd k 0 (.aborted 0)).1 ≠ 0 ∧
        (∀ w a len, a + len ≤ 65536 → u.benchOpen k w a len)) ∧ apart 4096 4096 0 32 := by
  simp only [all_cons, all_nil, and_true, State.memOk]
  refine ⟨⟨⟨?_, ?_⟩, ?_, ?_⟩, by simp [apart]⟩ <;>
    exact ⟨by decide +kernel, by decide +kernel, by decide +kernel, (quiet_iff (by decide +kernel)).mpr (by decide +kernel), by decide +kernel,
      by decide +kernel, by decide +kernel, by decide +kernel, by decide +kernel, by decide +kernel, by decide +kernel, by decide +kernel,
      by decide +kernel, by decide +kernel, fun w a len h => open_of ⟨rfl, rfl⟩ (by decide +kernel) h⟩
/-- A route by one port. -/
theorem route_of {s : State} {n d p : Nat} (h : (List.range 8).filter (bitAt (s.portMask d)) = [p]) (r : s.reaches p d = true) :
    s.routePort n d = some p := by simp [State.routePort, h, r, Nat.mod_one]
/-- Host commands: fields that break the rules, a region outside the quarry; and a queue's whose port has no transaction left. -/
theorem witness_RegionHolds :
    let c (aux dst : Nat) := blkCmd 0xC 4096 dst 0 0 0 aux
    let host (aux dst : Nat) : State := { up with quarries := [(0, { host := [{ sq := 0, cmd := c aux dst }] })] }
    let k (aux dst : Nat) : Bc := ⟨0, none, none, c aux dst⟩
    let q : State := { withBench { st := 1, cmd := some (c 0x30000005 4096) } with
      routes := { route := [2 ^ 63 + 2 ^ 48 + 5] }, ports := [(0, { link := .up, peer := 5, txns := (List.range 512).map (fun i => (i, { owner := .bench 0, dst := 5, epoch := false })) })] }
    (∀ x ∈ [(0, 4096), (0x20000000, 4096), (0x20000000, 0x30000000)], (host x.1 x.2).bcOf 0 none 0xC = some (k x.1 x.2) ∧
      (host x.1 x.2).progress (k x.1 x.2) = (0, [])) ∧
    (k 0 4096).hostOk = false ∧ (k 0x20000000 0x30000000).hostOk = true ∧ (k 0x20000000 0x30000000).hostRegion = false ∧
    q.bcOf 0 (some 31) 0xC = some (aBc (c 0x30000005 4096)) ∧ q.remoteReady (aBc (c 0x30000005 4096)) 0 4096 = false := by
  refine ⟨by decide +kernel, by decide +kernel, by decide +kernel, by decide +kernel, by decide +kernel, ?_⟩
  rw [State.remoteReady, route_of (p := 0) (by decide +kernel) (by decide +kernel)]
  decide +kernel
theorem witness_ExponentsAgree : fld 0x80000088 7 0 = fld 0x388 7 0 ∧ fld 0x388 7 0 = fld 0x88 7 0 := by decide
/-! ### The reduction engine -/

/-- Job 0 running with tag 4095 as given and a window of class RED on its first 1 MiB of quarry 0; the tag's descriptor, its one shard's
entry at 1024, sum area at 1536, headers at 2048, history at 4096; memory zero else. -/
def withTag (ctrl ent : Nat) (t : Tag) : State := { on0 {} with
  red := { tags := [(4095, t)] }
  mem := memWrite (memWrite [] (128 * 4095) (natLe 4 ctrl ++ natLe 4 1 ++ natLe 4 1 ++ zeros 4 ++ natLe 8 1024 ++ zeros 16 ++ natLe 8 1536 ++
    natLe 8 2048 ++ natLe 8 4096 ++ zeros 64)) 1024 (zeros 4 ++ natLe 4 1 ++ natLe 4 ent ++ zeros 20 ++ natLe 8 1536 ++ natLe 8 2048 ++ zeros 16)
  regs := [((Page.quarry 0).base + 0x800, 0x40200B00), ((Page.quarry 0).base + 0x80C, 0x100000), (Page.red.base + 0x100, 3),
           (Page.links.base + 0x100, 0), (Page.links.base + 0x104, 0x80000007)] }
/-- A shard's entry: ROOT, or COMBINE, of one arrival. -/
def rootEnt : Nat := 0xC0010000
@[inherit_doc rootEnt] def combEnt : Nat := 0x80010000
theorem witness_TagEvents :
    let at_ (ctrl : Nat) (t : Tag) (n : Nat) : State := { withTag ctrl rootEnt t with time := n }
    let spent (ctrl : Nat) := at_ ctrl { st := .reduced } 0
    let idle := at_ 0x80000001 {} 0
    let full (n : Nat) := at_ 0x80000001 { st := .reducing, shards := [(0, { headers := true, verified := true })] } n
    let d := (full 0).bucket 0 4095
    let es (s : State) : List (List Byte) := (List.range (bucketShards d)).map (s.shardEnt d)
    (∀ c ∈ [0, 0x80000001, 0x80000000], let s := spent c
      s.live = true ∧ s.redLocal 0 = true ∧ s.tagSpent 0 4095 = true ∧ (s.redGet false [(s.bucketAt 0 4095, 128)]).2 = 0 ∧
        (s.redGet false (pieces (bkAddr (s.bucket 0 4095) 0x10) (64 * bucketShards (s.bucket 0 4095)))).2 = 0 ∧
        bitAt (bkCtrl (s.bucket 0 4095)) 31 = decide (c ≠ 0) ∧ bucketOk (s.bucket 0 4095) (es s) = decide (c = 0x80000001) ∧
        (s.armShards false (s.bucket 0 4095) (es s)).2 = 0) ∧
    (idle.redLocal 0 = true ∧ idle.tagSpent 0 4095 = false ∧ idle.tagFull 0 4095 = false ∧ (idle.tag 0 4095).st ≠ .reducing ∧ idle.redLocal 1 = false) ∧
    (∀ n ∈ [0, 100000000], (full n).redLocal 0 = true ∧ bitAt ((full n).preg .red 0x100) 1 = true ∧ ((full n).tag 0 4095).st = .reducing ∧
      decide (((full n).tag 0 4095).since + 100 * max 1000 ((full n).preg .red 0x104) ≤ (full n).time) = decide (n ≠ 0)) ∧
    ((full 0).tagFull 0 4095 = true ∧ ((full 0).redGet false (pieces (bkAddr d 0x30) (4 * bkBlocks d))).2 = 0 ∧
      (∀ h ∈ (full 0).rhdr d, bitAt h 9 = false) ∧ bkPolicy d = 0 ∧ ((full 0).writeHist 0 4095 d ((full 0).rhdr d)).2 = 0) := by
  and_intros <;> decide +kernel
theorem witness_ShardVerify :
    let s (e csum : Nat) : State := withTag 0x80000001 e { st := .armed, shards := [(0, { arrivals := 1, csum := csum })] }
    let d (e : Nat) : List Byte := (s e 0).bucket 0 4095
    (∀ e ∈ [rootEnt, combEnt], (s e 0).redLocal 0 = true ∧ sumArea (d e) ((s e 0).shardEnt (d e) 0) = some (1536, 2048) ∧
      ((s e 0).tag 0 4095).st.inStep = true ∧ ((s e 0).shard 0 4095 0).verified = false ∧
      seExpect ((s e 0).shardEnt (d e) 0) ≤ ((s e 0).shard 0 4095 0).arrivals ∧ 0 < bucketShards (d e) ∧
      ((s e 0).redGet false (pieces 1536 256)).2 = 0 ∧ blockSum ((s e 0).bytes 1536 256) = ((s e 0).shard 0 4095 0).csum) ∧
    (bitAt ((s rootEnt 1).preg .red 0x100) 0 = true ∧ blockSum ((s rootEnt 1).bytes 1536 256) ≠ ((s rootEnt 1).shard 0 4095 0).csum) ∧
    seRole ((s combEnt 0).shardEnt (d combEnt) 0) = 2 ∧ seRole ((s rootEnt 0).shardEnt (d rootEnt) 0) = 3 ∧
    (s rootEnt 0).members (bkGroup (d rootEnt)) = [] ∧ (s rootEnt 0).members (seUpd ((s rootEnt 0).shardEnt (d rootEnt) 0)) = [] := by
  decide +kernel
theorem witness_VerdictGather :
    let v := withTag 0x88000001 rootEnt { st := .armed }
    let g : State := { withTag 0xC0000001 rootEnt { st := .reduced } with routes := { groups := [(1, 0)], members := [5] } }
    let d := g.bucket 0 4095
    (v.redLocal 0 = true ∧ bkVerdict (v.bucket 0 4095) = true ∧ (v.tag 0 4095).st = .armed ∧ v.naming 0 4095 = [] ∧
      bkMode (v.bucket 0 4095) = false) ∧
    (g.redLocal 0 = true ∧ bkVerdict d = false ∧ bkMode d = true ∧ (g.tag 0 4095).st = .reduced ∧
      byteFld d 0x4C 2 ≤ (g.tag 0 4095).optDone ∧ bucketShards d = 1 ∧ seRole (g.shardEnt d 0) = 3 ∧ (g.shard 0 4095 0).gathered = false ∧
      g.members (bkGroup d) = [5] ∧ (g.tag 0 4095).skipped = false) := by decide +kernel
/-- A RED_CTL message about tag 4095 for this chip. -/
def ctlMsg (sub step xfer : Nat) : Msg := { kind := 0x10, sub := sub, key := 7, data := redData 4095 step xfer 0 0 0 0 0 }
/-- A state with a message of a class at port 7. -/
def withMsg (s : State) (cls : Nat) (m : Msg) : State := { s with ports := [(7, { inbox := [(cls, m.bytes)] })] }
theorem witness_EngineMessages :
    let s (t : Tag) (m : Msg) : State := withMsg (withTag 0x80000001 rootEnt t) 2 m
    let x : Xfer := { id := 0, job := 0, tag := 4095, shard := 0, kind := 0, dst := 0 }
    (∀ m ∈ [ctlMsg 1 0 0, ctlMsg 2 0 0, ctlMsg 3 0 0x10, ctlMsg 4 0 0, ctlMsg 5 0 0, ctlMsg 6 0 0, ctlMsg 7 0 0x7F,
        { kind := 0x11, key := 7, data := natLe 8 255 }],
      let u := s { st := .armed } m
      u.live = true ∧ (u.port 7).inbox.find? (fun x => x.1 == 2) = some (2, m.bytes) ∧ Msg.ofBytes m.bytes = m ∧ m.dst = u.chipId ∧
        u.slotOfKey m.key = some 0 ∧ bitAt (u.preg .links 0x104) 30 = false) ∧
    rcTag (ctlMsg 1 0 0) = 4095 ∧ rcStep (ctlMsg 1 0 0) = 0 ∧ rcXfer (ctlMsg 1 0 0) ≠ 1 ∧
    ((s {} (ctlMsg 1 0 0)).tag 0 4095).st = .idle ∧
    (((s { st := .armed } (ctlMsg 1 0 0)).tag 0 4095).st.inStep = true ∧ ((s { st := .armed } (ctlMsg 1 0 0)).tag 0 4095).step = 0) ∧
    (((s { st := .armed, step := 255 } (ctlMsg 1 0 0)).tag 0 4095).step ≠ 0 ∧ (255 + 1) % 256 = rcStep (ctlMsg 1 0 0)) ∧
    ([x].find? (fun x => answers 0 (ctlMsg 2 0 0) x && x.kind == rcXfer (ctlMsg 2 0 0)) = some x) ∧
    ([x].any (answers 0 (ctlMsg 3 0 0x10)) = true ∧ rcXfer (ctlMsg 3 0 0x10) = 0x10) ∧
    ((s { st := .armed } (ctlMsg 4 0 0)).rcLive 0 (ctlMsg 4 0 0) = true ∧
      seRole ((s { st := .armed } (ctlMsg 4 0 0)).shardEnt ((s { st := .armed } (ctlMsg 4 0 0)).bucket 0 4095) 0) = 3 ∧
      seRole ((withMsg (withTag 0x80000001 combEnt { st := .armed }) 2 (ctlMsg 4 0 0)).shardEnt
        ((s { st := .armed } (ctlMsg 4 0 0)).bucket 0 4095) 0) ≠ 3) := by decide +kernel
/-- A message for another chip, one under a key of no job, one of a job torn down. -/
theorem witness_MessageChecks :
    let m := ctlMsg 1 0 0
    let s (m : Msg) : State := withMsg (withTag 0x80000001 rootEnt {}) 2 m
    let torn : State := { s m with regs := [(Page.links.base + 0x100, 0), (Page.links.base + 0x104, 0xC0000007)] }
    (Msg.ofBytes { m with dst := 5 }.bytes).dst ≠ (s m).chipId ∧ (s m).slotOfKey 8 = none ∧ torn.slotOfKey 7 = some 0 ∧
      bitAt (torn.preg .links 0x104) 30 = true := by decide +kernel
theorem witness_LintelMessage :
    let l : Lint := { valid := true, expect := 1 }
    let s := { withMsg (withTag 0 0 {}) 2 { kind := 0x11, key := 7, data := natLe 8 255 } with lintels := [(255, l)] }
    let n := { withMsg (withTag 0 0 {}) 2 { kind := 0x11, key := 7, data := natLe 8 (255 + 256) } with lintels := [(255, l)] }
    s.live = true ∧ s.lint 0 255 = l ∧ byteFld (natLe 8 255) 1 1 % 4 = l.phase % 4 ∧ n.lint 0 255 = l ∧
      byteFld (natLe 8 (255 + 256)) 1 1 % 4 = (l.phase + 1) % 4 := by decide +kernel

/-! ### Link ports -/

theorem witness_PeerRequests :
    let m (kind key : Nat) : Msg := { kind := kind, key := key, src := 5, data := if kind = 1 then zeros 64 else [], rlen := 64 }
    let s (m : Msg) : State := withMsg (withTag 0 0 {}) 0 m
    let torn (m : Msg) : State := { s m with regs := [(Page.links.base + 0x100, 0), (Page.links.base + 0x104, 0xC0000007)] }
    let open_ (m : Msg) : State := { s m with
      regs := [((Page.quarry 0).base + 0x800, 0x40040300), ((Page.quarry 0).base + 0x804, 7), ((Page.quarry 0).base + 0x80C, 0x100000),
               (Page.links.base + 0x100, 0), (Page.links.base + 0x104, 0x80000007)] }
    (∀ kind ∈ [1, 2, 3], ∀ key ∈ [7, 8], let u := s (m kind key)
      u.live = true ∧ (u.port 7).inbox.find? (fun x => x.1 == 0) = some (0, (m kind key).bytes) ∧ Msg.ofBytes (m kind key).bytes = m kind key ∧
        (m kind key).dst = u.chipId ∧ u.slotOfKey key = (if key = 7 then some 0 else none) ∧ bitAt (u.preg .links 0x104) 30 = false) ∧
    (s { m 1 7 with dst := 5 }).chipId ≠ 5 ∧ (torn (m 2 7)).slotOfKey 7 = some 0 ∧ bitAt ((torn (m 2 7)).preg .links 0x104) 30 = true ∧
    (∀ kind ∈ [1, 2], let u := open_ (m kind 7)
      u.ecc = [] ∧ u.flight = [] ∧ u.memOk ∧ u.slotOfKey 7 = some 0 ∧ bitAt (u.preg .links 0x104) 30 = false ∧
        (u.winEnter (.peer 7) (if kind = 1 then .write else .read) 0 64).2.1 = 0) := by
  simp only [State.memOk]; and_intros <;> decide +kernel
/-- A hand-off of 64 bytes to row 4 of core o's sill, and a state whose port 7 holds it, the core in a state of life. -/
def handMsg (o : CoreId) : Msg := { kind := 4, key := 7, addr := rowAddr o 4, data := zeros 64 }
@[inherit_doc handMsg] def withHand (o : CoreId) (st : JobSt) (slots : Tab Nat) (life : Life := {}) (held : Tab Nat := []) : State :=
  { on0 {} with
    ports := [(7, { inbox := [(3, (handMsg o).bytes)], held := held })], cores := [(o, { life := life, job := some 0, running := true, slots := slots })]
    jobs := [(0, { st := st, placed := 2 ^ o.val })], regs := [(Page.links.base + 0x100, 0), (Page.links.base + 0x104, 0x80000007)] }
/-- An inbound ring of one slot for port 7 and channel 0, at entry 1023. -/
def handRing : Tab Nat := [(1023, ringIn - 2 ^ 32 + 2 * 2 ^ 58 + 7 * 2 ^ 50)]
theorem witness_Handoffs : ∀ o : CoreId,
    let e : Nat × List Byte := (3, (handMsg o).bytes)
    ∀ s ∈ [withHand o .running [], withHand o .parked [], withHand o .running handRing, withHand o .running [] { retired := true }],
      s.live = true ∧ (List.range 4).filterMap (fun c => (s.port 7).inbox.find? (fun x => x.1 == c + 3)) = [e] ∧
        Msg.ofBytes e.2 = handMsg o ∧ (handMsg o).dst = s.chipId ∧ s.slotOfKey 7 = some 0 ∧ bitAt (s.preg .links 0x104) 30 = false ∧
        s.checkMsg (handMsg o) = .job 0 ∧ (s.core o).current = true ∧ Memory.wf s.mem = true ∧
        s.handHeld 0 = decide ((s.job 0).st = .parked) := by decide +kernel
theorem witness_HandAnswers (o : CoreId) (f : fused o = false) :
    (withHand o .running [] { retired := true }).handAdmit 7 0 (handMsg o) = .shut ∧ (withHand o .parked []).handAdmit 7 0 (handMsg o) = .held ∧
    (withHand o .running []).handAdmit 7 0 (handMsg o) = .denied ∧ (withHand o .running handRing).handAdmit 7 0 (handMsg o) = .land o 1023 1023 ∧
    (withHand o .running handRing).banksFree o meshPort (sillRows (handMsg o).addr (handMsg o).data.length) := by
  have a : sillOf (handMsg o).addr = some o.val := by clear f; revert o; decide +kernel
  have sh (st : JobSt) (x : Tab Nat) (l : Life) : (withHand o st x l).sillShut o = (l.retired || l.st != .opened) := by
    rw [sillShut_of f]; simp [withHand, State.core, tget]
  have h : (withHand o .running []).handHeld 0 = false ∧ (withHand o .running handRing).handHeld 0 = false ∧ (withHand o .parked []).handHeld 0 = true := by
    clear f sh a; revert o; decide +kernel
  have r : (withHand o .running []).handRings o 7 ((handMsg o).sub % 4) (handMsg o).addr (handMsg o).data.length = [] ∧
      (withHand o .running handRing).handRings o 7 ((handMsg o).sub % 4) (handMsg o).addr (handMsg o).data.length = [(1023, 1023)] ∧
      ((withHand o .running handRing).core o).job = some 0 ∧ sFull ((withHand o .running handRing).slot o 1023) = false := by
    clear f sh a h; revert o; decide +kernel
  refine ⟨?_, ?_, ?_, ?_, ?_⟩
  · simp [State.handAdmit, a, sh]
  · simp [State.handAdmit, a, sh, h]
  · simp [State.handAdmit, a, sh, h, r]
  · simp [State.handAdmit, a, sh, h, r, Nat.mod_one]
  · simp only [State.banksFree]; clear f sh a h r; revert o; decide +kernel
/-- Port 7 of a device that is up, as given. -/
def onPort7 (q : Port) : State := { up with ports := [(7, q)] }
@[inherit_doc onPort7] def onEth7 (q : Port) : State := { onPort7 q with regs := [((Page.port 7).base + 0x100, 2)] }
theorem witness_Responses :
    let r : Req := { aReq .issued 0 with via := some (7, 511) }
    let x : Txn := { owner := .stream 0 96, dst := 1, epoch := true }
    let m (kind : Nat) (old : Bool) : Msg := { kind := kind, txn := 511 + (if old then 0 else 2 ^ 15) }
    let s (kind : Nat) (old : Bool) (x : Txn) (n : Nat) : State := { on0 {} with
      time := n, flight := [r], ports := [(7, { epoch := true, inbox := [(1, (m kind old).bytes)], txns := [(511, x)] })], regs := [(Page.links.base + 0x100, 0)] }
    (∀ kind ∈ [8, 9], ∀ old, let u := s kind old x 0
      u.live = true ∧ (u.port 7).inbox.find? (fun x => x.1 == 1) = some (1, (m kind old).bytes) ∧ Msg.ofBytes (m kind old).bytes = m kind old ∧
      (m kind old).dst = u.chipId ∧ (m kind old).txn % 512 = 511 ∧ tfind (u.port 7).txns 511 = some x ∧ (x.epoch == bitAt (m kind old).txn 15) = !old ∧
      x.expired = false ∧ u.red.xfers = [] ∧ u.flight.find? (fun r => r.core == 0 && r.tag == 96 && r.via == some (7, 511)) = some r) ∧
    (∀ n ∈ [0, 100000000], let u := s 8 false x n
      tfind (u.port 7).txns 510 = none ∧ decide (x.at_ + 100 * u.preg (.port 7) 0x110 ≤ u.time) = decide (n ≠ 0)) ∧
    (∀ y ∈ [(JobSt.running, ([] : Tab Nat), 0), (.parked, [], 0), (.parked, [(3, 0)], 0), (.parked, [(3, 0)], 10000000000)],
      let u : State := { withHand 0 y.1 [] {} y.2.1 with time := y.2.2 }
      (u.port 7).inbox.find? (fun x => x.1 == 3) = some (3, (handMsg 0).bytes) ∧ u.waitsParked (3, (handMsg 0).bytes) = decide (y.1 = .parked) ∧
        u.checkMsg (Msg.ofBytes (handMsg 0).bytes) = .job 0 ∧ tfind (u.port 7).held 3 = (if y.2.1 = [] then none else some 0) ∧
        decide (0 + 100 * u.preg (.port 7) 0x10C ≤ u.time) = decide (y.2.2 ≠ 0)) := by and_intros <;> decide +kernel
theorem witness_LinksTrain :
    let s (q : Port) (n : Nat) : State := { onPort7 q with time := n }
    let eth (q : Port) : State := onEth7 q
    let lanes (r : List (Nat × List Byte)) : Tab Lane := [(0xFFFF, { replay := r })]
    (∀ l ∈ [LinkSt.training, .up, .retraining], ∀ q ∈ [s { link := l } 0, eth { link := l }], q.live = true ∧ (q.port 7).link = l) ∧
    (s {} 0).isEth 7 = false ∧ (eth {}).isEth 7 = true ∧ pickLanes ((s {} 0).maxWidth 7) 0xFE = some (4, 0xF0) ∧ pickLanes ((s {} 0).maxWidth 7) 0 = none ∧
    (let w := (eth {}).maxWidth 7
     (2 ^ w - 1) &&& 0xFF = 2 ^ w - 1 ∧ (2 ^ w - 1) &&& 0xFE ≠ 2 ^ w - 1) ∧
    ((s { link := .training, life := { st := .opening } } 0).port 7).life.st = .opening ∧
    (∀ x ∈ [([], 0), ([0, 0], 2)], let u := s { link := .up, retrains := x.1 } 0
      ((u.port 7).retrains.filter (fun t => decide (u.time < t + 1000000))).length = x.2) ∧
    (∀ n ∈ [0, 1000], let u := s { link := .up, lanes := lanes [(0, [])] } n
      (u.lane 7 0xFFFF).replay ≠ [] ∧ decide ((u.lane 7 0xFFFF).ackAt + 1000 ≤ u.time) = decide (n ≠ 0)) ∧
    (let u := s { link := .retraining, width := 2 } 0
     pickLanes (u.port 7).width 0xF0 = some (2, 0x30) ∧ pickLanes (u.port 7).width 0 = none) := by
  and_intros <;> decide +kernel
theorem witness_FlitsMove :
    let s (q : Port) (n : Nat) : State := { onPort7 { q with link := .up } with time := n }
    let asks (a : List Nat) : Port := { lanes := [(0xFFFF, { asks := a })] }
    (∀ x ∈ [1, 0], ∀ k ∈ [24, 300], let u := s { txq := [(6 + 8 * 0xFFFF, zeros k)], credits := [(6, x)] } 0
      u.live = true ∧ u.isEth 7 = false ∧ (u.port 7).link = .up ∧ (u.port 7).ret = [] ∧ (u.port 7).txq = [(6 + 8 * 0xFFFF, zeros k)] ∧
        tget 0 (u.port 7).credits 6 = x ∧ (u.lane 7 0xFFFF).replay.length < 2048 ∧ ∀ x ∈ (u.port 7).lanes, x.2.asking = false) ∧
    (let i := s { lanes := [(0xFFFF, { txSeq := 1, rxSeq := 4095, replay := [(0, zeros 256)] })] } 0
     (i.port 7).txq = [] ∧ (∀ x ∈ (i.port 7).lanes, x.2.asking = false) ∧ (i.lane 7 0xFFFF).asks = [] ∧ (i.lane 7 0xFFFF).rxSeq = 4095) ∧
    (∀ x ∈ [([0], 200, 1), (List.replicate 7 0, 200, 7)], let u := s (asks x.1) x.2.1
      (u.port 7).lanes = [(0xFFFF, { asks := x.1 })] ∧ (∀ t ∈ x.1.head?, t + 200 ≤ u.time) ∧
        (x.1.filter (fun t => decide (u.time < t + 10000))).length = x.2.2) ∧
    (let u := s (asks [0]) 199
     ∀ x ∈ (u.port 7).lanes, ∀ t ∈ x.2.asks.head?, u.time < t + 200) := by and_intros <;> decide +kernel
/-- A path-table entry to chip 5 on port 7, all else 0, and the port with its lane as given. -/
def onPath (l : Lane) : State := { onEth7 { link := .up, lanes := [(5, l)] } with
  regs := [((Page.port 7).base + 0x100, 2), (Page.links.base + 0x100, 0)], routes := { paths := [(7, [natLe 2 5 ++ zeros 62])] } }
/-- What comes before the flit in an IPv4 frame from the path under an epoch, from the container's first byte on; and the container. -/
def aHead (epoch : Nat) : List Byte := natLe 1 0x10 ++ zeros 3 ++ natLe 2 5 ++ natLe 2 epoch
@[inherit_doc aHead] def aBody (epoch : Nat) (g : List Byte) : List Byte := aHead epoch ++ g
/-- The frame's headers. -/
def aFrame : List Byte :=
  let head (c : Nat) : List Byte := [0x45, 0] ++ natBe 2 292 ++ zeros 2 ++ natBe 2 0x4000 ++ [64, 17] ++ natBe 2 c ++ zeros 8
  zeros 12 ++ natBe 2 0x800 ++ head (inetCheck (head 0)) ++ udpHead 0xC000 0xB5EA 272 0
theorem beFld_left {a b : List Byte} {o n : Nat} (h : o + n ≤ a.length) : beFld (a ++ b) o n = beFld a o n := by
  rw [beFld, List.drop_append_of_le_length (by omega), List.take_append_of_le_length (by simp; omega), beFld]
theorem byteFld_left {a b : List Byte} {o n : Nat} (h : o + n ≤ a.length) : byteFld (a ++ b) o n = byteFld a o n := by
  rw [byteFld, List.drop_append_of_le_length (by omega), List.take_append_of_le_length (by simp; omega), byteFld]
theorem witness_Frame (epoch : Nat) (g : List Byte) (hg : g.length = 256) : ∃ f, (onPath {}).frameBody 7 f = some (aBody epoch g) := by
  have hb : (aBody epoch g).length = 264 := by simp [aBody, aHead, hg, natLe, zeros]
  have ha : aFrame.length = 42 := by decide +kernel
  generalize aBody epoch g = y at hb
  refine ⟨(aFrame ++ y) ++ natLe 4 (crc32 (aFrame ++ y)).toNat, ?_⟩
  have c := Laws.byteFld_last (aFrame ++ y) 4 (crc32 (aFrame ++ y)).toNat
  rw [Nat.mod_eq_of_lt (show _ < 256 ^ 4 from BitVec.isLt _)] at c
  have l : (aFrame ++ y ++ natLe 4 (crc32 (aFrame ++ y)).toNat).length - 4 = (aFrame ++ y).length := by simp; omega
  have t : beFld (aFrame ++ y ++ natLe 4 (crc32 (aFrame ++ y)).toNat) 12 2 = beFld aFrame 12 2 := by
    rw [List.append_assoc, beFld_left (by omega)]
  have ok : beFld aFrame 12 2 = 0x800 := by decide +kernel
  have k : (aFrame ++ y ++ natLe 4 (crc32 (aFrame ++ y)).toNat).take 6 = aFrame.take 6 := by
    rw [List.append_assoc, List.take_append_of_le_length (by omega)]
  have d : List.drop 14 (aFrame ++ y) = List.drop 14 aFrame ++ y := List.drop_append_of_le_length (by omega)
  have u : List.drop 20 (List.drop 14 aFrame ++ y) = List.drop 34 aFrame ++ y := by
    rw [List.drop_append_of_le_length (by simp; omega), List.drop_drop]
  have w : beFld (List.drop 34 aFrame ++ y) 4 2 = 272 := by rw [beFld_left (by simp; omega)]; decide +kernel
  have full : List.take 272 (List.drop 34 aFrame ++ y) = List.drop 34 aFrame ++ y := List.take_of_length_le (by simp; omega)
  have rest : List.drop 8 (List.drop 34 aFrame ++ y) = y := by
    rw [List.drop_append_of_le_length (by simp; omega), List.drop_drop, List.drop_of_length_le (by omega), List.nil_append]
  have p (o n : Nat) (h : o + n ≤ 28) : beFld (List.drop 14 aFrame ++ y) o n = beFld (List.drop 14 aFrame) o n := beFld_left (by simp; omega)
  have q (o n : Nat) (h : o + n ≤ 28) : byteFld (List.drop 14 aFrame ++ y) o n = byteFld (List.drop 14 aFrame) o n := byteFld_left (by simp; omega)
  have v (n : Nat) (h : n ≤ 28) : (List.drop 14 aFrame ++ y).take n = (List.drop 14 aFrame).take n := List.take_append_of_le_length (by simp; omega)
  have x : (List.drop 16 (List.drop 14 aFrame ++ y)).take 4 = (List.drop 30 aFrame).take 4 := by
    rw [List.drop_append_of_le_length (by simp; omega), List.drop_drop, List.take_append_of_le_length (by simp; omega)]
  have m (o n : Nat) (h : o + n ≤ 8) : beFld (List.drop 34 aFrame ++ y) o n = beFld (List.drop 34 aFrame) o n := beFld_left (by simp; omega)
  have len : (List.drop 34 aFrame ++ y).length = 272 := by simp; omega
  have fin : (beFld aFrame 12 2 = 0x800 ∧ byteFld (List.drop 14 aFrame) 0 1 = 0x45 ∧ beFld (List.drop 14 aFrame) 6 2 % 0x4000 = 0 ∧
      byteFld (List.drop 14 aFrame) 9 1 = 17 ∧ inetCheck ((List.drop 14 aFrame).take 20) = 0 ∧
      (List.drop 30 aFrame).take 4 = ((onPath {}).ownIp 7).take 4 ∧ beFld (List.drop 14 aFrame) 2 2 = 292) ∧ aFrame.take 6 = (onPath {}).ownMac 7 ∧
      bitAt ((onPath {}).preg (.port 7) 0x130) 15 = false ∧ beFld (List.drop 34 aFrame) 2 2 = (onPath {}).udpPort 7 ∧ beFld (List.drop 34 aFrame) 6 2 = 0 := by decide +kernel
  have body : (aFrame ++ y ++ natLe 4 (crc32 (aFrame ++ y)).toNat).take ((aFrame ++ y ++ natLe 4 (crc32 (aFrame ++ y)).toNat).length - 4) = aFrame ++ y := by
    rw [l, List.take_left]
  rw [← l] at c
  generalize aFrame ++ y ++ natLe 4 (crc32 (aFrame ++ y)).toNat = f at c k t body ⊢
  have s8 : (beFld aFrame 12 2 == 0x8100) = false := by rw [ok]; decide
  simp only [State.frameBody, body, t, s8, Bool.false_eq_true, ↓reduceIte, Nat.reduceAdd, d]
  simp only [ok, c, k, Nat.reduceBEq, Bool.false_eq_true, ↓reduceIte, u, w, full, rest, len, p 2 2 (by omega), p 6 2 (by omega), q 0 1 (by omega),
    q 9 1 (by omega), v 20 (by omega), x, m 2 2 (by omega), m 6 2 (by omega), fin]
  simp
/-- A flit of class CTL under a SEQ; what carries it from the path. -/
def aFlit (seq : Nat) : List Byte := mkFlit (flitHdr 1 6 seq 0 0 0 0 31) []
theorem aFlit_length (seq : Nat) : (aFlit seq).length = 256 := by simp [aFlit, mkFlit, Laws.fitTo_length]
theorem aFlit_ok : ∀ seq ∈ [0, 4095], flitOk (aFlit seq) = true ∧ fld (flitH (aFlit seq)) 63 60 = 1 ∧ fld (flitH (aFlit seq)) 59 57 = 6 ∧
    bitAt (flitH (aFlit seq)) 32 = false ∧ flitSeq (aFlit seq) = seq := by
  simp only [all_cons, all_nil, and_true, flitSeq, aFlit, Laws.flitH_mkFlit]
  and_intros <;> first | exact Laws.flitOk_mkFlit _ _ (by decide) (by decide) (by decide) | decide
theorem chunks_one {g : List Byte} (h : g.length = 256) : chunks 256 g = [g] := by
  have e : g.drop 256 = [] := List.drop_of_length_le (Nat.le_of_eq h)
  have t : g.take 256 = g := List.take_of_length_le (Nat.le_of_eq h)
  cases g with
  | nil => simp at h
  | cons a l => rw [chunks, h]; show (a :: l).take 256 :: chunksAux 256 255 ((a :: l).drop 256) = _; rw [e, t]; rfl
theorem witness_FrameFields (epoch seq : Nat) (he : epoch = 0 ∨ epoch = 1) : let b := aBody epoch (aFlit seq)
    fld (byteFld b 0 1) 7 4 = 1 ∧ byteFld b 1 1 = 0 ∧ byteFld b 2 2 = (onPath {}).chipId ∧ ((onPath {}).pathEnt 7 (byteFld b 4 2)).isSome = true ∧
      (b.drop 8).length = 256 * (fld (byteFld b 0 1) 3 0 + 1) ∧ byteFld b 6 2 = epoch ∧ byteFld b 4 2 = 5 ∧ chunks 256 (b.drop 8) = [aFlit seq] ∧
      (onPath {}).bufRoom 7 6 = true := by
  have n : (aHead epoch).length = 8 := by simp [aHead, natLe, zeros]
  have d : (aBody epoch (aFlit seq)).drop 8 = aFlit seq := by rw [aBody, ← n, List.drop_left]
  have f (o k : Nat) (h : o + k ≤ 8) : byteFld (aBody epoch (aFlit seq)) o k = byteFld (aHead epoch) o k := byteFld_left (by omega)
  simp only [d, f 0 1 (by omega), f 1 1 (by omega), f 2 2 (by omega), f 4 2 (by omega), f 6 2 (by omega), chunks_one (aFlit_length seq), aFlit_length]
  rcases he with rfl | rfl <;> decide +kernel
theorem witness_EthernetPaths :
    let s := onPath {}
    let r (t n : Nat) : State := { onPath { replay := [(0, [])], timeouts := t } with time := n }
    s.live = true ∧ s.isEth 7 = true ∧ (s.port 7).link = .up ∧ (onPort7 {}).isEth 7 = false ∧ s.frameBody 7 [] = none ∧ (s.lane 7 5).peerEpoch = 0 ∧
    ((onPath { rxSeq := 4095 }).lane 7 5).rxSeq = 4095 ∧ (s.lane 7 5).replay = [] ∧
    (∀ t ∈ [14, 15], ∀ n ∈ [0, 10000000], ((r t n).lane 7 5).replay ≠ [] ∧ ((r t n).lane 7 5).timeouts = t ∧
      decide (((r t n).lane 7 5).ackAt + 100 * (r t n).preg (.port 7) 0x114 ≤ (r t n).time) = decide (n ≠ 0)) := by decide +kernel
/-! ### The attention block -/

/-- A ring entry of one slot of two rows for the attention block, by direction, FULL and first row. -/
def attRing (dir full buf : Nat) : Nat := full * 2 ^ 63 + 2 ^ 62 + dir * 2 ^ 61 + 2 ^ 60 + 2 ^ 58 + 255 * 2 ^ 50 + 2 ^ 13 + buf
/-- A request of one entry of one position, its kind and BUDGET, for tile ring 16. -/
def attHdr (kind budget : Nat) : List Byte := natLe 4 (kind * 2 ^ 28 + 2 ^ 16) ++ zeros 4 ++ natLe 4 budget ++ natLe 4 16 ++ zeros 496
@[inherit_doc attHdr] def attEnts : List Byte := natLe 8 (2 ^ 63 + 2 ^ 20) ++ zeros 504
@[inherit_doc attHdr] def attReq (kind st : Nat) : AttReq := { core := 0, ring := 9, hdr := attHdr kind 1, ents := attEnts, job := 0, st := st }
/-- The request in row 0 of core 0, its rings at entries 9 and 16; a pool of one page of 4,096 bytes for one layer at 0, its lists
at 0x80000, and a window of class KV on the first 2 MiB. -/
def withAtt (kind budget full : Nat) (a : Att) : State := { on0 { slots := [(9, attRing 1 1 0), (16, attRing 0 full 4)] } with
  att := a, mem := memWrite [] (rowAddr 0 0) (attHdr kind budget ++ attEnts)
  regs := [((Page.quarry 0).base + 0x800, 0x40400300), ((Page.quarry 0).base + 0x80C, 0x200000), (Page.att.base + 0x110, 0x80000),
           (Page.att.base + 0x120, 1), (Page.att.base + 0x124, 0x100001), (Page.att.base + 0x128, 1)] }
theorem witness_AttentionRequest : ∀ x ∈ [(2, 1, true), (1, 1, true), (2, 0, false)],
    let s := withAtt x.1 x.2.1 0 {}
    let r : AttReq := { core := 0, ring := 9, hdr := s.bytes (rowAddr 0 0) 512, ents := s.bytes (rowAddr 0 0 + 512) 512, job := 0 }
    let u := (s.setFull 0 9 (sCons (s.slot 0 9)) false).advCons 0 9 1
    s.live = true ∧ s.ecc = [] ∧ (s.core 0).job = some 0 ∧ s.attLocal 0 = true ∧ s.ringOk 0 9 = true ∧ sOut (s.slot 0 9) = true ∧
      sAgent (s.slot 0 9) = 1 ∧ sAgentId (s.slot 0 9) = 0xFF ∧ s.slotFull 0 9 (sCons (s.slot 0 9)) = true ∧
      sBuf (s.ringSlot 0 9 (sCons (s.slot 0 9))) = 0 ∧ s.att.reqs.countP (fun r => r.st != 2) < 4 ∧ s.ringReqs 0 9 = [] ∧
      u.attOk r 0 = x.2.2 ∧ (x.2.2 = true → r.paged = (x.1 == 2)) := by decide +kernel
theorem witness_PagedProceeds :
    let x (done : Bool) : AttStep := { core := 0, step := 0, ref := 0, ents := attEnts, out := [0], done := done }
    let s (done : Bool) : State := withAtt 2 1 0 { reqs := [attReq 2 0], step := some (x done) }
    let u := (s true).kvGet ((s true).indexReads (attReq 2 0) [true])
    let v := u.1.copyRun (u.1.appendCopies (attReq 2 0) [true])
    (∀ d, (s d).att.reqs[0]? = some (attReq 2 0) ∧ (s d).att.step = some (x d) ∧ (s d).attLocal 0 = true) ∧ (attReq 2 0).paged = true ∧
      (x false).done = false ∧ (x true).step = (attReq 2 0).step ∧ (attReq 2 0).entries = [lenEnt attEnts 0] ∧
      (attReq 2 0).entries ≠ [lenEnt (zeros 512) 0] ∧ u.2 = 0 ∧ v.2 = 0 := by decide +kernel
/-- The premises of a request that becomes ready with one true entry. -/
def readyOk (v : State) (r : AttReq) : Prop :=
  let g := v.kvGet (v.indexReads r [true])
  g.2 = 0 ∧ (g.1.tiles r [true]).length ≤ r.budget ∧ 0 < v.att.reqs.length ∧
    (g.1.kvPut (byteFld r.hdr 0x10 6) ((List.range r.budget).flatMap (fun i => g.1.indexRec r (g.1.tiles r [true])[i]?))).2 = 0
theorem witness_Readies :
    let s := withAtt 1 1 0 {}
    let r : AttReq := { core := 0, ring := 9, hdr := s.bytes (rowAddr 0 0) 512, ents := s.bytes (rowAddr 0 0 + 512) 512, job := 0 }
    let u := (s.setFull 0 9 (sCons (s.slot 0 9)) false).advCons 0 9 1
    let x : AttStep := { core := 0, step := 0, ref := 0, ents := attEnts, out := [0], done := true }
    let p := withAtt 2 1 0 { reqs := [attReq 2 0], step := some x }
    r.paged = false ∧ readyOk { u with att := { u.att with reqs := [r] } } r ∧
      readyOk ((p.kvGet (p.indexReads (attReq 2 0) [true])).1.copyRun ((p.kvGet (p.indexReads (attReq 2 0) [true])).1.appendCopies (attReq 2 0) [true])).1
        (attReq 2 0) := by simp only [readyOk]; and_intros <;> decide +kernel
theorem witness_TileEmitted :
    let s (st full : Nat) : State := withAtt 1 1 full { reqs := [{ attReq 1 st with served := [true] }] }
    (s 1 0).att.reqs[0]? = some { attReq 1 1 with served := [true] } ∧ (s 1 0).attLocal 0 = true ∧
      Memory.wf (s 1 0).mem = true ∧ (attReq 1 1).tileHead = 16 ∧ (s 1 0).slotFull 0 16 (sProd ((s 1 0).slot 0 16)) = false ∧
      (s 1 1).slotFull 0 16 (sProd ((s 1 1).slot 0 16)) = true ∧ (attReq 1 0).st ≠ 1 := by decide +kernel
theorem witness_StepAllocates :
    let a : AttReq := { attReq 2 0 with hdr := natLe 4 (2 * 2 ^ 28 + 2 ^ 25 + 2 ^ 16) ++ (attHdr 2 1).drop 4 }
    let b : AttStep := { core := 0, step := 0, ref := 0, ents := attEnts, out := [0xFF] }
    let s := withAtt 2 1 0 { reqs := [a] }
    let g := withAtt 2 1 0 { step := some b }
    let n := withAtt 2 1 0 {}
    s.attLocal s.poolJob = true ∧ s.boundary = true ∧ s.att.cmds = [] ∧ s.swappingOut = false ∧ s.att.step = none ∧
      s.att.reqs.find? (fun r => r.alloc && r.st == 0 && !r.retired && r.job == s.poolJob) = some a ∧
      g.boundary = false ∧ n.boundary = true ∧ n.att.reqs = [] := by decide +kernel
theorem witness_PoolCommands :
    let c (op : Nat) (len : Nat) : AttCmd := { sq := 0, cmd := natLe 4 op ++ zeros 4 ++ natLe 4 len ++ zeros 4 }
    let q : Seq := { st := 1 }
    let s (op len : Nat) (qs : List (Nat × Seq)) : State := withAtt 2 1 0 { cmds := [c op len], seqs := qs }
    let u := ({ s 1 64 [] with att := { (s 1 64 []).att with age := 1 } }.onSeq 0 (fun _ => { st := 1, age := 1 })).takePages 0 1
    (s 1 64 []).att.cmds = [c 1 64] ∧ (s 1 64 []).boundary = true ∧ (s 1 64 []).swappingOut = false ∧ byteFld (c 1 64).cmd 0 1 = 1 ∧
      (s 1 64 []).freeSeq = some 0 ∧ (s 1 64 []).nlayer * ceilDiv 64 64 ≤ (s 1 64 []).freePages.length ∧
      (s 1 64 []).nlayer * ceilDiv 64 64 ≤ fld ((s 1 64 []).preg .att 0x120) 16 0 ∧ u.2 = 0 ∧
      byteFld (c 1 262145).cmd 8 4 = 262145 ∧ (s 1 64 ((List.range 64).map (fun i => (i, q)))).freeSeq = none ∧
      byteFld (c 2 0).cmd 0 1 = 2 ∧ byteFld (c 2 0).cmd 2 1 = 0 ∧ (s 2 0 [(0, q)]).seq 0 = q ∧ (s 2 0 [(0, q)]).swappingOut = false ∧
      (s 2 0 [(0, q)]).poolJob = 0 ∧ byteFld (c 2 0).cmd 4 4 = 0 ∧
      (∀ x ∈ [(128, 1), (65, 2)], (s 1 x.1 []).nlayer * ceilDiv x.1 64 = 2 ∧ fld ((s 1 x.1 []).preg .att 0x120) 16 0 = 1) ∧
      (let f : State := { s 1 64 [] with att := { (s 1 64 []).att with used := [(0, 63)] } }
       f.freePages.length < f.nlayer * ceilDiv 64 64 ∧ f.freeSeq = some 0 ∧ f.att.seqs = []) := by decide +kernel
theorem witness_Swaps :
    let q (st : Nat) : Seq := { st := st, pages := 1 }
    let s (st : Nat) : State := withAtt 2 1 0 { seqs := [(63, q st)], used := [(0, 63)], swapUsed := [(0, 63)] }
    let p := (s 4).pagesPut ((((s 4).pagesOf 63).zip (List.range 1)).map (fun e =>
      ((s 4).pageAt e.1, fitTo (s 4).kvPageBytes (([] : List Byte).drop ((s 4).kvPageBytes * e.2)))))
    ((s 1).seq 63).st ≠ 2 ∧ ((s 2).seq 63).st = 2 ∧
      ((s 2).listPut (((s 2).listEntries 63).zip ((((s 2).att.swapUsed.filter (fun e => e.2 == 63)).map Prod.fst).map
        (fun p => 2 ^ 30 + p)))).2 = 0 ∧
      ((s 4).seq 63).st = 4 ∧ p.2 = 0 ∧ (p.1.listPut ((p.1.listEntries 63).zip ((s 4).pagesOf 63))).2 = 0 := by decide +kernel

/-! ### Registers and the host interface -/

theorem witness_Registers :
    (∀ x ∈ [(Page.health, 0x100), (.port 7, 0x100), (.hif, 0x100), (.core 127, 0x100)],
      pageOf (x.1.base + x.2) = some x.1 ∧ isCtr x.1 x.2 = false ∧ x.2 % 8 = 0) ∧
    pageOf (Page.thermal.base + 0x10C) = some .thermal ∧ isCtr .thermal 0x10C = false ∧ isCtr .thermal (0x10C - 4) = false ∧
    up.svcLive = true ∧ up.pwr.trip = false ∧
    (regDef .health 0x100).map RegDef.rw = some 0xFF0FFFF1 ∧ (regDef (.port 7) 0x100).map RegDef.st = some 0x8FF003 ∧
    (regDef .hif 0x100).map (fun d => (d.rw, d.w1c, d.st)) = some (0, 0, 0) ∧
    (regDef .thermal 0x10C).map (fun d => (d.rw, d.w1c, d.st)) = some (0, 7, 0) := by decide +kernel
theorem witness_Access :
    (∀ x ∈ [(0x2000, 4, false), (0x2000, 8, true), (hqOff 1023, 4, true), (0x538000 + 8 * 1023, 8, true), (0x538004, 4, false)], bar0Valid x.1 x.2.1 x.2.2 = true) ∧
      (∀ x ∈ [(0x2002, 4, false), (0x2004, 8, true), (0x2000, 2, true), (0x538000, 4, true)], bar0Valid x.1 x.2.1 x.2.2 = false) ∧
      pageOf 0x2000 ≠ none ∧ ctrAt 0x2100 = none ∧ bar0Valid 0x2100 8 false = true := by decide +kernel
theorem witness_Counters :
    let o := (Page.port 7).base + 0x40
    let s : State := { up with latch := [(o, 5)] }
    s.svcLive = true ∧ ctrAt o = some (.port 7, 0x40) ∧ ctrAt (o + 4 - 4) = some (.port 7, 0x40) ∧ tfind s.latch o = some 5 ∧
      tfind up.latch o = none := by decide +kernel
theorem witness_LossIn :
    let s : State := { on0 {} with regs := [(Page.health.base + 0x100, 1), (Page.fault.base + 0x100, 0)] }
    s.live = true ∧ s.runSlot = some 0 ∧ bitAt (s.job 0).placed 0 = true ∧ bitAt (s.preg .health 0x100) 0 = true ∧
      (val32 0x3F800000).isFin = true ∧ (val32 0x7F800000).isFin = false ∧ (s.lossOf 0).samples = 0 ∧
      bitAt (s.preg .fault 0x100) 0 = false ∧ up.runSlot = none := by decide +kernel
theorem witness_Bar2 :
    let s : State := { up with regs := [((Page.quarry 0).base + 0x800, 0x40080300), ((Page.quarry 0).base + 0x80C, 0x10000)] }
    s.live = true ∧ s.ecc = [] ∧ Memory.wf s.mem = true ∧ (s.winEnter .host .read (s.bar2Addr 0xFFFF) 1).2.1 = 0 ∧
      (s.winEnter .host .write (s.bar2Addr 0xFFFF) ([1] : List Byte).length).2.1 = 0 ∧
      (s.winEnter .host .read (s.bar2Addr 0x10000) 1).2.1 ≠ 0 ∧ (s.winEnter .host .write (s.bar2Addr 0xFFFF) 2).2.1 ≠ 0 := by decide +kernel
/-- Host queue 1023 as given, its word 0 and a ring of 16; CQ 0 is enabled. -/
def withHq (q : Hq) (word0 : W32) : State := { up with
  hif := { hqs := [(1023, q)] }
  regs := [(hqOff 0, 0xC0000000), (hqOff 1023, word0), (hqOff 1023 + 4, 4)] }
theorem witness_QueueEnable :
    let s := withHq {} 0
    let c : W32 := 0xC0000000
    s.svcLive = true ∧ (s.hq 1023).st = 0 ∧ (s.setReg (hqOff 1023) (c.toNat ||| 2 ^ 31)).hqOk 1023 = true ∧
      (s.setReg (hqOff 1023) (0x98000000 ||| 2 ^ 31)).hqOk 1023 = true ∧ (s.setReg (hqOff 1023) (0x80000000 ||| 2 ^ 31)).hqOk 1023 = false := by
  decide +kernel
theorem witness_HostQueues :
    let q : Hq := { st := 1, head := 15, tail := 1 }
    let s := withHq q 0x98000000
    let c := withHq q 0xC0000000
    let n := s.hqSize 1023
    s.svcLive = true ∧ s.live = true ∧ (s.hq 1023).st = 1 ∧ bitAt (s.hqWord 1023 0) 30 = false ∧ bitAt (c.hqWord 1023 0) 30 = true ∧
      n = 16 ∧ (1 + n - 15) % n ≤ (14 + n - 15) % n ∧ (0 + n - 15) % n ≤ (1 + n - 15) % n ∧ c.hif.store = [] ∧
      (s.hq 1023).head ≠ (s.hq 1023).tail ∧ fld (s.hqWord 1023 0) 29 27 = 3 ∧ jobCmdOk (natLe 4 3 ++ zeros 60) = true ∧
      fld ((withHq q 0x90000000).hqWord 1023 0) 29 27 = 2 ∧ hostAttOk (natLe 4 1 ++ zeros 60) = true ∧
      fld ((withHq q 0x88000000).hqWord 1023 0) 29 27 = 1 ∧ hostBenchOk (natLe 4 0x03000000 ++ zeros 60) = true ∧
      jobCmdOk (zeros 64) = false ∧ hostAttOk (zeros 64) = false ∧ hostBenchOk (zeros 64) = false ∧ n ≤ 16 ∧
      (0 + n - 15) % n < (1 + n - 15) % n ∧ (1 + n - 15) % n < (14 + n - 15) % n := by decide +kernel
theorem witness_HostLink :
    let s : State := { up with flt := { ring := [(31, zeros 64)], oldest := 31, unack := 1 }, hif := { up := true, msixPend := 2 ^ 63 } }
    let h := withHq { due := true, msgAt := some 0 } 0x3F00000
    s.svcLive = true ∧ 0 < s.flt.unack ∧ byteFld (tget [] s.flt.ring s.flt.oldest) 0 1 ≠ 1 ∧ s.hif.up = true ∧ up.hif.up = false ∧
      up.flt.unack = 0 ∧ bitAt s.hif.msixPend 63 = true ∧ (h.hq 1023).due = true ∧ fld (h.hqWord 1023 0) 25 20 = 63 ∧
      (h.hq 1023).msgAt = some 0 ∧ 0 + 100 * fld (h.hqWord 1023 1) 31 16 ≤ h.time ∧ ((withHq {} 0).hq 1023).due = false := by decide +kernel

/-! ### Jobs and lifecycle -/

/-- A job command that waits alone: its operation, slot and length of image. -/
def jobCmd (op slot len : Nat) : JobCmd := { sq := 0, cmd := natLe 1 op ++ natLe 1 slot ++ zeros 14 ++ natLe 8 len ++ zeros 20 ++ natLe 2 7 ++ zeros 18 }
/-- Job 3 in a state, without cores but with quarry 0 as its EXTRA, and a command; the slot that runs. -/
def withJob (st : JobSt) (run : Option Nat) (c : JobCmd) : State := { up with
  jobs := [(3, { st := st, extra := 1 })], jobCmds := [c], runSlot := run }
/-- An image of one core: code at 192 for quarry address 0, an allocation of one granule at 224. -/
def anImage (magic : Nat) : List Byte :=
  natLe 4 magic ++ natLe 4 0x10000 ++ natLe 8 240 ++ natLe 4 1 ++ natLe 4 2 ++ natLe 8 128 ++ natLe 16 1 ++ zeros 80 ++
    natLe 8 1 ++ natLe 8 192 ++ natLe 8 32 ++ zeros 8 ++ natLe 8 4 ++ natLe 8 224 ++ natLe 8 16 ++ zeros 8 ++
    zeros 32 ++ natLe 4 0x80010000 ++ zeros 12
theorem witness_Load :
    let c := jobCmd 1 3 240
    let s (st : JobSt) (fatal : Bool) : State := { withJob st none c with dsw := { fatal := fatal } }
    let u := ((s .empty false).takeJob c).retireMarked
    up.jobHead 1 = none ∧ (∀ st ∈ [JobSt.empty, .loaded], ∀ f, (s st f).live = true ∧ (s st f).jobHead 1 = some c) ∧ jcSlot c.cmd = 3 ∧ (s .empty false).dsw.fatal = false ∧
      (u.job 3).st = .empty ∧ (((s .loaded false).takeJob c).retireMarked.job 3).st ≠ .empty ∧
      (∀ o, o < 4 → o ≠ 3 → ¬ (bitAt (u.preg .links (0x104 + 4 * o)) 31 = true ∧ u.keyOf o = byteFld c.cmd 0x2C 2)) ∧
      (anImage 0x314A414F).length = byteFld c.cmd 0x10 8 ∧ imageOk (anImage 0x314A414F) = true ∧
      (anImage 0).length = byteFld c.cmd 0x10 8 ∧ imageOk (anImage 0) = false := by decide +kernel
theorem witness_Run :
    let c := jobCmd 2 3 0
    let s (st : JobSt) (run : Option Nat) : State := withJob st run c
    let k := { s .loaded none with quarries := [(0, { life := { st := .closed } })] }
    (∀ st ∈ [JobSt.loaded, .running, .ended], ∀ run ∈ [none, some 0, some 3], (s st run).live = true ∧ (s st run).jobHead 2 = some c ∧
      (s st run).dsw.fatal = false ∧ ((s st run).job 3).st = st ∧ (s st run).runSlot = run) ∧ jcSlot c.cmd = 3 ∧
      (s .loaded none).jobOpen 3 = true ∧ (s .loaded (some 0)).jobOpen 3 = true ∧ k.jobHead 2 = some c ∧ k.jobOpen 3 = false := by decide +kernel
theorem witness_ParkTeardownUnload :
    let s (op : Nat) (st : JobSt) (run : Option Nat) : State := withJob st run (jobCmd op 3 0)
    (∀ op ∈ [3, 4, 5], ∀ st ∈ [JobSt.running, .ended, .empty], ∀ run ∈ [none, some 3],
      (s op st run).live = true ∧ (s op st run).jobHead op = some (jobCmd op 3 0) ∧ ((s op st run).job 3).st = st) ∧
      jcSlot (jobCmd 4 3 0).cmd = 3 ∧ JobSt.running.tearable = true ∧ JobSt.empty.tearable = false := by decide +kernel
theorem witness_Drain :
    let s (r : List Req) : State := { on0 {} with flight := r, sw := { phase := .drain, outgoing := some 0 } }
    (s []).live = true ∧ (on0 {}).sw.phase ≠ .drain ∧ (s []).sw.phase = .drain ∧ (s []).stopped = true ∧ (s []).outFlight = [] ∧
      (s [aReq .issued 0]).stopped = true ∧ (s [aReq .issued 0]).outFlight ≠ [] ∧
      ({ s [] with cores := [(0, { job := some 0, cur := { rings := [9] } })] } : State).stopped = false ∧
      (∀ n ∈ coresOf ((s []).job 0).placed, ((s []).core n).current = true ∧ ((s []).core n).arr.chkQ = []) ∧
      (∀ x ∈ [(9, 0), (10, 1), (1000, 1), (1001, 1)], let u : State := { s [aReq .issued 0] with time := 100 * x.1, regs := [(Page.job.base + 0x100, 0)] }
        decide (u.sw.start + 100 * max 10 (min 1000 (u.preg .job 0x100)) ≤ u.time) = decide (x.2 = 1)) := by decide +kernel
theorem witness_Save :
    let s (i : Option Nat) : State := { on0 {} with
      jobs := [(0, { st := .parking, placed := 1 }), (3, { st := .loaded })], sw := { phase := .save, outgoing := some 0, incoming := i } }
    (∀ i ∈ [none, some 3], (s i).live = true ∧ (s i).sw.phase = .save ∧ (s i).sw.outgoing = some 0 ∧ ((s i).job 0).st = .parking ∧
      (s i).sw.incoming = i ∧ (s i).memOk ∧ (s i).ecc = [] ∧ ((s i).job 0).shutter + 85 ≤ 12288) ∧ (on0 {}).sw.phase ≠ .save := by
  simp only [State.memOk]; decide +kernel
theorem witness_Restore :
    let s (saved : Tab Core) (fatal : Bool) : State := { up with
      jobs := [(3, { st := .resuming, extra := 1, saved := saved })], runSlot := some 3, dsw := { fatal := fatal }
      sw := { phase := .restore, incoming := some 3 } }
    (∀ c ∈ [[], [(0, ({} : Core))]], ∀ f, (s c f).live = true ∧ (s c f).sw.phase = .restore ∧ (s c f).sw.incoming = some 3 ∧
      (s c f).jobOpen 3 = true ∧ (s c f).dsw.fatal = f ∧ ((s c f).job 3).saved = c ∧ (s c f).red.tags = [] ∧ (s c f).red.xfers = []) ∧
      up.sw.phase ≠ .restore := by decide +kernel
theorem witness_Blocks :
    let q (st : LifeSt) (r : Bool) (run : Option Nat) : State := { on0 {} with
      runSlot := run, quarries := [(0, { life := { st := st, retired := r } })] }
    (∀ st ∈ [LifeSt.closed, .opening, .opened, .closing, .faulted], ∀ r, ∀ run ∈ [none, some 0], (q st r run).live = true ∧ (q st r run).life (.quarry 0) = { st := st, retired := r }) ∧ isFused (.quarry 0) = false ∧
      isFused (.port 7) = false ∧
      (q .opened false none).userOf (.quarry 0) = none ∧ (q .opened false (some 0)).userOf (.quarry 0) = some 0 ∧
      (q .opened false none).userOf (.core 0) = none ∧ ((q .opened false none).core 0).life.st = .opened ∧ (q .opened false none).flight = [] ∧
      (q .opened false (some 0)).runSlot = some 0 := by decide +kernel
theorem witness_PortCloses :
    let p (st : LifeSt) (l : LinkSt) : State := onPort7 { life := { st := st }, link := l }
    (p .opened .up).live = true ∧ ((p .opened .up).port 7).life.st = .opened ∧ ((p .opened .up).port 7).link ≠ .down ∧
      ((p .opened .up).port 7).txns = [] ∧ ((p .closed .down).life (.port 7)).st = .closed ∧
      ((p .opening .down).life (.port 7)).st = .opening := by decide +kernel

/-! ### Power, commits, boot, identity -/

/-- A device that is up, with its power registers and state as given. -/
def withPwr (rs : List (Nat × W32)) (p : Pwr) : State := { up with regs := rs.map (fun e => (Page.power.base + e.1, e.2)), pwr := p }
theorem witness_Regulators :
    let s := withPwr [(0x140 + 8 * 15, 0x80000000)] { reg := [(15, { fails := 1000 })] }
    s.svcLive = true ∧ s.boot.svcHeld = false ∧ s.regValid 15 = true ∧ (tget {} s.pwr.reg 15).fails = 1000 ∧
      (tget {} s.pwr.reg 14).fails ≠ 1000 ∧ s.regValid 14 = false ∧ (List.replicate 15 none ++ [some 0]).getD 15 none = some 0 ∧
      (List.replicate 16 (none : Option Nat)).getD 15 none = none := by decide +kernel
theorem witness_Louvre :
    let s (c : W32) : State := withPwr [(0x100, c)] { avsBusy := true }
    ({ s 2 with time := 100000 } : State).pwr.avsAt + 100000 ≤ 100000 ∧ (s 2).time < (s 2).pwr.avsAt + 100000 ∧ (s 2).svcLive = true ∧ (s 2).pwr.avsBusy = true ∧ up.pwr.avsBusy = false ∧ bitAt ((s 0).preg .power 0x100) 1 = false ∧
      bitAt ((s 2).preg .power 0x100) 1 = true := by decide +kernel
theorem witness_DroopAndAlert :
    let s (l : Nat) : State := withPwr [(0x100, 4), (0x120, 1)] { droopK := [(63, l)], alertLow := l == 1, reported := l == 2 }
    (s 0).live = true ∧ tget 0 (s 0).pwr.droopK 63 < 1 ∧ tget 0 (s 1).pwr.droopK 63 < 2 ∧ 2 ≤ tget 0 (s 2).pwr.droopK 63 ∧
      bitAt ((s 0).preg .power 0x100) 2 = true ∧ (s 0).pwr.alertLow = false ∧ (s 1).pwr.alertLow = true ∧ (s 1).pwr.reported = false ∧
      (s 2).pwr.reported = true ∧
      (∀ x ∈ [(100000, false), (100001, true)], let u : State := { s 1 with time := x.1 }
        decide (u.pwr.fellAt + 100000 * max 1 (min 1000 (u.preg .power 0x120)) < u.time) = x.2) := by decide +kernel
theorem witness_Excursions :
    let s := withPwr [(0x104, 750)] {}
    let x := withPwr [(0x104, 750)] { exc := true, coreHeld := true }
    s.live = true ∧ s.setPoint = 750 ∧ s.pwr.exc = false ∧ x.pwr.exc = true ∧ x.pwr.coreHeld = true ∧ s.pwr.coreHeld = false ∧
      s.runSlot = none ∧ x.time < x.pwr.heldAt + 10000000 ∧ ({ x with time := 10000000 } : State).pwr.heldAt + 10000000 ≤ 10000000 ∧ 92 * s.setPoint ≤ 100 * (690 : BitVec 10).toNat ∧ 100 * (689 : BitVec 10).toNat < 92 * s.setPoint ∧
      82 * s.setPoint ≤ 100 * (615 : BitVec 10).toNat ∧ 100 * (614 : BitVec 10).toNat < 82 * s.setPoint ∧
      16 * 115 ≤ (1840 : BitVec 16).toInt ∧ ¬ 16 * 100 ≤ (1599 : BitVec 16).toInt ∧ s.commit.busy = false := by decide +kernel
theorem witness_Watchdog :
    let s (t : Nat) : State := { on0 {} with time := t }
    let h := { up with boot := { up.boot with svcHeld := true } }
    (s 10000000).svcLive = true ∧ (s 10000000).firmware = true ∧ (s 10000000).boot.kickAt + 10000000 ≤ (s 10000000).time ∧
      (s 9999999).pwr.trip = false ∧ (s 9999999).time < (s 9999999).boot.kickAt + 10000000 ∧ h.firmware = false ∧
      ((s 10000000).runSlot = some 0 ∧ ((s 10000000).job 0).st = .running ∧ (s 10000000).sw.phase = .idle) ∧ up.runSlot = none ∧
      Agent.host ≠ .svc := by decide +kernel
/-- A device that is up with one staged value and CTRL of the power page. -/
def withStaged (off : Nat) (v : W32) : State := { withPwr [(0x104, 750)] {} with staged := [(off, v)] }
/-- The state of R454's check of it as a request of a group by Stavuf. -/
def taken (s : State) (g : Nat) : State := { s with
  staged := s.staged.filter (fun e => !(groupAt e.1 == some g))
  commit := { busy := true, group := g, token := 0, bySvc := true, taken := s.staged.filter (fun e => groupAt e.1 == some g), tables := s.routes } }
theorem witness_CommitRequests :
    let p := withStaged (Page.power.base + 0x100) 0x011F4080
    let l (v : W32) : State := withStaged (Page.links.base + 0x100) v
    let r (v : W32) : State × Routes × List Bad := (taken (l v) 1).readTables
    p.live = true ∧ p.commit.busy = false ∧ fld (0x1FF02 : W32).toNat 7 0 = 2 ∧ p.staged.filter (fun e => groupAt e.1 == some 2) ≠ [] ∧
      p.staged.filter (fun e => groupAt e.1 == some 1) = [] ∧ (l 1).staged.filter (fun e => groupAt e.1 == some 1) ≠ [] ∧
      (r 1).1.linkBad (r 1).2.1 (r 1).2.2 = [] ∧ (r 0x10000).1.linkBad (r 0x10000).2.1 (r 0x10000).2.2 ≠ [] ∧
      ({ p with commit := { busy := true } } : State).commit.busy = true := by decide +kernel
/-- R405 holds no VCORE_SET below VCORE_FUSED and none above 750 mV: the part's own is not above 750. -/
theorem witness_PowerCommits (h : Config.vcoreFused.toNat ≤ 750) :
    (taken (withStaged (Page.power.base + 0x100) 0x011F4080) 2).powerBad = [] := by
  have v : fld ((taken (withStaged (Page.power.base + 0x100) 0x011F4080) 2).setVal (Page.power.base + 0x104)) 9 0 = 750 := by decide +kernel
  simp only [State.powerBad, v]
  have o : (decide (750 < Config.vcoreFused.toNat) || decide (750 < 750)) = false := by simp; omega
  rw [o]
  decide +kernel
theorem witness_PowerFails : ∃ b bs, (taken (withStaged (Page.power.base + 0x100) 0) 2).powerBad = b :: bs := by
  have v : (taken (withStaged (Page.power.base + 0x100) 0) 2).rsvdBad (Page.power.base + 0x100) = [] := by decide +kernel
  have w : (taken (withStaged (Page.power.base + 0x100) 0) 2).setVal (Page.power.base + 0x100) = 0 := by decide +kernel
  simp only [State.powerBad, v, w, failIf, fld]
  exact ⟨_, _, rfl⟩
theorem witness_Apply :
    let s : State := { up with
      staged := [(Page.power.base + 0x100, 0)]
      commit := { busy := true, applying := true, group := 2, taken := [(Page.power.base + 0x100, 0x011F4080)] } }
    s.commit.applying = true ∧ s.commit.group = 2 ∧ s.setsOk ∧
      (∀ e ∈ s.commit.taken, ∀ p, p < 8 → e.1 ≠ (Page.port p).base + 0x100) ∧
      pageOf (Page.port 7).base = some (.port 7) ∧ (Page.port 7).group ≠ none ∧ pageOf Page.stavuf.base = some .stavuf ∧
      Page.stavuf.group = none := by
  unfold State.setsOk setOk; decide +kernel
/-- A device out of reset at a boot stage, with no job key yet. -/
def atStage (b : Boot) : State := { State.reset with boot := { b with perst := true, devRst := true, pwrgd := true, held := false } }
theorem witness_BootMail :
    let m : Nat := 8
    let w := atStage { stage := 1, pushing := true, pushLen := 10, pushed := zeros 4 }
    let e := atStage { stage := 1, pushing := true, pushLen := 4, pushed := zeros 4 }
    State.reset.boot.held = true ∧ w.boot.held = false ∧ w.svcLive = true ∧ w.boot.keyReady = false ∧ w.boot.fuseFault = false ∧
      w.boot.svcHeld = false ∧ (8 : BitVec 12).toNat = m ∧ w.boot.stage = 1 ∧ (atStage { stage := 0xF }).boot.stage = 0xF ∧
      up.boot.stage ≠ 1 ∧ up.boot.stage ≠ 0xF ∧ w.boot.pushing = true ∧ w.boot.pushed.length + 6 = w.boot.pushLen ∧
      w.boot.pushLen < w.boot.pushed.length + 7 ∧ e.boot.pushed.length = e.boot.pushLen ∧ e.boot.pushing = true ∧
      w.boot.jobKeySet = false ∧ w.boot.busyTill ≤ w.time ∧ (atStage { busyTill := 1000 }).time < (atStage { busyTill := 1000 }).boot.busyTill ∧ (atStage { jobKeySet := true }).boot.jobKeySet = true ∧ up.boot.keyReady = true := by decide +kernel
theorem witness_BootStages :
    let s (n : Nat) : State := atStage { stage := n }
    (∀ n ∈ [2, 3, 4], (s n).svcLive = true ∧ (s n).live = true ∧ (s n).boot.stage = n ∧ (s n).boot.svcHeld = false ∧
      (s n).runSlot = none) ∧ (s 1).boot.stage ≠ 2 := by decide +kernel
/-- An image of 64 bytes of code, of the highest security version. -/
def aStavufImage : List Byte :=
  natLe 4 0x3153414F ++ natLe 4 0x10000 ++ natLe 4 3264 ++ zeros 4 ++ natLe 4 255 ++ zeros 4 ++ natLe 4 64 ++ zeros 3236
/-- It is accepted by a part whose fuses hold its key's digest and whose ROM finds its signature good. -/
theorem witness_ImageAccepted
    (k : digest ((aStavufImage.drop 0x40).take 1793) = natLe 32 Config.yarferKeyDigest.toNat)
    (v : Config.falconVerify ((aStavufImage.drop 0x40).take 1793) (signedPart aStavufImage) (aStavufImage.drop 1984) = true) :
    imageError aStavufImage 3264 = 0 := by
  have l : byteFld aStavufImage 8 4 = 3264 := by decide +kernel
  have s : ¬ byteFld aStavufImage 0x10 1 < Config.minSvn.toNat := by
    have h : byteFld aStavufImage 0x10 1 = 255 := by decide +kernel
    have := Config.minSvn.isLt
    omega
  have r : byteFld aStavufImage 0x1C 4 = 0 := by decide +kernel
  have a : ¬ (byteFld aStavufImage 0 4 ≠ 0x3153414F ∨ byteFld aStavufImage 4 4 ≠ 0x10000 ∨ byteFld aStavufImage 0x10 4 / 256 ≠ 0 ∨
      byteFld aStavufImage 0x20 4 / 2 ≠ 0 ∨ (aStavufImage.drop 0x24).take 28 ≠ zeros 28 ∨
      (aStavufImage.drop (0x40 + 1793)).take 63 ≠ zeros 63) := by decide +kernel
  have b : byteFld aStavufImage 0x18 4 = 64 := by decide +kernel
  unfold imageError
  rw [if_neg a]
  simp [l, b, k, v, s, r]
theorem witness_ImageRefused : imageError (zeros 64) 64 ≠ 0 := by decide +kernel
theorem witness_Identity :
    let s : State := { up with boot := { up.boot with sbPage := 2, sbOff := 0xFFC }, regs := [(Page.stavuf.base + 0x108, 0x10000), (Page.security.base + 0x100, 0)] }
    let n := atStage { stage := 1 }
    s.svcLive = true ∧ s.sideband = true ∧ sbPages[s.boot.sbPage]? = some .thermal ∧ s.boot.sbOff < 0x1000 ∧ s.boot.sbOff % 4 = 0 ∧
      n.sideband = false ∧ bitAt (s.preg .security 0x100) 3 = false ∧
      bitAt (({ up with regs := [(Page.security.base + 0x100, 10)] } : State).preg .security 0x100) 3 = true ∧
      ({ up with regs := [(Page.security.base + 0x100, 10)] } : State).debugLocked = true ∧ s.debugLocked = false ∧
      ({ s with boot := { s.boot with sbOff := 0xFFFF } } : State).sideband = true ∧ n.boot.keyReady = false ∧ up.boot.keyReady = true ∧ up.boot.svcHeld = false := by decide +kernel

/-! ### The whole device -/

theorem witness_Waits :
    State.reset.boot.held = true ∧ Instr.getId ≠ .perstNAssert ∧
      (let s : State := { up with pwr := { trip := true } }
       s.boot.held = false ∧ s.pwr.trip = true ∧ actsAfterTrip (.ctlNop 0) = false) ∧
      up.pending = [] ∧ up.live = true ∧ State.reset.pending = [] ∧ State.reset.live = false := by
  decide +kernel
theorem witness_PageIds :
    (∀ p ∈ [Page.identity, .bench 127, .vector 127, .port 7, .stavuf, .security],
      pageOf p.base = some p ∧ p.base < 2 ^ 25) ∧ up.svcLive = true := by decide +kernel
theorem witness_FaultRing :
    let s (n : Nat) : State := { up with flt := { oldest := 31, unack := n } }
    (s 31).flt.unack < 32 ∧ 32 ≤ (s 32).flt.unack ∧ (s 32).svcLive = true ∧ 0 < (s 32).flt.unack := by decide +kernel
theorem witness_FlagsChange :
    let s : State := { up with dsw := { count := 15, events := 8 } }
    let t : State := (match exec (.clearEventFlag 0x8) s with
      | .next t => t
      | _ => s)
    t.flags ≠ s.flags ∧ t.dsw.count = 0 ∧ s.dsw.count < 16 := by decide +kernel
theorem witness_Forms :
    let s : State := { withStaged (Page.power.base + 0x100) 1 with mem := memWrite [] 1 [1, 0, 2] }
    s.memOk ∧ s.setsOk := by
  unfold State.memOk State.setsOk setOk; decide +kernel

end Sys2Proof.Tests
end

section
/-! The fault ring within a command: what a fault record appends, what later effects and the end of the command leave of it; a report and a
record of a command derived from the fault that it forms. -/

namespace Sys2Proof.Machine

/-! ### Frames of the named updates -/

/-- What is not touched stands. -/
theorem Part.same_refl (s : State) (p : Part) : p.same s s := by cases p <;> simp [Part.same, Part.kept]

/-- A counter advanced touches the counters. -/
theorem bump_same (s : State) (q : Page) (o n : Nat) {p : Part} (h : p ≠ .ctrs) : p.same s (s.bump q o n) := by
  cases p <;> simp_all [Part.same, Part.kept]
/-- A register written touches the registers. -/
theorem setReg_same (s : State) (o v : Nat) {p : Part} (h : p ≠ .regs) : p.same s (s.setReg o v) := by
  cases p <;> simp_all [Part.same, Part.kept]
/-- What is sent touches what leaves. -/
theorem send_same (s : State) (x : Out) {p : Part} (h : p ≠ .out) : p.same s (s.send x) := by
  cases p <;> simp_all [Part.same, Part.kept]
/-- Bytes written touch the memory. -/
theorem put_same (s : State) (a : Nat) (bs : List Byte) {p : Part} (h : p ≠ .mem) : p.same s (s.put a bs) := by
  cases p <;> simp_all [Part.same, Part.kept]
/-- So do codewords poisoned. -/
theorem poison_same (s : State) (a len : Nat) {p : Part} (h : p ≠ .mem) : p.same s (s.poison a len) := by
  cases p <;> simp_all [Part.same, Part.kept, State.poison]

/-- A frame of fewer parts is one of more. -/
theorem Unchanged.mono {s t : State} {may may' : List Part} (h : Unchanged s t may) (hm : may ⊆ may') : Unchanged s t may' :=
  ⟨h.1, fun p hp => h.2 p (fun hp' => hp (hm hp'))⟩
/-- So it is of a report. -/
theorem Reports.mono {s t : State} {cls : Nat} {may may' : List Part} (h : Reports s t cls may) (hm : may ⊆ may') : Reports s t cls may' :=
  ⟨h.1, fun hu => ⟨(h.2 hu).1, (h.2 hu).2.1, (h.2 hu).2.2.mono
    (List.cons_subset_cons _ (List.cons_subset_cons _ hm))⟩⟩

/-! ### What leaves at the end of a command -/

/-- Read data leaves as it was formed. -/
theorem readData_mem_finish {s0 s : State} {bs : List Byte} (h : .readData bs ∈ s.out) : .readData bs ∈ (finish s0 s).out := by
  have key : ∀ u : State, .readData bs ∈ u.out → ∀ b, .readData bs ∈ (u.dswInterrupt b).out := by
    intro u hu b
    unfold State.dswInterrupt State.msix
    split_ifs <;> simp [State.send, hu]
  refine key _ ?_ _
  unfold State.fillRecords
  simp only [List.mem_append, List.mem_map]
  rw [← List.take_append_drop (s.out.length - s0.out.length) s.out, List.mem_append] at h
  exact h.imp (fun h => ⟨_, h, rfl⟩) id

/-! ### The fault ring -/

/-- The first byte of a record. -/
theorem byteFld_first (b : Byte) (bs : List Byte) : byteFld (b :: bs) 0 1 = b.toNat := by simp [byteFld, leNat]

/-- A state word filled in leaves the first byte alone. -/
theorem fillDsw_first {off w : Nat} (bs : List Byte) (h : 0 < off) : byteFld (fillDsw off w bs) 0 1 = byteFld bs 0 1 := by
  unfold fillDsw
  split
  · cases bs with
    | nil => simp_all [dswMark]
    | cons b bs =>
      obtain ⟨k, rfl⟩ : ∃ k, off = k + 1 := ⟨off - 1, by omega⟩
      simp [spliceAt, byteFld_first]
  · rfl

/-- A table mapped by values. -/
theorem tget_map {α : Type} (f : α → α) (d : α) (t : Tab α) (k : Nat) :
    tget (f d) (t.map (fun e => (e.1, f e.2))) k = f (tget d t k) := by
  induction t with
  | nil => rfl
  | cons e t ih => simp only [List.map_cons, tget, ih]; split <;> rfl

/-- The end of a command leaves the class of every record of the ring alone. -/
theorem finish_record_class (s0 s : State) (k : Nat) :
    byteFld (tget [] (finish s0 s).flt.ring k) 0 1 = byteFld (tget [] s.flt.ring k) 0 1 := by
  unfold finish
  rw [State.dswInterrupt_eq]
  have h := tget_map (fillDsw 0x14 (State.dswWord { s with dsw := { s.dsw with count := nextCount s0 s } })) [] s.flt.ring k
  have hnil : ∀ w, fillDsw 0x14 w [] = [] := by intro w; simp [fillDsw, dswMark]
  rw [hnil] at h
  exact (congrArg (byteFld · 0 1) h).trans (fillDsw_first _ (by decide))

/-- A state later in a command: the records of the ring stand where they stood, and no record is taken off. -/
structure KeepsRecords (s t : State) : Prop where
  oldest : t.flt.oldest = s.flt.oldest
  seq : s.flt.seq ≤ t.flt.seq
  unack : s.flt.unack ≤ t.flt.unack
  ring : ∀ k, k < s.flt.unack → tget [] t.flt.ring ((s.flt.oldest + k) % 32) = tget [] s.flt.ring ((s.flt.oldest + k) % 32)

/-- A state with the same ring. -/
theorem KeepsRecords.of_flt {s t : State} (h : t.flt = s.flt) : KeepsRecords s t := by
  constructor <;> simp [h]
theorem KeepsRecords.refl (s : State) : KeepsRecords s s := .of_flt rfl
theorem KeepsRecords.trans {s t u : State} (h : KeepsRecords s t) (g : KeepsRecords t u) : KeepsRecords s u where
  oldest := g.oldest.trans h.oldest
  seq := h.seq.trans g.seq
  unack := h.unack.trans g.unack
  ring k hk := by
    have := g.ring k (hk.trans_le h.unack)
    rw [h.oldest] at this
    exact this.trans (h.ring k hk)

/-- A latch released leaves the ring alone. -/
theorem releaseLatch_flt (s : State) (unit seq : Nat) : (s.releaseLatch unit seq).flt = s.flt := by
  unfold State.releaseLatch
  dsimp only
  split_ifs <;> rfl

/-- The ring after a fault record: one more where there is room, as it was where there is none (R430). -/
theorem keepFault_flt (s : State) (cls unit sub seq : Nat) (bs : List Byte) :
    (s.keepFault cls unit sub seq bs).flt.seq = seq ∧ (s.keepFault cls unit sub seq bs).flt.oldest = s.flt.oldest ∧
    (s.flt.unack < 32 → (s.keepFault cls unit sub seq bs).flt.unack = s.flt.unack + 1 ∧
      (s.keepFault cls unit sub seq bs).flt.ring = tset s.flt.ring ((s.flt.oldest + s.flt.unack) % 32) bs) ∧
    (¬ s.flt.unack < 32 → (s.keepFault cls unit sub seq bs).flt.unack = s.flt.unack ∧
      (s.keepFault cls unit sub seq bs).flt.ring = s.flt.ring) := by
  unfold State.keepFault
  by_cases h : s.flt.unack < 32
  · simp [h]
  · simp [h, releaseLatch_flt]

/-- The bytes of a fault record before its state word is filled in (R428). -/
def faultBytes (s : State) (cls status : Nat) (job : Option Nat) (unit flags : Nat) (detail : List Byte) (sub : Nat) : List Byte :=
  let mark := bitAt (s.preg .fault 0x100) 1 && retireTrigger s.flt.history s.time cls unit sub
  natLe 1 cls ++ natLe 1 status ++ natLe 1 (if mark then flags ||| 0x10 else flags) ++ natLe 1 (jobByte job) ++
    natLe 4 (s.flt.seq + 1) ++ natLe 8 s.time ++ natLe 4 unit ++ dswMark ++ zeros 8 ++ fitTo 32 detail

/-- A record opens with its class. -/
theorem faultBytes_class (s : State) {cls : Nat} (status : Nat) (job : Option Nat) (unit flags : Nat) (detail : List Byte) (sub : Nat)
    (h : cls < 256) : byteFld (faultBytes s cls status job unit flags detail sub) 0 1 = cls := by
  unfold faultBytes
  dsimp only
  simp only [natLe, List.cons_append, byteFld_first, BitVec.toNat_ofNat]
  omega

/-- A fault record in the ring is the kept one, whether or not it marks its unit for retirement. -/
theorem fault_flt (s : State) (cls status : Nat) (job : Option Nat) (unit flags : Nat) (detail : List Byte) (sub : Nat) :
    (s.fault cls status job unit flags detail sub).flt =
      (s.keepFault cls unit sub (s.flt.seq + 1) (faultBytes s cls status job unit flags detail sub)).flt := by
  unfold State.fault
  dsimp only
  split
  · next h => simp [faultBytes, h, State.markRetire, State.setBit128]
  · next h => simp [faultBytes, h]

/-- A fault record does not touch the records before it. -/
theorem fault_keepsRecords (s : State) (cls status : Nat) (job : Option Nat) (unit flags : Nat) (detail : List Byte) (sub : Nat) :
    KeepsRecords s (s.fault cls status job unit flags detail sub) := by
  obtain ⟨hseq, hold, hroom, hfull⟩ :=
    keepFault_flt s cls unit sub (s.flt.seq + 1) (faultBytes s cls status job unit flags detail sub)
  rw [← fault_flt] at hseq hold hroom hfull
  by_cases h : s.flt.unack < 32
  · obtain ⟨hu, hr⟩ := hroom h
    refine ⟨hold, by omega, by omega, fun k hk => ?_⟩
    rw [hr, tget_tset_ne _ _ _ (by omega)]
  · obtain ⟨hu, hr⟩ := hfull h
    exact ⟨hold, by omega, by omega, fun k hk => by rw [hr]⟩

/-- A fault record formed within a command, and kept to its end, is recorded. -/
theorem records_finish {s u v : State} {cls status unit flags sub : Nat} {job : Option Nat} {detail : List Byte} (hc : cls < 256)
    (hu : u.flt = s.flt) (hv : KeepsRecords (u.fault cls status job unit flags detail sub) v) : Records s (finish s v) cls := by
  obtain ⟨hseq, hold, hroom, hfull⟩ :=
    keepFault_flt u cls unit sub (u.flt.seq + 1) (faultBytes u cls status job unit flags detail sub)
  rw [← fault_flt, hu] at hseq hold hroom hfull
  refine ⟨?_, fun hlt => ⟨s.flt.unack, le_rfl, ?_, ?_⟩⟩
  · have := hv.seq; simp; omega
  · have := hv.unack; simp [(hroom (by omega)).1] at this ⊢; omega
  · obtain ⟨hun, hr⟩ := hroom (by omega)
    have := hv.ring s.flt.unack (by omega)
    rw [hold] at this
    rw [finish_record_class, this, hr, tget_tset_same, faultBytes_class _ _ _ _ _ _ _ hc]

/-- The classes whose records can mark a unit for retirement (Table 15.5). -/
def marksUnits (cls : Nat) : Bool := cls == 1 || cls == 2 || cls == 11

/-- A record of another class triggers no retirement. -/
theorem retireTrigger_other {cls : Nat} (h : marksUnits cls = false) (hist : List (Nat × Nat × Nat × Nat)) (now unit sub : Nat) :
    retireTrigger hist now cls unit sub = false := by
  simp only [marksUnits, Bool.or_eq_false_iff] at h
  simp [retireTrigger, h]

/-- A record of another class is kept, and nothing besides. -/
theorem fault_other (s : State) {cls : Nat} (h : marksUnits cls = false) (status : Nat) (job : Option Nat) (unit flags : Nat)
    (detail : List Byte) (sub : Nat) : s.fault cls status job unit flags detail sub =
      s.keepFault cls unit sub (s.flt.seq + 1) (faultBytes s cls status job unit flags detail sub) := by
  simp [State.fault, faultBytes, retireTrigger_other h]

/-- With room in the ring, a record kept touches the ring and the counters alone. -/
theorem keepFault_room (s : State) (cls unit sub seq : Nat) (bs : List Byte) (hr : s.flt.unack < 32) {p : Part}
    (h : p ≠ .flt ∧ p ≠ .ctrs) : p.same s (s.keepFault cls unit sub seq bs) := by
  unfold State.keepFault
  dsimp only
  split_ifs with hc
  · cases p <;> simp_all [Part.same, Part.kept]
  · exact absurd hr hc

/-- A command whose last act is a fault record, of a class that marks no unit, reports it. -/
theorem reports_finish {s u : State} {cls : Nat} {may : List Part} (hc : cls < 256) (hm : marksUnits cls = false)
    (status : Nat) (job : Option Nat) (unit flags : Nat) (detail : List Byte) (sub : Nat)
    (hu : u.flt = s.flt) (hp : u.pending = s.pending) (h : ∀ p, p ∉ Part.flt :: .ctrs :: may → p.same s u) :
    Reports s (finish s (u.fault cls status job unit flags detail sub)) cls may := by
  obtain ⟨hseq, hold, hroom, -⟩ :=
    keepFault_flt u cls unit sub (u.flt.seq + 1) (faultBytes u cls status job unit flags detail sub)
  rw [← fault_flt, hu] at hseq hold hroom
  refine ⟨by simpa using hseq, fun hlt => ⟨by simpa using (hroom hlt).1, ?_, ?_⟩⟩
  · rw [finish_record_class, (hroom hlt).2, tget_tset_same, faultBytes_class _ _ _ _ _ _ _ hc]
  · refine unchanged_finish (by simpa using hp) (fun p hp => Part.same_trans (h p hp) ?_)
    rw [fault_other _ hm]
    simp only [List.mem_cons, not_or] at hp
    exact keepFault_room _ _ _ _ _ _ (by rw [hu]; exact hlt) ⟨hp.1, hp.2.1⟩

end Sys2Proof.Machine
end

section
/-! Teardowns (R394): the winding-up of a job's business as one relation that every part of it meets, and from it what a program fault
records and tears down. -/

namespace Sys2Proof.Machine

/-! ### The winding-up of a job's business -/

/-- A state later in the winding-up of a job's business (R394): jobs, the switch, the slot that runs and what each core runs stand, and
the fault ring keeps its records. -/
structure WindsUp (s t : State) : Prop where
  core : ∀ n, (t.core n).job = (s.core n).job ∧ (t.core n).running = (s.core n).running
  jobs : t.jobs = s.jobs
  sw : t.sw = s.sw
  runSlot : t.runSlot = s.runSlot
  recs : KeepsRecords s t

theorem WindsUp.trans {s t u : State} (h : WindsUp s t) (g : WindsUp t u) : WindsUp s u where
  core n := ⟨(g.core n).1.trans (h.core n).1, (g.core n).2.trans (h.core n).2⟩
  jobs := g.jobs.trans h.jobs
  sw := g.sw.trans h.sw
  runSlot := g.runSlot.trans h.runSlot
  recs := h.recs.trans g.recs

/-- An update of other parts winds up. -/
theorem WindsUp.of_eq {s t : State} (hc : t.cores = s.cores) (hj : t.jobs = s.jobs) (hs : t.sw = s.sw) (hr : t.runSlot = s.runSlot)
    (hf : t.flt = s.flt) : WindsUp s t :=
  ⟨fun n => by simp [State.core, hc], hj, hs, hr, .of_flt hf⟩

theorem WindsUp.refl (s : State) : WindsUp s s := .of_eq rfl rfl rfl rfl rfl

theorem WindsUp.foldl {α : Type} {f : State → α → State} (h : ∀ s x, WindsUp s (f s x)) (xs : List α) (s : State) :
    WindsUp s (xs.foldl f s) := by
  induction xs generalizing s with
  | nil => exact .refl s
  | cons x xs ih => exact (h s x).trans (ih _)

theorem windsUp_bump (s : State) (p : Page) (o n : Nat) : WindsUp s (s.bump p o n) := .of_eq rfl rfl rfl rfl rfl
theorem windsUp_onHq (s : State) (h : Nat) (f : Hq → Hq) : WindsUp s (s.onHq h f) := .of_eq rfl rfl rfl rfl rfl

/-- A latch released leaves what every core runs alone. -/
theorem releaseLatch_core (s : State) (unit seq n : Nat) :
    ((s.releaseLatch unit seq).core n).job = (s.core n).job ∧ ((s.releaseLatch unit seq).core n).running = (s.core n).running := by
  unfold State.releaseLatch
  dsimp only
  split_ifs
  · rw [State.setPreg_eq, State.setReg_get_core, State.onCore_eq]
    by_cases h : n = unit % 2 ^ 16
    · subst h; simp
    · rw [State.core_setCore_ne _ _ h]; exact ⟨rfl, rfl⟩
  · exact ⟨rfl, rfl⟩
  · exact ⟨rfl, rfl⟩

/-- A fault record leaves what every core runs alone. -/
theorem fault_core (s : State) (cls status : Nat) (job : Option Nat) (unit flags : Nat) (detail : List Byte) (sub n : Nat) :
    ((s.fault cls status job unit flags detail sub).core n).job = (s.core n).job ∧
    ((s.fault cls status job unit flags detail sub).core n).running = (s.core n).running := by
  have hk : ∀ seq bs, ((s.keepFault cls unit sub seq bs).core n).job = (s.core n).job ∧
      ((s.keepFault cls unit sub seq bs).core n).running = (s.core n).running := by
    intro seq bs
    unfold State.keepFault
    dsimp only
    split_ifs
    · exact ⟨rfl, rfl⟩
    · exact releaseLatch_core _ _ _ _
  unfold State.fault
  dsimp only
  split <;> exact hk _ _

theorem windsUp_fault (s : State) (cls status : Nat) (job : Option Nat) (unit flags : Nat) (detail : List Byte) (sub : Nat) :
    WindsUp s (s.fault cls status job unit flags detail sub) where
  core := fault_core s cls status job unit flags detail sub
  jobs := fault_same s cls status job unit flags detail sub (p := .jobs) (by decide)
  sw := fault_same s cls status job unit flags detail sub (p := .sw) (by decide)
  runSlot := (fault_same s cls status job unit flags detail sub (p := .runSlot) (by decide)).1
  recs := fault_keepsRecords s cls status job unit flags detail sub

theorem windsUp_writeRecord (s : State) (h : Nat) (bs : List Byte) : WindsUp s (s.writeRecord h bs) :=
  .of_eq (writeRecord_same s h bs (p := .cores) (by decide)) (writeRecord_same s h bs (p := .jobs) (by decide))
    (writeRecord_same s h bs (p := .sw) (by decide)) (writeRecord_same s h bs (p := .runSlot) (by decide)).1
    (writeRecord_same s h bs (p := .flt) (by decide))

theorem windsUp_post (s : State) (h status source : Nat) (job : Option Nat) (sq head : Nat) (detail : List Byte) :
    WindsUp s (s.post h status source job sq head detail) := by
  unfold State.post
  dsimp only
  split_ifs
  · exact windsUp_bump _ _ _ _
  · exact windsUp_writeRecord _ _ _
  · exact .of_eq rfl rfl rfl rfl rfl
  · refine WindsUp.trans (t := (s.bump .hif 0x68).hqError h 2) (.of_eq rfl rfl rfl rfl rfl) (windsUp_fault _ _ _ _ _ _ _ _)

theorem windsUp_jobDone (s : State) (c : JobCmd) (slot : Option Nat) (status reason cls placed dur : Nat) :
    WindsUp s (s.jobDone c slot status reason cls placed dur) := by
  unfold State.jobDone State.postSq
  exact (windsUp_post _ _ _ _ _ _ _ _).trans (windsUp_onHq _ _ _)

theorem windsUp_attCmdDone (s : State) (j : Nat) (c : AttCmd) (status : Nat) (detail : List Byte) :
    WindsUp s (s.attCmdDone j c status detail) := by
  unfold State.attCmdDone
  exact (windsUp_post _ _ _ _ _ _ _ _).trans (windsUp_onHq _ _ _)

theorem windsUp_sendCtl (s : State) (sender : Nat) (m : Msg) : WindsUp s (s.sendCtl sender m) := by
  unfold State.sendCtl
  dsimp only
  split
  · exact .of_eq rfl rfl rfl rfl rfl
  · exact (windsUp_bump _ _ _ _).trans (windsUp_fault _ _ _ _ _ _ _ _)

theorem windsUp_sendAbort (s : State) (j t status cls origin : Nat) : WindsUp s (s.sendAbort j t status cls origin) := by
  unfold State.sendAbort
  dsimp only
  exact (WindsUp.foldl (fun _ _ => windsUp_sendCtl _ _ _) _ _).trans (windsUp_bump _ _ _ _)

theorem windsUp_benchTeardown (s : State) (j n : Nat) (qs : Tab BQ) : WindsUp s (s.benchTeardown j n qs) := by
  refine WindsUp.foldl (fun s e => ?_) qs s
  split
  · split
    · exact windsUp_post _ _ _ _ _ _ _ _
    · exact .refl s
  · exact .refl s

theorem windsUp_attTeardown (s : State) (j : Nat) : WindsUp s (s.attTeardown j) := by
  unfold State.attTeardown
  dsimp only
  refine WindsUp.trans ?_ (WindsUp.foldl (fun u c => windsUp_attCmdDone u j c _ _) _ _)
  exact .of_eq rfl rfl rfl rfl rfl

theorem windsUp_parksTorn (s : State) (j cls : Nat) : WindsUp s (s.parksTorn j cls) := by
  unfold State.parksTorn
  dsimp only
  refine WindsUp.foldl (fun u c => ?_) _ _
  refine WindsUp.trans ?_ (windsUp_jobDone _ _ _ _ _ _ _ _)
  exact .of_eq rfl rfl rfl rfl rfl

/-- The cores that run a job halted (R394). -/
def State.haltCores (s : State) (j : Nat) : State :=
  ((coresOf (s.job j).placed).filter (fun n => (s.core n).job == some j)).foldl State.haltCore s

/-- A job slot torn down (R394). -/
def Job.torn (x : Job) : Job := { x with st := .tornDown, saved := [], savedBq := [], savedLocks := [] }

/-- A slot that runs runs no more. -/
def State.leaveSlot (s : State) (j : Nat) : State := if s.runSlot = some j then { s with runSlot := none, lastSlot := j } else s

/-- Steps 1 to 4 of a teardown: its cores halt, its business is wound up, its slot is torn down, what waits on it is answered, and a
switch that meets it goes on (R392, R394). -/
theorem tearCore_steps (s : State) (j cls : Nat) : ∃ u w, WindsUp (s.haltCores j) u ∧ WindsUp (u.onJob j Job.torn) w ∧
    s.tearCore j cls = ((w.leaveSlot j).bump .job 0x58).switchTorn j cls := by
  unfold State.tearCore
  extract_lets jb live sHalt sBench tags tag sTags red sRed sAtt sTorn sKey sPark sSlot
  refine ⟨sAtt, sPark, ?_, ?_, rfl⟩
  · have hBench : WindsUp sHalt sBench := by
      refine WindsUp.foldl (fun u n => ?_) _ _
      dsimp only
      split_ifs
      · exact (windsUp_benchTeardown _ _ _ _).trans (.of_eq rfl rfl rfl rfl rfl)
      · exact windsUp_benchTeardown _ _ _ _
    have hTags : WindsUp sBench sTags := by
      refine WindsUp.foldl (fun u e => ?_) _ _
      dsimp only
      split_ifs
      · exact .of_eq rfl rfl rfl rfl rfl
      · exact (windsUp_sendAbort _ _ _ _ _ _).trans (.of_eq rfl rfl rfl rfl rfl)
    have hRed : WindsUp sTags sRed := .of_eq rfl rfl rfl rfl rfl
    have hAtt : WindsUp sRed sAtt := (windsUp_attTeardown sRed j).trans (.of_eq rfl rfl rfl rfl rfl)
    exact hBench.trans (hTags.trans (hRed.trans hAtt))
  · have hKey : WindsUp sTorn sKey := .of_eq rfl rfl rfl rfl rfl
    refine hKey.trans ?_
    by_cases h : sKey.runSlot = some j ∧ sKey.sw.phase = .idle
    · rw [show sPark = sKey.parksTorn j cls from if_pos h]; exact windsUp_parksTorn _ _ _
    · rw [show sPark = sKey from if_neg h]; exact .refl _

/-! ### What a teardown leaves -/

theorem haltCore_eq (s : State) (n : Nat) : ∃ c : Core, c.job = none ∧ c.running = false ∧ (s.haltCore n).cores = tset s.cores n c := by
  refine ⟨((s.haltCore n).core n), ?_, ?_, ?_⟩ <;>
    simp [State.haltCore, State.stopCore, State.dropFlight, State.core, State.bump]

/-- A core halted runs nothing; every other is as before. -/
theorem haltCore_core (s : State) (n m : Nat) :
    (m = n → ((s.haltCore n).core m).job = none ∧ ((s.haltCore n).core m).running = false) ∧
    (m ≠ n → (s.haltCore n).core m = s.core m) := by
  obtain ⟨c, hj, hr, he⟩ := haltCore_eq s n
  refine ⟨?_, fun h => ?_⟩
  · rintro rfl; simp [State.core, he, hj, hr]
  · simp [State.core, he, tget_tset_ne _ _ _ h]

theorem foldl_haltCore_core (ns : List Nat) (s : State) {n : Nat} (h : n ∈ ns ∨ (s.core n).job = none ∧ (s.core n).running = false) :
    ((ns.foldl State.haltCore s).core n).job = none ∧ ((ns.foldl State.haltCore s).core n).running = false := by
  induction ns generalizing s with
  | nil => simpa using h
  | cons m ns ih =>
    refine ih _ ?_
    obtain ⟨hsame, hother⟩ := haltCore_core s m n
    by_cases e : n = m
    · exact .inr (hsame e)
    · rw [hother e]; exact h.imp_left (fun hm => (List.mem_cons.mp hm).resolve_left e)

/-- Cores halted: the fault ring, the job slots, the switch and the slot that runs stand. -/
theorem haltCores_same (s : State) (j : Nat) : (s.haltCores j).flt = s.flt ∧ (s.haltCores j).jobs = s.jobs ∧
    (s.haltCores j).sw = s.sw ∧ (s.haltCores j).runSlot = s.runSlot := by
  unfold State.haltCores
  generalize (coresOf (s.job j).placed).filter (fun n => (s.core n).job == some j) = ns
  induction ns generalizing s with
  | nil => exact ⟨rfl, rfl, rfl, rfl⟩
  | cons n ns ih => exact ih (s.haltCore n)

/-- A switch that a teardown meets keeps the records. -/
theorem switchTorn_keepsRecords (s : State) (j cls : Nat) : KeepsRecords s (s.switchTorn j cls) := by
  have hdone : ∀ c dur, KeepsRecords s (({ s with sw := {} } : State).jobDone c (some j) 0x31 0 cls 0 dur) := fun c dur =>
    KeepsRecords.trans (t := { s with sw := {} }) (.of_flt rfl) (windsUp_jobDone { s with sw := {} } c (some j) 0x31 0 cls 0 dur).recs
  unfold State.switchTorn
  dsimp only
  split_ifs
  · exact .of_flt rfl
  · split
    · exact .of_flt rfl
    · split
      · exact hdone _ _
      · exact .of_flt rfl
  · split
    · exact hdone _ _
    · exact .of_flt rfl
  · exact .of_flt rfl

theorem leaveSlot_eq (s : State) (j : Nat) : (s.leaveSlot j).cores = s.cores ∧ (s.leaveSlot j).jobs = s.jobs ∧ (s.leaveSlot j).sw = s.sw ∧
    (s.leaveSlot j).flt = s.flt ∧ (s.leaveSlot j).runSlot ≠ some j := by
  unfold State.leaveSlot
  split_ifs with h
  · exact ⟨rfl, rfl, rfl, rfl, by simp⟩
  · exact ⟨rfl, rfl, rfl, rfl, h⟩

/-- A teardown keeps the records of the ring. -/
theorem tearCore_keepsRecords (s : State) (j cls : Nat) : KeepsRecords s (s.tearCore j cls) := by
  obtain ⟨u, w, hu, hw, he⟩ := tearCore_steps s j cls
  rw [he]
  have hHalt : KeepsRecords s (s.haltCores j) := .of_flt (haltCores_same s j).1
  have hTorn : KeepsRecords u (u.onJob j Job.torn) := .of_flt rfl
  obtain ⟨-, -, -, hflt, -⟩ := leaveSlot_eq w j
  have hLeave : KeepsRecords w ((w.leaveSlot j).bump .job 0x58) := .of_flt hflt
  exact hHalt.trans (hu.recs.trans (hTorn.trans (hw.recs.trans (hLeave.trans (switchTorn_keepsRecords _ _ _)))))

/-- A teardown while no switch is in progress: the slot TORN_DOWN and left, its cores without it (R394). -/
theorem tearCore_tears {s : State} {j : Nat} (cls : Nat) (hsw : s.sw.phase = .idle) :
    ((s.tearCore j cls).job j).st = .tornDown ∧ (s.tearCore j cls).runSlot ≠ some j ∧
    ∀ n ∈ coresOf (s.job j).placed, (s.core n).job = some j →
      ((s.tearCore j cls).core n).job = none ∧ ((s.tearCore j cls).core n).running = false := by
  obtain ⟨u, w, hu, hw, he⟩ := tearCore_steps s j cls
  obtain ⟨-, -, hsw0, -⟩ := haltCores_same s j
  obtain ⟨hlc, hlj, hls, -, hlr⟩ := leaveSlot_eq w j
  have hidle : ((w.leaveSlot j).bump .job 0x58).sw.phase = .idle := by
    simpa [hls, hw.sw, hu.sw, hsw0] using hsw
  have ht : s.tearCore j cls = (w.leaveSlot j).bump .job 0x58 := by rw [he]; exact if_pos hidle
  rw [ht]
  refine ⟨?_, by simpa using hlr, fun n hn hj => ?_⟩
  · simp [State.job, hlj, hw.jobs, Job.torn]
  · have hcore : ((w.leaveSlot j).bump .job 0x58).core n = w.core n := by simp [State.core, hlc]
    have huj : (u.onJob j Job.torn).core n = u.core n := rfl
    rw [hcore, (hw.core n).1, (hw.core n).2, huj, (hu.core n).1, (hu.core n).2]
    exact foldl_haltCore_core _ _ (.inl (List.mem_filter.mpr ⟨hn, by simp [hj]⟩))

theorem tearJob_keepsRecords (s : State) (job : Option Nat) (cls : Nat) : KeepsRecords s (s.tearJob job cls) := by
  unfold State.tearJob
  split
  · unfold State.tearDown
    dsimp only
    split_ifs
    · exact (tearCore_keepsRecords _ _ _).trans (windsUp_post _ _ _ _ _ _ _ _).recs
    · exact .of_flt rfl
  · exact .of_flt rfl

/-- A program fault keeps its record, whatever the teardown reports besides. -/
theorem progFault_records {s u : State} (hu : u.flt = s.flt) (job : Option Nat) (unit status core pc check low addr : Nat) :
    Records s (finish s (u.progFault job unit status core pc check low addr)) 14 := by
  unfold State.progFault
  exact records_finish (by decide) hu (tearJob_keepsRecords _ _ _)

/-- A program fault tears its job down (R169, R394). -/
theorem progFault_tears {s u : State} (hc : u.cores = s.cores) (hj : u.jobs = s.jobs) (hs : u.sw = s.sw) (j : Nat)
    (unit status core pc check low addr : Nat) : Tears s (finish s (u.progFault (some j) unit status core pc check low addr)) j := by
  intro ht hi
  unfold State.progFault
  generalize hf : u.fault 14 status (some j) unit _ _ = f
  have hw : WindsUp u f := hf ▸ windsUp_fault _ _ _ _ _ _ _ _
  have hjob : f.job j = s.job j := by simp [State.job, hw.jobs, hj]
  have hcore : ∀ n, (f.core n).job = (s.core n).job := fun n => by rw [(hw.core n).1]; simp [State.core, hc]
  obtain ⟨hst, hrun, hcores⟩ := tearCore_tears (s := f) (j := j) 14 (by rw [hw.sw, hs]; exact hi)
  have hd : f.tearJob (some j) 14 =
      (f.tearCore j 14).post (f.job j).cqEvent 0x31 0x05 (some j) 0xFFFF 0 (jobDetail 0x11 j 0 14 0 0 0) := by
    simp only [State.tearJob, State.tearDown, hjob, if_pos ht]
  have hp := windsUp_post (f.tearCore j 14) (f.job j).cqEvent 0x31 0x05 (some j) 0xFFFF 0 (jobDetail 0x11 j 0 14 0 0 0)
  rw [hd, finish_get_job, finish_runSlot]
  refine ⟨by rw [State.job, hp.jobs]; exact hst, by rw [hp.runSlot]; exact hrun, fun n hn hjn => ?_⟩
  rw [finish_get_core, (hp.core n).1, (hp.core n).2]
  exact hcores n (by rw [hjob]; exact hn) (by rw [hcore]; exact hjn)

end Sys2Proof.Machine
end

section
/-! BAR0: where pages and counters stand, register writes by access code, answers, the loss monitor (R12, R13, R174, R434). -/

namespace Sys2Proof.Machine

/-! ### BAR0 offsets -/

/-- A page holds no doorbell (R449). -/
theorem isBell_of_pageOf {off : Nat} {p : Page} (h : pageOf off = some p) : isBell off = false := by
  by_contra hb
  simp only [isBell, Bool.not_eq_false, Bool.and_eq_true, decide_eq_true_eq] at hb
  have hpg : 0x500 ≤ off / 0x1000 ∧ off / 0x1000 < 0x540 := by omega
  unfold pageOf at h
  dsimp only at h
  generalize off / 0x1000 = pg at h hpg
  split_ifs at h <;> omega

/-- An aligned access of 32 or 64 bits at a page acts (R12). -/
theorem bar0Valid_of_pageOf {off size : Nat} {p : Page} (h : pageOf off = some p) (hs : size = 4 ∨ size = 8) (ha : off % size = 0)
    (write : Bool) : bar0Valid off size write = true := by
  rcases hs with rfl | rfl <;> simp [bar0Valid, isBell_of_pageOf h, h, ha]

/-- Counters stand at multiples of 8. -/
theorem isCtr_aligned {p : Page} {o : Nat} (h : isCtr p o = true) : o % 8 = 0 := by
  cases p <;> simp [isCtr, Page.isCounter] at h <;> omega

/-- No counter stands at the start of a page. -/
theorem isCtr_pos {p : Page} {o : Nat} (h : isCtr p o = true) : o ≠ 0 := by
  rintro rfl
  cases p <;> simp [isCtr, Page.isCounter] at h

/-- A counter's offset: aligned, in its page, at no doorbell; its high word lies in the same page. -/
theorem ctrAt_page {off : Nat} {p : Page} {o : Nat} (h : ctrAt off = some (p, o)) :
    off ≠ 0 ∧ off % 8 = 0 ∧ pageOf off = some p ∧ pageOf (off + 4) = some p := by
  unfold ctrAt at h
  split at h
  · next q hq =>
    split at h
    · next hc =>
      obtain ⟨rfl, rfl⟩ : q = p ∧ off % 0x1000 = o := by simpa using h
      have h8 := isCtr_aligned hc
      have hpos := isCtr_pos hc
      have hpg : (off + 4) / 0x1000 = off / 0x1000 := by omega
      refine ⟨by omega, by omega, hq, ?_⟩
      unfold pageOf at hq ⊢
      rw [hpg]; exact hq
    · simp at h
  · simp at h

/-! ### Register writes -/

/-- A write by access code touches registers, staged values and the page's count of reserved writes (R13, R16). -/
theorem codeWrite_same (s : State) (q : Page) (o v : Nat) (d : RegDef) {p : Part} (h : p ≠ .regs ∧ p ≠ .ctrs) :
    p.same s (s.codeWrite q o v d) := by
  have hr : p.same s (s.rsvd q (v &&& (all32 - d.defined) != 0)) := by
    unfold State.rsvd
    split
    · exact bump_same _ _ _ _ h.2
    · exact Part.same_refl s p
  unfold State.codeWrite
  dsimp only
  generalize s.rsvd q (v &&& (all32 - d.defined) != 0) = u at *
  split_ifs
  · refine Part.same_trans hr ?_
    cases p <;> simp_all [Part.same, Part.kept]
  · exact hr
  · exact Part.same_trans hr (setReg_same _ _ _ h.1)

theorem rsvd_eq (s : State) (p : Page) (bad : Bool) : (s.rsvd p bad).regs = s.regs ∧ (s.rsvd p bad).staged = s.staged ∧
    (s.rsvd p bad).pending = s.pending ∧ CtrsBut s (s.rsvd p bad) (ctrsAt p [0xF8]) := by
  unfold State.rsvd
  split
  · exact ⟨rfl, rfl, rfl, fun k hk => State.ctrs_bump_ne _ _ _ _ _ (by simpa [ctrsAt] using hk)⟩
  · exact ⟨rfl, rfl, rfl, fun _ _ => rfl⟩

/-- Fields of 32 bits merged keep to 32 bits. -/
theorem merge_lt {old keep v rw : Nat} (hk : keep ≤ all32) (hv : v < 2 ^ 32) : (old &&& keep) ||| (v &&& rw) < 2 ^ 32 := by
  have h1 : old &&& keep < 2 ^ 32 := Nat.lt_of_le_of_lt Nat.and_le_right (by unfold all32 at hk; omega)
  exact Nat.or_lt_two_pow h1 (Nat.lt_of_le_of_lt Nat.and_le_left hv)

/-- What a write by access code does to the register, to the others and to the staged values. -/
theorem codeWrite_writes (s : State) (p : Page) (o : Nat) {v : Nat} (d : RegDef) (hv : v < 2 ^ 32) :
    (s.codeWrite p o v d).pending = s.pending ∧ CtrsBut s (s.codeWrite p o v d) (ctrsAt p [0xF8]) ∧
    (d.st = 0 → (s.codeWrite p o v d).staged = s.staged ∧ (∀ k, k ≠ p.base + o → (s.codeWrite p o v d).reg k = s.reg k) ∧
      (d.rw = 0 → d.w1c = 0 → (s.codeWrite p o v d).regs = s.regs) ∧
      (d.rw ≠ 0 ∨ d.w1c ≠ 0 → (s.codeWrite p o v d).reg (p.base + o) =
        (s.reg (p.base + o) &&& (all32 - d.rw - (d.w1c &&& v))) ||| (v &&& d.rw))) ∧
    (d.st ≠ 0 → (s.codeWrite p o v d).regs = s.regs ∧ (s.codeWrite p o v d).staged = tset s.staged (p.base + o) (BitVec.ofNat 32 v)) := by
  have hreg : ∀ {u : State}, u.regs = s.regs → ∀ k, u.reg k = s.reg k := fun h k => by simp [State.reg, h]
  unfold State.codeWrite
  dsimp only
  obtain ⟨hr, hs, hp, hc⟩ := rsvd_eq s p (v &&& (all32 - d.defined) != 0)
  generalize s.rsvd p (v &&& (all32 - d.defined) != 0) = u at *
  split_ifs with hst hro
  · exact ⟨hp, hc, fun h => absurd h hst, fun _ => ⟨hr, by rw [hs]⟩⟩
  · obtain ⟨hrw, hw1⟩ := hro
    exact ⟨hp, hc, fun _ => ⟨hs, fun k _ => hreg hr k, fun _ _ => hr, fun h => by simp [hrw, hw1] at h⟩, fun h => absurd h hst⟩
  · refine ⟨hp, hc, fun _ => ⟨hs, fun k hk => ?_, fun h1 h2 => absurd ⟨h1, h2⟩ hro, fun _ => ?_⟩, fun h => absurd h hst⟩
    · rw [State.reg_setReg_ne _ _ hk, hreg hr]
    · rw [State.reg_setReg_same, hreg hr, Nat.mod_eq_of_lt (merge_lt (by omega) hv)]

/-- The pages that a written register of plain access codes stands on: every register of theirs but LOSS_IN. -/
def plainPage (p : Page) (o : Nat) : Prop :=
  (p = .hif ∨ p = .health ∨ p = .red ∨ p = .links ∨ p = .power ∨ p = .thermal) ∨
    ∃ n, p = .core n ∧ o ≠ 0x11C ∨ p = .array n ∨ p = .vector n ∨ p = .sill n ∨ p = .bench n ∨ p = .port n

/-- A write of such a register goes by its access code (R13). -/
theorem write32_plain {s : State} {p : Page} {o : Nat} {d : RegDef} (v : Nat) (who : Agent) (ht : s.pwr.trip = false) (ho : 0x100 ≤ o)
    (hc : isCtr p o = false) (hh : o % 8 = 4 → isCtr p (o - 4) = false) (hd : regDef p o = some d) (hp : plainPage p o) :
    s.write32 p o v who = s.codeWrite p o v d := by
  have hctr : (isCtr p o || (o % 8 == 4 && isCtr p (o - 4))) = false := by
    by_cases h4 : o % 8 = 4
    · simp [hc, hh h4]
    · simp [hc, h4]
  have hsec : ¬ (p = .security ∧ who = .host) := by
    rintro ⟨rfl, -⟩
    simp [plainPage] at hp
  unfold State.write32
  rw [if_neg (by simp [ht]), if_neg hsec, hctr, if_neg (by simp), if_neg (by omega), hd]
  dsimp only
  rw [if_neg (by omega)]
  rcases hp with (rfl | rfl | rfl | rfl | rfl | rfl) | ⟨n, ⟨rfl, hne⟩ | rfl | rfl | rfl | rfl | rfl⟩
  case inr.inl => exact if_neg hne
  all_goals rfl

/-! ### BAR0 accesses -/

/-- An access that R12 does not allow reports class 13, and a read of it answers ones. -/
theorem bar0Invalid_reports (s : State) (off size : Nat) (write : Bool) :
    Reports s (finish s (s.bar0Invalid off size write)) 13 (if write then [] else [.out]) ∧
    (write = false → .readData (List.replicate size 0xFF) ∈ (finish s (s.bar0Invalid off size write)).out) := by
  cases write with
  | true =>
    exact ⟨reports_finish (by decide) (by decide) _ _ _ _ _ _ rfl rfl (fun p _ => Part.same_refl s p), fun h => by simp at h⟩
  | false =>
    refine ⟨reports_finish (by decide) (by decide) _ _ _ _ _ _ rfl rfl (fun p hp => send_same _ _ ?_), fun _ => readData_mem_finish ?_⟩
    · obtain ⟨-, -, hout, -⟩ : p ≠ .flt ∧ p ≠ .ctrs ∧ p ≠ .out ∧ p ∉ [] := by simpa using hp
      exact hout
    · have h : (s.bar0Invalid off size false).out = (s.send (.readData (List.replicate size 0xFF))).out :=
        fault_same _ _ _ _ _ _ _ _ (p := .out) (by decide)
      simp [h]

/-- A read's answer leaves, and nothing besides. -/
theorem answer_finish (s : State) (n v : Nat) :
    Unchanged s (finish s (s.answer n v)) [.out] ∧ .readData (natLe n v) ∈ (finish s (s.answer n v)).out :=
  ⟨unchanged_finish rfl (fun _ hp => send_same _ _ (by simpa using hp)), readData_mem_finish (by simp [State.answer])⟩

theorem tfind_tdel_same {α : Type} (t : Tab α) (k : Nat) : tfind (tdel t k) k = none := by
  simp [tfind, tdel]

/-- An answer given with a latch set or released. -/
theorem latch_answer_finish (s : State) (l : Tab Nat) (n v : Nat) :
    Unchanged s (finish s (({ s with latch := l } : State).answer n v)) [.latch, .out] ∧
    .readData (natLe n v) ∈ (finish s (({ s with latch := l } : State).answer n v)).out ∧
    (finish s (({ s with latch := l } : State).answer n v)).latch = l := by
  refine ⟨unchanged_finish rfl (fun p hp => ?_), readData_mem_finish (by simp [State.answer]), by simp [State.answer]⟩
  cases p <;> simp_all [Part.same, Part.kept, State.answer]

/-! ### The loss monitor -/

/-- A value that is not finite is not reported with the check off, nor before the event of the last is acknowledged (R433). -/
theorem nonfinite_silent {s : State} (job : Option Nat) (unit who : Nat)
    (h : bitAt (s.preg .fault 0x100) 0 = false ∨ bitAt s.dsw.events evNonfinite = true) : s.nonfinite job unit who = s := by
  unfold State.nonfinite
  rw [if_neg (by rcases h with h | h <;> simp [h])]

/-- Otherwise it raises NONFINITE and reports class 4. -/
theorem nonfinite_reported {s : State} (job : Option Nat) (unit who : Nat) (h1 : bitAt (s.preg .fault 0x100) 0 = true)
    (h2 : bitAt s.dsw.events evNonfinite = false) :
    ∃ detail, s.nonfinite job unit who = (s.event evNonfinite).fault 4 0 job unit 0 detail := by
  unfold State.nonfinite
  rw [if_pos (by simp [h1, h2])]
  exact ⟨_, rfl⟩

/-- An event flag set is read. -/
theorem bitAt_or_two_pow (v b : Nat) : bitAt (v ||| 2 ^ b) b = true := by
  rw [bitAt, Nat.shiftRight_or_distrib, Nat.shiftRight_eq_div_pow (2 ^ b), Nat.div_self (by positivity)]
  simp [Nat.or_mod_two_eq_one]

theorem event_fault_events (s : State) (b cls status : Nat) (job : Option Nat) (unit flags : Nat) (detail : List Byte) (sub : Nat) :
    bitAt ((s.event b).fault cls status job unit flags detail sub).dsw.events b = true := by
  rw [(fault_same (s.event b) cls status job unit flags detail sub (p := .events) (by decide)).1, State.event_events]
  exact bitAt_or_two_pow _ _

theorem setLoss_same (s : State) (j : Nat) (m : Loss) {p : Part} (h : p ≠ .loss) : p.same s (s.setLoss j m) := by
  cases p <;> simp_all [Part.same, Part.kept, State.setLoss]

theorem finish_lossOf (s0 s : State) (j : Nat) : (finish s0 s).lossOf j = s.lossOf j := by simp [State.lossOf]

theorem lossOf_setLoss (s : State) (j k : Nat) (m : Loss) : (s.setLoss j m).lossOf k = if k = j then m else s.lossOf k := by
  unfold State.lossOf State.setLoss
  split
  · next h => subst h; simp
  · next h => exact tget_tset_ne _ _ _ h

end Sys2Proof.Machine
end

section
/-! BAR2: admission at a quarry, bytes and poison, what a read and a write become (R356 to R358). -/

namespace Sys2Proof.Machine

/-! ### Bytes and poison -/

/-- Bytes written are read. -/
theorem bytes_of_memWrite {s t : State} {a : Nat} {bs : List Byte} (hs : s.memOk) (h : t.mem = memWrite s.mem a bs) :
    t.bytes a bs.length = bs := by
  unfold State.bytes memRead
  refine List.ext_getElem (by simp) (fun i h1 h2 => ?_)
  simpa [h] using memGet_memWrite_inside bs hs h2

/-- A codeword marked poisoned. -/
def markPoison (e : Tab Cw) (k : Nat) : Tab Cw := tset e k { tget (Cw.mk [] false) e k with poison := true }

theorem markPoison_poison (e : Tab Cw) (k x : Nat) :
    (tget ⟨[], false⟩ (markPoison e k) x).poison = (decide (x = k) || (tget ⟨[], false⟩ e x).poison) := by
  unfold markPoison
  by_cases h : x = k
  · subst h; simp
  · simp [h, tget_tset_ne _ _ _ h]

theorem foldl_markPoison_poison (ks : List Nat) (e : Tab Cw) {x : Nat} (h : x ∈ ks ∨ (tget ⟨[], false⟩ e x).poison = true) :
    (tget ⟨[], false⟩ (ks.foldl markPoison e) x).poison = true := by
  induction ks generalizing e with
  | nil => simpa using h
  | cons k ks ih =>
    refine ih _ ?_
    rw [markPoison_poison]
    rcases h with h | h
    · rcases List.mem_cons.mp h with rfl | h
      · exact .inr (by simp)
      · exact .inl h
    · exact .inr (by simp [h])

/-- Every codeword of a poisoned range of whole units is poisoned (R358). -/
theorem poison_units {s : State} {lo hi k : Nat} (hlo : lo % 64 = 0) (hhi : hi % 64 = 0) (h1 : lo ≤ 32 * k) (h2 : 32 * k < hi) :
    (tget ⟨[], false⟩ (s.poison lo (hi - lo)).ecc k).poison = true := by
  refine foldl_markPoison_poison _ _ (.inl ?_)
  simp only [fromN, ceilDiv, List.mem_map, List.mem_range]
  exact ⟨k - lo / 32, by omega, by omega⟩

/-! ### Admission at a quarry -/

/-- Admission counts at a quarry, and nothing besides (R250, R253). -/
theorem winEnter_eq (s : State) (r : Requester) (op : WinOp) (a len : Nat) :
    (s.winEnter r op a len).1 = s ∨ ∃ n o, (s.winEnter r op a len).1 = s.bump (.quarry n) o := by
  unfold State.winEnter
  split
  · exact .inl rfl
  · split_ifs
    · exact .inl rfl
    · exact .inr ⟨_, _, rfl⟩
    · split
      · exact .inr ⟨_, _, rfl⟩
      · exact .inr ⟨_, _, rfl⟩

theorem winEnter_same (s : State) (r : Requester) (op : WinOp) (a len : Nat) {p : Part} (h : p ≠ .ctrs) :
    p.same s (s.winEnter r op a len).1 := by
  rcases winEnter_eq s r op a len with e | ⟨n, o, e⟩ <;> rw [e]
  · exact Part.same_refl s p
  · exact bump_same _ _ _ _ h

/-- A counter of the host interface is none of a quarry's. -/
theorem hifCtr_bump_quarry (s : State) (n o k : Nat) {x : Nat} (hx : x < 0x1000) : (s.bump (.quarry n) o k).ctr .hif x = s.ctr .hif x :=
  State.ctr_bump_ne s _ (by simp only [Page.base]; omega)

theorem winEnter_hifCtr (s : State) (r : Requester) (op : WinOp) (a len : Nat) {x : Nat} (hx : x < 0x1000) :
    (s.winEnter r op a len).1.ctr .hif x = s.ctr .hif x := by
  rcases winEnter_eq s r op a len with e | ⟨n, o, e⟩ <;> rw [e]
  exact hifCtr_bump_quarry _ _ _ _ hx

/-- Admission does not turn on counters. -/
theorem winEnter_bump_status (s : State) (p : Page) (o k : Nat) (r : Requester) (op : WinOp) (a len : Nat) :
    ((s.bump p o k).winEnter r op a len).2 = (s.winEnter r op a len).2 := by
  have hw : ∀ n, (s.bump p o k).winFor n r op a len = s.winFor n r op a len := fun n => by cases r <;> rfl
  have hs : ∀ n, (s.bump p o k).inShutter n a len = s.inShutter n a len := fun n => rfl
  unfold State.winEnter
  split
  · rfl
  · next n _ =>
    rw [hw, hs, State.bump_get_quarry]
    split_ifs
    · rfl
    · rfl
    · split <;> rfl

theorem openRow_hifCtr (s : State) (n a : Nat) {x : Nat} (hx : x < 0x1000) : (s.openRow n a).ctr .hif x = s.ctr .hif x := by
  unfold State.openRow
  dsimp only
  split_ifs
  · exact hifCtr_bump_quarry _ _ _ _ hx
  · rfl

theorem openRows_hifCtr (s : State) (n a len : Nat) {x : Nat} (hx : x < 0x1000) : (s.openRows n a len).ctr .hif x = s.ctr .hif x := by
  unfold State.openRows
  generalize fromN (a / 64) (units a len) = us
  induction us generalizing s with
  | nil => rfl
  | cons u us ih => exact (ih _).trans (openRow_hifCtr s n (64 * u) hx)

/-! ### The queue of commands -/

theorem foldl_pending {α : Type} {f : State → α → State} (h : ∀ s x, (f s x).pending = s.pending) (xs : List α) (s : State) :
    (xs.foldl f s).pending = s.pending := by
  induction xs generalizing s with
  | nil => rfl
  | cons x xs ih => exact (ih _).trans (h s x)

@[simp] theorem winEnter_pending (s : State) (r : Requester) (op : WinOp) (a len : Nat) :
    (s.winEnter r op a len).1.pending = s.pending := by
  rcases winEnter_eq s r op a len with e | ⟨n, o, e⟩ <;> rw [e]
  rfl

@[simp] theorem openRows_pending (s : State) (n a len : Nat) : (s.openRows n a len).pending = s.pending := by
  refine foldl_pending (fun s u => ?_) _ _
  unfold State.openRow
  dsimp only
  split_ifs <;> rfl

/-- A write among clean codewords where nothing waits leaves the queue of commands alone. -/
theorem quarryWrite_pending {s : State} {n : Nat} (h : s.ecc = []) (hw : s.admitted n = []) (a : Nat) (bs : List Byte) (source : Nat)
    (job : Option Nat) (flags : Nat) : (s.quarryWrite n a bs source job flags).1.pending = s.pending := by
  obtain ⟨-, he⟩ : Part.mem.same s (s.openRows n a bs.length) := openRows_same s n a bs.length (by decide)
  rw [State.quarryWrite, settle_idle hw, unitsWrite_clean (he.trans h)]
  exact (foldl_pending (fun s u => State.bump_pending s _ _ _) _ _).trans (openRows_pending s n a bs.length)

/-! ### BAR2 (R357, R358) -/

/-- A fault record counts on no page of the host interface. -/
theorem fault_hifCtr (s : State) {cls : Nat} (hm : marksUnits cls = false) (hc : cls < 14) (status : Nat) (job : Option Nat) (unit flags : Nat)
    (detail : List Byte) (sub : Nat) {x : Nat} (hx : x < 0x1000) :
    (s.fault cls status job unit flags detail sub).ctr .hif x = s.ctr .hif x := by
  have hb : ∀ (u : State) o, o < 0x1000 → (u.bump .fault o).ctr .hif x = u.ctr .hif x :=
    fun u o ho => State.ctr_bump_ne u _ (by simp only [Page.base]; omega)
  have hrel : ∀ (u : State) q, (u.releaseLatch unit q).ctr .hif x = u.ctr .hif x := by
    intro u q
    unfold State.releaseLatch
    dsimp only
    split_ifs <;> rfl
  rw [fault_other _ hm]
  unfold State.keepFault
  dsimp only
  split_ifs
  · exact (hb _ 0x40 (by decide)).trans (hb s _ (by omega))
  · exact (hrel _ _).trans ((hb _ 0x48 (by decide)).trans (hb s _ (by omega)))

/-- A denied access: counted, its address held, nothing else touched. -/
theorem bar2Denied_same (s : State) (a : Nat) {p : Part} (h : p ≠ .ctrs ∧ p ≠ .regs) : p.same s (s.bar2Denied a) :=
  Part.same_trans (bump_same _ _ _ _ h.1) (Part.same_trans (setReg_same _ _ _ h.2) (setReg_same _ _ _ h.2))

theorem bar2Denied_writes (s : State) (a : Nat) : (s.bar2Denied a).ctr .hif 0x60 = (s.ctr .hif 0x60 + 1) % 2 ^ 48 ∧
    RegsBut s (s.bar2Denied a) [Page.hif.base + 0x110, Page.hif.base + 0x114] := by
  refine ⟨State.ctr_bump_same s .hif 0x60 1, rfl, fun k hk => ?_⟩
  simp only [List.mem_cons, List.not_mem_nil, or_false, not_or] at hk
  exact (State.reg_setReg_ne _ _ hk.2).trans (State.reg_setReg_ne _ _ hk.1)

/-- The access that a window admits. -/
theorem bar2Read_admitted {s : State} {off len : Nat} (h : (s.winEnter .host .read (s.bar2Addr off) len).2.1 = 0) (hq : s.quiet) :
    s.bar2Read off len =
      (((s.winEnter .host .read (s.bar2Addr off) len).1.openRows (s.bar2Addr off / quarrySize) (s.bar2Addr off) len).bump
        (.quarry (s.bar2Addr off / quarrySize)) 0x40 (units (s.bar2Addr off) len)).send (.readData (s.bytes (s.bar2Addr off) len)) := by
  have hm := winEnter_same s .host .read (s.bar2Addr off) len (p := .mem) (by decide)
  have hf : (s.winEnter .host .read (s.bar2Addr off) len).1.flight = s.flight :=
    winEnter_same s .host .read (s.bar2Addr off) len (p := .flight) (by decide)
  unfold State.bar2Read
  dsimp only
  generalize s.winEnter .host .read (s.bar2Addr off) len = e at h hm hf ⊢
  obtain ⟨u, st, w⟩ := e
  obtain rfl : st = 0 := h
  dsimp only at hm hf ⊢
  have hadm : u.admitted (s.bar2Addr off / quarrySize) = [] := by
    unfold State.admitted
    rw [hf]
    exact hq.2 _
  simp [quarryRead_clean (hm.2.trans hq.1) hadm, State.bytes, hm.1]

theorem bar2Read_denied {s : State} {off len : Nat} (h : (s.winEnter .host .read (s.bar2Addr off) len).2.1 ≠ 0) :
    s.bar2Read off len = ((s.winEnter .host .read (s.bar2Addr off) len).1.bar2Denied (s.bar2Addr off)).send
      (.readData (List.replicate len 0xFF)) := by
  unfold State.bar2Read
  dsimp only
  generalize s.winEnter .host .read (s.bar2Addr off) len = e at h ⊢
  obtain ⟨u, st, w⟩ := e
  cases st with
  | zero => exact absurd rfl h
  | succ n => rfl

theorem bar2Write_denied {s : State} {off : Nat} {bs : List Byte}
    (h : (s.winEnter .host .write (s.bar2Addr off) bs.length).2.1 ≠ 0) (bad : Bool) :
    s.bar2Write off bs bad =
      ((if bad then s.bump .hif 0x80 else s).winEnter .host .write (s.bar2Addr off) bs.length).1.bar2Denied (s.bar2Addr off) := by
  have hst : ((if bad then s.bump .hif 0x80 else s).winEnter .host .write (s.bar2Addr off) bs.length).2.1 ≠ 0 := by
    cases bad
    · exact h
    · exact (congrArg Prod.fst (winEnter_bump_status s .hif 0x80 1 .host .write (s.bar2Addr off) bs.length)) ▸ h
  unfold State.bar2Write
  dsimp only
  generalize (if bad then s.bump .hif 0x80 else s).winEnter .host .write (s.bar2Addr off) bs.length = e at hst ⊢
  obtain ⟨u, st, w⟩ := e
  cases st with
  | zero => exact absurd rfl hst
  | succ n => rfl

theorem bar2Write_admitted {s : State} {off : Nat} {bs : List Byte} (h : (s.winEnter .host .write (s.bar2Addr off) bs.length).2.1 = 0) :
    s.bar2Write off bs false = ((s.winEnter .host .write (s.bar2Addr off) bs.length).1.quarryWrite (s.bar2Addr off / quarrySize)
      (s.bar2Addr off) bs 1 none 0).1 := by
  unfold State.bar2Write
  dsimp only
  rw [if_neg (by decide)]
  generalize s.winEnter .host .write (s.bar2Addr off) bs.length = e at h ⊢
  obtain ⟨u, st, w⟩ := e
  obtain rfl : st = 0 := h
  rfl

/-- A poisoned write before its report: the bytes stored, every unit that they touch poisoned (R358). -/
def bar2Poisoned (s : State) (a : Nat) (bs : List Byte) : State :=
  (((((s.bump .hif 0x80).winEnter .host .write a bs.length).1.openRows (a / quarrySize) a bs.length).put a bs).poison
    (a / 64 * 64) (roundUp (a + bs.length) 64 - a / 64 * 64)).bump (.quarry (a / quarrySize)) 0x48 (units a bs.length)

theorem bar2Write_poisoned {s : State} {off : Nat} {bs : List Byte} (h : (s.winEnter .host .write (s.bar2Addr off) bs.length).2.1 = 0)
    (hq : s.quiet) : s.bar2Write off bs true = (bar2Poisoned s (s.bar2Addr off) bs).hostFault 0 hifUnit 6 0xFFFF off := by
  have hst : ((s.bump .hif 0x80).winEnter .host .write (s.bar2Addr off) bs.length).2.1 = 0 :=
    (congrArg Prod.fst (winEnter_bump_status s .hif 0x80 1 .host .write (s.bar2Addr off) bs.length)).trans h
  have hf : ((s.bump .hif 0x80).winEnter .host .write (s.bar2Addr off) bs.length).1.flight = s.flight :=
    winEnter_same _ .host .write (s.bar2Addr off) bs.length (p := .flight) (by decide)
  unfold State.bar2Write bar2Poisoned
  dsimp only
  rw [if_pos rfl]
  generalize (s.bump .hif 0x80).winEnter .host .write (s.bar2Addr off) bs.length = e at hst hf ⊢
  obtain ⟨u, st, w⟩ := e
  obtain rfl : st = 0 := hst
  dsimp only at hf
  have hadm : u.admitted (s.bar2Addr off / quarrySize) = [] := by
    unfold State.admitted
    rw [hf]
    exact hq.2 _
  simp [settle_idle hadm]

theorem bar2Poisoned_same (s : State) (a : Nat) (bs : List Byte) {p : Part} (h : p ≠ .mem ∧ p ≠ .ctrs ∧ p ≠ .quarries) :
    p.same s (bar2Poisoned s a bs) :=
  Part.same_trans (bump_same _ _ _ _ h.2.1) <| Part.same_trans (winEnter_same _ _ _ _ _ h.2.1) <|
    Part.same_trans (openRows_same _ _ _ _ ⟨h.2.2, h.2.1⟩) <| Part.same_trans (put_same _ _ _ h.1) <|
    Part.same_trans (poison_same _ _ _ h.1) (bump_same _ _ _ _ h.2.1)

theorem bar2Poisoned_mem (s : State) (a : Nat) (bs : List Byte) : (bar2Poisoned s a bs).mem = memWrite s.mem a bs := by
  obtain ⟨he, -⟩ : Part.mem.same (s.bump .hif 0x80) ((s.bump .hif 0x80).winEnter .host .write a bs.length).1 :=
    winEnter_same _ _ _ _ _ (by decide)
  obtain ⟨ho, -⟩ : Part.mem.same _ (((s.bump .hif 0x80).winEnter .host .write a bs.length).1.openRows (a / quarrySize) a bs.length) :=
    openRows_same _ _ _ _ (by decide)
  exact congrArg (memWrite · a bs) (ho.trans he)

theorem bar2Poisoned_ctr (s : State) (a : Nat) (bs : List Byte) :
    (bar2Poisoned s a bs).ctr .hif 0x80 = (s.ctr .hif 0x80 + 1) % 2 ^ 48 := by
  have hput : ∀ u : State, ((u.put a bs).poison (a / 64 * 64) (roundUp (a + bs.length) 64 - a / 64 * 64)).ctr .hif 0x80 = u.ctr .hif 0x80 :=
    fun u => rfl
  unfold bar2Poisoned
  rw [hifCtr_bump_quarry _ _ _ _ (by decide), hput, openRows_hifCtr _ _ _ _ (by decide), winEnter_hifCtr _ _ _ _ _ (by decide),
    State.ctr_bump_same]

/-- The units that a poisoned write touches are poisoned. -/
theorem bar2Poisoned_poison (s : State) {a k : Nat} (bs : List Byte) (h1 : a / 64 * 64 ≤ 32 * k)
    (h2 : 32 * k < roundUp (a + bs.length) 64) : (tget ⟨[], false⟩ (bar2Poisoned s a bs).ecc k).poison = true :=
  poison_units (by omega) (by unfold roundUp; omega) h1 h2

end Sys2Proof.Machine
end

section
/-! The commands of register accesses, LOSS_IN and BAR2, clause by clause (O50). -/

namespace Sys2Proof.Machine

/-! ### What the commands run while the clocks do -/

theorem exec_bar0InvalidAccess_live {s : State} (hs : s.svcLive = true) (off : BitVec 25) (acc : Bar0Access) :
    exec (.bar0InvalidAccess off acc) s = .next (finish s (s.bar0Access off.toNat acc.size acc.write)) := by
  rw [show exec (.bar0InvalidAccess off acc) s = execBar0InvalidAccess off acc s from rfl]
  exact actSvc_live hs _
theorem exec_registerWrite_live {s : State} (hs : s.svcLive = true) (off : BitVec 25) (wide : Bool) (value : W64) (who : Agent) :
    exec (.registerWrite off wide value who) s = .next (finish s (s.regWrite off.toNat value.toNat wide who)) := by
  rw [show exec (.registerWrite off wide value who) s = execRegisterWrite off wide value who s from rfl]
  exact actSvc_live hs _
theorem exec_counterLowRead_live {s : State} (hs : s.svcLive = true) (r : CounterRead) :
    exec (.counterLowRead r) s = .next (finish s (s.ctrLow r.off.toNat r.wide)) := by
  rw [show exec (.counterLowRead r) s = execCounterLowRead r s from rfl]
  exact actSvc_live hs _
theorem exec_counterHighRead_live {s : State} (hs : s.svcLive = true) (off : BitVec 25) :
    exec (.counterHighRead off) s = .next (finish s (s.ctrHigh off.toNat)) := by
  rw [show exec (.counterHighRead off) s = execCounterHighRead off s from rfl]
  exact actSvc_live hs _
theorem exec_lossIn_live {s : State} (hs : s.live = true) (c : CoreId) (value : W32) (who : Agent) :
    exec (.lossIn c value who) s = .next (finish s (s.lossIn c value who)) := by
  rw [show exec (.lossIn c value who) s = execLossIn c value who s from rfl]
  exact act_live hs _
theorem exec_bar2Read_live {s : State} (hs : s.live = true) (off len : Nat) :
    exec (.bar2Read off len) s = .next (finish s (s.bar2Read off len)) := by
  rw [show exec (.bar2Read off len) s = execBar2Read off len s from rfl]
  exact act_live hs _
theorem exec_bar2Write_live {s : State} (hs : s.live = true) (off : Nat) (data : List Byte) (bad : Bool) :
    exec (.bar2Write off data bad) s = .next (finish s (s.bar2Write off data bad)) := by
  rw [show exec (.bar2Write off data bad) s = execBar2Write off data bad s from rfl]
  exact act_live hs _

/-! ### Register writes and reads as commands -/

/-- An access to BAR0 acts where R12 allows it, and is no such command then; where not, it reports class 13. -/
theorem exec_bar0InvalidAccess {s : State} (hs : s.svcLive = true) (off : BitVec 25) (size : Nat) (write : Bool) :
    (bar0Valid off.toNat size write = true → ∃ t, exec (.bar0InvalidAccess off ⟨size, write⟩) s = .next t ∧ Unchanged s t []) ∧
    (bar0Valid off.toNat size write = false → ∃ t, exec (.bar0InvalidAccess off ⟨size, write⟩) s = .next t ∧ Reports s t 13 [.out] ∧
      (write = false → .readData (List.replicate size 0xFF) ∈ t.out)) := by
  have he := exec_bar0InvalidAccess_live hs off ⟨size, write⟩
  refine ⟨fun h => ⟨_, he, ?_⟩, fun h => ⟨_, he, ?_⟩⟩
  · rw [State.bar0Access, if_pos h]
    exact unchanged_finish rfl (fun p _ => Part.same_refl s p)
  · rw [State.bar0Access, if_neg (by simp [h])]
    obtain ⟨hr, ho⟩ := bar0Invalid_reports s off.toNat size write
    exact ⟨hr.mono (by cases write <;> simp), ho⟩

/-- A write of the host or Stavuf that R12 does not allow. -/
theorem exec_registerWrite_invalid {s : State} (hs : s.svcLive = true) {off : BitVec 25} {wide : Bool} (value : W64) {who : Agent}
    (hw : who ≠ .program) (h : bar0Valid off.toNat (if wide then 8 else 4) true = false) :
    ∃ t, exec (.registerWrite off wide value who) s = .next t ∧ Reports s t 13 [] := by
  have he : s.regWrite off.toNat value.toNat wide who = s.bar0Invalid off.toNat 4 true := by
    unfold State.regWrite
    dsimp only
    rw [if_neg hw, if_pos (by simp [h])]
  refine ⟨_, exec_registerWrite_live hs .., ?_⟩
  rw [he]
  exact (bar0Invalid_reports s off.toNat 4 true).1

/-- A write at a page, by the host or Stavuf. -/
theorem regWrite_page {s : State} {off v : Nat} {wide : Bool} {who : Agent} {p : Page} (hw : who ≠ .program)
    (hv : bar0Valid off (if wide then 8 else 4) true = true) (hp : pageOf off = some p) :
    s.regWrite off v wide who = (if wide then (s.write32 p (off % 0x1000) (v % 2 ^ 32) who).write32 p (off % 0x1000 + 4)
      (v / 2 ^ 32 % 2 ^ 32) who else s.write32 p (off % 0x1000) (v % 2 ^ 32) who) := by
  unfold State.regWrite
  dsimp only
  rw [if_neg hw, hv, isBell_of_pageOf hp, hp]
  rfl

/-- A write of 64 bits writes two registers, the lower first (R13). -/
theorem exec_registerWrite_wide {s : State} (hs : s.svcLive = true) {off : BitVec 25} (value : W64) {who : Agent} (hw : who ≠ .program)
    {p : Page} (hv : bar0Valid off.toNat 8 true = true) (hp : pageOf off.toNat = some p) :
    exec (.registerWrite off true value who) s = .next (finish s
      ((s.write32 p (off.toNat % 0x1000) (value.toNat % 2 ^ 32) who).write32 p (off.toNat % 0x1000 + 4) (value.toNat / 2 ^ 32) who)) := by
  have hhi : value.toNat / 2 ^ 32 % 2 ^ 32 = value.toNat / 2 ^ 32 := Nat.mod_eq_of_lt (by have := value.isLt; omega)
  rw [exec_registerWrite_live hs, regWrite_page hw hv hp, hhi]
  rfl

/-- A program's write that is not aligned is a program fault (R460). -/
theorem exec_registerWrite_program {s : State} (hs : s.svcLive = true) {off : BitVec 25} (wide : Bool) (value : W64) {j : Nat}
    (hj : s.runSlot = some j) (ha : off.toNat % 4 ≠ 0) :
    ∃ t, exec (.registerWrite off wide value .program) s = .next t ∧ Records s t 14 ∧ Tears s t j := by
  have he : s.regWrite off.toNat value.toNat wide .program = s.progFault (some j) Page.hif.unit 0x7F 0xFFFF 0 8 0xFF off.toNat := by
    unfold State.regWrite State.progDenied
    dsimp only
    rw [if_pos rfl, if_pos ha, hj]
  refine ⟨_, exec_registerWrite_live hs .., ?_⟩
  rw [he]
  exact ⟨progFault_records rfl _ _ _ _ _ _ _ _, progFault_tears rfl rfl rfl _ _ _ _ _ _ _ _⟩

/-- A write of 32 bits to a register of plain access codes (R13). -/
theorem exec_registerWrite_plain {s : State} (hs : s.svcLive = true) (off : BitVec 25) (value : W64) (who : Agent) (p : Page) (d : RegDef) :
    let o := off.toNat % 0x1000
    let v := value.toNat % 2 ^ 32
    s.pwr.trip = false → who ≠ .program → pageOf off.toNat = some p → off.toNat % 4 = 0 → 0x100 ≤ o → isCtr p o = false →
    (o % 8 = 4 → isCtr p (o - 4) = false) → regDef p o = some d → plainPage p o →
    ∃ t, exec (.registerWrite off false value who) s = .next t ∧ Unchanged s t [.regs, .ctrs] ∧ CtrsBut s t (ctrsAt p [0xF8]) ∧
      (d.st = 0 → RegsBut s t [p.base + o] ∧ (d.rw = 0 → d.w1c = 0 → t.regs = s.regs) ∧
        ((d.rw ≠ 0 ∨ d.w1c ≠ 0) →
          t.reg (p.base + o) = (s.reg (p.base + o) &&& (all32 - d.rw - (d.w1c &&& v))) ||| (v &&& d.rw))) ∧
      (d.st ≠ 0 → t.regs = s.regs ∧ tfind t.staged (p.base + o) = some (BitVec.ofNat 32 v) ∧
        ∀ k, k ≠ p.base + o → tfind t.staged k = tfind s.staged k) := by
  intro o v ht hw hp ha ho hc hh hd hpl
  have he : s.regWrite off.toNat value.toNat false who = s.codeWrite p o v d := by
    rw [regWrite_page hw (bar0Valid_of_pageOf hp (.inl rfl) ha true) hp]
    exact write32_plain v who ht ho hc hh hd hpl
  obtain ⟨hpend, hctr, hplain, hstage⟩ := codeWrite_writes s p o d (v := v) (Nat.mod_lt _ (by decide))
  refine ⟨_, exec_registerWrite_live hs .., ?_⟩
  rw [he]
  refine ⟨unchanged_finish hpend (fun q hq => codeWrite_same s p o v d (by simpa using hq)), ?_, fun h => ?_, fun h => ?_⟩
  · simpa [CtrsBut] using hctr
  · obtain ⟨hst, hothers, hro, hval⟩ := hplain h
    exact ⟨⟨by simpa using hst, fun k hk => by simpa using hothers k (by simpa using hk)⟩, by simpa using hro, by simpa using hval⟩
  · obtain ⟨hr, hst⟩ := hstage h
    exact ⟨by simpa using hr, by simp [hst], fun k hk => by simp [hst, tfind_tset_ne _ _ hk]⟩

/-- A read at a counter's low word (R174). -/
theorem exec_counterLowRead_counter {s : State} (hs : s.svcLive = true) {off : BitVec 25} {p : Page} {o : Nat}
    (h : ctrAt off.toNat = some (p, o)) :
    (∃ t, exec (.counterLowRead ⟨off, false⟩) s = .next t ∧ Unchanged s t [.latch, .out] ∧
      .readData (natLe 4 (s.counter p o)) ∈ t.out ∧ tfind t.latch off.toNat = some (s.counter p o / 2 ^ 32)) ∧
    (∃ t, exec (.counterLowRead ⟨off, true⟩) s = .next t ∧ Unchanged s t [.out] ∧ .readData (natLe 8 (s.counter p o)) ∈ t.out) := by
  obtain ⟨-, h8, hp, -⟩ := ctrAt_page h
  have h4 : bar0Valid off.toNat 4 false = true := bar0Valid_of_pageOf hp (.inl rfl) (by omega) false
  have hw : bar0Valid off.toNat 8 false = true := bar0Valid_of_pageOf hp (.inr rfl) h8 false
  have hnarrow : s.ctrLow off.toNat false =
      ({ s with latch := tset s.latch off.toNat (s.counter p o / 2 ^ 32) } : State).answer 4 (s.counter p o) := by
    simp [State.ctrLow, h4, h]
  have hwide : s.ctrLow off.toNat true = s.answer 8 (s.counter p o) := by simp [State.ctrLow, hw, h]
  refine ⟨⟨_, exec_counterLowRead_live hs .., ?_⟩, ⟨_, exec_counterLowRead_live hs .., ?_⟩⟩
  · dsimp only
    rw [hnarrow]
    obtain ⟨hu, ho, hl⟩ := latch_answer_finish s (tset s.latch off.toNat (s.counter p o / 2 ^ 32)) 4 (s.counter p o)
    exact ⟨hu, ho, by rw [hl, tfind_tset_same]⟩
  · dsimp only
    rw [hwide]
    exact answer_finish s 8 _

/-- A read of registers that are no counters. -/
theorem exec_counterLowRead_register {s : State} (hs : s.svcLive = true) {off : BitVec 25} {wide : Bool} (h : ctrAt off.toNat = none)
    (hv : bar0Valid off.toNat (if wide then 8 else 4) false = true) :
    ∃ t, exec (.counterLowRead ⟨off, wide⟩) s = .next t ∧ Unchanged s t [.out] ∧
      .readData (if wide then natLe 8 (s.readReg off.toNat + 2 ^ 32 * s.readReg (off.toNat + 4)) else natLe 4 (s.readReg off.toNat)) ∈ t.out := by
  refine ⟨_, exec_counterLowRead_live hs .., ?_⟩
  dsimp only
  cases wide with
  | false =>
    replace hv : bar0Valid off.toNat 4 false = true := hv
    have he : s.ctrLow off.toNat false = s.answer 4 (s.readReg off.toNat) := by simp [State.ctrLow, hv, h]
    rw [he]; exact answer_finish s 4 _
  | true =>
    replace hv : bar0Valid off.toNat 8 false = true := hv
    have he : s.ctrLow off.toNat true = s.answer 8 (s.readReg off.toNat + 2 ^ 32 * s.readReg (off.toNat + 4)) := by
      simp [State.ctrLow, hv, h]
    rw [he]; exact answer_finish s 8 _

/-- A read at a counter's high word: the latch, which it releases, or where none stands the counter's own (R174). -/
theorem exec_counterHighRead {s : State} (hs : s.svcLive = true) {off : BitVec 25} {p : Page} {o : Nat}
    (h : ctrAt (off.toNat - 4) = some (p, o)) :
    ∃ t, exec (.counterHighRead off) s = .next t ∧ Unchanged s t [.latch, .out] ∧ tfind t.latch (off.toNat - 4) = none ∧
      (∀ v, tfind s.latch (off.toNat - 4) = some v → .readData (natLe 4 v) ∈ t.out) ∧
      (tfind s.latch (off.toNat - 4) = none → .readData (natLe 4 (s.counter p o / 2 ^ 32)) ∈ t.out) := by
  obtain ⟨h0, h8, -, hp⟩ := ctrAt_page h
  rw [show off.toNat - 4 + 4 = off.toNat by omega] at hp
  have hv : bar0Valid off.toNat 4 false = true := bar0Valid_of_pageOf hp (.inl rfl) (by omega) false
  refine ⟨_, exec_counterHighRead_live hs .., ?_⟩
  cases hl : tfind s.latch (off.toNat - 4) with
  | none =>
    -- No latch: the answer leaves the table of latches as it stands.
    have he : s.ctrHigh off.toNat = ({ s with latch := s.latch } : State).answer 4 (s.counter p o / 2 ^ 32) := by
      simp [State.ctrHigh, hv, h, hl]
    obtain ⟨hu, ho, hlatch⟩ := latch_answer_finish s s.latch 4 (s.counter p o / 2 ^ 32)
    rw [he]
    exact ⟨hu, by rw [hlatch]; exact hl, fun _ hn => by simp at hn, fun _ => ho⟩
  | some v =>
    have he : s.ctrHigh off.toNat = ({ s with latch := tdel s.latch (off.toNat - 4) } : State).answer 4 v := by
      simp [State.ctrHigh, hv, h, hl]
    obtain ⟨hu, ho, hlatch⟩ := latch_answer_finish s (tdel s.latch (off.toNat - 4)) 4 v
    rw [he]
    refine ⟨hu, by rw [hlatch, tfind_tdel_same], fun w hw => ?_, fun hn => by simp at hn⟩
    obtain rfl : v = w := Option.some.inj hw
    exact ho

/-! ### The loss monitor as a command -/

/-- A write of LOSS_IN that R461 lets act is a sample. -/
theorem lossIn_sample {s : State} {n : Nat} (v : W32) {who : Agent} (h : who ≠ .program ∨ s.mirrorPage ((Page.core n).base + 0x11C) = true) :
    s.lossIn n v who = s.lossSample n v := by
  cases who with
  | program => exact if_pos (h.resolve_left (fun h => h rfl))
  | host => rfl
  | svc => rfl

/-- A sample where no job runs, or with the monitor off, is not taken. -/
theorem lossSample_off {s : State} (n : Nat) (v : W32) (h : s.runSlot = none ∨ bitAt (s.preg .health 0x100) 0 = false) :
    s.lossSample n v = s := by
  unfold State.lossSample
  split
  · rfl
  · next j hj => rw [if_pos (by simp [h.resolve_left (by simp [hj])])]

/-- The first finite sample of a run is the mean (R434). -/
theorem lossSample_first {s : State} {n j : Nat} {v : W32} (hj : s.runSlot = some j) (hp : bitAt (s.job j).placed n = true)
    (hon : bitAt (s.preg .health 0x100) 0 = true) (hf : (val32 v).isFin = true) (h0 : (s.lossOf j).samples = 0) :
    s.lossSample n v = ({ s with free := s.free + 10 } : State).setLoss j { s.lossOf j with samples := 1, mean := lossFix v, dev := 0 } := by
  simp [State.lossSample, hj, hp, hon, hf, lossStep, h0]

/-- A sample that is not finite is counted, and reported. -/
theorem lossSample_nonfinite {s : State} {n j : Nat} {v : W32} (hj : s.runSlot = some j) (hp : bitAt (s.job j).placed n = true)
    (hon : bitAt (s.preg .health 0x100) 0 = true) (hf : (val32 v).isFin = false) :
    s.lossSample n v =
      (s.setLoss j { s.lossOf j with nonfinite := (s.lossOf j).nonfinite + 1 }).nonfinite (some j) (Page.core n).unit n := by
  simp [State.lossSample, hj, hp, hon, hf]

/-- LOSS_IN of the first finite sample. -/
theorem exec_lossIn_first {s : State} (hs : s.live = true) {c : CoreId} {value : W32} {who : Agent} {j : Nat}
    (hw : who ≠ .program ∨ s.mirrorPage ((Page.core c).base + 0x11C) = true) (hj : s.runSlot = some j)
    (hp : bitAt (s.job j).placed c = true) (hon : bitAt (s.preg .health 0x100) 0 = true) (hf : (val32 value).isFin = true)
    (h0 : (s.lossOf j).samples = 0) :
    ∃ t, exec (.lossIn c value who) s = .next t ∧ Unchanged s t [.loss, .free] ∧
      t.lossOf j = { s.lossOf j with samples := 1, mean := lossFix value, dev := 0 } ∧ ∀ k, k ≠ j → t.lossOf k = s.lossOf k := by
  refine ⟨_, exec_lossIn_live hs .., ?_⟩
  rw [lossIn_sample value hw, lossSample_first hj hp hon hf h0]
  refine ⟨unchanged_finish rfl (fun p hp => ?_), ?_, fun k hk => ?_⟩
  · simp only [List.mem_cons, List.not_mem_nil, or_false, not_or] at hp
    refine Part.same_trans ?_ (setLoss_same _ _ _ hp.1)
    cases p <;> simp_all [Part.same, Part.kept]
  · rw [finish_lossOf, lossOf_setLoss, if_pos rfl]
  · rw [finish_lossOf, lossOf_setLoss, if_neg hk]; rfl

/-- LOSS_IN of a sample that is not finite: class 4, once until its event is acknowledged (R433, R434). -/
theorem exec_lossIn_nonfinite {s : State} (hs : s.live = true) {c : CoreId} {value : W32} {who : Agent} {j : Nat}
    (hw : who ≠ .program ∨ s.mirrorPage ((Page.core c).base + 0x11C) = true) (hj : s.runSlot = some j)
    (hp : bitAt (s.job j).placed c = true) (hon : bitAt (s.preg .health 0x100) 0 = true) (hf : (val32 value).isFin = false) :
    ∃ t, exec (.lossIn c value who) s = .next t ∧ t.lossOf j = { s.lossOf j with nonfinite := (s.lossOf j).nonfinite + 1 } ∧
      ((bitAt (s.preg .fault 0x100) 0 = false ∨ bitAt s.dsw.events 12 = true) → Unchanged s t [.loss]) ∧
      (bitAt (s.preg .fault 0x100) 0 = true → bitAt s.dsw.events 12 = false → Records s t 4 ∧ bitAt t.dsw.events 12 = true) := by
  refine ⟨_, exec_lossIn_live hs .., ?_⟩
  rw [lossIn_sample value hw, lossSample_nonfinite hj hp hon hf]
  generalize ({ s.lossOf j with nonfinite := (s.lossOf j).nonfinite + 1 } : Loss) = m
  obtain ⟨u, hu⟩ : ∃ u, u = s.setLoss j m := ⟨_, rfl⟩
  have hloss : u.lossOf j = m := by rw [hu, lossOf_setLoss, if_pos rfl]
  have hcheck : u.preg .fault 0x100 = s.preg .fault 0x100 := by rw [hu]; rfl
  have hevents : u.dsw.events = s.dsw.events := by rw [hu]; rfl
  have hflt : u.flt = s.flt := by rw [hu]; rfl
  rw [← hu]
  by_cases hr : bitAt (s.preg .fault 0x100) 0 = true ∧ bitAt s.dsw.events 12 = false
  · obtain ⟨detail, he⟩ := nonfinite_reported (s := u) (some j) (Page.core c).unit c (by rw [hcheck]; exact hr.1) (by rw [hevents]; exact hr.2)
    have hl : ((u.event evNonfinite).fault 4 0 (some j) (Page.core c).unit 0 detail).loss = u.loss :=
      fault_same _ _ _ _ _ _ _ _ (p := .loss) (by decide)
    rw [he]
    refine ⟨?_, fun h => absurd h (by simp [hr]), fun _ _ => ⟨?_, ?_⟩⟩
    · rw [finish_lossOf, State.lossOf, hl]; exact hloss
    · exact records_finish (u := u.event evNonfinite) (by decide) hflt (.refl _)
    · rw [finish_events]; exact event_fault_events u evNonfinite 4 0 _ _ _ _ _
  · have hoff : bitAt (s.preg .fault 0x100) 0 = false ∨ bitAt s.dsw.events evNonfinite = true := by
      simpa [evNonfinite] using not_and_or.mp hr
    rw [nonfinite_silent _ _ _ (by rw [hcheck, hevents]; exact hoff)]
    refine ⟨by rw [finish_lossOf]; exact hloss, fun _ => ?_, fun h1 h2 => absurd ⟨h1, h2⟩ hr⟩
    exact unchanged_finish (by rw [hu]; rfl) (fun p hp => by rw [hu]; exact setLoss_same _ _ _ (by simpa using hp))

/-- LOSS_IN where no sample is taken. -/
theorem exec_lossIn_off {s : State} (hs : s.live = true) {c : CoreId} (value : W32) {who : Agent}
    (hw : who ≠ .program ∨ s.mirrorPage ((Page.core c).base + 0x11C) = true)
    (h : s.runSlot = none ∨ bitAt (s.preg .health 0x100) 0 = false) :
    ∃ t, exec (.lossIn c value who) s = .next t ∧ Unchanged s t [] := by
  refine ⟨_, exec_lossIn_live hs .., ?_⟩
  rw [lossIn_sample value hw, lossSample_off _ _ h]
  exact unchanged_finish rfl (fun p _ => Part.same_refl s p)

/-! ### BAR2 as a command -/

/-- A read that a window of class HOST admits. -/
theorem exec_bar2Read_admitted {s : State} (hs : s.live = true) {off len : Nat}
    (h : (s.winEnter .host .read (s.bar2Addr off) len).2.1 = 0) (hq : s.quiet) :
    ∃ t, exec (.bar2Read off len) s = .next t ∧ Unchanged s t [.ctrs, .out, .quarries] ∧
      .readData (s.bytes (s.bar2Addr off) len) ∈ t.out := by
  refine ⟨_, exec_bar2Read_live hs .., ?_⟩
  rw [bar2Read_admitted h hq]
  refine ⟨unchanged_finish (by simp) (fun p hp => ?_), readData_mem_finish (by simp)⟩
  simp only [List.mem_cons, List.not_mem_nil, or_false, not_or] at hp
  obtain ⟨hc, ho, hqu⟩ := hp
  exact Part.same_trans (winEnter_same _ _ _ _ _ hc) <| Part.same_trans (openRows_same _ _ _ _ ⟨hqu, hc⟩) <|
    Part.same_trans (bump_same _ _ _ _ hc) (send_same _ _ ho)

/-- What an access that is not admitted leaves, and what it counts and holds, where what came before moved counters of other pages alone. -/
theorem bar2Denied_effect {s u : State} (a : Nat) (hu : ∀ p : Part, p ≠ .ctrs → p.same s u) (hc : u.ctr .hif 0x60 = s.ctr .hif 0x60) :
    (∀ p, p ∉ [Part.ctrs, .regs] → p.same s (u.bar2Denied a)) ∧ (u.bar2Denied a).ctr .hif 0x60 = (s.ctr .hif 0x60 + 1) % 2 ^ 48 ∧
      RegsBut s (u.bar2Denied a) [Page.hif.base + 0x110, Page.hif.base + 0x114] := by
  obtain ⟨hctr, hstaged, hreg⟩ := bar2Denied_writes u a
  obtain ⟨hr, hst⟩ : Part.regs.same s u := hu .regs (by decide)
  refine ⟨fun p hp => ?_, by rw [hctr, hc], hstaged.trans hst, fun k hk => ?_⟩
  · have hp : p ≠ .ctrs ∧ p ≠ .regs := by simpa using hp
    exact Part.same_trans (hu p hp.1) (bar2Denied_same u a hp)
  · rw [hreg k hk, State.reg, hr]; rfl

theorem RegsBut.finish {s u : State} {offs : List Nat} (h : RegsBut s u offs) : RegsBut s (Machine.finish s u) offs :=
  ⟨by simpa using h.1, by simpa using h.2⟩

/-- A read that none admits. -/
theorem exec_bar2Read_denied {s : State} (hs : s.live = true) {off len : Nat}
    (h : (s.winEnter .host .read (s.bar2Addr off) len).2.1 ≠ 0) :
    ∃ t, exec (.bar2Read off len) s = .next t ∧ Unchanged s t [.ctrs, .out, .regs] ∧
      (t.ctr .hif 0x60 = (s.ctr .hif 0x60 + 1) % 2 ^ 48 ∧ RegsBut s t [Page.hif.base + 0x110, Page.hif.base + 0x114]) ∧
      .readData (List.replicate len 0xFF) ∈ t.out := by
  obtain ⟨hsame, hctr, hregs⟩ := bar2Denied_effect (s.bar2Addr off) (fun p hp => winEnter_same s .host .read (s.bar2Addr off) len hp)
    (winEnter_hifCtr _ _ _ _ _ (by decide))
  refine ⟨_, exec_bar2Read_live hs .., ?_⟩
  rw [bar2Read_denied h]
  refine ⟨unchanged_finish (winEnter_pending ..) (fun p hp => ?_), ⟨by rw [finish_get_ctr]; exact hctr, RegsBut.finish hregs⟩,
    readData_mem_finish (by simp)⟩
  simp only [List.mem_cons, List.not_mem_nil, or_false, not_or] at hp
  obtain ⟨hc, ho, hr⟩ := hp
  exact Part.same_trans (hsame p (by simp [hc, hr])) (send_same _ _ ho)

/-- A write that a window of class HOST admits. -/
theorem exec_bar2Write_admitted {s : State} (hs : s.live = true) {off : Nat} {data : List Byte}
    (h : (s.winEnter .host .write (s.bar2Addr off) data.length).2.1 = 0) (hm : s.memOk) (hq : s.quiet) :
    ∃ t, exec (.bar2Write off data false) s = .next t ∧ Unchanged s t [.ctrs, .mem, .quarries] ∧
      t.bytes (s.bar2Addr off) data.length = data ∧ t.ecc = [] ∧
      ∀ x, (x < s.bar2Addr off ∨ s.bar2Addr off + data.length ≤ x) → memGet t.mem x = memGet s.mem x := by
  obtain ⟨hmem, hecc⟩ : Part.mem.same s (s.winEnter .host .write (s.bar2Addr off) data.length).1 := winEnter_same _ _ _ _ _ (by decide)
  have hf : (s.winEnter .host .write (s.bar2Addr off) data.length).1.flight = s.flight :=
    winEnter_same s .host .write (s.bar2Addr off) data.length (p := .flight) (by decide)
  have hadm : (s.winEnter .host .write (s.bar2Addr off) data.length).1.admitted (s.bar2Addr off / quarrySize) = [] := by
    unfold State.admitted
    rw [hf]
    exact hq.2 _
  obtain ⟨-, hwm, hwe, hws⟩ := quarryWrite_clean (hecc.trans hq.1) hadm (s.bar2Addr off) data 1 none 0
  have hwp := quarryWrite_pending (hecc.trans hq.1) hadm (s.bar2Addr off) data 1 none 0
  rw [hmem] at hwm
  refine ⟨_, exec_bar2Write_live hs .., ?_⟩
  rw [bar2Write_admitted h]
  refine ⟨unchanged_finish (hwp.trans (winEnter_pending ..)) (fun p hp => ?_), bytes_of_memWrite hm (by rw [finish_mem, hwm]), ?_, fun x hx => ?_⟩
  · simp only [List.mem_cons, List.not_mem_nil, or_false, not_or] at hp
    obtain ⟨hc, hpm, hqu⟩ := hp
    exact Part.same_trans (winEnter_same _ _ _ _ _ hc) (hws p hpm hqu hc)
  · rw [finish_ecc, hwe]
  · rw [finish_mem, hwm, memGet_memWrite_outside _ hx]

/-- A poisoned write that one admits: stored, its units poisoned, reported (R358). -/
theorem exec_bar2Write_poisoned {s : State} (hs : s.live = true) {off : Nat} {data : List Byte}
    (h : (s.winEnter .host .write (s.bar2Addr off) data.length).2.1 = 0) (hm : s.memOk) (hq : s.quiet) :
    ∃ t, exec (.bar2Write off data true) s = .next t ∧ Reports s t 13 [.mem, .quarries] ∧
      t.bytes (s.bar2Addr off) data.length = data ∧ t.ctr .hif 0x80 = (s.ctr .hif 0x80 + 1) % 2 ^ 48 ∧
      (∀ k, s.bar2Addr off / 64 * 64 ≤ 32 * k → 32 * k < roundUp (s.bar2Addr off + data.length) 64 →
        (tget ⟨[], false⟩ t.ecc k).poison = true) ∧
      ∀ x, (x < s.bar2Addr off ∨ s.bar2Addr off + data.length ≤ x) → memGet t.mem x = memGet s.mem x := by
  refine ⟨_, exec_bar2Write_live hs .., ?_⟩
  rw [bar2Write_poisoned h hq]
  unfold State.hostFault
  obtain ⟨hfm, hfe⟩ : Part.mem.same (bar2Poisoned s (s.bar2Addr off) data) ((bar2Poisoned s (s.bar2Addr off) data).fault 13 0 none hifUnit 0
      (natLe 2 6 ++ natLe 2 0xFFFF ++ zeros 4 ++ natLe 8 off)) := fault_same _ _ _ _ _ _ _ _ (by decide)
  rw [bar2Poisoned_mem] at hfm
  refine ⟨reports_finish (by decide) (by decide) _ _ _ _ _ _ ?_ ?_ (fun p hp => ?_), bytes_of_memWrite hm (by rw [finish_mem, hfm]), ?_,
    fun k h1 h2 => ?_, fun x hx => ?_⟩
  · exact bar2Poisoned_same s _ data (p := .flt) (by decide)
  · simp [bar2Poisoned, State.poison]
  · simp only [List.mem_cons, List.not_mem_nil, or_false, not_or] at hp
    obtain ⟨-, hc, hpm, hqu⟩ := hp
    exact bar2Poisoned_same s _ data ⟨hpm, hc, hqu⟩
  · rw [finish_get_ctr, fault_hifCtr _ (by decide) (by decide) _ _ _ _ _ _ (by decide), bar2Poisoned_ctr]
  · rw [finish_ecc, hfe]; exact bar2Poisoned_poison s data h1 h2
  · rw [finish_mem, hfm, memGet_memWrite_outside _ hx]

/-- A write that none admits. -/
theorem exec_bar2Write_denied {s : State} (hs : s.live = true) {off : Nat} {data : List Byte}
    (h : (s.winEnter .host .write (s.bar2Addr off) data.length).2.1 ≠ 0) (bad : Bool) :
    ∃ t, exec (.bar2Write off data bad) s = .next t ∧ Unchanged s t [.ctrs, .regs] ∧
      (t.ctr .hif 0x60 = (s.ctr .hif 0x60 + 1) % 2 ^ 48 ∧ RegsBut s t [Page.hif.base + 0x110, Page.hif.base + 0x114]) := by
  refine ⟨_, exec_bar2Write_live hs .., ?_⟩
  rw [bar2Write_denied h]
  generalize hv : (if bad then s.bump .hif 0x80 else s) = v
  have hvs : ∀ p : Part, p ≠ .ctrs → p.same s v := by
    intro p hp
    rw [← hv]
    cases bad
    · exact Part.same_refl s p
    · exact bump_same _ _ _ _ hp
  have hvp : v.pending = s.pending := by rw [← hv]; cases bad <;> rfl
  have hvc : v.ctr .hif 0x60 = s.ctr .hif 0x60 := by
    rw [← hv]
    cases bad
    · rfl
    · exact State.ctr_bump_ne s _ (by decide)
  obtain ⟨hsame, hctr, hregs⟩ := bar2Denied_effect (s.bar2Addr off)
    (fun p hp => Part.same_trans (hvs p hp) (winEnter_same v .host .write (s.bar2Addr off) data.length hp))
    ((winEnter_hifCtr _ _ _ _ _ (by decide)).trans hvc)
  exact ⟨unchanged_finish ((winEnter_pending ..).trans hvp) hsame, by rw [finish_get_ctr]; exact hctr, RegsBut.finish hregs⟩

/-- Settles O50: each access, counter read, sample and BAR2 transfer by the lemma of its command; a program's bad access by what a teardown
keeps. -/
theorem registersAct : Obligations.RegistersAct := by
  unfold Obligations.RegistersAct
  refine ⟨fun s hs => ⟨?_, ?_, ?_, ?_, ?_, ?_, ?_, ?_⟩, fun s off len data hs => ⟨?_, ?_, ?_, ?_⟩⟩
  · exact exec_bar0InvalidAccess hs
  · exact fun off wide value who hw =>
      ⟨exec_registerWrite_invalid hs value hw, fun p hv hp => exec_registerWrite_wide hs value hw hv hp⟩
  · exact fun off wide value j => exec_registerWrite_program hs wide value
  · exact exec_registerWrite_plain hs
  · exact fun off p o => exec_counterLowRead_counter hs
  · exact fun off wide => exec_counterLowRead_register hs
  · exact fun off p o => exec_counterHighRead hs
  · exact fun c value who hlive hw => ⟨fun j => exec_lossIn_first hlive hw, fun j => exec_lossIn_nonfinite hlive hw,
      exec_lossIn_off hlive value hw⟩
  · exact exec_bar2Read_admitted hs
  · exact exec_bar2Read_denied hs
  · exact fun h hm hq => ⟨exec_bar2Write_admitted hs h hm hq, exec_bar2Write_poisoned hs h hm hq⟩
  · exact exec_bar2Write_denied hs

end Sys2Proof.Machine
end

section
/-! # Memory stays in its canonical form: the rules (for O5)

`State.memOk.f` says that the operation `f` keeps `State.memOk`. An operation is a chain of operations, so its proof is the chain of
their rules (`h.put.tearDown`); the rules here take care of what stands between them: a choice between two states, a loop, a pair
whose first part is the state, a change that leaves `State.mem` alone. -/
namespace Sys2Proof.Machine
section
variable {s : State}

theorem State.memOk.of_eq {α : Type} {t : State} {p : State × α} {a : α} (e : p = (t, a)) (h : p.1.memOk) : t.memOk := by
  rw [e] at h
  exact h

theorem State.memOk.ite {a b : State} {c : Prop} [Decidable c] (ha : a.memOk) (hb : b.memOk) : (if c then a else b).memOk := by
  split <;> assumption

theorem State.memOk.ite_fst {α : Type} {a b : State × α} {c : Prop} [Decidable c] (ha : a.1.memOk) (hb : b.1.memOk) :
    (if c then a else b).1.memOk := by
  split <;> assumption

theorem State.memOk.foldl {α : Type} {l : List α} {f : State → α → State} (h : s.memOk) (hf : ∀ s x, s.memOk → (f s x).memOk) :
    (l.foldl f s).memOk :=
  List.foldlRecOn l f h (fun s hs x _ => hf s x hs)

theorem State.memOk.of_mem {t u : State} (e : u.mem = t.mem) (h : t.memOk) : u.memOk := by
  unfold State.memOk
  rw [e]
  exact h

theorem State.memOk.ite_elem {a b : ElemRun} {c : Prop} [Decidable c] (ha : a.s.memOk) (hb : b.s.memOk) : (if c then a else b).s.memOk := by
  split <;> assumption
theorem State.memOk.ite_blk {a b : BlkRun} {c : Prop} [Decidable c] (ha : a.s.memOk) (hb : b.s.memOk) : (if c then a else b).s.memOk := by
  split <;> assumption
theorem State.memOk.withRed (h : s.memOk) {r} : ({ s with red := r } : State).memOk := h

end
end Sys2Proof.Machine
end

section
/-! # Memory stays in its canonical form: the state's own operations, reports, accesses and teardown -/
namespace Sys2Proof.Machine
section
variable {s : State}

/-! ## Registers, counters, units and memory -/

theorem State.memOk.put (h : s.memOk) {a bs} : (s.put a bs).memOk := Memory.wf_memWrite a bs h
theorem State.memOk.setReg (h : s.memOk) {off v} : (s.setReg off v).memOk := h
theorem State.memOk.setReg64 (h : s.memOk) {off v} : (s.setReg64 off v).memOk := h.setReg.setReg
theorem State.memOk.setPreg (h : s.memOk) {p o v} : (s.setPreg p o v).memOk := h.setReg
theorem State.memOk.bump (h : s.memOk) {p o n} : (s.bump p o n).memOk := h
theorem State.memOk.useFree (h : s.memOk) : (s.useFree).memOk := h
theorem State.memOk.setCore (h : s.memOk) {n c} : (s.setCore n c).memOk := h
theorem State.memOk.onCore (h : s.memOk) {n f} : (s.onCore n f).memOk := h.setCore
theorem State.memOk.onQuarry (h : s.memOk) {n f} : (s.onQuarry n f).memOk := h
theorem State.memOk.onPort (h : s.memOk) {p f} : (s.onPort p f).memOk := h
theorem State.memOk.onJob (h : s.memOk) {j f} : (s.onJob j f).memOk := h
theorem State.memOk.onLint (h : s.memOk) {j id f} : (s.onLint j id f).memOk := h
theorem State.memOk.onTag (h : s.memOk) {j t f} : (s.onTag j t f).memOk := h
theorem State.memOk.onSeq (h : s.memOk) {i f} : (s.onSeq i f).memOk := h
theorem State.memOk.onHq (h : s.memOk) {i f} : (s.onHq i f).memOk := h
theorem State.memOk.onSq (h : s.memOk) {n q f} : (s.onSq n q f).memOk := h.onCore
theorem State.memOk.onBq (h : s.memOk) {n b f} : (s.onBq n b f).memOk := h.onQuarry
theorem State.memOk.send (h : s.memOk) {o} : (s.send o).memOk := h

theorem State.memOk.onLife (h : s.memOk) {b f} : (s.onLife b f).memOk := by
  unfold State.onLife
  split
  exacts [h.onCore, h.onQuarry, h.onPort]

theorem State.memOk.setSlot (h : s.memOk) {n e v} : (s.setSlot n e v).memOk := h.onCore
theorem State.memOk.setFull (h : s.memOk) {n head pos b} : (s.setFull n head pos b).memOk := h.setSlot
theorem State.memOk.advProd (h : s.memOk) {n head k} : (s.advProd n head k).memOk := h.setSlot
theorem State.memOk.advCons (h : s.memOk) {n head k} : (s.advCons n head k).memOk := h.setSlot

/-! ## Event flags -/

theorem State.memOk.event (h : s.memOk) {bit} : (s.event bit).memOk := h

/-! ## Records and faults -/

theorem State.memOk.msix (h : s.memOk) {v} : (s.msix v).memOk := .ite h h.send
theorem State.memOk.cqMessage (h : s.memOk) {i} : (s.cqMessage i).memOk := h.onHq.msix
theorem State.memOk.cqInterrupt (h : s.memOk) {i} : (s.cqInterrupt i).memOk := .ite h (.ite h.cqMessage h.onHq)
theorem State.memOk.writeRecord (h : s.memOk) {i bs} : (s.writeRecord i bs).memOk := h.send.onHq.cqInterrupt
theorem State.memOk.setBit128 (h : s.memOk) {base n} : (s.setBit128 base n).memOk := h.setReg
theorem State.memOk.clearBit128 (h : s.memOk) {base n} : (s.clearBit128 base n).memOk := h.setReg
theorem State.memOk.releaseLatch (h : s.memOk) {unit seq} : (s.releaseLatch unit seq).memOk :=
  .ite h.onCore.setPreg (.ite h.onQuarry.setPreg h)

theorem State.memOk.keepFault (h : s.memOk) {cls unit sub seq bytes} : (s.keepFault cls unit sub seq bytes).memOk := by
  unfold State.keepFault
  extract_lets s1 _ s2
  have h1 : s1.memOk := h.bump
  have h2 : s2.memOk := h1
  exact .ite (.bump (by exact h2)) h2.bump.setPreg.releaseLatch

theorem State.memOk.markRetire (h : s.memOk) {unit} : (s.markRetire unit).memOk := h.bump.setBit128
theorem State.memOk.fault (h : s.memOk) {cls status job unit flags detail sub} : (s.fault cls status job unit flags detail sub).memOk :=
  .ite h.keepFault.markRetire h.keepFault
theorem State.memOk.hostFault (h : s.memOk) {status unit cause hq addr} : (s.hostFault status unit cause hq addr).memOk := h.fault
theorem State.memOk.dropHeld (h : s.memOk) {i} : (s.dropHeld i).memOk := .bump (by exact h)
theorem State.memOk.hqError (h : s.memOk) {i err} : (s.hqError i err).memOk := h.onHq.dropHeld
theorem State.memOk.post (h : s.memOk) {i status source job sq head detail} : (s.post i status source job sq head detail).memOk :=
  .ite h.bump (.ite h.writeRecord (.ite h h.bump.hqError.hostFault))

theorem State.memOk.flushHeld (h : s.memOk) {i k} : (s.flushHeld i k).memOk := by
  induction k generalizing s with
  | zero => exact h
  | succ k ih =>
    unfold State.flushHeld
    split
    exacts [h, .ite (ih (.writeRecord (by exact h))) h]

theorem State.memOk.postSq (h : s.memOk) {sq status source job detail} : (s.postSq sq status source job detail).memOk := h.post.onHq

/-! ## Messages to be sent -/

theorem State.memOk.queueMsg (h : s.memOk) {p m} : (s.queueMsg p m).memOk := h.onPort
theorem State.memOk.linkFault (h : s.memOk) {p cause peer seq abortCls job status torn} : (s.linkFault p cause peer seq abortCls job status torn).memOk :=
  h.fault

theorem State.memOk.sendCtl (h : s.memOk) {sender m} : (s.sendCtl sender m).memOk := by
  unfold State.sendCtl
  extract_lets
  split
  exacts [h.queueMsg, h.bump.linkFault]

theorem State.memOk.sendGroup (h : s.memOk) {sender g m} : (s.sendGroup sender g m).memOk := h.foldl (fun _ _ h => h.sendCtl)

/-! ## Sill and quarry accesses -/

theorem State.memOk.upset (h : s.memOk) {a u} : (s.upset a u).memOk := .ite h h
theorem State.memOk.poison (h : s.memOk) {a len} : (s.poison a len).memOk := h
theorem State.memOk.scrubbed (h : s.memOk) {a len} : (s.scrubbed a len).memOk := h

theorem State.memOk.sillEvent (h : s.memOk) {n source job flags e} : (s.sillEvent n source job flags e).memOk := by
  unfold State.sillEvent
  extract_lets _ _ _ _ _ s1 s2 s3 s4
  have h1 : s1.memOk := h.bump
  have h2 : s2.memOk := .ite h1 h1.setPreg
  have h3 : s3.memOk := h.bump
  have h4 : s4.memOk := .ite h3 h3.setPreg.onCore
  exact .ite (.ite h2 (.ite h2.onCore h2.bump)) h4.fault

theorem State.memOk.sillRead (h : s.memOk) {n a len source job flags} : (s.sillRead n a len source job flags).1.memOk :=
  h.foldl (fun _ _ h => h.sillEvent)
theorem State.memOk.putRow (h : s.memOk) {a bs} : (s.putRow a bs).memOk := h.put.scrubbed

theorem State.memOk.quarryEvent (h : s.memOk) {n source job flags e} : (s.quarryEvent n source job flags e).memOk := by
  unfold State.quarryEvent
  extract_lets _ _ _ _ s1 s2 s3 s4
  have h1 : s1.memOk := h.bump
  have h2 : s2.memOk := .ite h1 h1.setPreg.setPreg
  have h3 : s3.memOk := h.bump
  have h4 : s4.memOk := .ite h3 h3.setPreg.setPreg.onQuarry
  exact .ite (.ite h2 (.ite h2.onQuarry h2.bump)) h4.fault

theorem State.memOk.openRow (h : s.memOk) {n a} : (s.openRow n a).memOk := .onQuarry (by exact .ite h.bump h)
theorem State.memOk.openRows (h : s.memOk) {n a len} : (s.openRows n a len).memOk := h.foldl (fun _ _ h => h.openRow)
theorem State.memOk.unitsRead (h : s.memOk) {n a len source job flags} : (s.unitsRead n a len source job flags).1.memOk :=
  h.bump.foldl (fun _ _ h => h.quarryEvent)

theorem State.memOk.unitsWrite (h : s.memOk) {n a bs source job flags} : (s.unitsWrite n a bs source job flags).1.memOk := by
  unfold State.unitsWrite
  extract_lets _ _ s1 s2 _ _ s3 s4
  have h1 : s1.memOk := h.foldl (fun _ _ h => h.unitsRead)
  have h2 : s2.memOk := h1.foldl (fun _ _ h => h.scrubbed)
  have h3 : s3.memOk := h2.put
  have h4 : s4.memOk := h3.foldl (fun _ _ h => h.poison)
  exact h4.bump

theorem State.memOk.serve (h : s.memOk) {r st bs} : (s.serve r st bs).memOk := h
theorem State.memOk.ungated (h : s.memOk) {a bs} : (s.ungated a bs).1.memOk := .ite_fst h h
theorem State.memOk.serveReq (h : s.memOk) {q r} : (s.serveReq q r).memOk :=
  .ite h.openRow.unitsWrite.serve h.openRow.unitsRead.ungated.serve
theorem State.memOk.settle (h : s.memOk) {q a len} : (s.settle q a len).memOk := h.foldl (fun _ _ h => h.serveReq)
theorem State.memOk.quarryRead (h : s.memOk) {n a len source job flags} : (s.quarryRead n a len source job flags).1.memOk :=
  h.settle.openRows.unitsRead
theorem State.memOk.quarryWrite (h : s.memOk) {n a bs source job flags} : (s.quarryWrite n a bs source job flags).1.memOk :=
  h.settle.openRows.unitsWrite

theorem State.memOk.winEnter (h : s.memOk) {r op a len} : (s.winEnter r op a len).1.memOk := by
  unfold State.winEnter
  split
  · exact h
  · refine .ite_fst h (.ite_fst h.bump ?_)
    split <;> exact h.bump

theorem State.memOk.winRead (h : s.memOk) {r a len} : (s.winRead r a len).1.memOk := by
  unfold State.winRead
  split
  · next e => exact (h.winEnter.of_eq e).quarryRead
  · next e => exact h.winEnter.of_eq e

theorem State.memOk.winWrite (h : s.memOk) {r a bs} : (s.winWrite r a bs).1.memOk := by
  unfold State.winWrite
  split
  · next e => exact (h.winEnter.of_eq e).quarryWrite
  · next e => exact h.winEnter.of_eq e

theorem State.memOk.directEnter (h : s.memOk) {n j a len} : (s.directEnter n j a len).1.memOk := .ite_fst h (.ite_fst h h.bump)

/-! ## Teardown -/

theorem State.memOk.putFree (h : s.memOk) {a len} : (s.putFree a len).memOk := Memory.wf_memWrite a _ h
theorem State.memOk.loseSlots (h : s.memOk) {n head pos k} : (s.loseSlots n head pos k).memOk := h.foldl (fun _ _ h => .ite h h.putFree)
theorem State.memOk.loseStrm (h : s.memOk) {n d} : (s.loseStrm n d).memOk := .ite h (.ite h.loseSlots.loseSlots h.loseSlots)
theorem State.memOk.stopQueue (h : s.memOk) {n q} : (s.stopQueue n q).memOk := .ite h.onSq ((h.foldl (fun _ _ h => h.loseStrm)).onSq)
theorem State.memOk.dropFlight (h : s.memOk) {n} : (s.dropFlight n).memOk := .bump (by exact h)
theorem State.memOk.abandon (h : s.memOk) {n} : (s.abandon n).memOk := h.dropFlight.onCore
theorem State.memOk.stopCore (h : s.memOk) {n} : (s.stopCore n).memOk := h.onCore.dropFlight
theorem State.memOk.haltCore (h : s.memOk) {n} : (s.haltCore n).memOk := h.stopCore.onCore
theorem State.memOk.sendAbort (h : s.memOk) {j t status cls origin} : (s.sendAbort j t status cls origin).memOk := h.sendGroup.bump

theorem State.memOk.markFailed (h : s.memOk) {j t status origin} : (s.markFailed j t status origin).memOk := by
  unfold State.markFailed
  extract_lets _ _ s1 s2 _ s3
  have h3 : s3.memOk := .of_mem (t := s2) rfl h.onTag.setPreg.setPreg
  exact .ite h3.post h3

theorem State.memOk.attCmdDone (h : s.memOk) {j c status detail} : (s.attCmdDone j c status detail).memOk := h.post.onHq
theorem State.memOk.attTeardown (h : s.memOk) {j} : (s.attTeardown j).memOk := .foldl (by exact h) (fun _ _ h => h.attCmdDone)

theorem State.memOk.benchTeardown (h : s.memOk) {j n qs} : (s.benchTeardown j n qs).memOk := by
  refine h.foldl fun _ _ h => ?_
  split
  exacts [.ite h.post h, h]

theorem State.memOk.closeWindows (h : s.memOk) {j} : (s.closeWindows j).memOk := h
theorem State.memOk.dropLintels (h : s.memOk) {j} : (s.dropLintels j).memOk := h
theorem State.memOk.jobDone (h : s.memOk) {c slot status reason cls placed dur} : (s.jobDone c slot status reason cls placed dur).memOk :=
  h.postSq

theorem State.memOk.switchTorn (h : s.memOk) {j cls} : (s.switchTorn j cls).memOk := by
  unfold State.switchTorn
  refine .ite h (.ite ?_ ?_)
  · split
    · exact .onJob (by exact h)
    · extract_lets s1
      have h1 : s1.memOk := h
      split
      exacts [h1.jobDone, h1]
  · refine .ite ?_ h
    extract_lets s1
    have h1 : s1.memOk := h
    split
    exacts [h1.jobDone, h1]

theorem State.memOk.parksTorn (h : s.memOk) {j cls} : (s.parksTorn j cls).memOk := h.foldl (fun _ _ h => .jobDone (by exact h))

theorem State.memOk.tearCore (h : s.memOk) {j cls} : (s.tearCore j cls).memOk := by
  unfold State.tearCore
  extract_lets _ _ s1 s2 _ _ s3 _ s4 s5 s6 s7 s8 s9
  have h1 : s1.memOk := h.foldl (fun _ _ h => h.haltCore)
  have h2 : s2.memOk := h1.foldl (fun _ _ h => .ite h.benchTeardown.onQuarry h.benchTeardown)
  have h3 : s3.memOk := h2.foldl (fun _ _ h => .onTag (by exact .ite h h.sendAbort))
  have h4 : s4.memOk := h3
  have h5 : s5.memOk := h4.attTeardown.closeWindows.dropLintels
  have h6 : s6.memOk := h5.onJob
  have h7 : s7.memOk := h6.setPreg
  have h8 : s8.memOk := .ite h7.parksTorn h7
  have h9 : s9.memOk := .ite h8 h8
  exact h9.bump.switchTorn

theorem State.memOk.tearDown (h : s.memOk) {j cls} : (s.tearDown j cls).memOk := .ite h.tearCore.post h

theorem State.memOk.tearJob (h : s.memOk) {j cls} : (s.tearJob j cls).memOk := by
  unfold State.tearJob
  split
  exacts [h.tearDown, h]

theorem State.memOk.progFault (h : s.memOk) {job unit status core pc check low addr} : (s.progFault job unit status core pc check low addr).memOk :=
  h.fault.tearJob
theorem State.memOk.coreFault (h : s.memOk) {n check low addr} : (s.coreFault n check low addr).memOk := h.onCore.progFault
theorem State.memOk.failTag (h : s.memOk) {j t status cls detail} : (s.failTag j t status cls detail).memOk :=
  h.markFailed.sendAbort.fault.tearDown
theorem State.memOk.blockFaulted (h : s.memOk) {b off mask} : (s.blockFaulted b off mask).memOk := h.onLife.fault.tearJob
theorem State.memOk.setFatal (h : s.memOk) : (s.setFatal).memOk := h

end
end Sys2Proof.Machine
end

section
/-! # Memory stays in its canonical form: cores: sub-bundles, windows, streams, sill and quarry -/
namespace Sys2Proof.Machine
section
variable {s : State}

/-! ## Operands of a sub-bundle -/

theorem State.memOk.early (h : s.memOk) {n i} : (s.early n i).memOk := .ite h (.onCore (by exact h))

theorem State.memOk.earlyAt (h : s.memOk) {n loc} : (s.earlyAt n loc).memOk := by
  unfold State.earlyAt
  split
  exacts [h, h.early]

theorem State.memOk.soak (h : s.memOk) {n rows ready} : (s.soak n rows ready).memOk := h.onCore

theorem State.memOk.schedRead (h : s.memOk) {n a len} : (s.schedRead n a len).1.memOk := by
  unfold State.schedRead
  extract_lets
  split
  rename_i e
  have h1 := h.sillRead.of_eq e
  exact .ite_fst (.ite (.tearJob (by exact h1)) h1) (.ite_fst (.tearJob (by exact h1)) h1)

theorem State.memOk.dataRead (h : s.memOk) {n plain a len} : (s.dataRead n plain a len).1.memOk := by
  unfold State.dataRead
  split
  rename_i e
  have h1 := h.schedRead.of_eq e
  exact .ite_fst h1 h1

theorem State.memOk.storeBytes (h : s.memOk) {n plain a bs} : (s.storeBytes n plain a bs).1.memOk := .ite_fst h h

theorem State.memOk.coreEnter (h : s.memOk) {n a len op} : (s.coreEnter n a len op).1.memOk := by
  unfold State.coreEnter
  split
  exacts [.ite_fst h.directEnter h.winEnter, .ite_fst h (.ite_fst h (.ite_fst h.bump h)), h, h]

theorem State.memOk.farRead (h : s.memOk) {n a len} : (s.farRead n a len).1.memOk := by
  unfold State.farRead
  refine .ite_fst h.schedRead ?_
  split
  · next e =>
    have h1 := h.coreEnter.of_eq e
    extract_lets
    split
    rename_i e
    have h2 := State.memOk.of_eq e (.ite_fst h1.quarryRead h1.sillRead)
    exact .ite_fst (.tearJob (by exact h2)) h2
  · next e => exact h.coreEnter.of_eq e

theorem State.memOk.readChan (h : s.memOk) {n d} : (s.readChan n d).memOk := .ite h.farRead h
theorem State.memOk.schedule (h : s.memOk) {n head pos k when_ b} : (s.schedule n head pos k when_ b).memOk := h.onCore

theorem State.memOk.takeSlots (h : s.memOk) {n loc rows d rowAt scaleAt} : (s.takeSlots n loc rows d rowAt scaleAt).memOk := by
  unfold State.takeSlots
  split
  exacts [h, .bump (by exact .ite h.schedule.advCons.schedule.advCons h.schedule.advCons)]

theorem State.memOk.fillSlots (h : s.memOk) {n loc rows d when_} : (s.fillSlots n loc rows d when_).memOk := by
  unfold State.fillSlots
  split
  exacts [h, .bump (by exact .ite h.schedule.advProd.schedule.advProd h.schedule.advProd)]

theorem State.memOk.names (h : s.memOk) {e n} : (Eval.names e s n).memOk := h.onCore
theorem State.memOk.tick (h : s.memOk) {n} : (s.tick n).memOk := h.bump.bump.onCore
theorem State.memOk.closeSub (h : s.memOk) {n skip push} : (s.closeSub n skip push).memOk := h.bump.tick.onCore

/-! ## The array -/

theorem State.memOk.evalTload (h : s.memOk) {n orient loc wdesc trow} : (evalTload s n orient loc wdesc trow).run.memOk := by
  unfold Machine.evalTload
  extract_lets s0 _ _ head
  clear_value head
  obtain ⟨dc, d⟩ := s0.descOf n wdesc.toNat
  dsimp -zeta only
  obtain ⟨cc, chan⟩ := s0.chanOf n d
  dsimp -zeta only
  extract_lets _ _ s1 adv
  have h1 : s1.memOk := h.earlyAt.schedRead.readChan
  refine State.memOk.onCore (s := adv s1) ?_
  unfold adv
  split
  exacts [.ite h1.advCons.bump.advCons h1.advCons.bump, h1]

theorem State.memOk.loaderFree (h : s.memOk) {n t} : (s.loaderFree n t).memOk := by
  unfold State.loaderFree
  extract_lets
  split
  exacts [h, .ite (.ite h.setFull.setFull h.setFull) h]

theorem State.memOk.loaderRead (h : s.memOk) {n t a len} : (s.loaderRead n t a len).1.memOk := by
  unfold State.loaderRead
  split
  rename_i e
  have h1 := h.dataRead.of_eq e
  exact .ite_fst h1 h1

theorem State.memOk.setShadow (h : s.memOk) {n t} : (s.setShadow n t).memOk := h.onCore

theorem State.memOk.loaderStep (h : s.memOk) {n} : (s.loaderStep n).memOk := by
  unfold State.loaderStep
  extract_lets
  split
  · exact h
  · refine .ite h ?_
    split
    · exact h.setShadow
    · refine .ite h.bump.setShadow ?_
      split
      next e =>
      have h1 := h.loaderRead.of_eq e
      split
      next e =>
      have h2 := State.memOk.of_eq e (.ite_fst h1 h1.loaderRead)
      exact h2.loaderFree.onCore.setShadow

theorem State.memOk.loaderRun (h : s.memOk) {n k} : (s.loaderRun n k).memOk := by
  induction k generalizing s with
  | zero => exact h
  | succ k ih => exact ih h.loaderStep

theorem State.memOk.readRows (h : s.memOk) {n plain d rs} : (s.readRows n plain d rs).1.memOk := by
  induction rs generalizing s with
  | nil => exact h
  | cons r rs ih => exact ih (.ite_fst h.dataRead h.dataRead.dataRead)

theorem State.memOk.evalStage (h : s.memOk) {n half loc adesc mode nsetsM1 wslot} :
    (evalStage s n half loc adesc mode nsetsM1 wslot).run.memOk := by
  unfold Machine.evalStage
  extract_lets s1
  have h1 : s1.memOk := .ite h.early h.earlyAt
  exact .onCore (by exact .ite h1.schedRead.readChan.readRows.schedRead.takeSlots h1.schedRead.readChan.readRows.takeSlots)

theorem State.memOk.ruffle (h : s.memOk) {n rows at'} : (s.ruffle n rows at').memOk := .ite (.onCore (by exact h)) h
theorem State.memOk.accFault (h : s.memOk) {n r job} : (s.accFault n r job).memOk := h.fault.tearJob

theorem State.memOk.evalMul (h : s.memOk) {n add iter row bad} : (evalMul s n add iter row bad).run.memOk := by
  unfold Machine.evalMul
  extract_lets _ _ _ _ _ _ _ run
  have h1 : run.memOk := by
    unfold run
    split
    · extract_lets
      split
      extract_lets _ s1
      have h1 : s1.memOk := h.bump.bump.onCore
      exact .ite (.accFault (by exact h1)) h1
    · exact h
  exact h1

theorem State.memOk.evalSwap (h : s.memOk) {n fset adesc} : (evalSwap s n fset adesc).run.memOk := by
  unfold Machine.evalSwap
  split
  extract_lets _ _ _ _ _ s1
  have h1 : s1.memOk := by
    unfold s1
    split
    exacts [h, h.schedRead.bump.setPreg.onCore]
  exact h1

theorem State.memOk.recordMark (h : s.memOk) {a kind old} : (s.recordMark a kind old).memOk := h

theorem State.memOk.farWrite (h : s.memOk) {n a bs} : (s.farWrite n a bs).1.memOk := by
  unfold State.farWrite
  split
  · next e =>
    have h1 := h.coreEnter.of_eq e
    exact .ite_fst (.ite h1.quarryWrite.tearJob h1.quarryWrite) h1.putRow
  · next e => exact h.coreEnter.of_eq e

theorem State.memOk.coreStats (h : s.memOk) {n addr kind st} : (s.coreStats n addr kind st).memOk := by
  unfold State.coreStats
  extract_lets
  split
  · next e =>
    have h1 := h.farRead.of_eq e
    exact .ite h1.recordMark.farWrite h1.recordMark.farWrite.progFault
  · next e =>
    have h1 := h.farRead.of_eq e
    exact .ite h1 h1.progFault

theorem State.memOk.nonfinite (h : s.memOk) {job unit who} : (s.nonfinite job unit who).memOk := .ite h.event.fault h
theorem State.memOk.countNonfinite (h : s.memOk) {n k} : (s.countNonfinite n k).memOk := .ite h h.bump.nonfinite
theorem State.memOk.putScales (h : s.memOk) {n plain held rows} : (s.putScales n plain held rows).memOk :=
  h.foldl (fun _ _ h => h.storeBytes.put)
theorem State.memOk.loosen (h : s.memOk) {n} : (s.loosen n).memOk := h.onCore

theorem State.memOk.arrayMismatch (h : s.memOk) {n e kind ctr col eref a b} : (s.arrayMismatch n e kind ctr col eref a b).memOk := by
  unfold State.arrayMismatch
  extract_lets _ _ s1 s2 s3
  have h1 : s1.memOk := h.setPreg.setPreg.setPreg.setPreg
  have h2 : s2.memOk := h1.bump.setPreg
  have h3 : s3.memOk := h2.fault
  exact .ite h3.tearJob h3.loosen

theorem State.memOk.stageDiffers (h : s.memOk) {n} : (s.stageDiffers n).memOk := .arrayMismatch (by exact h)

theorem State.memOk.evalOut (h : s.memOk) {n row fset odesc loc flush iter u} : (evalOut s n row fset odesc loc flush iter u).run.memOk := by
  unfold Machine.evalOut
  extract_lets s0 _ _ _ _ _ _ _ _ loose upset
  have h0 : s0.memOk := h.earlyAt
  have hu : ∀ {t : State}, t.memOk → (upset t).memOk := by
    intro t ht
    unfold upset
    split
    exacts [ht, ht.accFault, ht.stageDiffers]
  obtain ⟨dc, d⟩ := s0.descOf n odesc.toNat
  dsimp -zeta only
  obtain ⟨cc, chan⟩ := s0.chanOf n d
  dsimp -zeta only
  extract_lets _ _ _ _ _ _ s1 _ s2 _ _ _ _ s3 _ s4 _ run
  have h1 : s1.memOk := h0.schedRead.readChan
  have h2 : s2.memOk := .ite h1 h1
  have h3 : s3.memOk := h2.coreStats.countNonfinite
  have h4 : s4.memOk := h3.storeBytes.put.putScales
  have hr : run.memOk := .ite h4.fillSlots.soak.ruffle.onCore h3.onCore
  exact hu hr

theorem State.memOk.checkVector (h : s.memOk) {n e u} : (s.checkVector n e u).memOk :=
  .ite h.arrayMismatch (.ite h (.ite (.ite h h.arrayMismatch) (.ite h.bump (.ite h.arrayMismatch h))))

theorem State.memOk.checkProbe (h : s.memOk) {n e u} : (s.checkProbe n e u).memOk := by
  unfold State.checkProbe
  refine .ite h.arrayMismatch (.ite h ?_)
  extract_lets s1
  have h1 : s1.memOk := h.bump
  split
  exacts [h1.arrayMismatch, h1]

theorem State.memOk.checkNext (h : s.memOk) {n probe u} : (s.checkNext n probe u).memOk := by
  unfold State.checkNext
  split
  exacts [h, .ite h (.ite h.onCore.checkProbe h.onCore.checkVector)]

theorem State.memOk.checkRun (h : s.memOk) {n k} : (s.checkRun n k).memOk := by
  induction k generalizing s with
  | zero => exact h
  | succ k ih =>
    unfold State.checkRun
    split
    exacts [h, ih h.checkNext]

theorem State.memOk.catchUp (h : s.memOk) {n} : (s.catchUp n).memOk := .ite h h.onCore.loaderRun.checkRun

/-! ## Control lanes -/

theorem State.memOk.evalLoop (h : s.memOk) {n last count} : (evalLoop s n last count).run.memOk := h
theorem State.memOk.evalSkip (h : s.memOk) {n level count} : (evalSkip s n level count).run.memOk := h
theorem State.memOk.evalSeta (h : s.memOk) {n r half imm} : (evalSeta s n r half imm).run.memOk := h.onCore
theorem State.memOk.evalSlotld (h : s.memOk) {n first countM1 row} : (evalSlotld s n first countM1 row).run.memOk := h.schedRead.onCore
theorem State.memOk.evalSwait (h : s.memOk) {n empty head} : (evalSwait s n empty head).run.memOk := h.early
theorem State.memOk.evalSdrop (h : s.memOk) {n countM1 head} : (evalSdrop s n countM1 head).run.memOk :=
  ((h.early.foldl (fun _ _ h => h.setFull)).advCons).bump
theorem State.memOk.arrive (h : s.memOk) {n j id} : (s.arrive n j id).memOk := .ite h.onLint.bump.sendGroup h.onLint.bump
theorem State.memOk.evalArrive (h : s.memOk) {n id wait} : (evalArrive s n id wait).run.memOk := .ite h.arrive.onCore h.arrive
theorem State.memOk.evalWait (h : s.memOk) {n id} : (evalWait s n id).run.memOk := h

theorem State.memOk.jobEnded (h : s.memOk) {n} : (s.jobEnded n).memOk := by
  unfold State.jobEnded
  split
  · exact h
  · refine .ite ?_ h
    extract_lets s1 s2 s3
    have h1 : s1.memOk := h.foldl (fun _ _ h => h.onCore)
    have h2 : s2.memOk := h1.onJob
    have h3 : s3.memOk := .ite h2 h2
    exact h3.post

theorem State.memOk.evalIssue (h : s.memOk) {n queue r} : (evalIssue s n queue r).run.memOk := .ite h.schedRead.onSq h.schedRead
theorem State.memOk.evalStop (h : s.memOk) {n queue} : (evalStop s n queue).run.memOk := h.stopQueue

/-! ## The vector unit -/

theorem State.memOk.onVec (h : s.memOk) {n f} : (s.onVec n f).memOk := h.onCore
theorem State.memOk.vecFree (h : s.memOk) {n} : (s.vecFree n).memOk := .ite h h

theorem State.memOk.evalLdVec (h : s.memOk) {n vreg part loc desc} : (evalLdVec s n vreg part loc desc).run.memOk := by
  unfold Machine.evalLdVec
  extract_lets s1 _ _ _ _ _ _ _ _ s2
  have h1 : s1.memOk := h.earlyAt
  have h2 : s2.memOk := h1.schedRead.readChan
  exact .onVec (by exact .countNonfinite (by exact .bump (by exact .takeSlots (by exact .ite_fst h2.readRows h2.readRows.dataRead))))

theorem State.memOk.storeRows (h : s.memOk) {n plain off bs rs} : (s.storeRows n plain off bs rs).memOk := by
  induction rs generalizing s bs with
  | nil => exact h
  | cons r rs ih => exact ih h.storeBytes.put

theorem State.memOk.storeScales (h : s.memOk) {n plain sa bs} : (s.storeScales n plain sa bs).memOk := h.storeBytes.put

theorem State.memOk.evalStVec (h : s.memOk) {n vreg part loc desc} : (evalStVec s n vreg part loc desc).run.memOk := by
  unfold Machine.evalStVec
  extract_lets s1 _ _ _ _ _ _ _ _ s2 _ _ _ _ _ s3 s4 s5
  have h1 : s1.memOk := h.earlyAt
  have h2 : s2.memOk := h1.schedRead.readChan
  have h3 : s3.memOk := h2.useFree.coreStats.countNonfinite
  have h4 : s4.memOk := h3.storeRows
  have h5 : s5.memOk := .ite h4 h4.storeScales
  exact h5.fillSlots.soak.ruffle

theorem State.memOk.evalAlu (h : s.memOk) {n l} : (evalAlu s n l).run.memOk := h.vecFree.bump.onVec
theorem State.memOk.evalSfu (h : s.memOk) {n l} : (evalSfu s n l).run.memOk := h.vecFree.bump.bump.onVec
theorem State.memOk.evalRed (h : s.memOk) {n l} : (evalRed s n l).run.memOk := h.vecFree.bump.onVec
theorem State.memOk.evalDact (h : s.memOk) {n l} : (evalDact s n l).run.memOk := .onVec (by exact .ite h.vecFree.bump h.vecFree.bump.bump)
theorem State.memOk.vecMismatch (h : s.memOk) {n cls ln} : (s.vecMismatch n cls ln).memOk :=
  .ite h (.ite h.setPreg.bump.fault.tearJob h.setPreg.bump.fault)
theorem State.memOk.vecLoosen (h : s.memOk) {n} : (s.vecLoosen n).memOk := .ite h.onCore h

/-! ## Events of a core -/

theorem State.memOk.evalOp (h : s.memOk) {n op} : (evalOp s n op).run.memOk := by
  unfold Machine.evalOp
  split
  · exact h
  · exact h.evalLoop
  · exact h.evalSkip
  · exact h.evalArrive
  · exact h.evalWait
  · exact h.evalArrive
  · exact h.evalSwait
  · exact h.evalSdrop
  · exact h.evalSeta
  · exact h.evalSlotld
  · exact h
  · exact h.evalIssue
  · exact h.evalStop
  · exact h.evalTload
  · exact h.evalStage
  · exact h.evalLdVec
  · exact h.evalOut
  · exact h.evalStVec
  · exact h.evalMul
  · exact h.evalSwap
  · exact h.evalAlu
  · exact h.evalSfu
  · exact h.evalRed
  · exact h.evalDact

theorem State.memOk.heldFor (h : s.memOk) {n cause slot lint mark} : (s.heldFor n cause slot lint mark).memOk := h.bump.tick.onCore

theorem State.memOk.countConflict (h : s.memOk) {n rs} : (s.countConflict n rs).memOk := by
  unfold State.countConflict
  split
  exacts [h.bump, h]

/-! ## Lanes of a sub-bundle -/

theorem State.memOk.ofIssued {e : Eval} (h : e.run.memOk) {n} : (e.issued n).memOk := h.names.onCore

theorem State.memOk.lane (h : s.memOk) {e : Eval} (he : e.run.memOk) {fin : Finish} (hf : ∀ {s : State}, s.memOk → (fin s).memOk)
    {n op} : (Machine.lane s n op e fin).memOk := by
  have hi : (fin (e.issued n)).memOk := hf he.ofIssued
  unfold Machine.lane
  refine .ite h (.ite h.coreFault (.ite h ?_))
  split
  · exact h.coreFault
  · refine .ite h (.ite hi ?_)
    split
    exacts [h.coreFault, h, hi]

theorem State.memOk.opLane (h : s.memOk) {n op} : (opLane s n op).memOk := h.lane h.evalOp id
theorem State.memOk.ctlLane (h : s.memOk) {n op skip push} : (ctlLane s n op skip push).memOk :=
  h.lane h.evalOp fun h => h.closeSub
theorem State.memOk.raiseEnd (h : s.memOk) {n} : (s.raiseEnd n).memOk := h.onCore.jobEnded

theorem State.memOk.vecLane (h : s.memOk) {n op cls u} : (vecLane s n op cls u).memOk := by
  unfold Machine.vecLane
  split
  exacts [h.opLane, h.lane h.vecLoosen.evalOp.vecMismatch id]

theorem State.memOk.loadUp (h : s.memOk) {n} : (s.loadUp n).memOk := h.onCore.loaderRun

/-! ## Windows -/

theorem State.memOk.winReject (h : s.memOk) {n w prog} : (s.winReject n w prog).memOk := by
  unfold State.winReject
  extract_lets s1
  have h1 : s1.memOk := h.bump
  split
  exacts [h1.progFault, h1]

theorem State.memOk.winFields (h : s.memOk) {n w k v} : (s.winFields n w k v).memOk := .setPreg (by exact .ite h h.bump)
theorem State.memOk.winState (h : s.memOk) {n w st} : (s.winState n w st).memOk := h.setPreg

theorem State.memOk.writeWin0 (h : s.memOk) {n w v prog} : (s.writeWin0 n w v prog).memOk := by
  unfold State.writeWin0
  extract_lets
  split
  · exact .ite h.winFields (.ite (.winState (by exact .ite h h.bump)) (.ite h h.bump))
  · exact .ite (.ite h.winFields.winState h.winFields.winReject) h.bump
  · exact .winReject (by exact .ite h.winFields h)

theorem State.memOk.writeWin (h : s.memOk) {n w k v prog} : (s.writeWin n w k v prog).memOk := .ite h.writeWin0 (.ite h.winFields h.bump)
theorem State.memOk.winClosed (h : s.memOk) {n w} : (s.winClosed n w).memOk := .ite h.winState h
theorem State.memOk.setLoss (h : s.memOk) {j m} : (s.setLoss j m).memOk := h

theorem State.memOk.lossSample (h : s.memOk) {n v} : (s.lossSample n v).memOk := by
  unfold State.lossSample
  split
  exacts [h, .ite h (.ite (.ite (.event (by exact .setLoss (by exact h))) (.setLoss (by exact h))) h.setLoss.nonfinite)]

theorem State.memOk.mirrorEntry (h : s.memOk) {c e} {t : State} (ht : s.mirrorEntry c e = some t) : t.memOk := by
  unfold State.mirrorEntry at ht
  extract_lets off v o k w at ht
  by_cases he : e = 0
  · rw [if_pos he] at ht
    exact Option.some.inj ht ▸ h
  rw [if_neg he, Option.ite_none_left_eq_some] at ht
  replace ht := ht.2
  split at ht
  · exact Option.some.inj (Option.ite_none_right_eq_some.mp ht).2 ▸ h.lossSample
  · exact Option.some.inj (Option.ite_none_right_eq_some.mp ht).2 ▸ h.writeWin
  · cases ht

theorem State.memOk.mirrorWrite (h : s.memOk) {c es} : (s.mirrorWrite c es).1.memOk := by
  induction es generalizing s with
  | nil => exact h
  | cons e es ih =>
    unfold State.mirrorWrite
    split
    · next e => exact ih (h.mirrorEntry e)
    · exact h

/-! ## Banks -/

theorem State.memOk.asyncTry (h : s.memOk) {n who rows} : (s.asyncTry n who rows).1.memOk := by
  unfold State.asyncTry
  refine .ite_fst h ?_
  split
  exacts [h.onCore, .ite_fst h h.bump.onCore]

theorem State.memOk.benchTries (h : s.memOk) {n rs} : (s.benchTries n rs).1.memOk :=
  List.foldlRecOn (motive := fun p : State × Bool => p.1.memOk) _ _ h fun _ hp _ _ => .ite_fst hp.catchUp.asyncTry hp
theorem State.memOk.scrubReserve (h : s.memOk) {n bank} : (s.scrubReserve n bank).memOk := .ite h.onCore h

/-! ## Operations of the stream engines -/

theorem State.memOk.sendTxn (h : s.memOk) {p k o m} : (s.sendTxn p k o m).memOk := h.onPort.queueMsg
theorem State.memOk.seqPut (h : s.memOk) {n x off bs} : (s.seqPut n x off bs).memOk := h.foldl (fun _ _ h => h.putRow)
theorem State.memOk.seqGet (h : s.memOk) {n x off len} : (s.seqGet n x off len).1.memOk :=
  List.foldlRecOn (motive := fun p : State × List Byte × Nat => p.1.memOk) _ _ h fun _ hp _ _ => hp.sillRead
theorem State.memOk.onStrm (h : s.memOk) {n q serial f} : (s.onStrm n q serial f).memOk := h.onSq

theorem State.memOk.fillRing (h : s.memOk) {n q k} : (s.fillRing n q k).memOk := by
  induction k generalizing s with
  | zero => exact h
  | succ k ih =>
    unfold State.fillRing
    split
    · exact h
    · refine .ite (ih (.onStrm (.ite h.setFull.advCons ?_))) h
      exact .advProd (.setFull (.ite h.put h))

theorem State.memOk.fillComp (h : s.memOk) {n q k} : (s.fillComp n q k).memOk := by
  induction k generalizing s with
  | zero => exact h
  | succ k ih =>
    unfold State.fillComp
    split
    exacts [h, .ite (ih (.onStrm (.advProd (.setFull (.ite h.put h))))) h]

theorem State.memOk.strmRecord (h : s.memOk) {n q status seq pos addr} : (s.strmRecord n q status seq pos addr).memOk := by
  unfold State.strmRecord
  split
  exacts [h.post, h]

theorem State.memOk.completeStrms (h : s.memOk) {n q k} : (s.completeStrms n q k).memOk := by
  induction k generalizing s with
  | zero => exact h
  | succ k ih =>
    unfold State.completeStrms
    extract_lets s1
    have h1 : s1.memOk := h.fillRing.fillComp
    split
    exacts [h1, .ite (ih (.ite h1.onSq.bump.strmRecord h1.onSq.bump)) h1]

theorem State.memOk.failStrm (h : s.memOk) {n q x status addr} : (s.failStrm n q x status addr).memOk := .ite h h.onSq.bump.strmRecord
theorem State.memOk.strmFault (h : s.memOk) {n q x check addr} : (s.strmFault n q x check addr).memOk := h.failStrm.progFault

/-! ## Streams -/

theorem State.memOk.ownEnter (h : s.memOk) {n a len} : (s.ownEnter n a len).1.memOk := .ite_fst h (.ite_fst h.directEnter h.bump)

theorem State.memOk.coreRead (h : s.memOk) {n a len} : (s.coreRead n a len).1.memOk := by
  unfold State.coreRead
  refine .ite_fst h.sillRead (.ite_fst ?_ (.ite_fst h.winRead h))
  split
  · next e => exact (h.ownEnter.of_eq e).quarryRead
  · next e => exact h.ownEnter.of_eq e

theorem State.memOk.startStrm (h : s.memOk) {n q} : (s.startStrm n q).memOk := by
  unfold State.startStrm
  extract_lets
  split
  · exact h
  · refine .ite h ?_
    split
    rename_i e
    have h1 := State.memOk.of_eq e (.ite_fst h.coreRead h)
    extract_lets _ _ s2
    have h2 : s2.memOk := h1.onSq.onCore
    exact .ite h (.ite h2.failStrm.tearJob (.ite h2.strmFault h2))

theorem State.memOk.fly (h : s.memOk) {r} : (s.fly r).memOk := h

theorem State.memOk.flyHost (h : s.memOk) {r} : (s.flyHost r).memOk := by
  unfold State.flyHost
  split
  exacts [h.fly, .ite (.ite h.fly h.fly.send) h.fly.bump.send]

theorem State.memOk.flyPeer (h : s.memOk) {r dst} : (s.flyPeer r dst).memOk := by
  unfold State.flyPeer
  split
  · exact h.bump.fly
  · split
    exacts [h, h.sendTxn.fly]

theorem State.memOk.sendReq (h : s.memOk) {n c data} : (s.sendReq n c data).memOk := by
  unfold State.sendReq
  split
  exacts [h.flyHost, h.flyPeer, h.fly.onCore, h.fly]

theorem State.memOk.issueReq (h : s.memOk) {n c} : (s.issueReq n c).memOk := by
  unfold State.issueReq
  extract_lets s1 s2 s3
  have h1 : s1.memOk := h.onStrm
  have h2 : s2.memOk := .ite h1.bump h1
  have h3 : s3.memOk := .ite h2.bump h2
  split
  · exact h3.fly.onCore
  · exact .ite h3.fly (.ite h3.coreRead.onStrm (.ite h3.coreRead.failStrm.tearJob h3.coreRead.strmFault))
  · exact .ite (.ite h3.seqGet.failStrm.tearJob (.sendReq (by exact .ite h3.seqGet.onStrm h3.seqGet))) h3.sendReq

theorem State.memOk.putZeros (h : s.memOk) {n c} : (s.putZeros n c).memOk := h.seqPut.onStrm.bump.completeStrms
theorem State.memOk.countWaits (h : s.memOk) {n cs} : (s.countWaits n cs).memOk := .ite (.bump (by exact .ite h.bump h)) (.ite h.bump h)

theorem State.memOk.engineIssue (h : s.memOk) {n e} : (s.engineIssue n e).memOk := by
  unfold State.engineIssue
  extract_lets s1 _ s2
  have h1 : s1.memOk := h.catchUp
  have h2 : s2.memOk := h1.countWaits
  refine .ite h1 ?_
  split
  · exact h1.strmFault
  · split
    · exact h2
    · split
      · next e => exact h2.asyncTry.of_eq e
      · next e =>
        have h3 := h2.asyncTry.of_eq e
        extract_lets s4
        have h4 : s4.memOk := by
          unfold s4
          split
          exacts [h3.onCore, h3]
        exact .ite h4.putZeros h4.issueReq

theorem State.memOk.genWindow (h : s.memOk) {n q} : (s.genWindow n q).memOk := by
  unfold State.genWindow
  extract_lets s1
  have h1 : s1.memOk := h.catchUp
  split
  · exact h1
  · refine .ite h1 (.ite (.ite h1.strmFault h1) ?_)
    split
    · next e => exact h1.asyncTry.of_eq e
    · next e =>
      have h2 := h1.asyncTry.of_eq e
      extract_lets s3 s4
      have h3 : s3.memOk := .ite h2 h2
      have h4 : s4.memOk := h3.seqPut
      exact h4.onStrm.bump.completeStrms

theorem State.memOk.acceptReply (h : s.memOk) {r st bs} : (s.acceptReply r st bs).memOk := by
  unfold State.acceptReply
  extract_lets _ s1
  have h1 : s1.memOk := .ite h.onStrm h
  split
  · exact h
  · extract_lets _ _ s2 s3
    have h2 : s2.memOk := .ite h1.bump h1.seqPut.bump
    have h3 : s3.memOk := by
      unfold s3
      split
      exacts [h1.putRow.bump.onStrm, h1.onStrm, h2.onStrm]
    exact h3.completeStrms

theorem State.memOk.haltQueue (h : s.memOk) {r st} : (s.haltQueue r st).memOk := h.onSq

theorem State.memOk.takeReply (h : s.memOk) {r st np check bs} : (s.takeReply r st np check bs).memOk := by
  unfold State.takeReply
  extract_lets
  split
  exacts [h, .ite h.acceptReply (.ite (.ite h.haltQueue h.onStrm.bump) (.ite h.haltQueue (.ite h.failStrm.tearJob h.strmFault)))]

theorem State.memOk.settleStop (h : s.memOk) {n q} : (s.settleStop n q).memOk := .ite h.onSq h
theorem State.memOk.land (h : s.memOk) {r} : (s.land r).memOk := h
theorem State.memOk.complete (h : s.memOk) {r st np check bs} : (s.complete r st np check bs).memOk :=
  .ite h.land.bump (.ite h.land.onCore h.land.takeReply.settleStop)

theorem State.memOk.mirrorReply (h : s.memOk) {r} : (s.mirrorReply r).memOk := by
  unfold State.mirrorReply
  refine .ite ?_ h.complete
  extract_lets s1
  have h1 : s1.memOk := h.land
  split
  · next e => exact (h1.mirrorWrite.of_eq e).complete
  · next e => exact (h1.mirrorWrite.of_eq e).complete

theorem State.memOk.hostReply (h : s.memOk) {r ext} : (s.hostReply r ext).memOk := by
  unfold State.hostReply
  split
  exacts [.ite h.complete h, .ite h (.complete (by exact .ite h.send h))]

theorem State.memOk.replyNow (h : s.memOk) {r ext} : (s.replyNow r ext).memOk := .ite h.complete (.ite h.mirrorReply (.ite h.hostReply h))

theorem State.memOk.streamReply (h : s.memOk) {n tag epoch ext} : (s.streamReply n tag epoch ext).memOk := by
  unfold State.streamReply
  extract_lets s1
  have h1 : s1.memOk := h.catchUp
  split
  · exact h1.bump
  · split
    · next e => exact h1.asyncTry.of_eq e
    · next e => exact (h1.asyncTry.of_eq e).replyNow

theorem State.memOk.fetchBlock (h : s.memOk) {n block} : (s.fetchBlock n block).memOk := by
  unfold State.fetchBlock
  extract_lets
  split
  · exact h
  · refine .ite h ?_
    split
    exacts [.ite h.tearJob h.progFault, .ite h h.bump.onCore]

theorem State.memOk.sendPrg (h : s.memOk) {n q} : (s.sendPrg n q).memOk := by
  unfold State.sendPrg
  extract_lets
  split
  exacts [.ite h.onSq.event.bump.send h, h]

theorem State.memOk.strmHalt (h : s.memOk) {n q} : (s.strmHalt n q).memOk := by
  unfold State.strmHalt
  extract_lets
  split
  · exact h
  · exact .ite h (.ite ((h.bump.setPreg.onSq.strmRecord.sendPrg.foldl (fun _ _ h => h.loseStrm)).onSq) h.bump.setPreg.onSq.strmRecord.sendPrg)

theorem State.memOk.resumeQueue (h : s.memOk) {n q} : (s.resumeQueue n q).memOk := h.onSq.bump
theorem State.memOk.onSaved (h : s.memOk) {j n q f} : (s.onSaved j n q f).memOk := h.onJob
theorem State.memOk.failPrgs (h : s.memOk) : (s.failPrgs).memOk := h

theorem State.memOk.prgResponse (h : s.memOk) {n q r} : (s.prgResponse n q r).memOk := by
  unfold State.prgResponse
  split
  · refine .ite h.resumeQueue ?_
    split
    exacts [h.onSaved, h]
  · refine .ite h.bump.onSq ?_
    split
    exacts [h.bump.onSaved, h.bump]
  · exact .of_mem (t := (s.bump .hif 0x58).failPrgs) rfl h.bump.failPrgs

theorem State.memOk.atsResponse (h : s.memOk) {pasid page r w} : (s.atsResponse pasid page r w).memOk :=
  .ite h (.foldl (by exact h) (fun _ _ h => h.send))
theorem State.memOk.atsInvalidate (h : s.memOk) {pasid page} : (s.atsInvalidate pasid page).memOk :=
  .ite h (.send (by exact .bump (by exact h)))
theorem State.memOk.strmRsvd (h : s.memOk) {n rsvd} : (s.strmRsvd n rsvd).memOk := .ite h.bump h
theorem State.memOk.bellResume (h : s.memOk) {n q rsvd} : (s.bellResume n q rsvd).memOk := .ite h.strmRsvd.resumeQueue h.strmRsvd.bump
theorem State.memOk.bellStop (h : s.memOk) {n q rsvd} : (s.bellStop n q rsvd).memOk := .ite h.strmRsvd.stopQueue h.strmRsvd

/-! ## The sill -/

theorem State.memOk.scrubRead (h : s.memOk) {n row} : (s.scrubRead n row).memOk :=
  ((h.bump.foldl (fun _ _ h => h.sillEvent)).foldl (fun _ _ h => h.poison)).scrubReserve
theorem State.memOk.sillUpsets (h : s.memOk) {n errs} : (s.sillUpsets n errs).memOk := h.foldl (fun _ _ h => h.upset)
theorem State.memOk.sillPatrol (h : s.memOk) {n errs} : (s.sillPatrol n errs).memOk :=
  .ite ((h.sillUpsets.foldl (fun _ _ h => h.scrubRead)).onCore) h.sillUpsets

theorem State.memOk.sillRepair (h : s.memOk) {n} : (s.sillRepair n).memOk := by
  unfold State.sillRepair
  split
  exacts [h, .ite h.scrubRead.onCore.scrubbed.bump.scrubReserve h.scrubRead.onCore]

theorem State.memOk.handMoved (h : s.memOk) {n head k} : (s.handMoved n head k).memOk := by
  induction k generalizing s with
  | zero => exact h
  | succ k ih => exact .ite (ih (.onCore (by exact .ite h.setFull.advCons h.setFull.advProd))) h

theorem State.memOk.handUnits (h : s.memOk) {n head entry a len} : (s.handUnits n head entry a len).memOk := h.onCore.handMoved

theorem State.memOk.coreMoved (h : s.memOk) {o r} : (s.coreMoved o r).memOk := by
  unfold State.coreMoved
  split
  exacts [h.handUnits, h]

theorem State.memOk.remoteSill (h : s.memOk) {n tag} : (s.remoteSill n tag).memOk := by
  unfold State.remoteSill
  split
  · exact h
  · split
    · exact h
    · refine .ite h (.ite h.serve ?_)
      refine .ite h.bump.serve (.ite h.catchUp ?_)
      split
      · next e => exact h.catchUp.asyncTry.of_eq e
      · next e =>
        have h1 := h.catchUp.asyncTry.of_eq e
        exact .ite h1.putRow.coreMoved.bump.serve h1.sillRead.coreMoved.bump.serve

theorem State.memOk.meshParity (h : s.memOk) {n tag} : (s.meshParity n tag).memOk := by
  unfold State.meshParity
  split
  · exact h
  · extract_lets _ _ s1 s2
    have h1 : s1.memOk := h.useFree.useFree.land.fault
    have h2 : s2.memOk := by
      unfold s2
      split
      exacts [h1.failStrm.fault, h1]
    exact h2.tearJob

/-! ## The quarry -/

theorem State.memOk.admitRange (h : s.memOk) {r} : (s.admitRange r).1.memOk := .ite_fst h.ownEnter h.winEnter
theorem State.memOk.onReq (h : s.memOk) {r f} : (s.onReq r f).memOk := h

theorem State.memOk.admission (h : s.memOk) {n tag} : (s.admission n tag).memOk := by
  unfold State.admission
  split
  · exact h
  · split
    · exact .ite h.serve h
    · refine .ite h (.ite h.onReq ?_)
      split
      · next e => exact (h.admitRange.of_eq e).onQuarry.onReq
      · next e => exact (h.admitRange.of_eq e).serve

theorem State.memOk.commandIssue (h : s.memOk) {q ch errs} : (s.commandIssue q ch errs).memOk := by
  unfold State.commandIssue
  extract_lets s1
  have h1 : s1.memOk := .ite h h.onQuarry
  split
  · exact h1
  · extract_lets s2 s3
    have h2 : s2.memOk := h1.foldl (fun _ _ h => h.upset)
    have h3 : s3.memOk := .ite h2.bump.onQuarry h2
    exact h3.serveReq

theorem State.memOk.rowIdle (h : s.memOk) {q bank} : (s.rowIdle q bank).memOk := h.onQuarry
theorem State.memOk.refresh (h : s.memOk) {q bank} : (s.refresh q bank).memOk :=
  .ite (.ite h.bump.onQuarry h.bump.onQuarry) h.bump.onQuarry.onQuarry
theorem State.memOk.scrubUnits (h : s.memOk) {q a len} : (s.scrubUnits q a len).memOk :=
  (h.settle.openRow.bump.bump.foldl (fun _ _ h => h.quarryEvent)).foldl (fun _ _ h => h.poison)
theorem State.memOk.quarryUpsets (h : s.memOk) {q errs} : (s.quarryUpsets q errs).memOk := h.foldl (fun _ _ h => h.upset)
theorem State.memOk.quarryPatrol (h : s.memOk) {q errs} : (s.quarryPatrol q errs).memOk :=
  .ite h.quarryUpsets.scrubUnits.onQuarry h.quarryUpsets

theorem State.memOk.quarryRepair (h : s.memOk) {q} : (s.quarryRepair q).memOk := by
  unfold State.quarryRepair
  split
  exacts [h, .ite h.scrubUnits.onQuarry.scrubbed.bump h.scrubUnits.onQuarry]

theorem State.memOk.newFails (h : s.memOk) {kind old vals raw} : (s.newFails kind old vals raw).memOk :=
  h.foldl (fun _ _ h => .ite h.bump.setPreg.fault h)
theorem State.memOk.overMax (h : s.memOk) {kind was max vs} : (s.overMax kind was max vs).memOk := .ite h.bump.setPreg.fault h
theorem State.memOk.quarryTemp (h : s.memOk) {n v} : (s.quarryTemp n v).memOk := .ite h.setPreg.onQuarry.bump h.setPreg.onQuarry

theorem State.memOk.sensorsTaken (h : s.memOk) {dram logic} : (s.sensorsTaken dram logic).memOk := by
  unfold State.sensorsTaken
  extract_lets _ _ de le s1 _ s2 s3 s4 s5 s6
  have h1 : s1.memOk := h.newFails.newFails
  have h2 : s2.memOk := h1.foldl (fun _ _ h => h.quarryTemp)
  have h3 : s3.memOk := h2.foldl (fun _ _ h => h.setPreg)
  clear_value de le s3
  have h5 : s5.memOk := h3.setPreg.setPreg
  have h6 : s6.memOk := h5.overMax.overMax
  exact h6

theorem State.memOk.sensors (h : s.memOk) {dram logic} : (s.sensors dram logic).memOk := .ite h h.sensorsTaken
theorem State.memOk.hotExit (h : s.memOk) {n} : (s.hotExit n).memOk := .ite h.onQuarry h

theorem State.memOk.winWord0Write (h : s.memOk) {n w v who} : (s.winWord0Write n w v who).memOk := by
  unfold State.winWord0Write
  split
  exacts [.ite h.writeWin h.progFault, h.writeWin]

/-! ## Held sub-bundles -/

theorem State.memOk.holdSub (h : s.memOk) {n} : (s.holdSub n).memOk := by
  unfold State.holdSub
  extract_lets s1
  have h1 : s1.memOk := h.catchUp
  refine .ite h1 ?_
  split
  exacts [h1.coreFault, h1.countConflict.heldFor, h1]

theorem State.memOk.sounded (h : s.memOk) {n a} : (s.sounded n a).memOk := .ite h.setPreg.fault h.setPreg.fault

theorem State.memOk.alarmed (h : s.memOk) {j but} : (s.alarmed j but).memOk := by
  refine h.foldl fun _ _ h => ?_
  split
  exacts [h.onCore, h]

theorem State.memOk.detector (h : s.memOk) {n lint} : (s.detector n lint).memOk := by
  unfold State.detector
  extract_lets s1
  have h1 : s1.memOk := h.catchUp
  split
  · exact h1.onCore.sounded
  · split
    exacts [h1.alarmed.sounded.tearDown, h1]

theorem State.memOk.watchdogSample (h : s.memOk) {n} : (s.watchdogSample n).memOk := by
  unfold State.watchdogSample
  extract_lets s1 _ _ s2
  have h1 : s1.memOk := h.catchUp
  have h2 : s2.memOk := h1.onCore
  refine .ite h1 ?_
  split
  exacts [h2.alarmed.fault.tearDown, h2]

end
end Sys2Proof.Machine
end

section
/-! # Memory stays in its canonical form: bench, reduction and paged attention -/
namespace Sys2Proof.Machine
section
variable {s : State}

/-! ## The bench -/

theorem State.memOk.benchEnter (h : s.memOk) {k a len op} : (s.benchEnter k a len op).1.memOk := by
  unfold State.benchEnter
  split
  · exact h
  · split
    exacts [.ite_fst h.directEnter h.winEnter, .ite_fst h (.ite_fst h h.winEnter)]

theorem State.memOk.benchGet (h : s.memOk) {k source rs} : (s.benchGet k source rs).1.memOk := by
  induction rs generalizing s with
  | nil => exact h
  | cons r rs ih =>
    unfold State.benchGet
    split
    · next e =>
      have h1 := h.benchEnter.of_eq e
      exact .ite_fst h1.quarryRead (ih h1.quarryRead)
    · next e => exact h.benchEnter.of_eq e

theorem State.memOk.benchPut (h : s.memOk) {k op rs bs} : (s.benchPut k op rs bs).1.memOk := by
  induction rs generalizing s bs with
  | nil => exact h
  | cons r rs ih =>
    unfold State.benchPut
    split
    · next e =>
      have h1 := h.benchEnter.of_eq e
      exact .ite_fst h1.quarryWrite (ih h1.quarryWrite)
    · next e => exact h.benchEnter.of_eq e

theorem State.memOk.bput (h : s.memOk) {k a bs} : (s.bput k a bs).1.memOk := h.benchPut
theorem State.memOk.bget (h : s.memOk) {k a len} : (s.bget k a len).1.memOk := h.benchGet
theorem State.memOk.poisonBad (h : s.memOk) {a len} : (s.poisonBad a len).memOk := h.foldl (fun _ _ h => h.poison)

theorem State.memOk.benchFar (h : s.memOk) {k a len} : (s.benchFar k a len).1.memOk := by
  unfold State.benchFar
  split
  exacts [h.bget, .ite_fst h (.ite_fst h.bump h.sillRead)]

theorem State.memOk.benchFarPut (h : s.memOk) {k a bs} : (s.benchFarPut k a bs).1.memOk := by
  unfold State.benchFarPut
  split
  exacts [h.bput, .ite_fst h (.ite_fst h.bump h.putRow)]

theorem State.memOk.unsure (h : s.memOk) {loose bs} : (s.unsure loose bs).1.memOk := .ite_fst h h

theorem State.memOk.benchRecord (h : s.memOk) {k status done addr first} : (s.benchRecord k status done addr first).memOk := by
  unfold State.benchRecord
  split
  · split
    exacts [.ite h.post h, h]
  · split
    exacts [h.postSq, h]

theorem State.memOk.benchReply (h : s.memOk) {k status done first old} : (s.benchReply k status done first old).memOk := by
  unfold State.benchReply
  split
  exacts [h.put.setFull.advProd, h]

theorem State.memOk.withReply (h : s.memOk) {f : State → State} (hf : ∀ {s}, s.memOk → (f s).memOk) {k} : (s.withReply k f).memOk := by
  unfold State.withReply
  refine .ite h ?_
  split
  · next e => exact hf (h.benchTries.of_eq e)
  · next e => exact h.benchTries.of_eq e

theorem State.memOk.countTagDone (h : s.memOk) {j t} : (s.countTagDone j t).memOk := .ite h.onTag.failTag h.onTag

theorem State.memOk.benchDone (h : s.memOk) {k status done addr first old} : (s.benchDone k status done addr first old).memOk := by
  unfold State.benchDone
  extract_lets s1 s2 s3
  have h1 : s1.memOk := h.bump
  have h2 : s2.memOk := .ite h1.setPreg h1
  have h3 : s3.memOk := h2.benchReply.benchRecord
  split
  · extract_lets _ _ s4 s5
    have h4 : s4.memOk := h3.onBq
    have h5 : s5.memOk := h4.onQuarry
    split
    exacts [.ite h5.countTagDone h5, h5]
  · exact h3.onQuarry

theorem State.memOk.benchStop (h : s.memOk) {k status check done addr first} : (s.benchStop k status check done addr first).memOk := by
  unfold State.benchStop
  extract_lets s1
  have h1 : s1.memOk := h.benchDone
  split
  exacts [h1, .ite h1.tearDown h1.progFault]

theorem State.memOk.benchDup (h : s.memOk) {k} : (s.benchDup k).memOk := .ite h.bump.fault.tearJob h.bump.fault
theorem State.memOk.benchNonfinite (h : s.memOk) {k c} : (s.benchNonfinite k c).memOk := .ite h h.bump.nonfinite

theorem State.memOk.nextCmd (h : s.memOk) {n j b} : (s.nextCmd n j b).1.memOk := by
  unfold State.nextCmd
  split
  exacts [h, h.bget]

theorem State.memOk.startReads (h : s.memOk) {k rs} : (s.startReads k rs).1.memOk := by
  induction rs generalizing s with
  | nil => exact h
  | cons r rs ih =>
    have h1 := State.memOk.ite_fst (c := r.2 = 0) (a := (s, 0, [], r.1)) h (h.benchFar (k := k) (a := r.1) (len := r.2))
    exact .ite_fst h1 (ih h1)

theorem State.memOk.benchRun (h : s.memOk) {n b k q} : (s.benchRun n b k q).memOk :=
  .onBq (by exact .ite (.onQuarry (by exact .ite h.setFull.advCons h)) (.ite h.setFull.advCons h))

theorem State.memOk.benchStart (h : s.memOk) {n b} : (s.benchStart n b).memOk := by
  unfold State.benchStart
  split
  · exact h
  · refine .ite h ?_
    split
    rename_i e
    have h1 := h.nextCmd.of_eq e
    refine .ite (.benchStop (by exact h1)) (.ite h1.progFault ?_)
    refine .ite h1.onBq.bump (.ite h1.onBq.bump ?_)
    refine .ite h1.benchStop ?_
    split
    · next e => exact (h1.benchTries.of_eq e).onBq
    · next e =>
      have h2 := h1.benchTries.of_eq e
      split
      next e =>
      have h3 := h2.startReads.of_eq e
      exact .ite h3.benchStop (.ite h3.benchStop h3.benchRun)

theorem State.memOk.advance (h : s.memOk) {k done old} : (s.advance k done old).memOk := by
  unfold State.advance
  split
  exacts [h.onBq, h.onQuarry]

theorem State.memOk.elemRun (h : s.memOk) {k m loose data lo hi skip old f e} : (s.elemRun k m loose data lo hi skip old f e).s.memOk := by
  induction f generalizing s old e with
  | zero => exact h
  | succ f ih =>
    unfold State.elemRun
    refine .ite_elem h ?_
    extract_lets
    split
    · next e =>
      have h1 := h.benchEnter.of_eq e
      split
      next e =>
      have h2 := State.memOk.of_eq e (.ite_fst h1 h1.quarryRead)
      refine .ite_elem h2.poisonBad ?_
      split
      next e =>
      have h3 := h2.unsure.of_eq e
      extract_lets
      split
      next e =>
      have h4 := h3.quarryWrite.of_eq e
      exact .ite_elem h4.bump.bump.benchNonfinite (ih h4.bump.bump.benchNonfinite)
    · next e => exact h.benchEnter.of_eq e

theorem State.memOk.dataSlot (h : s.memOk) {k b len} {t : State} {x : List Byte × Nat} (ht : s.dataSlot k b len = some (t, x)) :
    t.memOk := by
  unfold State.dataSlot at ht
  extract_lets i v at ht
  split_ifs at ht
  exact .of_eq (Option.some.inj ht) h.sillRead.setFull.advCons

theorem State.memOk.elemSlot (h : s.memOk) {k b hi mismatch} : (s.elemSlot k b hi mismatch).memOk := by
  unfold State.elemSlot
  extract_lets
  split
  · exact h
  · next e =>
    have h1 := h.dataSlot e
    refine .ite h1.benchStop ?_
    extract_lets r t1 t2
    have hr : r.s.memOk := h1.elemRun
    have h2 : t1.memOk := hr.advance
    have h3 : t2.memOk := .ite h2.benchDone h2
    exact .ite hr.benchStop (.ite h3.benchDup h3)

theorem State.memOk.benchElem (h : s.memOk) {n b op mismatch} : (s.benchElem n b op mismatch).memOk := by
  unfold State.benchElem
  split
  · exact h
  · refine .ite (h.withReply fun h => h.benchDone) (.ite h ?_)
    split
    · next e => exact h.benchTries.of_eq e
    · next e => exact (h.benchTries.of_eq e).elemSlot

theorem State.memOk.benchFill (h : s.memOk) {n b mismatch} : (s.benchFill n b mismatch).memOk := by
  unfold State.benchFill
  split
  · exact h
  · refine .ite h.benchStop (h.withReply fun h => ?_)
    extract_lets r t
    have hr : r.s.memOk := h.elemRun
    have ht : t.memOk := hr.benchDone
    exact .ite hr.benchStop (.ite ht.benchDup ht)

theorem State.memOk.toxfRun (h : s.memOk) {k m loose skip c i sum first} : (s.toxfRun k m loose skip c i sum first).s.memOk := by
  induction c generalizing s i sum first with
  | zero => exact h
  | succ c ih =>
    unfold State.toxfRun
    extract_lets
    split
    next e =>
    have h1 := h.bget.of_eq e
    refine .ite_blk h1 ?_
    split
    next e =>
    have h2 := h1.bget.of_eq e
    refine .ite_blk h2.poisonBad ?_
    extract_lets
    split
    refine .ite_blk (ih h2) ?_
    split
    next e =>
    have h3 := (h2.unsure.of_eq e)
    extract_lets
    split
    next e =>
    have h4 := h3.benchNonfinite.bput.of_eq e
    refine .ite_blk h4 ?_
    split
    next e =>
    have h5 := h4.bput.of_eq e
    exact .ite_blk h5 (ih h5.bump)

theorem State.memOk.benchToxf (h : s.memOk) {n b mismatch} : (s.benchToxf n b mismatch).memOk := by
  unfold State.benchToxf
  split
  · exact h
  · refine h.withReply fun h => ?_
    extract_lets _ r
    have hr : r.s.memOk := h.toxfRun
    refine .ite hr.benchStop ?_
    split
    next e =>
    have h1 := hr.bput.of_eq e
    exact .ite h1.benchStop (.ite h1.benchDone.benchDup h1.benchDone)

theorem State.memOk.xfAddAt (h : s.memOk) {q a i blk hdr source job flags} : (s.xfAddAt q a i blk hdr source job flags).1.memOk :=
  .ite_fst h.quarryRead.poisonBad (.ite_fst h.quarryRead.quarryRead.poisonBad (.ite_fst h.quarryRead.quarryRead h.quarryRead.quarryRead.quarryWrite.quarryWrite))

theorem State.memOk.xfEnter (h : s.memOk) {enter : State → Nat → Nat → State × Nat}
    (hf : ∀ {s a n}, s.memOk → (enter s a n).1.memOk) {a i} : (s.xfEnter enter a i).1.memOk := by
  unfold State.xfEnter
  refine .ite_fst h ?_
  split
  · next e => exact hf ((hf h).of_eq e)
  · next e => exact (hf h).of_eq e

theorem State.memOk.xfaddRun (h : s.memOk) {k skip c i} : (s.xfaddRun k skip c i).s.memOk := by
  induction c generalizing s i with
  | zero => exact h
  | succ c ih =>
    unfold State.xfaddRun
    extract_lets
    split
    next e =>
    have h1 := h.bget.of_eq e
    refine .ite_blk h1 ?_
    split
    next e =>
    have h2 := h1.bget.of_eq e
    refine .ite_blk h2 ?_
    split
    · next e =>
      have h3 := h2.benchEnter.of_eq e
      split
      · next e =>
        have h4 := h3.benchEnter.of_eq e
        refine .ite_blk (ih h4) ?_
        split
        · next e => exact ih (h4.xfAddAt.of_eq e).bump
        · next e => exact h4.xfAddAt.of_eq e
      · next e => exact h3.benchEnter.of_eq e
    · next e => exact h2.benchEnter.of_eq e

theorem State.memOk.benchXfadd (h : s.memOk) {n b mismatch} : (s.benchXfadd n b mismatch).memOk := by
  unfold State.benchXfadd
  split
  · exact h
  · refine h.withReply fun h => ?_
    extract_lets r t
    have hr : r.s.memOk := h.xfaddRun
    have ht : t.memOk := hr.benchDone
    exact .ite hr.benchDone.fault (.ite hr.benchStop (.ite ht.benchDup ht))

theorem State.memOk.bgets (h : s.memOk) {k rs} : (s.bgets k rs).1.memOk := by
  induction rs generalizing s with
  | nil => exact h
  | cons r rs ih => exact .ite_fst h.bget (ih h.bget)

theorem State.memOk.bputs (h : s.memOk) {k rs} : (s.bputs k rs).1.memOk := by
  induction rs generalizing s with
  | nil => exact h
  | cons r rs ih => exact .ite_fst h.bput (ih h.bput)

theorem State.memOk.benchStats (h : s.memOk) {k addr st} : (s.benchStats k addr st).1.memOk :=
  .ite_fst h.benchFar h.benchFar.recordMark.benchFarPut

theorem State.memOk.optPut (h : s.memOk) {k o x blk disc bytes} : (s.optPut k o x blk disc bytes).1.memOk := by
  unfold State.optPut
  extract_lets
  split
  · split
    next e =>
    have h1 := h.bputs.of_eq e
    exact .ite_fst h1 h1.benchNonfinite
  · extract_lets
    split
    next e =>
    have h1 := h.bputs.of_eq e
    refine .ite_fst h1 ?_
    split
    next e =>
    have h2 := h1.benchStats.of_eq e
    exact .ite_fst h2 h2.benchNonfinite

theorem State.memOk.optPoison (h : s.memOk) {o op x} : (s.optPoison o op x).memOk :=
  .ite h.poisonBad.poisonBad.poisonBad h.poisonBad.poisonBad

theorem State.memOk.optRun (h : s.memOk) {k o m loose skip c x} : (s.optRun k o m loose skip c x).s.memOk := by
  induction c generalizing s x with
  | zero => exact h
  | succ c ih =>
    unfold State.optRun
    split
    next e =>
    have h1 := h.bgets.of_eq e
    refine .ite_blk (.ite h1.optPoison h1) (.ite_blk (ih h1) ?_)
    extract_lets
    split
    next e =>
    have h2 := h1.unsure.of_eq e
    split
    next e =>
    have h3 := h2.unsure.of_eq e
    split
    next e =>
    have h4 := h3.unsure.of_eq e
    split
    next e =>
    have h5 := h4.optPut.of_eq e
    exact .ite_blk h5 (ih h5.bump)

theorem State.memOk.benchOpt (h : s.memOk) {n b op mismatch} : (s.benchOpt n b op mismatch).memOk := by
  unfold State.benchOpt
  split
  · exact h
  · refine .ite h ?_
    split
    · next e => exact h.benchTries.of_eq e
    · next e =>
      have h1 := h.benchTries.of_eq e
      exact .ite h1.benchDone (.ite h1.optRun.benchStop (.ite h1.optRun.benchDone.benchDup h1.optRun.benchDone))

theorem State.memOk.benchMsg (h : s.memOk) {k p write addr rlen data} : (s.benchMsg k p write addr rlen data).memOk := by
  unfold State.benchMsg
  split
  · exact h
  · split
    next e =>
    refine .sendTxn (.of_eq e ?_)
    split
    exacts [h, h.useFree]

theorem State.memOk.remoteMove (h : s.memOk) {k write done len bs} : (s.remoteMove k write done len bs).memOk := by
  unfold State.remoteMove
  refine .ite h (.ite h.send ?_)
  split
  exacts [h, h.foldl (fun _ _ h => h.benchMsg)]

theorem State.memOk.remoteStop (h : s.memOk) {k e done} : (s.remoteStop k e done).memOk := .benchDone (by exact .ite h.bump h)
theorem State.memOk.hostLock (h : s.memOk) {k} : (s.hostLock k).memOk := .ite h.onQuarry h

theorem State.memOk.regionStep (h : s.memOk) {f : State → Bc → Nat → List Byte → Nat → State}
    (hf : ∀ {s k x y z}, s.memOk → (f s k x y z).memOk) {n b op} : (s.regionStep n b op f).memOk := by
  unfold State.regionStep
  split
  · exact h
  · split
    exact .ite h.benchStop (.ite h.benchStop (.ite h (h.withReply fun h => hf h.hostLock)))

theorem State.memOk.doExport (h : s.memOk) {n b r} : (s.doExport n b r).memOk := by
  refine h.regionStep fun h => ?_
  extract_lets
  split
  next e =>
  have h1 := h.benchGet.of_eq e
  refine .ite h1.benchDone (.ite h1.benchStop ?_)
  extract_lets s2
  have h2 : s2.memOk := h1.bump.remoteMove
  refine .ite h2.remoteStop (.ite h2.advance ?_)
  split
  next e =>
  have h3 := h2.bput.of_eq e
  exact .ite h3.benchStop h3.benchDone

theorem State.memOk.doImport (h : s.memOk) {n b r data} : (s.doImport n b r data).memOk := by
  refine h.regionStep fun h => ?_
  extract_lets
  split
  next e =>
  have h1 := h.remoteMove.bput.of_eq e
  refine .ite h1.benchStop ?_
  extract_lets s2
  have h2 : s2.memOk := h1.bump
  refine .ite h2.remoteStop (.ite h2.advance ?_)
  split
  next e =>
  have h3 := h2.bget.of_eq e
  exact .ite h3.benchStop (.ite h3.benchDone h3.bump.benchDone)

/-! ## Reduction -/

theorem State.memOk.engEnter (h : s.memOk) {who op a len} : (s.engEnter who op a len).1.memOk := by
  unfold State.engEnter
  split
  exacts [h, h.winEnter]

theorem State.memOk.engGet (h : s.memOk) {who rs} : (s.engGet who rs).1.memOk := by
  induction rs generalizing s with
  | nil => exact h
  | cons r rs ih =>
    unfold State.engGet
    split
    · next e =>
      have h1 := h.engEnter.of_eq e
      exact .ite_fst h1.quarryRead (ih h1.quarryRead)
    · next e => exact h.engEnter.of_eq e

theorem State.memOk.engPut (h : s.memOk) {who rs bs} : (s.engPut who rs bs).1.memOk := by
  induction rs generalizing s bs with
  | nil => exact h
  | cons r rs ih =>
    unfold State.engPut
    split
    · next e =>
      have h1 := h.engEnter.of_eq e
      exact .ite_fst h1.quarryWrite (ih h1.quarryWrite)
    · next e => exact h.engEnter.of_eq e

theorem State.memOk.redGet (h : s.memOk) {load rs} : (s.redGet load rs).1.memOk := h.engGet
theorem State.memOk.redPut (h : s.memOk) {load rs bs} : (s.redPut load rs bs).1.memOk := h.engPut
theorem State.memOk.redFail (h : s.memOk) {j t shard st here peer} : (s.redFail j t shard st here peer).memOk :=
  .ite (.ite h.markFailed.sendAbort.tearDown h.useFree.useFree.failTag) (.ite h.failTag (.ite h.failTag h.failTag))
theorem State.memOk.onShard (h : s.memOk) {j t i f} : (s.onShard j t i f).memOk := h.onTag

theorem State.memOk.armShard (h : s.memOk) {load d e} : (s.armShard load d e).1.memOk := by
  unfold State.armShard
  split
  · exact h
  · extract_lets
    split
    · next e =>
      have h1 := h.redGet.of_eq e
      extract_lets
      split
      · next e => exact (h1.redPut.of_eq e).redPut
      · next e => exact h1.redPut.of_eq e
    · next e => exact h.redGet.of_eq e

theorem State.memOk.armShards (h : s.memOk) {load d es} : (s.armShards load d es).1.memOk := by
  induction es generalizing s with
  | nil => exact h
  | cons e es ih =>
    unfold State.armShards
    split
    · next e => exact ih (h.armShard.of_eq e)
    · next e => exact h.armShard.of_eq e

theorem State.memOk.armTag (h : s.memOk) {load j t} : (s.armTag load j t).memOk := by
  unfold State.armTag
  split
  · next e =>
    have h1 := h.redGet.of_eq e
    refine .ite h1.onTag ?_
    split
    · next e =>
      have h2 := h1.redGet.of_eq e
      refine .ite h2.redFail ?_
      extract_lets _ s3
      have h3 : s3.memOk := h2.onTag
      split
      · next e => exact h3.armShards.of_eq e
      · next e => exact (h3.armShards.of_eq e).redFail
    · next e => exact (h1.redGet.of_eq e).redFail
  · next e => exact (h.redGet.of_eq e).redFail

theorem State.memOk.armAll (h : s.memOk) {j} : (s.armAll j).memOk := .ite h (.foldl (by exact h) (fun _ _ h => .ite h.onTag.armTag h))
theorem State.memOk.rearm (h : s.memOk) {j t} : (s.rearm j t).memOk := .ite h.armTag h

theorem State.memOk.compressRun (h : s.memOk) {d e m bs} : (s.compressRun d e m bs).1.memOk := by
  induction bs generalizing s with
  | nil => exact h
  | cons b bs ih =>
    unfold State.compressRun
    extract_lets
    split
    · next e1 =>
      have h1 := h.redGet.of_eq e1
      extract_lets
      split
      · next e2 => exact ih (h1.redPut.of_eq e2)
      · next e2 => exact h1.redPut.of_eq e2
    · next e1 => exact h.redGet.of_eq e1

theorem State.memOk.ownAdd (h : s.memOk) {j t k d e a i c n} : (s.ownAdd j t k d e a i c n).1.memOk := by
  induction c generalizing s n with
  | zero => exact h
  | succ c ih =>
    unfold State.ownAdd
    split
    · next e1 =>
      have h1 := h.redGet.of_eq e1
      split
      split
      · next e2 =>
        have h2 := State.memOk.of_eq e2 (h1.xfEnter fun h => h.engEnter)
        split
        · next e3 => exact ih (h2.xfAddAt.of_eq e3)
        · next e3 => exact h2.xfAddAt.of_eq e3
      · next e2 => exact State.memOk.of_eq e2 (h1.xfEnter fun h => h.engEnter)
    · next e1 => exact h.redGet.of_eq e1

theorem State.memOk.arrival (h : s.memOk) {j t k orig csum} : (s.arrival j t k orig csum).memOk :=
  .ite h.onShard.bump.redFail h.onShard.bump
theorem State.memOk.sendOpen (h : s.memOk) {x} : (s.sendOpen x).memOk := h.sendCtl
theorem State.memOk.openXfer (h : s.memOk) {j t k kind dst} : (s.openXfer j t k kind dst).memOk := .sendOpen (by exact h)
theorem State.memOk.ownReady (h : s.memOk) {j d e t} : (s.ownReady j d e t).1.memOk :=
  .ite_fst h (.ite_fst (.ite_fst (.ite_fst h h.redGet) (.ite_fst (.ite_fst h h.redGet) (.compressRun (by exact .ite_fst h h.redGet)))) h.redGet)

theorem State.memOk.startShard (h : s.memOk) {j t k} : (s.startShard j t k).memOk := by
  unfold State.startShard
  refine .ite h ?_
  split
  rename_i e
  have h1 := h.ownReady.of_eq e
  extract_lets s2
  have h2 : s2.memOk := h1.onShard
  refine .ite h2.redFail ?_
  split
  · exact h2.openXfer
  · split
    · next e => exact (h2.ownAdd.of_eq e).arrival
    · next e => exact (h2.ownAdd.of_eq e).redFail

theorem State.memOk.startTag (h : s.memOk) {j t} : (s.startTag j t).memOk := .ite (h.foldl (fun _ _ h => h.startShard)) h
theorem State.memOk.trigger (h : s.memOk) {j t} : (s.trigger j t).memOk := h.onTag.startTag
theorem State.memOk.verdict (h : s.memOk) {j t} : (s.verdict j t).memOk := .ite h.trigger h

theorem State.memOk.xferMsg (h : s.memOk) {x u} : (s.xferMsg x u).1.memOk := by
  unfold State.xferMsg
  refine .ite_fst (.ite_fst h.redGet (.ite_fst h.bump h.redGet)) h.redGet

theorem State.memOk.sendRed (h : s.memOk) {x sub csum orig} : (s.sendRed x sub csum orig).memOk := h.sendCtl

theorem State.memOk.xferEnd (h : s.memOk) {x} : (s.xferEnd x).memOk := by
  unfold State.xferEnd
  extract_lets _ s1
  have h1 : s1.memOk := h
  split
  exacts [h1.sendRed.bump, h1, h1.sendRed, h1.sendRed]

theorem State.memOk.onXfer (h : s.memOk) {id f} : (s.onXfer id f).memOk := h

theorem State.memOk.pump (h : s.memOk) {id k} : (s.pump id k).memOk := by
  induction k generalizing s with
  | zero => exact (by rfl : s.pump id 0 = s) ▸ h
  | succ k ih =>
    change State.memOk (match s.red.xfers.find? (fun x => x.id == id) with
      | none => s
      | some x => if !x.accepted || !s.redLocal x.job then s else _)
    split
    · exact h
    · refine .ite h ?_
      split
      · exact .ite h.xferEnd h
      · split
        · exact h.bump.redFail
        · split
          exacts [h, .ite h.xferMsg.redFail (ih h.xferMsg.sendTxn.onXfer)]

theorem State.memOk.pumpOn (h : s.memOk) {id} : (s.pumpOn id).memOk := by
  unfold State.pumpOn
  split
  exacts [h.pump, h]

theorem State.memOk.pumpAll (h : s.memOk) {j} : (s.pumpAll j).memOk := h.foldl (fun _ _ h => h.pumpOn)

theorem State.memOk.xferAck (h : s.memOk) {id st} : (s.xferAck id st).memOk := by
  unfold State.xferAck
  split
  exacts [h, .ite h.onXfer.pumpOn h.redFail]

theorem State.memOk.checksumFail (h : s.memOk) {j t k sum elems} : (s.checksumFail j t k sum elems).memOk := h.bump.failTag

theorem State.memOk.verifyShard (h : s.memOk) {j t k} : (s.verifyShard j t k).memOk := by
  unfold State.verifyShard
  extract_lets
  split
  · exact h
  · refine .ite h ?_
    split
    · next e =>
      have h1 := h.redGet.of_eq e
      extract_lets _ s2 s3
      have h2 : s2.memOk := h1.onShard
      have h3 : s3.memOk := h2.foldl fun _ _ h => h.openXfer
      exact .ite h1.checksumFail (.ite h2.openXfer (.ite h3 (h3.foldl fun _ _ h => h.openXfer)))
    · next e => exact (h.redGet.of_eq e).redFail

theorem State.memOk.verifyDelivered (h : s.memOk) {j t k} : (s.verifyDelivered j t k).memOk := by
  unfold State.verifyDelivered
  extract_lets
  split
  · exact h
  · refine .ite h ?_
    extract_lets
    split
    · next e =>
      have h1 := h.redGet.of_eq e
      exact .ite h1.checksumFail h1.onShard
    · next e => exact (h.redGet.of_eq e).redFail

theorem State.memOk.hdrLanded (h : s.memOk) {j a len} : (s.hdrLanded j a len).memOk :=
  h.foldl (fun _ _ h => h.foldl (fun _ _ h => h.onShard))
theorem State.memOk.reducedRecord (h : s.memOk) {j t hs} : (s.reducedRecord j t hs).memOk := .ite h.post h

theorem State.memOk.writeHist (h : s.memOk) {j t d hs} : (s.writeHist j t d hs).1.memOk := by
  unfold State.writeHist
  extract_lets pos one
  have h1 : ((hs.zipIdx).foldl one (s, 0)).1.memOk :=
    List.foldlRecOn (motive := fun p : State × Nat => p.1.memOk) _ one h fun _ hp _ _ => .ite_fst hp.redPut hp
  split
  · next e => exact (h1.of_eq e).redPut
  · next e => exact h1.of_eq e

theorem State.memOk.reduce (h : s.memOk) {j t} : (s.reduce j t).memOk := by
  unfold State.reduce
  refine .ite h ?_
  extract_lets
  split
  · next e =>
    have h1 := h.redGet.of_eq e
    extract_lets
    split
    · next e =>
      have h2 := h1.writeHist.of_eq e
      extract_lets _ _ s3 s4 s5 s6 _ s7
      have h3 : s3.memOk := h2.onTag
      have h4 : s4.memOk := h3.bump.bump
      have h5 : s5.memOk := .ite h4.bump h4
      have h6 : s6.memOk := .ite h5.redGet h5
      have h7 : s7.memOk := .ite h6.bump.event.fault h6
      exact h7.reducedRecord
    · next e => exact (h1.writeHist.of_eq e).redFail
  · next e => exact (h.redGet.of_eq e).redFail

theorem State.memOk.gather (h : s.memOk) {j t} : (s.gather j t).memOk :=
  .ite h (h.foldl (fun _ _ h => .ite h (h.onShard.foldl (fun _ _ h => .ite h.sendRed h.openXfer))))
theorem State.memOk.redClock (h : s.memOk) {j} : (s.redClock j).memOk := h

theorem State.memOk.redResume (h : s.memOk) {j} : (s.redResume j).memOk := by
  unfold State.redResume
  extract_lets s1 _ s2 s3
  have h1 : s1.memOk := h.redClock
  have h2 : s2.memOk := h1.foldl (fun _ _ h => h.startTag)
  have h3 : s3.memOk := h2.foldl (fun _ _ h => h.foldl (fun _ _ h => h.verifyDelivered))
  exact h3.pumpAll

theorem State.memOk.redWatchdog (h : s.memOk) {j t} : (s.redWatchdog j t).memOk := .ite h.failTag h
theorem State.memOk.answerOpen (h : s.memOk) {m sub xfer} : (s.answerOpen m sub xfer).memOk := h.sendCtl
theorem State.memOk.rxOpen (h : s.memOk) {j m} : (s.rxOpen j m).memOk :=
  .ite h.answerOpen (.ite (.answerOpen (by exact .ite h.onShard h)) (.ite h.answerOpen h.answerOpen))

theorem State.memOk.rxAccept (h : s.memOk) {j m} : (s.rxAccept j m).memOk := by
  unfold State.rxAccept
  split
  exacts [h.onXfer.pumpOn, h]

theorem State.memOk.rxRefuse (h : s.memOk) {j m} : (s.rxRefuse j m).memOk := .ite (.ite h (.ite h.redFail h.failTag)) h
theorem State.memOk.retryOpen (h : s.memOk) {j t} : (s.retryOpen j t).memOk := .ite h (h.foldl (fun _ _ h => h.onXfer.bump.sendOpen))
theorem State.memOk.rxDone (h : s.memOk) {j m} : (s.rxDone j m).memOk := .ite h.arrival h
theorem State.memOk.rxDeliver (h : s.memOk) {j m} : (s.rxDeliver j m).memOk := .ite h.onShard.verifyDelivered h
theorem State.memOk.rxGathered (h : s.memOk) {j m} : (s.rxGathered j m).memOk := .ite h.onShard h
theorem State.memOk.rxAbort (h : s.memOk) {p j m} : (s.rxAbort p j m).memOk := .ite h.bump h.bump.markFailed.fault.tearDown
theorem State.memOk.tagRelease (h : s.memOk) {j id} : (s.tagRelease j id).memOk :=
  h.foldl (fun _ _ h => .ite h (.ite h.bump (.ite h.onTag.trigger h.onTag)))
theorem State.memOk.release (h : s.memOk) {j id} : (s.release j id).memOk := .ite h.onLint.tagRelease h

/-! ## Paged attention -/

theorem State.memOk.kvGet (h : s.memOk) {rs} : (s.kvGet rs).1.memOk := h.engGet
theorem State.memOk.kvPut (h : s.memOk) {a bs} : (s.kvPut a bs).1.memOk := h.engPut
theorem State.memOk.kvFail (h : s.memOk) {core st addr} : (s.kvFail core st addr).memOk := .ite h.tearDown h.progFault
theorem State.memOk.attError (h : s.memOk) {r} : (s.attError r).memOk := h.progFault
theorem State.memOk.setReq (h : s.memOk) {n r} : (s.setReq n r).memOk := h

theorem State.memOk.attReady (h : s.memOk) {n r served} : (s.attReady n r served).memOk := by
  unfold State.attReady
  split
  · next e =>
    have h1 := h.kvGet.of_eq e
    refine .ite h1.attError ?_
    extract_lets
    split
    · next e => exact (h1.kvPut.of_eq e).setReq
    · next e => exact (h1.kvPut.of_eq e).kvFail
  · next e => exact (h.kvGet.of_eq e).kvFail

theorem State.memOk.attTake (h : s.memOk) {c head} : (s.attTake c head).memOk := by
  unfold State.attTake
  extract_lets
  split
  · exact h
  · refine .ite h ?_
    extract_lets
    split
    rename_i e
    have h1 := h.sillRead.of_eq e
    refine .ite h1.tearDown ?_
    extract_lets s2 _ _ _ s3 _ _ s4
    have h2 : s2.memOk := h1.setFull.advCons
    have h3 : s3.memOk := h2
    have h4 : s4.memOk := h3
    exact .ite h3.attError (.ite h4 h4.attReady)

theorem State.memOk.seqRecord (h : s.memOk) {status slot id reason flags} : (s.seqRecord status slot id reason flags).memOk :=
  .post (by exact .ite h.bump (.ite h.bump (.ite h.bump h)))

theorem State.memOk.setOutcome (h : s.memOk) {slot code} : (s.setOutcome slot code).memOk := by
  unfold State.setOutcome
  split
  exacts [.ite h h, h]

theorem State.memOk.freeSlotPages (h : s.memOk) {slot} : (s.freeSlotPages slot).memOk := h
theorem State.memOk.freeSlotSwap (h : s.memOk) {slot} : (s.freeSlotSwap slot).memOk := h
theorem State.memOk.freeSlot (h : s.memOk) {slot} : (s.freeSlot slot).memOk := h.freeSlotPages.freeSlotSwap.onSeq

theorem State.memOk.listPut (h : s.memOk) {es} : (s.listPut es).1.memOk := by
  induction es generalizing s with
  | nil => exact h
  | cons e es ih =>
    unfold State.listPut
    split
    · next e => exact ih (h.kvPut.of_eq e)
    · next e => exact h.kvPut.of_eq e

theorem State.memOk.pageRest (h : s.memOk) {p} : (s.pageRest p).1.memOk := h.kvPut

theorem State.memOk.pageRests (h : s.memOk) {ps} : (s.pageRests ps).1.memOk := by
  induction ps generalizing s with
  | nil => exact h
  | cons p ps ih =>
    unfold State.pageRests
    split
    · next e => exact ih (h.pageRest.of_eq e)
    · next e => exact h.pageRest.of_eq e

theorem State.memOk.takePages (h : s.memOk) {slot per} : (s.takePages slot per).1.memOk := by
  unfold State.takePages
  extract_lets _ _ _ _ _ s1 s2
  have h1 : s1.memOk := h
  have h2 : s2.memOk := h1.onSeq.bump
  split
  · next e => exact (h2.listPut.of_eq e).pageRests
  · next e => exact h2.listPut.of_eq e

theorem State.memOk.dropSeq (h : s.memOk) {slot reason more} : (s.dropSeq slot reason more).memOk := h.freeSlot.setOutcome.seqRecord

theorem State.memOk.evict (h : s.memOk) {slot more} : (s.evict slot more).memOk := by
  unfold State.evict
  extract_lets
  split
  · refine .ite ?_ h.dropSeq
    extract_lets
    split
    · next e =>
      have h1 := h.kvGet.of_eq e
      extract_lets
      split
      · next e =>
        have h2 := h1.kvGet.of_eq e
        extract_lets _ s3 _ s4
        have h3 : s3.memOk := h2.foldl (fun _ _ h => h.send)
        have h4 : s4.memOk := h3
        exact h4.onSeq.bump
      · next e => exact (h1.kvGet.of_eq e).kvFail
    · next e => exact (h.kvGet.of_eq e).kvFail
  · exact h.dropSeq

theorem State.memOk.swapOut (h : s.memOk) {slot present} : (s.swapOut slot present).memOk := by
  unfold State.swapOut
  refine .ite h (.ite h.dropSeq ?_)
  extract_lets
  split
  · next e => exact (h.listPut.of_eq e).freeSlotPages.onSeq.setOutcome.seqRecord
  · next e => exact (h.listPut.of_eq e).kvFail

theorem State.memOk.swapInWaiting (h : s.memOk) {k} : (s.swapInWaiting k).memOk := by
  induction k generalizing s with
  | zero => exact h
  | succ k ih =>
    unfold State.swapInWaiting
    extract_lets
    split
    · extract_lets _ _ _ s1 _ s2
      have h1 : s1.memOk := h.foldl fun _ _ h => h.send
      have h2 : s2.memOk := h1
      exact .ite h (ih h2.onSeq)
    · exact h

theorem State.memOk.pagesPut (h : s.memOk) {es} : (s.pagesPut es).1.memOk := by
  induction es generalizing s with
  | nil => exact h
  | cons e es ih =>
    unfold State.pagesPut
    split
    · next e => exact ih (h.kvPut.of_eq e)
    · next e => exact h.kvPut.of_eq e

theorem State.memOk.swapIn (h : s.memOk) {slot data} : (s.swapIn slot data).memOk := by
  unfold State.swapIn
  refine .ite h ?_
  extract_lets
  split
  · next e =>
    have h1 := h.pagesPut.of_eq e
    split
    · next e => exact (h1.listPut.of_eq e).freeSlotSwap.onSeq.bump.seqRecord
    · next e => exact (h1.listPut.of_eq e).kvFail
  · next e => exact (h.pagesPut.of_eq e).kvFail

theorem State.memOk.cmdDone (h : s.memOk) {status slot reason} : (s.cmdDone status slot reason).memOk := by
  unfold State.cmdDone
  split
  · exact h
  · extract_lets _ s1 s2
    have h1 : s1.memOk := .ite h.bump h
    have h2 : s2.memOk := h1.attCmdDone
    exact h2

theorem State.memOk.admitHead (h : s.memOk) {c} : (s.admitHead c).memOk := by
  unfold State.admitHead
  extract_lets _ _ _ _ _ _ s1
  have h1 : s1.memOk := h
  split
  · exact h.cmdDone
  · refine .ite h.cmdDone (.ite h.cmdDone (.ite ?_ ?_))
    · extract_lets s2
      have h2 : s2.memOk := h1.onSeq
      split
      · next e => exact (h2.takePages.of_eq e).cmdDone
      · next e => exact (h2.takePages.of_eq e).kvFail
    · refine .ite h.cmdDone ?_
      split
      exacts [h.evict, h.cmdDone]

theorem State.memOk.releaseHead (h : s.memOk) {c} : (s.releaseHead c).memOk := by
  unfold State.releaseHead
  refine .ite h ?_
  extract_lets s1 s2
  have h1 : s1.memOk := .ite h.freeSlot h
  have h2 : s2.memOk := h1.onHq
  exact h2

theorem State.memOk.admitRun (h : s.memOk) {c left k} : (s.admitRun c left k).memOk := by
  induction k generalizing s with
  | zero => exact h
  | succ k ih => exact .ite (ih h.admitHead) h

theorem State.memOk.runCmd (h : s.memOk) {op} : (s.runCmd op).memOk := by
  unfold State.runCmd
  split
  exacts [h, .ite h (.ite h.admitRun h.releaseHead)]

theorem State.memOk.runCmds (h : s.memOk) {k} : (s.runCmds k).memOk := by
  induction k generalizing s with
  | zero => exact h
  | succ k ih =>
    unfold State.runCmds
    split
    exacts [h, .ite (ih h.runCmd) h]

theorem State.memOk.beginStep (h : s.memOk) {r} : (s.beginStep r).memOk := .foldl (by exact h) (fun _ _ h => .ite h h.seqRecord)
theorem State.memOk.entryDone (h : s.memOk) {x e code} : (s.entryDone x e code).memOk := .seqRecord (by exact h)

theorem State.memOk.driveStep (h : s.memOk) {k} : (s.driveStep k).memOk := by
  induction k generalizing s with
  | zero => exact h
  | succ k ih =>
    unfold State.driveStep
    split
    · exact h
    · refine .ite h ?_
      split
      · exact .swapInWaiting (by exact h)
      · extract_lets
        refine .ite (ih h.entryDone) (.ite ?_ ?_)
        · split
          · next e => exact ih (h.takePages.of_eq e).onSeq.entryDone
          · next e => exact (h.takePages.of_eq e).kvFail
        · extract_lets
          split
          exacts [ih h.evict, h]

theorem State.memOk.allocateStep (h : s.memOk) : (s.allocateStep).memOk := by
  unfold State.allocateStep
  refine .ite h (.ite h.driveStep ?_)
  extract_lets
  split
  exacts [h, .ite h.runCmds h.runCmds.beginStep.driveStep]

theorem State.memOk.copyRun (h : s.memOk) {es} : (s.copyRun es).1.memOk := by
  induction es generalizing s with
  | nil => exact h
  | cons e es ih =>
    unfold State.copyRun
    split
    · next e1 =>
      have h1 := h.kvGet.of_eq e1
      split
      · next e2 => exact ih (h1.kvPut.of_eq e2)
      · next e2 => exact h1.kvPut.of_eq e2
    · next e1 => exact h.kvGet.of_eq e1

theorem State.memOk.proceed (h : s.memOk) {n} : (s.proceed n).memOk := by
  unfold State.proceed
  split
  · refine .ite h (.ite h.attError ?_)
    extract_lets
    split
    · next e =>
      have h1 := h.kvGet.of_eq e
      split
      · next e => exact (h1.copyRun.of_eq e).attReady
      · next e => exact (h1.copyRun.of_eq e).kvFail
    · next e => exact (h.kvGet.of_eq e).kvFail
  · exact h

theorem State.memOk.emit (h : s.memOk) {n} : (s.emit n).memOk := by
  unfold State.emit
  split
  · exact h
  · refine .ite h ?_
    extract_lets _ _ s1 _ s2 _ s3 s4
    have h1 : s1.memOk := h.put.setFull.advProd
    have h2 : s2.memOk := h1.bump.bump
    have h3 : s3.memOk := .ite h2.bump h2
    have h4 : s4.memOk := h3.setReq
    exact .ite h4 h4

end
end Sys2Proof.Machine
end

section
/-! # Memory stays in its canonical form: links -/
namespace Sys2Proof.Machine
section
variable {s : State}

/-! ## Links -/

theorem State.memOk.onLane (h : s.memOk) {p key f} : (s.onLane p key f).memOk := h.onPort

theorem State.memOk.answerTxn (h : s.memOk) {p k o st bs} : (s.answerTxn p k o st bs).memOk := by
  unfold State.answerTxn
  split
  · split
    exacts [h.serve, h.bump]
  · exact h.xferAck
  · exact h

theorem State.memOk.dropTxns (h : s.memOk) {p ts} : (s.dropTxns p ts).memOk := h.foldl (fun _ _ h => .ite h h.answerTxn)
theorem State.memOk.portLost (h : s.memOk) {p} : (s.portLost p).memOk := h.onPort.dropTxns
theorem State.memOk.linkDown (h : s.memOk) {p} : (s.linkDown p).memOk := h.portLost.event.linkFault
theorem State.memOk.pathDown (h : s.memOk) {p peer} : (s.pathDown p peer).memOk := h.onPort.onLane.dropTxns.event.linkFault
theorem State.memOk.portStart (h : s.memOk) {p} : (s.portStart p).memOk := h.onPort

theorem State.memOk.trainFail (h : s.memOk) {p t record} : (s.trainFail p t record).memOk := by
  unfold State.trainFail
  extract_lets _ s1 s2
  have h1 : s1.memOk := h.onPort.event
  have h2 : s2.memOk := .ite h1.linkFault h1
  exact .ite h2.useFree.useFree.blockFaulted h2

theorem State.memOk.trainDone (h : s.memOk) {p t} : (s.trainDone p t).memOk := by
  unfold State.trainDone
  refine .ite h (.ite h.trainFail ?_)
  refine .ite h.trainFail ?_
  split
  exacts [h.trainFail, h.onPort]

theorem State.memOk.retrain (h : s.memOk) {p} : (s.retrain p).memOk := .ite h.bump.onPort.linkDown h.bump.onPort
theorem State.memOk.emitFlits (h : s.memOk) {p key cls flits} : (s.emitFlits p key cls flits).memOk :=
  .ite h (.ite h.send (h.foldl (fun _ _ h => h.send)))

theorem State.memOk.takeCredits (h : s.memOk) {p} : (s.takeCredits p).1.memOk := by
  unfold State.takeCredits
  refine .ite_fst h ?_
  split
  exacts [h, h.onPort]

theorem State.memOk.sendBare (h : s.memOk) {p key type} : (s.sendBare p key type).memOk := h.takeCredits.emitFlits
theorem State.memOk.sendRetryReq (h : s.memOk) {p key} : (s.sendRetryReq p key).memOk := .ite h.sendBare.onLane.retrain h.sendBare.onLane

theorem State.memOk.formFlits (h : s.memOk) {p key n} : (s.formFlits p key n).1.memOk := by
  induction n generalizing s with
  | zero => exact h
  | succ n ih => exact .ite_fst h (ih h.takeCredits.onPort.onLane.bump)

theorem State.memOk.transmit (h : s.memOk) {p} : (s.transmit p).memOk := by
  unfold State.transmit
  refine .ite h ?_
  split
  · exact h.sendRetryReq
  · extract_lets _ _ s1
    have h1 : s1.memOk := .ite h.bump h
    split
    exacts [h1.formFlits.emitFlits, .ite (h1.foldl (fun _ _ h => h.sendBare)) h1.sendBare]

theorem State.memOk.resend (h : s.memOk) {p key seq} : (s.resend p key seq).memOk := h.bump.foldl (fun _ _ h => h.emitFlits)
theorem State.memOk.onRetryReq (h : s.memOk) {p key seq} : (s.onRetryReq p key seq).memOk := .ite h h.bump.resend
theorem State.memOk.takeAck (h : s.memOk) {p key ack} : (s.takeAck p key ack).memOk :=
  .ite (.ite h h.onLane) (.ite h.onLane (.ite h h.onLane))
theorem State.memOk.discardFlit (h : s.memOk) {p key seq} : (s.discardFlit p key seq).memOk := .ite h.onLane h
theorem State.memOk.pfc (h : s.memOk) {p cls} : (s.pfc p cls).memOk := .ite h (.ite h.onPort.bump.send (.ite h.onPort.bump.send h))
theorem State.memOk.acceptFlit (h : s.memOk) {p key f} : (s.acceptFlit p key f).memOk := h.bump.onLane.onPort.pfc

theorem State.memOk.takeFlit (h : s.memOk) {p key f} : (s.takeFlit p key f).memOk := by
  unfold State.takeFlit
  refine .ite h.bump.discardFlit ?_
  extract_lets s1 s2
  have h1 : s1.memOk := .ite h.takeAck h
  have h2 : s2.memOk := .ite h1 h1.onPort
  split
  exacts [h2.takeAck.onRetryReq, .ite h2.discardFlit (.ite h2.bump.discardFlit h2.acceptFlit), h2]

theorem State.memOk.receive (h : s.memOk) {p f corr uncorr} : (s.receive p f corr uncorr).memOk := .ite h h.bump.bump.takeFlit

theorem State.memOk.frameIn (h : s.memOk) {p fr} : (s.frameIn p fr).memOk := by
  unfold State.frameIn
  refine .ite h ?_
  extract_lets s1
  have h1 : s1.memOk := h.bump
  split
  exacts [h1, .ite h1 (.foldl (by exact .ite h.onLane.onPort h) (fun _ _ h => h.takeFlit))]

theorem State.memOk.pfcIn (h : s.memOk) {p prio on} : (s.pfcIn p prio on).memOk := .ite h.onPort.bump h
theorem State.memOk.ethTimeout (h : s.memOk) {p peer} : (s.ethTimeout p peer).memOk := .ite h (.ite h.pathDown h.onLane.bump.resend)

theorem State.memOk.retrained (h : s.memOk) {p t} : (s.retrained p t).memOk := by
  unfold State.retrained
  refine .ite h ?_
  split
  exacts [h.linkDown, .resend (by exact .onPort (by exact .ite h.bump.event h))]

theorem State.memOk.alignLost (h : s.memOk) {p} : (s.alignLost p).memOk := .ite h (.ite h.linkDown h.retrain)
theorem State.memOk.ackLate (h : s.memOk) {p} : (s.ackLate p).memOk := .ite h.retrain h

theorem State.memOk.askAgain (h : s.memOk) {p key} : (s.askAgain p key).memOk := by
  unfold State.askAgain
  split
  exacts [.ite h.sendRetryReq h, h]

/-! ## Requests and responses on the links -/

theorem State.memOk.takeMsg (h : s.memOk) {p e} : (s.takeMsg p e).memOk := .ite h.onPort h.onPort.onPort.pfc
theorem State.memOk.misrouted (h : s.memOk) {p m} : (s.misrouted p m).memOk := h.bump.linkFault

theorem State.memOk.respond (h : s.memOk) {p m st bs} : (s.respond p m st bs).memOk := by
  unfold State.respond
  extract_lets
  split
  exacts [h.queueMsg, h.bump]

theorem State.memOk.request (h : s.memOk) {f : Serve} (hf : ∀ {s j m}, s.memOk → (f s j m).1.memOk) {p kind} :
    (s.request p kind f).memOk := by
  unfold State.request
  split
  · exact h
  · extract_lets s1
    have h1 : s1.memOk := h.takeMsg
    split
    exacts [h1.misrouted, h1.bump.respond, h1.respond, (hf h1).respond]

theorem State.memOk.serveWrite (h : s.memOk) {j m} : (serveWrite s j m).1.memOk := by
  unfold Machine.serveWrite
  split
  · next e => exact (h.winWrite.of_eq e).hdrLanded
  · next e => exact h.winWrite.of_eq e

theorem State.memOk.serveRead (h : s.memOk) {j m} : (serveRead s j m).1.memOk := h.winRead

theorem State.memOk.peerXfadd (h : s.memOk) {j chip key a i blk hdr} : (s.peerXfadd j chip key a i blk hdr).1.memOk := by
  have hx : (s.xfEnter (fun s a len => ((s.winEnter (.peer key) .xfadd a len).1, (s.winEnter (.peer key) .xfadd a len).2.1)) a i).1.memOk :=
    h.xfEnter fun h => h.winEnter
  unfold State.peerXfadd
  split
  · next e =>
    have h1 := hx.of_eq e
    split
    · next e =>
      have h2 := h1.xfAddAt.of_eq e
      split
      exacts [h2.failTag, h2.fault]
    · next e => exact h1.xfAddAt.of_eq e
  · next e => exact hx.of_eq e

theorem State.memOk.serveXfadd (h : s.memOk) {j m} : (serveXfadd s j m).1.memOk := by
  unfold Machine.serveXfadd
  refine .ite_fst h.peerXfadd ?_
  split
  · exact h
  · extract_lets
    split
    exacts [h, h.peerXfadd]

theorem State.memOk.handoffHead (h : s.memOk) {p e} {t : State} (ht : s.handoffHead p e = some t) : t.memOk := by
  unfold State.handoffHead at ht
  extract_lets at ht
  split at ht
  · exact Option.some.inj ht ▸ h.takeMsg.misrouted
  · exact Option.some.inj ht ▸ h.takeMsg.bump.respond
  · exact Option.some.inj ht ▸ h.takeMsg.respond
  · split at ht
    · simp at ht
    · exact Option.some.inj ht ▸ h.takeMsg.respond
    · exact Option.some.inj ht ▸ h.takeMsg.bump.respond
    · split at ht
      · next e => exact Option.some.inj ht ▸ h.catchUp.asyncTry.of_eq e
      · next e => exact Option.some.inj ht ▸ (h.catchUp.asyncTry.of_eq e).takeMsg.putRow.bump.handUnits.respond

theorem State.memOk.timeHeld (h : s.memOk) {p heads} : (s.timeHeld p heads).memOk := .ite h h.onPort

theorem State.memOk.handoffStep (h : s.memOk) {p} : (s.handoffStep p).memOk := by
  unfold State.handoffStep
  extract_lets heads s1
  have h1 : s1.memOk := h.timeHeld
  cases hs : heads.findSome? fun e => s1.handoffHead p e with
  | none => exact h1
  | some t =>
    obtain ⟨e, -, he⟩ := List.exists_of_findSome?_eq_some hs
    exact h1.handoffHead he

theorem State.memOk.parkExpire (h : s.memOk) {p ch} : (s.parkExpire p ch).memOk := by
  unfold State.parkExpire
  split
  · exact h
  · extract_lets
    split
    exacts [.ite (h.onPort.foldl (fun _ _ h => h.takeMsg.bump.respond)) h, h]

theorem State.memOk.response (h : s.memOk) {p kind} : (s.response p kind).memOk := by
  unfold State.response
  split
  · exact h
  · extract_lets s1 _ s2
    have h1 : s1.memOk := h.takeMsg
    have h2 : s2.memOk := h1.onPort
    refine .ite h1.misrouted ?_
    split
    · exact h1
    · refine .ite h1 ?_
      extract_lets s3
      have h3 : s3.memOk := .ite h2 h2.answerTxn
      split
      exacts [h3.pumpAll, h3]

theorem State.memOk.txnExpire (h : s.memOk) {p k} : (s.txnExpire p k).memOk := by
  unfold State.txnExpire
  split
  exacts [h, .ite h h.onPort.bump.linkFault.answerTxn]

theorem State.memOk.lintelIn (h : s.memOk) {p j m} : (s.lintelIn p j m).memOk := .ite h.onLint (.ite h.onLint h.bump.linkFault)

theorem State.memOk.ctl (h : s.memOk) {f : State → Nat → Msg → State} (hf : ∀ {s j m}, s.memOk → (f s j m).memOk) {p is} :
    (s.ctl p is f).memOk := by
  unfold State.ctl
  split
  · exact h
  · extract_lets s1
    have h1 : s1.memOk := h.takeMsg
    split
    exacts [h1.misrouted, h1.bump, .ite h1.answerOpen h1, hf h1]

theorem State.memOk.redCtl (h : s.memOk) {f : State → Nat → Msg → State} (hf : ∀ {s j m}, s.memOk → (f s j m).memOk) {p sub} :
    (s.redCtl p sub f).memOk :=
  h.ctl hf

end
end Sys2Proof.Machine
end

section
/-! # Memory stays in its canonical form: jobs, host interface, power, boot and registers -/
namespace Sys2Proof.Machine
section
variable {s : State}

/-! ## Blocks -/

theorem State.memOk.zeroRange (h : s.memOk) {a n} : (s.zeroRange a n).memOk := Memory.wf_memZero _ _ h
theorem State.memOk.zeroSill (h : s.memOk) {n} : (s.zeroSill n).memOk := h.zeroRange
theorem State.memOk.endFlight (h : s.memOk) {is st} : (s.endFlight is st).memOk := h

theorem State.memOk.endAt (h : s.memOk) {b st} : (s.endAt b st).memOk := by
  unfold State.endAt
  split
  exacts [h.endFlight, h.endFlight, h.portLost]

theorem State.memOk.closeOne (h : s.memOk) {b retire} : (s.closeOne b retire).memOk := by
  unfold State.closeOne
  refine .ite h ?_
  extract_lets s1
  have h1 : s1.memOk := h.onLife
  split
  exacts [.ite h1.portLost h1.linkDown, h1.tearJob]

theorem State.memOk.closeBlock (h : s.memOk) {b retire} : (s.closeBlock b retire).memOk := by
  unfold State.closeBlock
  split
  exacts [h.closeOne.closeOne, h.closeOne]

theorem State.memOk.closed (h : s.memOk) {b} : (s.closed b).memOk := .ite h.endAt.onLife h

theorem State.memOk.openBlock (h : s.memOk) {b} : (s.openBlock b).memOk := by
  unfold State.openBlock
  refine .ite h ?_
  extract_lets s1
  have h1 : s1.memOk := h.onLife
  split
  exacts [h1.zeroSill, h1, h1.portStart]

theorem State.memOk.testFailed (h : s.memOk) {b} : (s.testFailed b).memOk := h.useFree.useFree.blockFaulted

theorem State.memOk.selfTest (h : s.memOk) {b pass} : (s.selfTest b pass).memOk := by
  unfold State.selfTest
  refine .ite h (.ite h.onLife ?_)
  split
  exacts [h.portLost.testFailed, h.testFailed]

theorem State.memOk.fatalUnit (h : s.memOk) {u off mask} : (s.fatalUnit u off mask).memOk := h.setFatal.fault.tearJob

theorem State.memOk.parityFault (h : s.memOk) {u off mask} : (s.parityFault u off mask).memOk := by
  unfold State.parityFault
  split
  · refine .ite h ?_
    split
    exacts [h.portLost.blockFaulted, h.blockFaulted.endAt]
  · exact h.fatalUnit

/-! ## Jobs -/

theorem State.memOk.putBytes (h : s.memOk) {p o bs} : (s.putBytes p o bs).memOk := h.foldl (fun _ _ h => h.setPreg)
theorem State.memOk.setMeas (h : s.memOk) {i bs} : (s.setMeas i bs).memOk := h.putBytes
theorem State.memOk.extend (h : s.memOk) {i d} : (s.extend i d).memOk := h.setMeas
theorem State.memOk.takeJob (h : s.memOk) {c} : (s.takeJob c).memOk := h
theorem State.memOk.jobRefuse (h : s.memOk) {c reason} : (s.jobRefuse c reason).memOk := .jobDone (by exact .ite h.bump.hostFault h.bump)

theorem State.memOk.retireMarked (h : s.memOk) : (s.retireMarked).memOk := by
  unfold State.retireMarked
  extract_lets _ one
  have hone : ∀ {s : State} {n base b}, s.memOk → (one s n base b).memOk := fun h => .ite h.clearBit128.closeBlock h
  exact h.foldl fun _ _ h => hone (hone h)

theorem State.memOk.loadSect (h : s.memOk) {j img x} : (s.loadSect j img x).memOk := by
  unfold State.loadSect
  extract_lets
  split
  · exact h.quarryWrite
  · exact h.quarryWrite
  · exact h.foldl (fun _ _ h => h.setPreg)
  · exact (h.foldl (fun _ _ h => h.writeWin)).writeWin
  · exact .onJob (by exact .ite h (h.foldl (fun _ _ h => h.setReg)))
  · exact h

theorem State.memOk.loadLintels (h : s.memOk) {j img} : (s.loadLintels j img).memOk := by
  unfold State.loadLintels
  extract_lets
  split
  exacts [h, h.foldl (fun _ _ h => .ite h.onLint h)]

theorem State.memOk.loadBody (h : s.memOk) {c j img} : (s.loadBody c j img).memOk := by
  unfold State.loadBody
  extract_lets _ _ _ _ _ _ s1 s2 s3 s4 s5 s6 s7 s8 s9 s10
  have h1 : s1.memOk := h.onJob
  have h2 : s2.memOk := h1.foldl (fun _ _ h => h.setPreg)
  have h3 : s3.memOk := h2.foldl (fun _ _ h => h.loadSect)
  have h4 : s4.memOk := h3.foldl (fun _ _ h => h.loadSect)
  have h5 : s5.memOk := h4.loadLintels
  have h6 : s6.memOk := h5.setReg64
  have h7 : s7.memOk := h6.setPreg
  have h8 : s8.memOk := h7.setPreg
  have h9 : s9.memOk := h8
  have h10 : s10.memOk := h9.onJob.armAll
  exact .ite h10.bump.jobDone h10.bump.jobDone

theorem State.memOk.doLoad (h : s.memOk) {image} : (s.doLoad image).memOk := by
  unfold State.doLoad
  split
  · exact h
  · extract_lets s1 _ s2
    have h1 : s1.memOk := h.takeJob
    have h2 : s2.memOk := h1.retireMarked
    refine .ite h1.jobRefuse (.ite h2.jobRefuse ?_)
    refine .ite h2.jobRefuse ?_
    split
    · exact h2.jobRefuse
    · refine .ite h2.jobRefuse (.ite h2.jobRefuse ?_)
      extract_lets s3
      have h3 : s3.memOk := h2.setMeas.extend
      refine .ite h3.jobRefuse ?_
      split
      exacts [h3.loadBody, h3.jobRefuse]

theorem State.memOk.pauseBench (h : s.memOk) {n} : (s.pauseBench n).memOk := h.onQuarry
theorem State.memOk.switchOut (h : s.memOk) {o incoming c} : (s.switchOut o incoming c).memOk :=
  .foldl (by exact .redClock (by exact .onJob (by exact h))) (fun _ _ h => h.onCore.pauseBench)
theorem State.memOk.switchIn (h : s.memOk) {i} : (s.switchIn i).memOk := .onJob (by exact h)

theorem State.memOk.doRun (h : s.memOk) : (s.doRun).memOk := by
  unfold State.doRun
  split
  · exact h
  · extract_lets s1
    have h1 : s1.memOk := h.takeJob
    refine .ite h1.jobRefuse (.ite h1.jobDone ?_)
    refine .ite h1.jobRefuse (.ite h1.jobRefuse ?_)
    split
    exacts [h1.switchOut, .switchIn (by exact h1)]

theorem State.memOk.doPark (h : s.memOk) : (s.doPark).memOk := by
  unfold State.doPark
  split
  · exact h
  · extract_lets s1
    have h1 : s1.memOk := h.takeJob
    split
    exacts [h1.switchOut, h1.jobRefuse]

theorem State.memOk.finishOps (h : s.memOk) {n} : (s.finishOps n).memOk := h.catchUp.onCore.checkRun

theorem State.memOk.finished (h : s.memOk) : (s.finished).memOk := by
  unfold State.finished
  split
  exacts [h.foldl (fun _ _ h => h.finishOps), h]

theorem State.memOk.toSave (h : s.memOk) : (s.toSave).memOk := .ite h h
theorem State.memOk.drained (h : s.memOk) : (s.drained).memOk := .ite h.finished.toSave h
theorem State.memOk.drainLimit (h : s.memOk) : (s.drainLimit).memOk := .ite ((h.finished.foldl (fun _ _ h => h.abandon)).toSave) h
/-- The poison map that a saved sill carries keeps the form of the memory that it is written into (R390). -/
theorem State.memOk.saveSill (h : s.memOk) {j n} : (s.saveSill j n).memOk := by
  unfold State.saveSill
  extract_lets _ _ _ s1 s2 s3 s4 mark
  have h1 : s1.memOk := h.foldl fun _ _ h => h.sillEvent
  have h2 : s2.memOk := Memory.wf_memCopy _ _ _ h1
  have h3 : s3.memOk := h2.zeroRange
  have h4 : s4.memOk := .of_mem (t := s3) rfl h3
  have hm : ∀ m e, Memory.wf m = true → Memory.wf (mark m e) = true := fun _ _ h => Memory.wf_memSet _ _ h
  refine .bump (p := .quarry n) ?_
  exact List.foldlRecOn (motive := fun m => Memory.wf m = true) _ mark h4 fun _ hw _ _ => hm _ _ hw

theorem State.memOk.restoreSill (h : s.memOk) {j n} : (s.restoreSill j n).memOk := by
  unfold State.restoreSill
  extract_lets _ _ _ s1 s2 s3 s4
  have h1 : s1.memOk := h.bump.foldl fun _ _ h => h.quarryEvent
  have h2 : s2.memOk := h1.zeroRange
  have h3 : s3.memOk := Memory.wf_memCopy _ _ _ h2
  have h4 : s4.memOk := h3.foldl fun _ _ h => h.poison
  exact h4.foldl fun _ _ h => h.poison

theorem State.memOk.saveAreas (h : s.memOk) {j n} : (s.saveAreas j n).memOk := h.putFree
theorem State.memOk.saveCore (h : s.memOk) {j n} : (s.saveCore j n).memOk := h.saveSill.saveAreas.onJob.onQuarry.onCore

theorem State.memOk.switchEnd (h : s.memOk) {slot} : (s.switchEnd slot).memOk := by
  unfold State.switchEnd
  extract_lets _ cmd s1
  have h1 : s1.memOk := .bump (by exact .setPreg (by exact h))
  clear_value cmd
  split
  exacts [h1.jobDone, h1]

theorem State.memOk.saveDone (h : s.memOk) : (s.saveDone).memOk := by
  unfold State.saveDone
  refine .ite h ?_
  extract_lets o s1
  clear_value o
  have h1 : s1.memOk := by
    unfold s1
    split
    · refine .ite ?_ h
      extract_lets s2 s3
      have h2 : s2.memOk := h.foldl (fun _ _ h => h.saveCore)
      have h3 : s3.memOk := h2.onJob
      exact h3
    · exact h
  clear_value s1
  split
  exacts [h1.switchIn, h1.switchEnd]

theorem State.memOk.releaseCore (h : s.memOk) {n} : (s.releaseCore n).memOk := h.stopCore.onQuarry
theorem State.memOk.clearEnded (h : s.memOk) {i} : (s.clearEnded i).memOk := h.foldl (fun _ _ h => h.releaseCore)
theorem State.memOk.startCore (h : s.memOk) {j n} : (s.startCore j n).memOk := h.zeroSill.setCore
theorem State.memOk.newJobRegs (h : s.memOk) {n} : (s.newJobRegs n).memOk := h.setPreg.setPreg.setPreg
theorem State.memOk.restartQueue (h : s.memOk) {n q} : (s.restartQueue n q).memOk := .ite h.onSq (.ite h.resumeQueue h)
theorem State.memOk.restoreCore (h : s.memOk) {j n} : (s.restoreCore j n).memOk :=
  (h.restoreSill.setCore.foldl (fun _ _ h => h.restartQueue)).onQuarry
theorem State.memOk.putRegs (h : s.memOk) {j} : (s.putRegs j).memOk := h

theorem State.memOk.restoreDone (h : s.memOk) : (s.restoreDone).memOk := by
  unfold State.restoreDone
  extract_lets cmd
  clear_value cmd
  split
  · refine .ite ?_ ((((h.clearEnded.putRegs.foldl (fun _ _ h => .ite h.restoreCore h.startCore.newJobRegs)).onJob).redResume).switchEnd)
    extract_lets s1
    have h1 : s1.memOk := .onJob (by exact h)
    split
    exacts [h1.jobRefuse, h1]
  · exact h

theorem State.memOk.doTeardown (h : s.memOk) : (s.doTeardown).memOk := by
  unfold State.doTeardown
  split
  exacts [h, .ite h.takeJob.tearCore.jobDone h.takeJob.jobRefuse]

theorem State.memOk.unloadBody (h : s.memOk) {j} : (s.unloadBody j).memOk := by
  unfold State.unloadBody
  extract_lets _ s1 s2 s3
  have h1 : s1.memOk := h.foldl (fun _ _ h => h.releaseCore)
  have h2 : s2.memOk := h1.closeWindows.attTeardown.dropLintels
  have h3 : s3.memOk := h2.foldl (fun _ _ h => h.foldl (fun _ _ h => .ite h h.setPreg))
  exact (State.memOk.withRed h3.setReg64.setPreg.setPreg).setMeas.onJob

theorem State.memOk.doUnload (h : s.memOk) : (s.doUnload).memOk := by
  unfold State.doUnload
  split
  exacts [h, .ite h.takeJob.unloadBody.jobDone h.takeJob.jobRefuse]

/-! ## The host interface -/

theorem State.memOk.bar0Invalid (h : s.memOk) {off size write} : (s.bar0Invalid off size write).memOk := .hostFault (by exact .ite h h.send)
theorem State.memOk.bar0Access (h : s.memOk) {off size write} : (s.bar0Access off size write).memOk := .ite h h.bar0Invalid
theorem State.memOk.answer (h : s.memOk) {n v} : (s.answer n v).memOk := h.send

theorem State.memOk.ctrLow (h : s.memOk) {off wide} : (s.ctrLow off wide).memOk := by
  unfold State.ctrLow
  refine .ite h.bar0Invalid ?_
  split
  exacts [.answer (by exact h), h.answer, h.answer, h.answer]

theorem State.memOk.ctrHigh (h : s.memOk) {off} : (s.ctrHigh off).memOk := by
  unfold State.ctrHigh
  refine .ite h.bar0Invalid ?_
  split
  · split
    exacts [.answer (by exact h), h.answer]
  · exact h.answer

theorem State.memOk.bar2Denied (h : s.memOk) {a} : (s.bar2Denied a).memOk := h.bump.setReg64

theorem State.memOk.bar2Read (h : s.memOk) {off len} : (s.bar2Read off len).memOk := by
  unfold State.bar2Read
  extract_lets
  split
  · next e =>
    have h1 := h.winEnter.of_eq e
    exact .ite h1.quarryRead.send h1.quarryRead.send
  · next e => exact (h.winEnter.of_eq e).bar2Denied.send

theorem State.memOk.bar2Write (h : s.memOk) {off bs poisoned} : (s.bar2Write off bs poisoned).memOk := by
  unfold State.bar2Write
  extract_lets _ s1
  have h1 : s1.memOk := .ite h.bump h
  split
  · next e =>
    have h2 := h1.winEnter.of_eq e
    exact .ite h2.settle.openRows.put.poison.bump.hostFault h2.quarryWrite
  · next e => exact (h1.winEnter.of_eq e).bar2Denied

theorem State.memOk.hqEnable (h : s.memOk) {i v} : (s.hqEnable i v).memOk := .ite h.setReg.onHq h.setReg.setReg.onHq.hostFault
theorem State.memOk.hqDisable (h : s.memOk) {i} : (s.hqDisable i).memOk := .ite h.setReg.dropHeld.onHq (.ite h.setReg.onHq h.setReg.onHq)

theorem State.memOk.hqWord0 (h : s.memOk) {i v} : (s.hqWord0 i v).memOk := by
  unfold State.hqWord0
  extract_lets s1 s2
  have h1 : s1.memOk := .ite h h.bump
  have h2 : s2.memOk := .ite h1 h1.bump
  exact .ite (.ite h1.hqEnable h1.setReg) (.ite h2 h2.hqDisable)

theorem State.memOk.hqStopped (h : s.memOk) {i} : (s.hqStopped i).memOk := .ite h.onHq h

theorem State.memOk.hostBell (h : s.memOk) {i v} : (s.hostBell i v).memOk := by
  unfold State.hostBell
  extract_lets s1
  have h1 : s1.memOk := .ite h h.bump
  exact .ite h1.bump (.ite (.ite h1.onHq.flushHeld h1.hqError.hostFault) (.ite h1.onHq h1.hqError.hostFault))

theorem State.memOk.doorbell (h : s.memOk) {n v} : (s.doorbell n v).memOk := by
  unfold State.doorbell
  refine .ite h.hostBell (.ite ?_ h.bump)
  extract_lets
  split
  exacts [h.bellResume, h.bellStop, h.strmRsvd.bump]

theorem State.memOk.startEntry (h : s.memOk) {i e} : (s.startEntry i e).memOk := by
  unfold State.startEntry
  extract_lets kind _ s1 s2
  have h1 : s1.memOk := h.onHq
  have h2 : s2.memOk := h1.postSq.hostFault
  clear_value kind s2
  split
  exacts [.ite h1.onQuarry h2, .ite h1 h2, .ite h1 h2.bump]

theorem State.memOk.sqFetch (h : s.memOk) {i entry} : (s.sqFetch i entry).memOk := by
  unfold State.sqFetch
  refine .ite h ?_
  split
  exacts [h.startEntry, h.hqError.hostFault]

theorem State.memOk.ackFault (h : s.memOk) : (s.ackFault).memOk := by
  unfold State.ackFault
  refine .ite h ?_
  extract_lets _ s1
  have h1 : s1.memOk := .ite h.releaseLatch h
  exact h1

theorem State.memOk.ackEvents (h : s.memOk) {v} : (s.ackEvents v).memOk := h
theorem State.memOk.dswAck (h : s.memOk) {v} : (s.dswAck v).memOk := .ite h.ackEvents.ackFault h.ackEvents
theorem State.memOk.holdoffEnd (h : s.memOk) {i} : (s.holdoffEnd i).memOk := .ite h.cqMessage h

theorem State.memOk.msixMask (h : s.memOk) {v masked} : (s.msixMask v masked).memOk := by
  unfold State.msixMask
  extract_lets s1
  have h1 : s1.memOk := h.setPreg
  exact .ite (.send (by exact h1)) h1

theorem State.memOk.linkUp (h : s.memOk) {rate width flit} : (s.linkUp rate width flit).memOk := .ite h h

theorem State.memOk.hifDown (h : s.memOk) : (s.hifDown).memOk := by
  unfold State.hifDown
  extract_lets s1 s2 s3
  have h1 : s1.memOk := h.endFlight
  have h2 : s2.memOk := h1.bump
  have h3 : s3.memOk := h2.failPrgs
  exact h3

theorem State.memOk.configure (h : s.memOk) {r} : (s.configure r).memOk := by
  unfold State.configure
  refine .ite h ?_
  split
  exacts [h, h, h, h, .ite h h, h.msixMask]

/-! ## Commits -/

theorem State.memOk.discard (h : s.memOk) {off v} : (s.discard off v).memOk := by
  unfold State.discard
  split
  · exact h
  · refine .ite h.bump ?_
    extract_lets s1
    have h1 : s1.memOk := .ite h h.bump
    exact .ite h1 h1

theorem State.memOk.readUnits (h : s.memOk) {a n k} : (s.readUnits a n k).1.memOk := by
  induction k generalizing s with
  | zero => exact h
  | succ k ih => exact .ite_fst h.winRead (ih h.winRead)

theorem State.memOk.readTable (h : s.memOk) {a n} : (s.readTable a n).1.memOk := h.readUnits

theorem State.memOk.tableOf (h : s.memOk) {named off a n size} : (s.tableOf named off a n size).1.memOk := by
  unfold State.tableOf
  refine .ite_fst h ?_
  split
  rename_i e
  have h1 := h.readTable.of_eq e
  split <;> exact h1

theorem State.memOk.pathTables (h : s.memOk) {k} : (s.pathTables k).1.memOk := by
  induction k with
  | zero => exact h
  | succ k ih => exact ih.tableOf

theorem State.memOk.readTables (h : s.memOk) : (s.readTables).1.memOk := by
  unfold State.readTables
  extract_lets
  split
  next e =>
  have h1 := h.tableOf.of_eq e
  extract_lets
  split
  next e =>
  have h2 := h1.tableOf.of_eq e
  split
  next e =>
  have h3 := h2.tableOf.of_eq e
  split
  next e =>
  exact h3.pathTables.of_eq e

theorem State.memOk.commitDone (h : s.memOk) {code group token bySvc bad} : (s.commitDone code group token bySvc bad).memOk := by
  unfold State.commitDone
  extract_lets _ s1 s2 s3 s4
  have h1 : s1.memOk := h.setPreg
  have h2 : s2.memOk := h1.setPreg.setPreg.setPreg
  have h3 : s3.memOk := .ite h2.setReg h2
  have h4 : s4.memOk := h3.bump
  exact .event (by exact h4)

theorem State.memOk.unstage (h : s.memOk) : (s.unstage).memOk := h

theorem State.memOk.commitReq (h : s.memOk) {v bySvc} : (s.commitReq v bySvc).memOk := by
  unfold State.commitReq
  extract_lets _ _ s1 _ _ s2
  have h1 : s1.memOk := .ite h h.bump
  have h2 : s2.memOk := h1
  refine .ite h1.bump (.ite h1.commitDone (.ite h1.commitDone ?_))
  split
  rename_i e
  have h3 := State.memOk.of_eq e (.ite_fst h2.readTables h2)
  extract_lets bads
  clear_value bads
  split
  exacts [h3.unstage.commitDone, h3]

theorem State.memOk.portApplied (h : s.memOk) {p old} : (s.portApplied p old).memOk :=
  .ite h (.portStart (by exact .ite h.portLost h.linkDown))
theorem State.memOk.vcoreApplied (h : s.memOk) {old} : (s.vcoreApplied old).memOk := .ite h (.send (by exact h))
theorem State.memOk.commitApply (h : s.memOk) {fenceNs} : (s.commitApply fenceNs).memOk := by
  unfold State.commitApply
  refine .ite h ?_
  extract_lets _ _ _ _ s1 s2 s3 s4
  have h1 : s1.memOk := h
  have h2 : s2.memOk := h1.bump.setReg64.extend
  have h3 : s3.memOk := h2.commitDone
  have h4 : s4.memOk := h3.foldl fun _ _ h => h.portApplied
  exact h4.vcoreApplied
theorem State.memOk.commitStopped (h : s.memOk) : (s.commitStopped).memOk := .ite h.unstage.commitDone h

/-! ## Power and thermal -/

theorem State.memOk.onPwr (h : s.memOk) {f} : (s.onPwr f).memOk := h
theorem State.memOk.supplyFault (h : s.memOk) {cause which job flags} : (s.supplyFault cause which job flags).memOk := h.fault

theorem State.memOk.regRead (h : s.memOk) {r v} : (s.regRead r v).memOk := by
  unfold State.regRead
  extract_lets
  split
  exacts [h.onPwr, h.onPwr.bump]

theorem State.memOk.pmbusPoll (h : s.memOk) {readings} : (s.pmbusPoll readings).memOk :=
  .ite h ((h.foldl (fun _ _ h => .ite h.regRead h)).onPwr)
theorem State.memOk.pmbusLimit (h : s.memOk) {r} : (s.pmbusLimit r).memOk := .ite h.onPwr.supplyFault h
theorem State.memOk.avsTimeout (h : s.memOk) : (s.avsTimeout).memOk := .ite h.onPwr.bump.supplyFault h
theorem State.memOk.avsReached (h : s.memOk) : (s.avsReached).memOk := h.onPwr

theorem State.memOk.louvre (h : s.memOk) : (s.louvre).memOk := by
  unfold State.louvre
  extract_lets
  split
  extract_lets _ _ _ s1 s2 s3
  have h1 : s1.memOk := h
  have h2 : s2.memOk := .ite h1.bump h1
  have h3 : s3.memOk := .ite h2.bump h2
  exact .ite h3.bump h3

theorem State.memOk.thermal (h : s.memOk) : (s.thermal).memOk := .ite h.onPwr h
theorem State.memOk.setStretch (h : s.memOk) {n} : (s.setStretch n).memOk := h.onCore
theorem State.memOk.setDroop (h : s.memOk) {k level} : (s.setDroop k level).memOk := h.onPwr.setStretch.setStretch
theorem State.memOk.droopDetect (h : s.memOk) {k deep} : (s.droopDetect k deep).memOk := .ite h.setDroop.bump.setPreg h
theorem State.memOk.droopStep (h : s.memOk) {k} : (s.droopStep k).memOk := .ite h h.setDroop
theorem State.memOk.alertMark (h : s.memOk) {n} : (s.alertMark n).memOk := .ite h h.onCore
theorem State.memOk.alertFall (h : s.memOk) : (s.alertFall).memOk := .ite (((h.foldl (fun _ _ h => h.alertMark)).onPwr).bump) h
theorem State.memOk.alertRise (h : s.memOk) {lowNs} : (s.alertRise lowNs).memOk := .ite h.onPwr.bump h
theorem State.memOk.rowRelease (h : s.memOk) : (s.rowRelease).memOk := .ite h.onPwr h
theorem State.memOk.alertLimit (h : s.memOk) : (s.alertLimit).memOk := .ite h.onPwr.supplyFault h
theorem State.memOk.excLow (h : s.memOk) {mv} : (s.excLow mv).memOk := h.setPreg
theorem State.memOk.excBegin (h : s.memOk) {mv} : (s.excBegin mv).memOk :=
  .ite h (.ite h.excLow (h.onPwr.setPreg.excLow.setPreg.setReg64.bump.event.foldl (fun _ _ h => h.setStretch)))
theorem State.memOk.excEnd (h : s.memOk) {lowest ns} : (s.excEnd lowest ns).memOk :=
  .ite h (h.excLow.setPreg.onPwr.foldl (fun _ _ h => h.setStretch))
theorem State.memOk.coreReset (h : s.memOk) {n} : (s.coreReset n).memOk := h.setCore
theorem State.memOk.coreDomainReset (h : s.memOk) {mv} : (s.coreDomainReset mv).memOk :=
  .ite h ((h.excBegin.endFlight.bump.supplyFault.tearJob.foldl (fun _ _ h => h.coreReset)).onPwr)
theorem State.memOk.coreRecover (h : s.memOk) : (s.coreRecover).memOk := .ite h (h.onPwr.foldl (fun _ _ h => .ite h h.onCore.zeroSill))
theorem State.memOk.coreLost (h : s.memOk) : (s.coreLost).memOk := .ite h.onPwr.setFatal h
theorem State.memOk.thermalTrip (h : s.memOk) {logic sensor reading} : (s.thermalTrip logic sensor reading).memOk :=
  .ite h h.setPreg.setFatal.fault.commitStopped.send.onPwr

/-! ## Reset and boot -/

theorem State.memOk.onBoot (h : s.memOk) {f} : (s.onBoot f).memOk := h
theorem State.memOk.secFault (h : s.memOk) {cause off} : (s.secFault cause off).memOk := h.fault
theorem State.memOk.inReset {perst devRst pwrgd} : (s.inReset perst devRst pwrgd).memOk := (rfl : Memory.wf [] = true)
theorem State.memOk.setSec (h : s.memOk) {bit v} : (s.setSec bit v).memOk := h.setPreg
theorem State.memOk.bootStart (h : s.memOk) {fusesOk} : (s.bootStart fusesOk).memOk :=
  .ite h.onBoot.setSec.setSec.onBoot h.onBoot.setSec.secFault.onBoot
theorem State.memOk.setReady (h : s.memOk) : (s.setReady).memOk := h
theorem State.memOk.keyDone (h : s.memOk) : (s.keyDone).memOk := .ite h h.onBoot.setReady
theorem State.memOk.putMail (h : s.memOk) {bs} : (s.putMail bs).memOk := h.putBytes
theorem State.memOk.mboxResult (h : s.memOk) {r} : (s.mboxResult r).memOk := h.onBoot
theorem State.memOk.bootFail (h : s.memOk) {e} : (s.bootFail e).memOk := h.onBoot
theorem State.memOk.mboxBad (h : s.memOk) : (s.mboxBad).memOk := h.mboxResult.bootFail
theorem State.memOk.imgBegin (h : s.memOk) {len} : (s.imgBegin len).memOk := .ite h.mboxResult (.ite h.mboxBad h.mboxResult.onBoot)
theorem State.memOk.imgChunk (h : s.memOk) {len} : (s.imgChunk len).memOk := .ite h.mboxResult (.ite h.mboxBad h.mboxResult.onBoot)
theorem State.memOk.imgEnd (h : s.memOk) {len} : (s.imgEnd len).memOk := .ite h.mboxResult (.ite h.mboxBad h.mboxResult.onBoot)
theorem State.memOk.setJobKey (h : s.memOk) {len} : (s.setJobKey len).memOk :=
  .ite h.mboxResult (.ite h.mboxBad h.putBytes.mboxResult.onBoot)

theorem State.memOk.mailCommand (h : s.memOk) {cmd len} : (s.mailCommand cmd len).memOk := by
  unfold State.mailCommand
  split
  exacts [h.imgBegin, h.imgChunk, h.imgEnd, h.setJobKey, .ite h.mboxResult h.mboxBad]

theorem State.memOk.mailBusy (h : s.memOk) : (s.mailBusy).memOk := h.useFree.onBoot
theorem State.memOk.mailbox (h : s.memOk) {cmd len} : (s.mailbox cmd len).memOk := .ite h (.ite h.bump h.mailCommand.mailBusy)
theorem State.memOk.handOver (h : s.memOk) {img} : (s.handOver img).memOk :=
  .onBoot (by exact .ite h.extend.setSec.setPreg.setSec.extend h.extend.setSec.setPreg)

theorem State.memOk.verified (h : s.memOk) : (s.verified).memOk := by
  unfold State.verified
  refine .ite h ?_
  extract_lets
  split
  exacts [h.handOver, h.bootFail]

theorem State.memOk.startTimeout (h : s.memOk) : (s.startTimeout).memOk := .ite h.bootFail h
theorem State.memOk.bringUp (h : s.memOk) : (s.bringUp).memOk := .ite h h.onBoot.setPreg.vcoreApplied
theorem State.memOk.bringUpFail (h : s.memOk) {b} : (s.bringUpFail b).memOk := .ite h h.testFailed
theorem State.memOk.soleFail (h : s.memOk) {u} : (s.soleFail u).memOk := h.useFree.useFree.fatalUnit

theorem State.memOk.upDone (h : s.memOk) {failed sole} : (s.upDone failed sole).memOk := by
  unfold State.upDone
  refine .ite h ?_
  extract_lets s1 s2 s3
  have h1 : s1.memOk := by exact (rfl : Memory.wf [] = true)
  have h2 : s2.memOk := h1.foldl fun _ _ h => h.bringUpFail
  have h3 : s3.memOk := h2.foldl fun _ _ h => h.soleFail
  exact h3.onBoot.setReady

theorem State.memOk.watchdog (h : s.memOk) : (s.watchdog).memOk := .ite h.onBoot.onPwr.setFatal.fault.tearJob h

theorem State.memOk.kick (h : s.memOk) {who} : (s.kick who).memOk := by
  unfold State.kick
  split
  exacts [h.onBoot, h]

/-! ## Identity -/

theorem State.memOk.secPolicy (h : s.memOk) {v} : (s.secPolicy v).memOk :=
  .ite h.secFault (.setSec (by exact .setPreg (by exact .ite h h.bump)))
theorem State.memOk.debugDenied (h : s.memOk) : (s.debugDenied).memOk := h.secFault
theorem State.memOk.sbSelect (h : s.memOk) {page off} : (s.sbSelect page off).memOk := .ite h.onBoot h

theorem State.memOk.sbRead (h : s.memOk) : (s.sbRead).memOk := by
  unfold State.sbRead
  refine .ite h ?_
  extract_lets
  split
  exacts [.ite h.send.onBoot h.useFree.send.onBoot, h]

theorem State.memOk.doeAnswer (h : s.memOk) {op ok body} : (s.doeAnswer op ok body).memOk := h.send
theorem State.memOk.attest (h : s.memOk) {nonce mask} : (s.attest nonce mask).memOk := h.doeAnswer

/-! ## Register writes -/

theorem State.memOk.rsvd (h : s.memOk) {p bad} : (s.rsvd p bad).memOk := .ite h.bump h

theorem State.memOk.progDenied (h : s.memOk) {p off} : (s.progDenied p off).memOk := by
  unfold State.progDenied
  split
  exacts [h.progFault, h]

theorem State.memOk.codeWrite (h : s.memOk) {p o v d} : (s.codeWrite p o v d).memOk := by
  unfold State.codeWrite
  extract_lets _ s1
  have h1 : s1.memOk := h.rsvd
  exact .ite h1 (.ite h1 h1.setReg)

theorem State.memOk.ctrWrite (h : s.memOk) {p o v} : (s.ctrWrite p o v).memOk := .ite h.setLoss h

theorem State.memOk.pageReq (h : s.memOk) {b v} : (s.pageReq b v).memOk := by
  unfold State.pageReq
  split
  exacts [h.closeBlock, h.openBlock, h.closeBlock, h]

theorem State.memOk.qctl (h : s.memOk) {n v d} : (s.qctl n v d).memOk := .ite h.codeWrite.bump h.codeWrite
theorem State.memOk.hqWrite (h : s.memOk) {i k v} : (s.hqWrite i k v).memOk := .ite h.rsvd (.ite h.rsvd.bump h.rsvd.setReg)

theorem State.memOk.write32 (h : s.memOk) {p o v who} : (s.write32 p o v who).memOk := by
  unfold State.write32
  refine .ite h (.ite (.ite h.secPolicy h.secFault) ?_)
  refine .ite h.ctrWrite (.ite h.discard ?_)
  split
  · split
    exacts [.ite h.hqWrite h.rsvd, h.rsvd]
  · refine .ite h.rsvd.pageReq ?_
    split
    · exact .ite h.commitReq h.codeWrite
    · exact .ite h.rsvd.dswAck h.codeWrite
    · exact .ite h.rsvd.msixMask h.codeWrite
    · exact .ite h.kick h.codeWrite
    · exact .ite (.ite h.hqWord0 h.hqWrite) h.codeWrite
    · exact .ite h.lossSample h.codeWrite
    · exact .ite h.writeWin (.ite h.qctl h.codeWrite)
    · exact .ite h.bump h.codeWrite
    · exact .ite h.rsvd.mailbox (.ite h.rsvd h.codeWrite)
    · exact h.rsvd.setPreg
    · exact h.codeWrite

theorem State.memOk.progWrite (h : s.memOk) {off v} : (s.progWrite off v).memOk := by
  unfold State.progWrite
  obtain ⟨e, he⟩ : ∃ e, v * 2 ^ 32 + off = e := ⟨_, rfl⟩
  rw [he]
  split
  · exact h.progDenied
  · extract_lets
    split
    · next hm => exact h.mirrorEntry hm
    · exact h.progDenied

theorem State.memOk.regWrite (h : s.memOk) {off v wide who} : (s.regWrite off v wide who).memOk := by
  unfold State.regWrite
  refine .ite (.ite h.progDenied (.ite h.progWrite.progWrite h.progWrite)) (.ite h.bar0Invalid ?_)
  refine .ite (.ite h h.doorbell) ?_
  split
  exacts [h, .ite h.write32.write32 h.write32]

theorem State.memOk.lossIn (h : s.memOk) {n v who} : (s.lossIn n v who).memOk := by
  unfold State.lossIn
  split
  exacts [.ite h.lossSample h.progDenied, h.lossSample]

end
end Sys2Proof.Machine
end

section
/-! # Memory stays in its canonical form: instructions and steps -/
namespace Sys2Proof.Machine
section
variable {s : State}

/-- Memory is in its canonical form in the state an outcome leads to. -/
def MemKept (o : Host.Outcome State Fault Refusal) : Prop := ∀ t, o = .next t → t.memOk

theorem State.memOk.next (h : s.memOk) : MemKept (.next s) := by
  rintro t ⟨⟩
  exact h

theorem State.memOk.finish {s0 : State} (h : s.memOk) : (finish s0 s).memOk := .of_mem (finish_mem _ _) h
theorem State.memOk.act (h : s.memOk) {f} (hf : ∀ {s : State}, s.memOk → (f s).memOk) : MemKept (act s f) :=
  (State.memOk.ite (hf h).finish h).next
theorem State.memOk.actSvc (h : s.memOk) {f} (hf : ∀ {s : State}, s.memOk → (f s).memOk) : MemKept (actSvc s f) :=
  (State.memOk.ite (hf h).finish h).next
theorem State.memOk.actCore (h : s.memOk) {n f} (hf : ∀ {s : State}, s.memOk → (f s).memOk) : MemKept (actCore s n f) :=
  h.act fun h => hf h.catchUp
theorem State.memOk.idle (h : s.memOk) : (s.idle).memOk := .ite h h

theorem State.memOk.privateDebug (h : s.memOk) {ir} : MemKept (execPrivateDebugInstruction ir s) := by
  unfold execPrivateDebugInstruction
  split
  · rintro t ⟨⟩
  · exact h.actSvc fun h => h.debugDenied

/-- Every instruction keeps memory in its canonical form: by cases on the instruction, from the rule of the operation it performs. -/
theorem State.memOk.exec (h : s.memOk) (i : Instr) : MemKept (exec i s) := by
  unfold Machine.exec
  cases i with
  | subBundleHold => exact h.act fun h => .ite h.holdSub h
  | ctlNop => exact h.actCore fun h => h.ctlLane
  | ctlLoop => exact h.actCore fun h => h.ctlLane
  | ctlSkip => exact h.actCore fun h => h.ctlLane
  | ctlArrive => exact h.actCore fun h => h.ctlLane
  | ctlWait => exact h.actCore fun h => h.ctlLane
  | ctlLintel => exact h.actCore fun h => h.ctlLane
  | ctlSwait => exact h.actCore fun h => h.ctlLane
  | ctlSdrop => exact h.actCore fun h => h.ctlLane
  | ctlSeta => exact h.actCore fun h => h.ctlLane
  | ctlSlotld => exact h.actCore fun h => h.ctlLane
  | ctlEnd => exact h.actCore fun h => h.lane h.evalOp fun h => h.closeSub.raiseEnd
  | strIssue => exact h.actCore fun h => h.opLane
  | strStop => exact h.actCore fun h => h.opLane
  | ldTload => exact h.actCore fun h => h.opLane
  | ldStage => exact h.actCore fun h => h.opLane
  | ldVec => exact h.actCore fun h => h.opLane
  | stOut => exact h.actCore fun h => h.lane h.evalOut id
  | stVec => exact h.actCore fun h => h.opLane
  | arrMul => exact h.actCore fun h => h.lane h.evalMul id
  | arrSwap => exact h.actCore fun h => h.opLane
  | vecAlu => exact h.actCore fun h => h.vecLane
  | vecSfu => exact h.actCore fun h => h.vecLane
  | vecRed => exact h.actCore fun h => h.vecLane
  | vecDact => exact h.actCore fun h => h.vecLane
  | instructionFetch => exact h.act fun h => h.fetchBlock
  | tileLoaderRow => exact h.act fun h => .ite h.loadUp.loaderStep h
  | arrayCheckResult => exact h.act fun h => h.checkNext
  | probeCheckResult => exact h.act fun h => h.checkNext
  | lintelRelease => exact h.act fun h => h.release
  | slotDeadlock => exact h.act fun h => h.detector
  | lintelWatchdog => exact h.act fun h => h.detector
  | streamWatchdogSample => exact h.act fun h => h.watchdogSample
  | streamDescriptorStart => exact h.act fun h => h.startStrm
  | streamRequestIssue => exact h.act fun h => h.engineIssue
  | windowEntryGenerate => exact h.act fun h => h.genWindow
  | streamReply => exact h.act fun h => h.streamReply
  | streamHalt => exact h.act fun h => h.strmHalt
  | pageRequestSend => exact h.act fun h => h.sendPrg
  | pageRequestResponse => exact h.act fun h => h.prgResponse
  | atsTranslationResponse => exact h.act fun h => h.atsResponse
  | atsInvalidation => exact h.act fun h => h.atsInvalidate
  | resume => exact h.act fun h => h.bellResume
  | stop => exact h.act fun h => h.bellStop
  | sillPatrolScrub => exact h.act fun h => h.sillPatrol
  | sillRepair => exact h.act fun h => h.sillRepair
  | remoteSillRequest => exact h.act fun h => h.remoteSill
  | meshParityError => exact h.act fun h => h.meshParity
  | quarryAdmission => exact h.act fun h => h.admission
  | quarryCommandIssue => exact h.act fun h => h.commandIssue
  | rowIdleClose => exact h.act fun h => h.rowIdle
  | refresh => exact h.act fun h => h.refresh
  | quarryPatrolScrub => exact h.act fun h => h.quarryPatrol
  | quarryRepair => exact h.act fun h => h.quarryRepair
  | sensorRead => exact h.act fun h => h.sensors
  | hotModeExit => exact h.act fun h => h.hotExit
  | windowOpen => exact h.act fun h => h.winWord0Write
  | windowClose => exact h.act fun h => h.winWord0Write
  | windowClosed => exact h.act fun h => h.winClosed
  | benchCommandStart => exact h.actCore fun h => h.benchStart
  | add => exact h.actCore fun h => h.benchElem
  | xchg => exact h.actCore fun h => h.benchElem
  | fill => exact h.actCore fun h => h.benchFill
  | toxf => exact h.actCore fun h => h.benchToxf
  | xfadd => exact h.actCore fun h => h.benchXfadd
  | sgd => exact h.actCore fun h => h.benchOpt
  | adamw => exact h.actCore fun h => h.benchOpt
  | lion => exact h.actCore fun h => h.benchOpt
  | benchExport => exact h.actCore fun h => h.doExport
  | benchImport => exact h.actCore fun h => h.doImport
  | tagArm => exact h.act fun h => h.rearm
  | shardVerify => exact h.act fun h => h.verifyShard
  | tagReduced => exact h.act fun h => h.reduce
  | verdictTrigger => exact h.act fun h => h.verdict
  | gatherSend => exact h.act fun h => h.gather
  | openMsg => exact h.act fun h => h.redCtl fun h => h.rxOpen
  | acceptMsg => exact h.act fun h => h.redCtl fun h => h.rxAccept
  | refuseMsg => exact h.act fun h => h.redCtl fun h => h.rxRefuse
  | openRetry => exact h.act fun h => h.retryOpen
  | doneMsg => exact h.act fun h => h.redCtl fun h => h.rxDone
  | deliverChecksum => exact h.act fun h => h.redCtl fun h => h.rxDeliver
  | gathered => exact h.act fun h => h.redCtl fun h => h.rxGathered
  | abortMsg => exact h.act fun h => h.redCtl fun h => h.rxAbort
  | reductionWatchdog => exact h.act fun h => h.redWatchdog
  | attentionRequest => exact h.act fun h => h.attTake
  | allocateStep => exact h.act fun h => h.allocateStep
  | pagedRequestProceed => exact h.act fun h => h.proceed
  | tileEntryEmit => exact h.act fun h => h.emit
  | swapOutComplete => exact h.act fun h => h.swapOut
  | admitSeq => exact h.act fun h => h.runCmd
  | releaseSeq => exact h.act fun h => h.runCmd
  | linkTrainingDone => exact h.act fun h => h.trainDone
  | flitTransmit => exact h.act fun h => h.transmit
  | flitReceive => exact h.act fun h => h.receive
  | retryReq => exact h.act fun h => .ite h h.onRetryReq
  | retryReqResend => exact h.act fun h => h.foldl fun _ _ h => h.askAgain
  | ackTimeout => exact h.act fun h => h.ackLate
  | laneAlignmentLoss => exact h.act fun h => h.alignLost
  | retrainDone => exact h.act fun h => h.retrained
  | write => exact h.act fun h => h.request fun h => h.serveWrite
  | read => exact h.act fun h => h.request fun h => h.serveRead
  | xfaddRequest => exact h.act fun h => h.request fun h => h.serveXfadd
  | handoff => exact h.act fun h => h.handoffStep
  | completion => exact h.act fun h => h.response
  | readData => exact h.act fun h => h.response
  | lintel => exact h.act fun h => h.ctl fun h => h.lintelIn
  | txnTimeout => exact h.act fun h => h.txnExpire
  | parkTimeout => exact h.act fun h => h.parkExpire
  | ethFrameReceive => exact h.act fun h => h.frameIn
  | pfcPause => exact h.act fun h => h.pfcIn
  | ethRetryTimeout => exact h.act fun h => h.ethTimeout
  | bar0InvalidAccess => exact h.actSvc fun h => h.bar0Access
  | registerWrite => exact h.actSvc fun h => h.regWrite
  | counterLowRead => exact h.actSvc fun h => h.ctrLow
  | counterHighRead => exact h.actSvc fun h => h.ctrHigh
  | bar2Read => exact h.act fun h => h.bar2Read
  | bar2Write => exact h.act fun h => h.bar2Write
  | queueEnable => exact h.actSvc fun h => h.hqWord0
  | queueDisable => exact h.actSvc fun h => h.hqWord0
  | sqStopComplete => exact h.actSvc fun h => h.hqStopped
  | sqDoorbell => exact h.actSvc fun h => h.doorbell
  | cqDoorbell => exact h.actSvc fun h => h.doorbell
  | sqEntryFetch => exact h.act fun h => h.sqFetch
  | ackFaultRecord => exact h.actSvc fun h => h.ackFault
  | clearEventFlag => exact h.actSvc fun h => h.ackEvents
  | intHoldoffExpiry => exact h.actSvc fun h => h.holdoffEnd
  | hostLinkDown => exact h.actSvc fun h => h.hifDown
  | load => exact h.act fun h => h.doLoad
  | run => exact h.act fun h => h.doRun
  | park => exact h.act fun h => h.doPark
  | teardown => exact h.act fun h => h.doTeardown
  | unload => exact h.act fun h => h.doUnload
  | preemptDrainDone => exact h.act fun h => h.drained
  | drainLimitExpiry => exact h.act fun h => h.drainLimit
  | switchSaveDone => exact h.act fun h => h.saveDone
  | switchRestoreDone => exact h.act fun h => h.restoreDone
  | reqClose => exact h.act fun h => h.closeBlock
  | reqOpen => exact h.act fun h => h.openBlock
  | reqRetire => exact h.act fun h => h.closeBlock
  | blockClosed => exact h.act fun h => h.closed
  | blockSelfTestDone => exact h.act fun h => h.selfTest
  | pmbusPoll => exact h.actSvc fun h => h.pmbusPoll
  | pmbusFailLimit => exact h.actSvc fun h => h.pmbusLimit
  | avsSettleTimeout => exact h.actSvc fun h => h.avsTimeout
  | louvreUpdate => exact h.actSvc fun h => h.louvre
  | thermalTermUpdate => exact h.actSvc fun h => h.thermal
  | droopDetect => exact h.act fun h => h.droopDetect
  | droopStepDown => exact h.act fun h => h.droopStep
  | pwrAlertNFall => exact h.act fun h => h.alertFall
  | pwrAlertNRise => exact h.act fun h => h.alertRise
  | alertRowRelease => exact h.act fun h => h.rowRelease
  | alertLimitExpiry => exact h.act fun h => h.alertLimit
  | excursionBegin => exact h.act fun h => h.excBegin
  | excursionEnd => exact h.act fun h => h.excEnd
  | coreDomainReset => exact h.act fun h => h.coreDomainReset
  | coreDomainRecovery => exact h.act fun h => h.coreRecover
  | vddCoreRecoveryTimeout => exact h.act fun h => h.coreLost
  | thermalTrip => exact h.actSvc fun h => h.thermalTrip
  | lossIn => exact h.act fun h => h.lossIn
  | svcKick => exact h.actSvc fun h => h.kick
  | stavufWatchdogExpiry => exact h.actSvc fun h => h.watchdog
  | commitReq _ who =>
    cases who with
    | host | svc => exact h.act fun h => h.commitReq
    | program => exact h.act id
  | commitApply => exact h.act fun h => h.commitApply
  | discard => exact h.actSvc fun h => h.discard
  | perstNAssert => exact State.memOk.inReset.next
  | devRstNAssert => exact State.memOk.inReset.next
  | pwrgdCoreFall => exact State.memOk.inReset.next
  | resetRelease => exact (State.memOk.ite h.bootStart.finish h).next
  | keyGenerationDone => exact h.actSvc fun h => h.keyDone
  | imageBegin => exact h.actSvc fun h => h.putMail.mailbox
  | imageChunk => exact h.actSvc fun h => h.putMail.mailbox
  | imageEnd => exact h.actSvc fun h => h.mailbox
  | imageVerifyDone => exact h.actSvc fun h => h.verified
  | setJobkey => exact h.actSvc fun h => h.putMail.mailbox
  | firmwareStartTimeout => exact h.actSvc fun h => h.startTimeout
  | bringUpComplete => exact h.act fun h => h.upDone
  | secPolicyWrite => exact h.actSvc fun h => h.secPolicy
  | privateDebugInstruction => exact h.privateDebug
  | sidebandPageSelect => exact h.actSvc fun h => h.sbSelect
  | sidebandRead => exact h.actSvc fun h => h.sbRead
  | doeDiscovery => exact h.actSvc fun h => h.send
  | getId => exact h.actSvc fun h => h.doeAnswer
  | getCerts => exact h.actSvc fun h => h.doeAnswer
  | attest => exact h.actSvc fun h => h.attest
  | hostLinkUp => exact h.actSvc fun h => h.linkUp
  | configurationRequest => exact h.actSvc fun h => h.configure
  | swapInComplete => exact h.act fun h => h.swapIn
  | avsVoltageReached => exact h.actSvc fun h => h.avsReached
  | bringUpStart => exact h.actSvc fun h => h.bringUp
  | controlParityFault => exact h.act fun h => h.parityFault

theorem State.memOk.step (h : s.memOk) : MemKept (step s) := by
  unfold Machine.step
  split
  · exact h.idle.next
  · exact State.memOk.exec (by exact h) _

end

/-- Settles O5: each of the model's state operations keeps memory in its canonical form, and a step is one instruction's operations. -/
theorem stepKeepsMemoryForm : Obligations.StepKeepsMemoryForm := by
  unfold Obligations.StepKeepsMemoryForm
  intro s t hs ht
  exact State.memOk.step hs t ht

end Sys2Proof.Machine
end

section
/-! A core that a fault has halted stays FAULTED through the teardown of its job (R169, R394): no operation of a teardown lifts the mark.
`State.faultedAt.f` is the rule of the operation `f`. -/

namespace Sys2Proof.Machine

/-- Core n stands FAULTED. -/
def State.faultedAt (s : State) (n : Nat) : Prop := (s.core n).faulted = true

section
variable {s : State} {n : Nat}

theorem State.faultedAt.of_cores {t : State} (e : t.cores = s.cores) (h : s.faultedAt n) : t.faultedAt n := by
  unfold State.faultedAt State.core
  rw [e]
  exact h

theorem State.faultedAt.ite {a b : State} {c : Prop} [Decidable c] (ha : a.faultedAt n) (hb : b.faultedAt n) :
    (if c then a else b).faultedAt n := by
  split <;> assumption

theorem State.faultedAt.foldl {α : Type} {xs : List α} {f : State → α → State} (h : s.faultedAt n)
    (hf : ∀ s x, s.faultedAt n → (f s x).faultedAt n) : (xs.foldl f s).faultedAt n :=
  List.foldlRecOn xs f h (fun s hs x _ => hf s x hs)

/-- An update of a core that leaves the mark. -/
theorem State.faultedAt.onCore (h : s.faultedAt n) {m} {f : Core → Core} (hf : ∀ c, (f c).faulted = c.faulted) :
    (s.onCore m f).faultedAt n := by
  unfold State.faultedAt
  rw [State.onCore_eq]
  by_cases e : n = m
  · subst e
    rw [State.core_setCore_same, hf]
    exact h
  · rw [State.core_setCore_ne _ _ e]
    exact h

/-! ### Records -/

theorem State.faultedAt.setPreg (h : s.faultedAt n) {p o v} : (s.setPreg p o v).faultedAt n := h
theorem State.faultedAt.bump (h : s.faultedAt n) {p o k} : (s.bump p o k).faultedAt n := h
theorem State.faultedAt.onJob (h : s.faultedAt n) {j f} : (s.onJob j f).faultedAt n := h
theorem State.faultedAt.onQuarry (h : s.faultedAt n) {m f} : (s.onQuarry m f).faultedAt n := h
theorem State.faultedAt.onTag (h : s.faultedAt n) {j t f} : (s.onTag j t f).faultedAt n := h
theorem State.faultedAt.onHq (h : s.faultedAt n) {i f} : (s.onHq i f).faultedAt n := h

theorem State.faultedAt.releaseLatch (h : s.faultedAt n) {unit seq} : (s.releaseLatch unit seq).faultedAt n :=
  .ite (h.onCore (by intro; rfl)).setPreg (.ite h h)

theorem State.faultedAt.keepFault (h : s.faultedAt n) {cls unit sub seq bytes} : (s.keepFault cls unit sub seq bytes).faultedAt n :=
  .ite h (State.faultedAt.releaseLatch (by exact h))

theorem State.faultedAt.fault (h : s.faultedAt n) {cls status job unit flags detail sub} :
    (s.fault cls status job unit flags detail sub).faultedAt n :=
  .ite h.keepFault h.keepFault

theorem State.faultedAt.post (h : s.faultedAt n) {q status source job sq head detail} :
    (s.post q status source job sq head detail).faultedAt n :=
  .ite h (.ite (h.of_cores (writeRecord_same _ _ _ (p := .cores) (by decide))) (.ite h (State.faultedAt.fault (by exact h))))

theorem State.faultedAt.jobDone (h : s.faultedAt n) {c slot status reason cls placed dur} :
    (s.jobDone c slot status reason cls placed dur).faultedAt n :=
  h.post.onHq

/-! ### Teardown -/

theorem State.faultedAt.dropFlight (h : s.faultedAt n) {m} : (s.dropFlight m).faultedAt n := h
theorem State.faultedAt.closeWindows (h : s.faultedAt n) {j} : (s.closeWindows j).faultedAt n := h
theorem State.faultedAt.dropLintels (h : s.faultedAt n) {j} : (s.dropLintels j).faultedAt n := h

theorem State.faultedAt.haltCore (h : s.faultedAt n) {m} : (s.haltCore m).faultedAt n :=
  State.faultedAt.onCore (h.onCore (by intro; rfl)).dropFlight (by intro; rfl)

theorem State.faultedAt.benchTeardown (h : s.faultedAt n) {j m qs} : (s.benchTeardown j m qs).faultedAt n := by
  refine h.foldl fun _ _ h => ?_
  split
  exacts [.ite h.post h, h]

theorem State.faultedAt.sendCtl (h : s.faultedAt n) {sender m} : (s.sendCtl sender m).faultedAt n := by
  unfold State.sendCtl
  extract_lets
  split
  exacts [h, h.bump.fault]

theorem State.faultedAt.sendAbort (h : s.faultedAt n) {j t status cls origin} : (s.sendAbort j t status cls origin).faultedAt n :=
  (State.faultedAt.foldl h fun _ _ h => h.sendCtl).bump

theorem State.faultedAt.attTeardown (h : s.faultedAt n) {j} : (s.attTeardown j).faultedAt n :=
  State.faultedAt.foldl (by exact h) fun _ _ h => h.post.onHq

theorem State.faultedAt.parksTorn (h : s.faultedAt n) {j cls} : (s.parksTorn j cls).faultedAt n :=
  h.foldl fun _ _ h => State.faultedAt.jobDone (by exact h)

theorem State.faultedAt.switchTorn (h : s.faultedAt n) {j cls} : (s.switchTorn j cls).faultedAt n := by
  unfold State.switchTorn
  have hdone : ∀ {c slot status reason cls placed dur},
      (({ s with sw := {} } : State).jobDone c slot status reason cls placed dur).faultedAt n := .jobDone (by exact h)
  refine .ite h (.ite ?_ (.ite ?_ h))
  · split
    · exact h
    · extract_lets
      split
      exacts [hdone, h]
  · extract_lets
    split
    exacts [hdone, h]

theorem State.faultedAt.leaveSlot (h : s.faultedAt n) {j} : (s.leaveSlot j).faultedAt n := .ite (h.of_cores rfl) h

theorem State.faultedAt.tearCore (h : s.faultedAt n) {j cls} : (s.tearCore j cls).faultedAt n := by
  unfold State.tearCore
  extract_lets _ _ sHalt sBench _ _ sTags _ sRed sAtt sTorn sKey sPark sSlot
  have hHalt : sHalt.faultedAt n := h.foldl fun _ _ h => h.haltCore
  have hBench : sBench.faultedAt n := hHalt.foldl fun _ _ h => .ite h.benchTeardown.onQuarry h.benchTeardown
  have hTags : sTags.faultedAt n := hBench.foldl fun _ _ h => .onTag (by exact .ite h h.sendAbort)
  have hRed : sRed.faultedAt n := hTags.of_cores rfl
  have hAtt : sAtt.faultedAt n := hRed.attTeardown.closeWindows.dropLintels
  have hKey : sKey.faultedAt n := hAtt.onJob.setPreg
  have hPark : sPark.faultedAt n := .ite hKey.parksTorn hKey
  have hSlot : sSlot.faultedAt n := hPark.leaveSlot
  exact hSlot.bump.switchTorn

theorem State.faultedAt.tearJob (h : s.faultedAt n) {job cls} : (s.tearJob job cls).faultedAt n := by
  unfold State.tearJob
  split
  exacts [.ite h.tearCore.post h, h]

end

/-- The core of a program fault is FAULTED. -/
theorem coreFault_faulted (s : State) (n check low addr : Nat) : ((s.coreFault n check low addr).core n).faulted = true := by
  have h : (s.onCore n (fun c => { c with faulted := true })).faultedAt n := by simp [State.faultedAt]
  exact h.fault.tearJob

/-- A program fault of a core keeps its record. -/
theorem coreFault_records (s : State) (n check low addr : Nat) : Records s (finish s (s.coreFault n check low addr)) 14 := by
  have hflt : (s.onCore n (fun c => { c with faulted := true })).flt = s.flt := rfl
  unfold State.coreFault
  exact progFault_records hflt ..

/-- A program fault of a core tears its job down (R169, R394). -/
theorem coreFault_tears {s : State} {n j : Nat} (hj : (s.core n).job = some j) (check low addr : Nat) :
    Tears s (finish s (s.coreFault n check low addr)) j := by
  unfold State.coreFault
  dsimp only
  rw [hj]
  generalize hu : s.onCore n (fun c => { c with faulted := true }) = u
  have hjob : ∀ m, (u.core m).job = (s.core m).job := by
    intro m
    rw [← hu, State.onCore_eq]
    by_cases e : m = n
    · subst e; simp
    · rw [State.core_setCore_ne _ _ e]
  have hjobs : u.jobs = s.jobs := by rw [← hu]; rfl
  have hsw : u.sw = s.sw := by rw [← hu]; rfl
  intro ht hi
  have hst : u.job j = s.job j := by simp [State.job, hjobs]
  obtain ⟨htorn, hrun, hcores⟩ := progFault_tears (u := u) rfl rfl rfl j _ _ _ _ _ _ _ (hst ▸ ht) (hsw ▸ hi)
  refine ⟨by simpa using htorn, by simpa using hrun, fun m hm hmj => ?_⟩
  simpa using hcores m (hst ▸ hm) ((hjob m).trans hmj)

end Sys2Proof.Machine
end

section
/-! SUB_BUNDLE_HOLD (R32, R34, R168): what a held CCLK counts, what the evaluation of a CCLK answers, and what the command leaves. -/

namespace Sys2Proof.Machine

/-! ### A conflict at the sill's banks, counted -/

theorem countConflict_nil (s : State) (n : Nat) : s.countConflict n [] = s := rfl

theorem countConflict_same (s : State) (n : Nat) (rs : List Resv) {p : Part} (h : p ≠ .ctrs) : p.same s (s.countConflict n rs) := by
  unfold State.countConflict
  split
  exacts [bump_same _ _ _ _ h, Part.same_refl s p]

theorem countConflict_core (s : State) (n : Nat) (rs : List Resv) (m : Nat) : (s.countConflict n rs).core m = s.core m := by
  have h : (s.countConflict n rs).cores = s.cores := countConflict_same s n rs (p := .cores) (by decide)
  rw [State.core, State.core, h]

theorem countConflict_pending (s : State) (n : Nat) (rs : List Resv) : (s.countConflict n rs).pending = s.pending := by
  unfold State.countConflict
  split <;> rfl

/-- The sill's counters are none of its core's. -/
theorem countConflict_coreCtr (s : State) (n : Nat) (rs : List Resv) {o : Nat} (h : o < 0x3000) :
    (s.countConflict n rs).ctr (.core n) o = s.ctr (.core n) o := by
  unfold State.countConflict
  split
  · exact State.ctr_bump_ne _ _ (by simp only [Page.base]; omega)
  · rfl

/-! ### A held CCLK -/

/-- The counters that a held CCLK moves: CCLK, the droop count and the one of its cause (R34, R172). -/
def heldCtrs (n cause : Nat) : List Nat := ctrsAt (.core n) [0x40, 0x50, 0x200 + 8 * (cause - 1)]

section
variable (s : State) (n cause : Nat) (slot : Option (Nat × Nat)) (lint : Option Nat) (mark : Option (Nat × Nat))

/-- A held CCLK passes: the clock, the cause, and what the deadlock detectors count of the wait. -/
theorem heldFor_core :
    let c := (s.heldFor n cause slot lint mark).core n
    c.hold = cause ∧ c.cclk = (s.core n).cclk + 1 ∧ c.pc = (s.core n).pc ∧ c.loops = (s.core n).loops ∧ c.cur = (s.core n).cur ∧
    c.vec = (s.core n).vec ∧ c.arr = (s.core n).arr ∧
    c.program = { (s.core n).program with heldSlot := c.heldSlot, heldLint := c.heldLint } := by
  simp [State.heldFor, State.tick, Core.program]

theorem heldFor_core_ne {m : Nat} (h : m ≠ n) : (s.heldFor n cause slot lint mark).core m = s.core m := by
  simp [State.heldFor, State.tick, State.core_setCore_ne _ _ h]

theorem heldFor_same {p : Part} (h : p ≠ .cores ∧ p ≠ .ctrs) : p.same s (s.heldFor n cause slot lint mark) := by
  obtain ⟨hcores, hctrs⟩ := h
  cases p
  case cores => exact absurd rfl hcores
  case ctrs => exact absurd rfl hctrs
  all_goals simp [Part.same, Part.kept, State.heldFor, State.tick]

theorem heldFor_pending : (s.heldFor n cause slot lint mark).pending = s.pending := rfl

/-- The counters of a held CCLK: the one of its cause, then CCLK and the droop count. -/
theorem heldFor_ctrs : (s.heldFor n cause slot lint mark).ctrs =
    (((s.bump (.core n) (0x200 + 8 * (cause - 1))).bump (.core n) 0x40).bump (.core n) 0x50 (s.core n).droop).ctrs := rfl

theorem heldFor_ctrs_ne {k : Nat} (h : k ∉ heldCtrs n cause) : tget 0 (s.heldFor n cause slot lint mark).ctrs k = tget 0 s.ctrs k := by
  simp only [heldCtrs, ctrsAt, List.map_cons, List.map_nil, List.mem_cons, List.not_mem_nil, or_false, not_or] at h
  obtain ⟨hcclk, hdroop, hcause⟩ := h
  rw [heldFor_ctrs, State.ctrs_bump_ne _ _ _ _ _ hdroop, State.ctrs_bump_ne _ _ _ _ _ hcclk, State.ctrs_bump_ne _ _ _ _ _ hcause]

theorem heldFor_ctr_cause : (s.heldFor n cause slot lint mark).ctr (.core n) (0x200 + 8 * (cause - 1)) =
    (s.ctr (.core n) (0x200 + 8 * (cause - 1)) + 1) % 2 ^ 48 := by
  unfold State.ctr
  rw [heldFor_ctrs, State.ctrs_bump_ne _ _ _ _ _ (by omega), State.ctrs_bump_ne _ _ _ _ _ (by omega)]
  exact State.ctr_bump_same s (.core n) _ 1

end

/-! ### The evaluation of a CCLK -/

/-- Lanes that wait for nothing are held by the lintel alone, or by nothing. -/
theorem heldBy_cause {s : State} {n : Nat} (hd : s.draining n = false) {es : List Eval}
    (h : ∀ e ∈ es, e.holds = [] ∧ e.slots = [] ∧ e.uses = []) :
    (s.heldBy n es).cause = if s.lintelHeld n then 4 else 13 := by
  have hholds : es.flatMap Eval.holds = [] := List.flatMap_eq_nil_iff.mpr fun e he => (h e he).1
  have hslots : es.flatMap Eval.slots = [] := List.flatMap_eq_nil_iff.mpr fun e he => (h e he).2.1
  have hbanks : es.flatMap (fun e => s.bankHolds n e.uses) = [] :=
    List.flatMap_eq_nil_iff.mpr fun e he => by simp [(h e he).2.2, State.bankHolds]
  have hgate : s.lintelHeld n = true → ((s.core n).lintWait.map Prod.fst).isSome = true := by
    unfold State.lintelHeld
    split <;> simp_all
  unfold State.heldBy
  cases hl : s.lintelHeld n
  · simp [hd, hholds, hslots, hbanks, minOf]
  · simp [hd, hholds, hslots, hbanks, minOf, hgate hl]

theorem evaluation_stopped {s : State} {n : Nat} (h : s.evaluates n = false) : s.evaluation n = .held { cause := 1 } := by
  simp [State.evaluation, h]

theorem evaluation_pastEnd {s : State} {n : Nat} (h : s.evaluates n = true) (hp : (s.core n).pastEnd = true) :
    s.evaluation n = .fault 0x0D := by
  simp [State.evaluation, h, hp]

theorem evaluation_unfetched {s : State} {n : Nat} (h : s.evaluates n = true) (hp : (s.core n).pastEnd = false)
    (hd : s.draining n = false) (hf : (s.core n).fetched = false) :
    ∃ x, s.evaluation n = .held x ∧ x.cause = if s.lintelHeld n then 4 else s.fetchCause n := by
  have hfetch : 9 ≤ s.fetchCause n ∧ s.fetchCause n ≤ 11 := by
    unfold State.fetchCause
    dsimp only
    split_ifs <;> omega
  have hgate : (s.heldBy n []).cause = if s.lintelHeld n then 4 else 13 := heldBy_cause hd (by simp)
  refine ⟨{ s.heldBy n [] with
    cause := min (s.fetchCause n) (s.heldBy n []).cause
    lint := if min (s.fetchCause n) (s.heldBy n []).cause = 4 then (s.heldBy n []).lint else none },
    by simp [State.evaluation, h, hp, hf], ?_⟩
  dsimp only
  rw [hgate]
  split_ifs <;> omega

theorem evaluation_reserved {s : State} {n : Nat} (h : s.evaluates n = true) (hp : (s.core n).pastEnd = false)
    (hf : (s.core n).fetched = true) (hd : decodeSub (BitVec.ofNat 256 (s.core n).word) = none) : s.evaluation n = .fault 1 := by
  simp [State.evaluation, h, hp, hf, hd]

/-- The sub-bundle of all zeros is CTL.NOP alone. -/
theorem decodeSub_zero : decodeSub (BitVec.ofNat 256 0) = some [.ctlNop] := by decide

/-- A CTL.NOP waits for nothing and meets no check. -/
theorem evalAll_ctlNop (s : State) (n : Nat) : evalAll s n [.ctlNop] = [({ run := s }, 0)] := by
  simp [evalAll, evalOp, Eval.code, State.bankClash]

/-- A CTL.NOP is held by the lintel alone (R164, R168). -/
theorem judge_ctlNop (s : State) (n : Nat) : s.judge n [.ctlNop] = if s.lintelHeld n then .hold else .issue := by
  simp [State.judge, evalAll_ctlNop, verdict, Eval.waits, State.bankHolds]

theorem evaluation_zero {s : State} {n : Nat} (h : s.evaluates n = true) (hp : (s.core n).pastEnd = false)
    (hd : s.draining n = false) (hf : (s.core n).fetched = true) (hw : (s.core n).word = 0) :
    if s.lintelHeld n then ∃ x, s.evaluation n = .held x ∧ x.cause = 4 else s.evaluation n = .issue := by
  have hcause : s.lintelHeld n = true → (s.heldBy n [{ run := s }]).cause = 4 := fun hl => by
    rw [heldBy_cause hd (by simp), if_pos hl]
  split
  · next hl => exact ⟨_, by simp [State.evaluation, h, hp, hf, hw, decodeSub_zero, judge_ctlNop, evalAll_ctlNop, hl], hcause hl⟩
  · next hl => simp [State.evaluation, h, hp, hf, hw, decodeSub_zero, judge_ctlNop, hl]

/-! ### The command -/

theorem exec_subBundleHold {s : State} (hl : s.live = true) (c : CoreId) (sb : BitVec 256) :
    exec (.subBundleHold c sb) s = .next (finish s (if (s.core c).faces sb then s.holdSub c else s)) := by
  rw [show exec (.subBundleHold c sb) s = execSubBundleHold c sb s from rfl]
  exact act_live hl _

section
variable {s : State} {n : Nat} (hc : (s.core n).current = true)
include hc

theorem holdSub_uncounted (h : s.counted n = false ∨ (s.core n).cur.issued ≠ 0) : s.holdSub n = s := by
  unfold State.holdSub
  rw [catchUp_current hc]
  exact if_pos (by simpa using h)

variable (hn : s.counted n = true) (hi : (s.core n).cur.issued = 0)
include hn hi

theorem holdSub_held {h : Held} (he : s.evaluation n = .held h) :
    s.holdSub n = (s.countConflict n h.banks).heldFor n h.cause h.slot h.lint h.mark := by
  simp [State.holdSub, catchUp_current hc, hn, hi, he]

theorem holdSub_fault {k : Nat} (he : s.evaluation n = .fault k) : s.holdSub n = s.coreFault n k 0xFF 0 := by
  simp [State.holdSub, catchUp_current hc, hn, hi, he]

theorem holdSub_issue (he : s.evaluation n = .issue) : s.holdSub n = s := by
  simp [State.holdSub, catchUp_current hc, hn, hi, he]

end

/-- What a held CCLK leaves: its core and counters alone are touched, and of the core what its program sees stands. -/
theorem finish_held {s : State} (c : CoreId) (h : Held) :
    let t := finish s ((s.countConflict c h.banks).heldFor c h.cause h.slot h.lint h.mark)
    OnlyCore s t c [.ctrs] ∧ (h.banks = [] → CtrsBut s t (heldCtrs c h.cause)) ∧
    (h.cause ≤ 13 → t.ctr (.core c) (0x200 + 8 * (h.cause - 1)) = (s.ctr (.core c) (0x200 + 8 * (h.cause - 1)) + 1) % 2 ^ 48) := by
  refine ⟨⟨unchanged_finish ?_ fun p hp => ?_, fun m hm => ?_⟩, fun hb k hk => ?_, fun hcause => ?_⟩
  · rw [heldFor_pending, countConflict_pending]
  · simp only [List.mem_cons, List.not_mem_nil, or_false, not_or] at hp
    exact Part.same_trans (countConflict_same _ _ _ hp.2) (heldFor_same _ _ _ _ _ _ hp)
  · rw [finish_get_core, heldFor_core_ne _ _ _ _ _ _ hm, countConflict_core]
  · rw [finish_ctrs, hb, countConflict_nil, heldFor_ctrs_ne _ _ _ _ _ _ hk]
  · rw [finish_get_ctr, heldFor_ctr_cause, countConflict_coreCtr _ _ _ (by omega)]

/-- Settles O22: a hold by what its CCLK counts and leaves, a fault by the program fault of its core, an evaluation by its branch. -/
theorem subBundleHolds : Obligations.SubBundleHolds := by
  unfold Obligations.SubBundleHolds
  intro s c sb hl hc
  refine ⟨fun hf hn hi => ⟨fun h he _ => ?_, fun k j he hj => ?_, fun he => ?_⟩, fun h => ?_, fun h => ⟨_, evaluation_stopped h, rfl⟩,
    evaluation_pastEnd, fun h hp hd => ⟨evaluation_unfetched h hp hd, evaluation_reserved h hp, evaluation_zero h hp hd⟩⟩
  all_goals rw [exec_subBundleHold hl]
  all_goals refine ⟨_, rfl, ?_⟩
  · obtain ⟨honly, hctrs, hcause⟩ := finish_held (s := s) c h
    have hcore := heldFor_core (s.countConflict c h.banks) c h.cause h.slot h.lint h.mark
    rw [countConflict_core] at hcore
    rw [if_pos hf, holdSub_held hc hn hi he, finish_get_core]
    exact ⟨honly, hctrs, hcause, hcore⟩
  · rw [if_pos hf, holdSub_fault hc hn hi he]
    exact ⟨coreFault_records s c k _ _, coreFault_tears hj k _ _, by rw [finish_get_core]; exact coreFault_faulted s c k _ _⟩
  · rw [if_pos hf, holdSub_issue hc hn hi he]
    exact unchanged_finish rfl fun p _ => Part.same_refl s p
  · have hs : (if (s.core c).faces sb then s.holdSub c else s) = s := by
      obtain hn | hi | hf := h
      · rw [holdSub_uncounted hc (.inl hn), ite_self]
      · rw [holdSub_uncounted hc (.inr hi), ite_self]
      · rw [if_neg (by simp [hf])]
    rw [hs]
    exact unchanged_finish rfl fun p _ => Part.same_refl s p

end Sys2Proof.Machine
end

section
/-! Exact blocks and their headers (R66, R67): their sums word by word, their headers field by field. -/

namespace Sys2Proof.Machine

/-! ### Blocks -/

/-- The 64-bit words of a block. -/
def xfWords (bs : List Byte) : List Nat := (chunks 8 bs).map leNat

/-- The bytes of 64-bit words. -/
def xfBytes (ws : List Nat) : List Byte := ws.flatMap (natLe 8)

/-- Two words added, modulo 2^64. -/
def addWord (x y : Nat) : Nat := (x + y) % 2 ^ 64

theorem addWord_comm (x y : Nat) : addWord x y = addWord y x := by rw [addWord, addWord, Nat.add_comm]

theorem addWord_assoc (x y z : Nat) : addWord (addWord x y) z = addWord x (addWord y z) := by unfold addWord; omega

/-- A sum of blocks is the sum of their words. -/
theorem xfAdd_eq (a b : List Byte) : xfAdd a b = xfBytes (List.zipWith addWord (xfWords a) (xfWords b)) := by
  rw [xfBytes, xfWords, xfWords, List.zipWith_map, ← List.map_uncurry_zip_eq_zipWith, List.flatMap_map]
  rfl

/-- Words put down as bytes are cut into the same words. -/
theorem chunksAux_xfBytes (ws : List Nat) {k : Nat} (h : (xfBytes ws).length ≤ k) : chunksAux 8 k (xfBytes ws) = ws.map (natLe 8) := by
  induction ws generalizing k with
  | nil => cases k <;> rfl
  | cons w ws ih =>
    have hw : (natLe 8 w).length = 8 := Laws.natLe_length 8 w
    have he : xfBytes (w :: ws) = natLe 8 w ++ xfBytes ws := rfl
    rw [he, List.length_append, hw] at h
    obtain ⟨k, rfl⟩ : ∃ j, k = j + 1 := ⟨k - 1, by omega⟩
    have hcut : chunksAux 8 (k + 1) (natLe 8 w ++ xfBytes ws) = natLe 8 w :: chunksAux 8 k (xfBytes ws) := by
      have hcons : chunksAux 8 (k + 1) (natLe 8 w ++ xfBytes ws) =
          (natLe 8 w ++ xfBytes ws).take 8 :: chunksAux 8 k ((natLe 8 w ++ xfBytes ws).drop 8) := rfl
      rw [hcons, List.take_left' hw, List.drop_left' hw]
    rw [he, hcut, ih (by omega), List.map_cons]

theorem xfWords_xfBytes (ws : List Nat) : xfWords (xfBytes ws) = ws.map (· % 2 ^ 64) := by
  rw [xfWords, chunks, chunksAux_xfBytes ws le_rfl, List.map_map]
  exact List.map_congr_left fun w _ => Laws.leNat_natLe 8 w

/-- The words of a sum. -/
theorem xfWords_xfAdd (a b : List Byte) : xfWords (xfAdd a b) = List.zipWith addWord (xfWords a) (xfWords b) := by
  rw [xfAdd_eq, xfWords_xfBytes, List.map_zipWith]
  congr 1
  funext x y
  exact Nat.mod_mod _ _

theorem xfAdd_comm (a b : List Byte) : xfAdd a b = xfAdd b a := by
  rw [xfAdd_eq, xfAdd_eq, List.zipWith_comm_of_comm addWord_comm]

theorem xfAdd_assoc (a b c : List Byte) : xfAdd (xfAdd a b) c = xfAdd a (xfAdd b c) := by
  rw [xfAdd_eq (xfAdd a b), xfAdd_eq a (xfAdd b c), xfWords_xfAdd, xfWords_xfAdd]
  congr 1
  exact List.ext_getElem (by simp [Nat.min_assoc]) fun i _ _ => by simp [addWord_assoc]

/-! ### Headers -/

/-- A header by its fields: MAXEXP, NONFINITE, RANGE_MISS, EXP (Table 2.9). -/
def xfHdr (maxexp : Nat) (nonfin miss : Bool) (exp : Nat) : Nat :=
  maxexp * 2 ^ 24 + (if nonfin then 2 ^ 9 else 0) + (if miss then 2 ^ 8 else 0) + exp

theorem xfJoinHdr_eq (a b : Nat) :
    xfJoinHdr a b = xfHdr (max (fld a 31 24) (fld b 31 24)) (bitAt a 9 || bitAt b 9) (bitAt a 8 || bitAt b 8) (fld a 7 0) := rfl

/-- The fields of a header are read from it. -/
theorem xfHdr_fields {maxexp exp : Nat} (hm : maxexp < 256) (he : exp < 256) (nonfin miss : Bool) :
    let h := xfHdr maxexp nonfin miss exp
    fld h 31 24 = maxexp ∧ bitAt h 9 = nonfin ∧ bitAt h 8 = miss ∧ fld h 7 0 = exp := by
  simp only [xfHdr, fld_eq, bitAt, Nat.shiftRight_eq_div_pow]
  cases nonfin <;> cases miss <;> simp <;> omega

theorem fld_lt (v hi lo : Nat) : fld v hi lo < 2 ^ (hi - lo + 1) := Nat.mod_lt _ (by positivity)

/-- The fields of two headers joined. -/
theorem xfJoinHdr_fields (a b : Nat) :
    fld (xfJoinHdr a b) 31 24 = max (fld a 31 24) (fld b 31 24) ∧ bitAt (xfJoinHdr a b) 9 = (bitAt a 9 || bitAt b 9) ∧
    bitAt (xfJoinHdr a b) 8 = (bitAt a 8 || bitAt b 8) ∧ fld (xfJoinHdr a b) 7 0 = fld a 7 0 :=
  xfHdr_fields (max_lt (fld_lt a 31 24) (fld_lt b 31 24)) (fld_lt a 7 0) _ _

theorem xfJoinHdr_comm {a b : Nat} (h : fld a 7 0 = fld b 7 0) : xfJoinHdr a b = xfJoinHdr b a := by
  rw [xfJoinHdr_eq, xfJoinHdr_eq, max_comm, Bool.or_comm (bitAt a 9), Bool.or_comm (bitAt a 8), h]

theorem xfJoinHdr_assoc (a b c : Nat) : xfJoinHdr (xfJoinHdr a b) c = xfJoinHdr a (xfJoinHdr b c) := by
  obtain ⟨hmax, hnonfin, hmiss, hexp⟩ := xfJoinHdr_fields a b
  obtain ⟨hmax', hnonfin', hmiss', -⟩ := xfJoinHdr_fields b c
  rw [xfJoinHdr_eq _ c, xfJoinHdr_eq a (xfJoinHdr b c), hmax, hnonfin, hmiss, hexp, hmax', hnonfin', hmiss', max_assoc, Bool.or_assoc,
    Bool.or_assoc]

/-- Settles O40: blocks add word by word, and headers join field by field. -/
theorem exactSumsHaveNoOrder : Obligations.ExactSumsHaveNoOrder := by
  unfold Obligations.ExactSumsHaveNoOrder
  exact ⟨fun a b c => ⟨xfAdd_comm a b, xfAdd_assoc a b c⟩, fun a b c h _ => ⟨xfJoinHdr_comm h, xfJoinHdr_assoc a b c⟩⟩

end Sys2Proof.Machine
end

section
/-! What a core reaches in the job's quarries and sills while every codeword is clean: admission, reads, writes, and a pass combined into a
record of statistics (R59 to R61, R141). -/

namespace Sys2Proof.Machine

/-! ### Frames of the named updates -/

/-- A quarry updated touches the quarries. -/
theorem onQuarry_same (s : State) (n : Nat) (f : Quarry → Quarry) {p : Part} (h : p ≠ .quarries) : p.same s (s.onQuarry n f) := by
  cases p <;> simp_all [Part.same, Part.kept]
/-- A row written touches the memory. -/
theorem putRow_same (s : State) (a : Nat) (bs : List Byte) {p : Part} (h : p ≠ .mem) : p.same s (s.putRow a bs) := by
  cases p <;> simp_all [Part.same, Part.kept, State.putRow, State.scrubbed]
/-- A kind noted touches the kinds and the free values. -/
theorem recordMark_same (s : State) (a kind : Nat) (old : List Byte) {p : Part} (h : p ≠ .free ∧ p ≠ .recs) :
    p.same s (s.recordMark a kind old) := by
  cases p <;> simp_all [Part.same, Part.kept, State.recordMark]
/-- Free values used touch their count. -/
theorem free_same (s : State) (k : Nat) {p : Part} (h : p ≠ .free) : p.same s { s with free := k } := by
  cases p <;> simp_all [Part.same, Part.kept]

/-! ### What an access leaves alone -/

/-- Accesses of cores among clean codewords: they count, and open rows of quarries; of the rest they change the named parts alone. No quarry's
lifecycle turns on them, and they count on no array page. -/
structure Reaches (may : List Part) (s t : State) : Prop where
  same : ∀ p, p ∉ .ctrs :: .quarries :: may → p.same s t
  pending : t.pending = s.pending
  life : ∀ q, (t.quarry q).life = (s.quarry q).life
  array : ∀ (n : CoreId) (o : Nat), o < 0x1000 → t.ctr (.array n) o = s.ctr (.array n) o

theorem Reaches.refl (may : List Part) (s : State) : Reaches may s s := ⟨fun p _ => Part.same_refl s p, rfl, fun _ => rfl, fun _ _ _ => rfl⟩

theorem Reaches.trans {may : List Part} {s t u : State} (h : Reaches may s t) (g : Reaches may t u) : Reaches may s u where
  same p hp := Part.same_trans (h.same p hp) (g.same p hp)
  pending := g.pending.trans h.pending
  life q := (g.life q).trans (h.life q)
  array n o ho := (g.array n o ho).trans (h.array n o ho)

theorem Reaches.mono {may may' : List Part} {s t : State} (h : Reaches may s t) (hm : may ⊆ may') : Reaches may' s t :=
  { h with same := fun p hp => h.same p fun hp' => hp (List.cons_subset_cons _ (List.cons_subset_cons _ hm) hp') }

theorem Reaches.foldl {may : List Part} {α : Type} {f : State → α → State} (h : ∀ s x, Reaches may s (f s x)) (xs : List α) (s : State) :
    Reaches may s (xs.foldl f s) := by
  induction xs generalizing s with
  | nil => exact .refl may s
  | cons x xs ih => exact (h s x).trans (ih _)

/-- A counter of another page advanced. -/
theorem reaches_bump {p : Page} {o : Nat} (h : ∀ (n : CoreId) (x : Nat), x < 0x1000 → (Page.array n).base + x ≠ p.base + o) (s : State) (k : Nat) :
    Reaches [] s (s.bump p o k) :=
  ⟨fun _ hp => bump_same s p o k fun e => hp (by simp [e]), rfl, fun _ => rfl, fun n x hx => State.ctr_bump_ne s k (h n x hx)⟩

theorem reaches_quarry (s : State) (q o k : Nat) : Reaches [] s (s.bump (.quarry q) o k) :=
  reaches_bump (fun n x hx => by have := n.isLt; simp only [Page.base]; omega) s k

/-- The counter of refused requests of a sill (R195). -/
theorem reaches_sill (s : State) (n : Nat) : Reaches [] s (s.bump (.sill n) 0x70) :=
  reaches_bump (fun n x hx => by simp only [Page.base]; omega) s 1

theorem reaches_openRow (s : State) (n a : Nat) : Reaches [] s (s.openRow n a) := by
  have hopen : ∀ u : State, Reaches [] u (u.onQuarry n (fun y => { y with open_ := tset y.open_ (qBank a) (qRow a) })) := by
    intro u
    refine ⟨fun p hp => ?_, rfl, fun q => ?_, fun _ _ _ => rfl⟩
    · exact onQuarry_same u n _ (by simp at hp; exact hp.2)
    · by_cases h : q = n
      · subst h; simp
      · rw [State.quarry_onQuarry_ne _ _ h]
  unfold State.openRow
  dsimp only
  split_ifs
  exacts [(reaches_quarry s n _ _).trans (hopen _), hopen s]

theorem reaches_openRows (s : State) (n a len : Nat) : Reaches [] s (s.openRows n a len) :=
  .foldl (fun s u => reaches_openRow s n (64 * u)) _ _

/-- Bytes written. -/
theorem reaches_put (s : State) (a : Nat) (bs : List Byte) : Reaches [.mem] s (s.put a bs) :=
  ⟨fun _ hp => put_same s a bs fun e => hp (by simp [e]), rfl, fun _ => rfl, fun _ _ _ => rfl⟩

/-- Free values used. -/
theorem reaches_free (s : State) (k : Nat) : Reaches [.free] s { s with free := k } :=
  ⟨fun _ hp => free_same s k fun e => hp (by simp [e]), rfl, fun _ => rfl, fun _ _ _ => rfl⟩

theorem reaches_putRow (s : State) (a : Nat) (bs : List Byte) : Reaches [.mem] s (s.putRow a bs) :=
  ⟨fun _ hp => putRow_same s a bs fun e => hp (by simp [e]), rfl, fun _ => rfl, fun _ _ _ => rfl⟩

theorem reaches_recordMark (s : State) (a kind : Nat) (old : List Byte) : Reaches [.free, .recs] s (s.recordMark a kind old) :=
  ⟨fun _ hp => recordMark_same s a kind old ⟨fun e => hp (by simp [e]), fun e => hp (by simp [e])⟩, rfl, fun _ => rfl, fun _ _ _ => rfl⟩

/-! ### Admission -/

theorem winEnter_reaches (s : State) (r : Requester) (op : WinOp) (a len : Nat) : Reaches [] s (s.winEnter r op a len).1 := by
  rcases winEnter_eq s r op a len with e | ⟨n, o, e⟩ <;> rw [e]
  exacts [.refl _ s, reaches_quarry s n o 1]

theorem directEnter_reaches (s : State) (n j a len : Nat) : Reaches [] s (s.directEnter n j a len).1 := by
  unfold State.directEnter
  split_ifs
  exacts [.refl _ s, .refl _ s, reaches_quarry s n _ 1]

theorem coreEnter_reaches (s : State) (n a len : Nat) (op : WinOp) : Reaches [] s (s.coreEnter n a len op).1 := by
  unfold State.coreEnter
  split
  · split_ifs
    exacts [directEnter_reaches s .., winEnter_reaches s ..]
  · split_ifs
    exacts [.refl _ s, .refl _ s, reaches_sill s _, .refl _ s]
  · exact .refl _ s
  · exact .refl _ s

section
variable {may : List Part} {s t : State} (h : Reaches may s t) (hc : Part.cores ∉ may) (hr : Part.regs ∉ may) (hs : Part.runSlot ∉ may)
include h

include hc in
theorem Reaches.core (n : Nat) : t.core n = s.core n := by
  have e : t.cores = s.cores := h.same .cores (by simpa using hc)
  rw [State.core, State.core, e]

include hr in
theorem Reaches.preg (p : Page) (o : Nat) : t.preg p o = s.preg p o := by
  have e : t.regs = s.regs ∧ t.staged = s.staged := h.same .regs (by simpa using hr)
  rw [State.preg, State.preg, State.reg, State.reg, e.1]

include hr in
theorem Reaches.inShutter (n a len : Nat) : t.inShutter n a len = s.inShutter n a len := by
  simp only [State.inShutter, h.preg hr]

include hr in
theorem Reaches.directEnter (n j a len : Nat) : (t.directEnter n j a len).2 = (s.directEnter n j a len).2 := by
  have hin : t.inAlloc n j a len = s.inAlloc n j a len := by simp only [State.inAlloc, State.allocOf, h.preg hr]
  unfold State.directEnter
  rw [h.life, hin, h.inShutter hr]
  split_ifs <;> rfl

include hr hs in
theorem Reaches.winFor (n : Nat) (r : Requester) (op : WinOp) (a len : Nat) : t.winFor n r op a len = s.winFor n r op a len := by
  have hrun : t.runSlot = s.runSlot := (h.same .runSlot (by simpa using hs)).1
  have hword : ∀ w k, t.winWord n w k = s.winWord n w k := fun w k => h.preg hr _ _
  have hjob : ∀ w, t.winJob n w r = s.winJob n w r := fun w => by cases r <;> simp only [State.winJob, hword, hrun]
  simp only [State.winFor, State.winAdmits, hword, hjob]

include hr hs in
theorem Reaches.winEnter (r : Requester) (op : WinOp) (a len : Nat) : (t.winEnter r op a len).2 = (s.winEnter r op a len).2 := by
  unfold State.winEnter
  split
  · rfl
  · next n _ =>
    rw [h.life, h.inShutter hr, h.winFor hr hs]
    split_ifs
    · rfl
    · rfl
    · split <;> rfl

include hc hr hs in
/-- What a core may reach does not turn on what it has reached. -/
theorem Reaches.coreEnter (n a len : Nat) (op : WinOp) : (t.coreEnter n a len op).2 = (s.coreEnter n a len op).2 := by
  have hshut : ∀ o, t.sillShut o = s.sillShut o := fun o => by simp only [State.sillShut, State.coreLife, h.core hc]
  unfold State.coreEnter
  rw [h.core hc]
  split
  · split_ifs
    · exact h.directEnter hr ..
    · exact congrArg Prod.fst (h.winEnter hr hs ..)
  · simp only [hshut, h.core hc]
    split_ifs <;> rfl
  · rfl
  · rfl

end

/-- Codewords stay clean, and nothing comes to wait at a quarry. -/
theorem Reaches.calm {may : List Part} {s t : State} {n : Nat} (h : Reaches may s t) (hc : Part.cores ∉ may) (hf : Part.flight ∉ may)
    (he : t.ecc = []) (hs : s.calm n) : t.calm n := by
  have hflight : t.flight = s.flight := h.same .flight (by simpa using hf)
  exact ⟨he, by rw [h.core hc]; exact hs.2.1, fun q => by rw [State.admitted, hflight]; exact hs.2.2 q⟩

/-! ### Reads and writes -/

theorem quarryWrite_reaches {s : State} {q : Nat} (he : s.ecc = []) (hw : s.admitted q = []) (a : Nat) (bs : List Byte) (source : Nat)
    (job : Option Nat) (flags : Nat) : Reaches [.mem] s (s.quarryWrite q a bs source job flags).1 := by
  have hopen := reaches_openRows s q a bs.length
  have he' : (s.openRows q a bs.length).ecc = [] := (hopen.same .mem (by simp)).2.trans he
  rw [State.quarryWrite, settle_idle hw, unitsWrite_clean he']
  have hparts := Reaches.foldl (fun s u => reaches_quarry s q 0x40 (units u 64)) (partUnits a bs.length) (s.openRows q a bs.length)
  exact ((hopen.trans hparts).mono (by simp)).trans ((reaches_put _ a bs).trans ((reaches_quarry _ q 0x48 _).mono (by simp)))

/-- A read outside the core's own sill, once the core is let in. -/
theorem farRead_entered {s u v : State} {n a len : Nat} {bs : List Byte} (hs : sillOf a ≠ some n) (hu : s.coreEnter n a len .read = (u, 0))
    (hq : a < quarryEnd → u.quarryRead (a / quarrySize) a len (if quarryOf a = some n then 0 else 1) (u.core n).job 1 = (v, bs, 0))
    (hsill : ¬ a < quarryEnd → u.sillRead ((a - 0x2000000000) / 0x400000) a len 1 (u.core n).job 1 = (v, bs, 0)) :
    s.farRead n a len = (v, bs, 0) := by
  unfold State.farRead
  rw [if_neg hs, hu]
  by_cases ha : a < quarryEnd
  · simp [ha, hq ha]
  · simp [ha, hsill ha]

/-- A read of a core that nothing unusual meets counts, whatever it answers; where the core reaches the range it answers the bytes (R141). -/
theorem farRead_calm {s : State} {n : Nat} (h : s.calm n) (a len : Nat) :
    Reaches [] s (s.farRead n a len).1 ∧ ((s.coreEnter n a len .read).2 = 0 → (s.farRead n a len).2 = (s.bytes a len, 0)) := by
  obtain ⟨he, hset, hadm⟩ := h
  by_cases hs : sillOf a = some n
  · rw [State.farRead, if_pos hs, schedRead_clean he n hset]
    exact ⟨.refl _ s, fun _ => rfl⟩
  have hru := coreEnter_reaches s n a len .read
  generalize hu : s.coreEnter n a len .read = w at hru
  obtain ⟨u, st⟩ := w
  dsimp only at hru ⊢
  cases st with
  | succ st =>
    rw [State.farRead, if_neg hs, hu]
    exact ⟨hru, by simp⟩
  | zero =>
    obtain ⟨hmem, hecc⟩ : u.mem = s.mem ∧ u.ecc = s.ecc := hru.same .mem (by simp)
    have hfl : u.flight = s.flight := hru.same .flight (by simp)
    have hadm' : u.admitted (a / quarrySize) = [] := by rw [State.admitted, hfl]; exact hadm _
    have hbytes : u.bytes a len = s.bytes a len := by rw [State.bytes, hmem]; rfl
    by_cases ha : a < quarryEnd
    · rw [farRead_entered hs hu (fun _ => quarryRead_clean (hecc.trans he) hadm' ..) (absurd ha), hbytes]
      exact ⟨hru.trans ((reaches_openRows u _ a len).trans (reaches_quarry _ _ 0x40 _)), fun _ => rfl⟩
    · rw [farRead_entered hs hu (fun h => absurd h ha) (fun _ => sillRead_clean (hecc.trans he) ..), hbytes]
      exact ⟨hru, fun _ => rfl⟩

/-- The list's row read counts. -/
theorem readChan_calm {s : State} {n : Nat} (h : s.calm n) (d : TDesc) : Reaches [] s (s.readChan n d) := by
  unfold State.readChan
  split
  exacts [(farRead_calm h _ _).1, .refl _ s]

/-- A write, once the core is let in. -/
theorem farWrite_entered {s u : State} {n a : Nat} {bs : List Byte} (hu : s.coreEnter n a bs.length .write = (u, 0)) :
    (∀ v, a < quarryEnd → u.quarryWrite (a / quarrySize) a bs (if quarryOf a = some n then 0 else 1) (u.core n).job 1 = (v, 0) →
      s.farWrite n a bs = (v, 0)) ∧
    (¬ a < quarryEnd → s.farWrite n a bs = (u.putRow a bs, 0)) := by
  unfold State.farWrite
  rw [hu]
  exact ⟨fun v ha hv => by simp [ha, hv], fun ha => by simp [ha]⟩

/-- A write of a core that reaches its range leaves the bytes there (R141). -/
theorem farWrite_calm {s : State} {n a : Nat} {bs : List Byte} (h : s.calm n) (ho : (s.coreEnter n a bs.length .write).2 = 0) :
    ∃ t, s.farWrite n a bs = (t, 0) ∧ Reaches [.mem] s t ∧ t.mem = memWrite s.mem a bs ∧ t.ecc = [] := by
  obtain ⟨he, -, hadm⟩ := h
  have hru := coreEnter_reaches s n a bs.length .write
  generalize hu : s.coreEnter n a bs.length .write = w at ho hru
  obtain ⟨u, st⟩ := w
  obtain rfl : st = 0 := ho
  replace hru : Reaches [] s u := hru
  obtain ⟨hmem, hecc⟩ : u.mem = s.mem ∧ u.ecc = s.ecc := hru.same .mem (by simp)
  have hfl : u.flight = s.flight := hru.same .flight (by simp)
  have hadm' : u.admitted (a / quarrySize) = [] := by rw [State.admitted, hfl]; exact hadm _
  have hrm : Reaches [.mem] s u := hru.mono (by simp)
  obtain ⟨hquarry, hsill⟩ := farWrite_entered hu
  by_cases ha : a < quarryEnd
  · obtain ⟨hst, hwm, hwe, -⟩ := quarryWrite_clean (hecc.trans he) hadm' a bs (if quarryOf a = some n then 0 else 1) (u.core n).job 1
    have hq := quarryWrite_reaches (hecc.trans he) hadm' a bs (if quarryOf a = some n then 0 else 1) (u.core n).job 1
    exact ⟨_, hquarry _ ha (Prod.ext rfl hst), hrm.trans hq, hwm.trans (by rw [hmem]), hwe⟩
  · exact ⟨_, hsill ha, hrm.trans (reaches_putRow u a bs), by rw [← hmem]; rfl,
      by simp [State.putRow, State.scrubbed, State.put, hecc, he]⟩

/-! ### A pass combined into its record -/

theorem Stats.bytes_length (a : Stats) : a.bytes.length = 32 := by simp [Stats.bytes, zeros]

theorem recordBytes_length (s : State) (a kind : Nat) (old : List Byte) (st : Stats) : (s.recordBytes a kind old st).length = 32 := by
  unfold State.recordBytes
  split
  exacts [Stats.bytes_length _, by simp [freeBytes]]

/-- A pass of a core that reaches its record: the record alone is written, joined by Table 2.8 where the period is of one kind (R59 to R61). -/
theorem coreStats_open {s : State} {n addr : Nat} (h : s.calm n) (ho : s.recordOpen n (addr + 32 * n)) (kind : Nat) (st : Stats) :
    let a := addr + 32 * n
    let old := s.bytes a 32
    let t := s.coreStats n addr kind st
    Reaches [.mem, .free, .recs] s t ∧ t.ecc = [] ∧ t.mem = memWrite s.mem a (s.recordBytes a kind old st) ∧
    (s.recordKind a kind old = kind → t.free = s.free) := by
  intro a old t
  obtain ⟨hread, hval⟩ := farRead_calm h a 32
  specialize hval ho.1
  obtain ⟨u, hu⟩ : ∃ u, s.farRead n a 32 = (u, old, 0) := ⟨_, Prod.ext rfl hval⟩
  replace hread : Reaches [] s u := by simpa [hu] using hread
  have hfree : u.free = s.free := hread.same .free (by simp)
  have hrecs : u.recs = s.recs := hread.same .recs (by simp)
  have hkind : u.recordKind a kind old = s.recordKind a kind old := by simp only [State.recordKind, hrecs]
  have hbytes : u.recordBytes a kind old st = s.recordBytes a kind old st := by simp only [State.recordBytes, hkind, hfree]
  have hmark : Reaches [.free, .recs] s (u.recordMark a kind old) :=
    (hread.mono (by simp)).trans (reaches_recordMark u a kind old)
  obtain ⟨hmem, hecc⟩ : (u.recordMark a kind old).mem = s.mem ∧ (u.recordMark a kind old).ecc = s.ecc := hmark.same .mem (by simp)
  have hcalm : (u.recordMark a kind old).calm n := hmark.calm (by simp) (by simp) (hecc.trans h.1) h
  have hopen : ((u.recordMark a kind old).coreEnter n a (s.recordBytes a kind old st).length .write).2 = 0 := by
    rw [recordBytes_length, hmark.coreEnter (by simp) (by simp) (by simp)]
    exact ho.2
  obtain ⟨v, hv, hw, hwm, hwe⟩ := farWrite_calm hcalm hopen
  have ht : t = v := by
    show s.coreStats n addr kind st = v
    have hv' : (u.recordMark (addr + 32 * n) kind old).farWrite n (addr + 32 * n) (u.recordBytes (addr + 32 * n) kind old st) = (v, 0) := by
      rw [hbytes]; exact hv
    simp [State.coreStats, hu, hv', a]
  rw [ht]
  refine ⟨(hmark.mono (by simp)).trans (hw.mono (by simp)), hwe, by rw [hwm, hmem], fun hk => ?_⟩
  rw [show v.free = (u.recordMark a kind old).free from hw.same .free (by simp)]
  simp [State.recordMark, hkind, hk, hfree]

end Sys2Proof.Machine
end

section
/-! The work of a core's own operations beside its place in the sub-bundle: what it leaves of the core, of the other cores and of its array
page, and what it reports (R100, R428 to R433). -/

namespace Sys2Proof.Machine

/-! ### What the work of a core leaves alone -/

/-- Work of core n: the named parts and the core are touched, no other core, and of the core neither the PC nor the job that it runs; the
ACTION of its array page stands, and so does the count of its checksum mismatches. -/
structure CoreWork (may : List Part) (n : CoreId) (s t : State) : Prop where
  same : ∀ p, p ∉ .cores :: may → p.same s t
  pending : t.pending = s.pending
  other : ∀ m, m ≠ n.val → t.core m = s.core m
  core : (t.core n).pc = (s.core n).pc ∧ (t.core n).job = (s.core n).job ∧ (t.core n).running = (s.core n).running
  action : t.preg (.array n) 0x100 = s.preg (.array n) 0x100
  mismatches : t.ctr (.array n) 0x58 = s.ctr (.array n) 0x58

section
variable {may : List Part} {n : CoreId} {s t u : State}

theorem CoreWork.refl (may : List Part) (n : CoreId) (s : State) : CoreWork may n s s :=
  ⟨fun p _ => Part.same_refl s p, rfl, fun _ _ => rfl, ⟨rfl, rfl, rfl⟩, rfl, rfl⟩

theorem CoreWork.trans (h : CoreWork may n s t) (g : CoreWork may n t u) : CoreWork may n s u where
  same p hp := Part.same_trans (h.same p hp) (g.same p hp)
  pending := g.pending.trans h.pending
  other m hm := (g.other m hm).trans (h.other m hm)
  core := ⟨g.core.1.trans h.core.1, g.core.2.1.trans h.core.2.1, g.core.2.2.trans h.core.2.2⟩
  action := g.action.trans h.action
  mismatches := g.mismatches.trans h.mismatches

theorem CoreWork.mono {may' : List Part} (h : CoreWork may n s t) (hm : may ⊆ may') : CoreWork may' n s t :=
  { h with same := fun p hp => h.same p fun hp' => hp (List.cons_subset_cons _ hm hp') }

theorem CoreWork.foldl {α : Type} {f : State → α → State} (h : ∀ s x, CoreWork may n s (f s x)) (xs : List α) (s : State) :
    CoreWork may n s (xs.foldl f s) := by
  induction xs generalizing s with
  | nil => exact .refl may n s
  | cons x xs ih => exact (h s x).trans (ih _)

/-- What no core holds is none of the core's. -/
theorem CoreWork.of_same (h : ∀ p, p ∉ may → p.same s t) (hp : t.pending = s.pending) (hc : Part.cores ∉ may) (hr : Part.regs ∉ may)
    (hctr : t.ctr (.array n) 0x58 = s.ctr (.array n) 0x58) : CoreWork may n s t := by
  have hcores : t.cores = s.cores := h .cores hc
  have hregs : t.regs = s.regs := (h .regs hr).1
  have hcore : ∀ m, t.core m = s.core m := fun m => by rw [State.core, State.core, hcores]
  exact ⟨fun p hp => h p fun hp' => hp (List.mem_cons_of_mem _ hp'), hp, fun m _ => hcore m, by simp [hcore],
    by rw [State.preg, State.preg, State.reg, State.reg, hregs], hctr⟩

theorem Reaches.coreWork (h : Reaches may s t) (hc : Part.cores ∉ may) (hr : Part.regs ∉ may) (n : CoreId) :
    CoreWork (.ctrs :: .quarries :: may) n s t :=
  .of_same h.same h.pending (by simpa using hc) (by simpa using hr) (h.array n 0x58 (by decide))

end

theorem setCore_same (s : State) (n : Nat) (c : Core) {p : Part} (h : p ≠ .cores) : p.same s (s.setCore n c) := by
  cases p <;> simp_all [Part.same, Part.kept]

/-- The core itself updated. -/
theorem coreWork_onCore {may : List Part} (n : CoreId) (s : State) {f : Core → Core}
    (hf : ∀ c, (f c).pc = c.pc ∧ (f c).job = c.job ∧ (f c).running = c.running) : CoreWork may n s (s.onCore n f) := by
  rw [State.onCore_eq]
  refine ⟨fun p hp => setCore_same s n _ fun e => hp (by simp [e]), rfl, fun m hm => State.core_setCore_ne s _ hm, ?_, rfl, rfl⟩
  rw [State.core_setCore_same]
  exact hf _

theorem coreWork_free (n : CoreId) (s : State) (k : Nat) : CoreWork [.free] n s { s with free := k } :=
  .of_same (fun _ hp => free_same s k (by simpa using hp)) rfl (by simp) (by simp) rfl

theorem coreWork_put (n : CoreId) (s : State) (a : Nat) (bs : List Byte) : CoreWork [.mem] n s (s.put a bs) :=
  .of_same (fun _ hp => put_same s a bs (by simpa using hp)) rfl (by simp) (by simp) rfl

/-- A counter of the core's own page advanced. -/
theorem coreWork_bump (n : CoreId) (s : State) {o : Nat} (ho : o < 0x1000) (k : Nat) : CoreWork [.ctrs] n s (s.bump (.core n) o k) :=
  .of_same (fun _ hp => bump_same s _ o k (by simpa using hp)) rfl (by simp) (by simp)
    (State.ctr_bump_ne s k (by simp only [Page.base]; omega))

/-! ### Reports of a core -/

/-- The UNIT of a core names the core. -/
theorem coreUnit_index : ∀ n : CoreId, (Page.core n).unit % 2 ^ 16 = n := by decide

theorem coreUnit_kind : ∀ n : CoreId, (Page.core n).unit / 2 ^ 24 = 0x10 := by decide

/-- A latch released for a core is its own. -/
theorem releaseLatch_own (n : CoreId) (s : State) (seq : Nat) :
    let t := s.releaseLatch (Page.core n).unit seq
    CoreWork [.regs] n s t ∧ ∃ l, t.core n = { s.core n with latch := l } := by
  unfold State.releaseLatch
  dsimp only
  rw [coreUnit_index, coreUnit_kind]
  split_ifs with hown hquarry
  · have hlatch : CoreWork [.regs] n s (s.onCore n (fun c => { c with latch := none })) := coreWork_onCore n s fun _ => ⟨rfl, rfl, rfl⟩
    generalize hu : s.onCore n (fun c => { c with latch := none }) = u at hlatch ⊢
    have hcore : u.core n = { s.core n with latch := none } := by rw [← hu]; simp
    rw [State.setPreg_eq]
    refine ⟨hlatch.trans ⟨fun p hp => setReg_same _ _ _ fun e => hp (by simp [e]), rfl, fun _ _ => rfl, ⟨rfl, rfl, rfl⟩,
      State.reg_setReg_ne _ _ (by simp only [Page.base]; omega), rfl⟩, none, hcore⟩
  · exact absurd hquarry.1 (by decide)
  · exact ⟨.refl _ n s, (s.core n).latch, rfl⟩

/-- A fault record counts on no array page. -/
theorem fault_arrayCtr (s : State) {cls : Nat} (hc : cls < 256) (status : Nat) (job : Option Nat) (unit flags : Nat) (detail : List Byte)
    (sub n o : Nat) : (s.fault cls status job unit flags detail sub).ctr (.array n) o = s.ctr (.array n) o := by
  have hb : ∀ (u : State) x, x < 0x1000 → (u.bump .fault x).ctr (.array n) o = u.ctr (.array n) o :=
    fun u x hx => State.ctr_bump_ne u _ (by simp only [Page.base]; omega)
  have hrel : ∀ (u : State) q, (u.releaseLatch unit q).ctr (.array n) o = u.ctr (.array n) o := by
    intro u q
    unfold State.releaseLatch
    dsimp only
    split_ifs <;> rfl
  have hk : ∀ seq bs, (s.keepFault cls unit sub seq bs).ctr (.array n) o = s.ctr (.array n) o := by
    intro seq bs
    unfold State.keepFault
    dsimp only
    split_ifs
    · exact (hb _ 0x40 (by decide)).trans (hb s _ (by omega))
    · exact (hrel _ _).trans ((hb _ 0x48 (by decide)).trans (hb s _ (by omega)))
  unfold State.fault
  dsimp only
  split
  · exact (hb _ 0x50 (by decide)).trans (hk _ _)
  · exact hk _ _

/-- The parts that a report of a core touches besides its latch. -/
def reportParts : List Part := [.regs, .ctrs, .flt, .quarries]

/-- A report of a core, of a class that marks no unit, is its work. -/
theorem fault_own (n : CoreId) (s : State) {cls : Nat} (hm : marksUnits cls = false) (hc : cls < 256) (status : Nat) (job : Option Nat)
    (flags : Nat) (detail : List Byte) (sub : Nat) :
    let t := s.fault cls status job (Page.core n).unit flags detail sub
    CoreWork reportParts n s t ∧ ∃ l, t.core n = { s.core n with latch := l } := by
  have hctr := fault_arrayCtr s hc status job (Page.core n).unit flags detail sub n 0x58
  have hsame : ∀ p, p ∉ .cores :: reportParts → p.same s (s.fault cls status job (Page.core n).unit flags detail sub) :=
    fun p hp => fault_same s _ _ _ _ _ _ _ (by revert hp; cases p <;> decide)
  have hkey : ∀ seq bs, let t := s.keepFault cls (Page.core n).unit sub seq bs
      (∀ m, m ≠ n.val → t.core m = s.core m) ∧ (∃ l, t.core n = { s.core n with latch := l }) ∧
      t.preg (.array n) 0x100 = s.preg (.array n) 0x100 := by
    intro seq bs
    unfold State.keepFault
    dsimp only
    split_ifs
    · exact ⟨fun _ _ => rfl, ⟨(s.core n).latch, rfl⟩, rfl⟩
    · generalize hu : State.setPreg _ .fault 0x108 _ = u
      have hcore : ∀ m, u.core m = s.core m := fun m => by rw [← hu]; rfl
      have haction : u.preg (.array n) 0x100 = s.preg (.array n) 0x100 := by
        rw [← hu]; exact State.reg_setReg_ne _ _ (by simp only [Page.base]; omega)
      obtain ⟨hw, l, hl⟩ := releaseLatch_own n u seq
      exact ⟨fun m hm => (hw.other m hm).trans (hcore m), ⟨l, by rw [hl, hcore]⟩, hw.action.trans haction⟩
  rw [fault_other _ hm] at hctr hsame ⊢
  obtain ⟨hother, ⟨l, hl⟩, haction⟩ := hkey (s.flt.seq + 1) (faultBytes s cls status job (Page.core n).unit flags detail sub)
  exact ⟨⟨hsame, by simp, hother, by simp [hl], haction, hctr⟩, l, hl⟩

/-- A fault record makes one record more at most. -/
theorem fault_unack_le (s : State) (cls status : Nat) (job : Option Nat) (unit flags : Nat) (detail : List Byte) (sub : Nat) :
    (s.fault cls status job unit flags detail sub).flt.unack ≤ s.flt.unack + 1 := by
  obtain ⟨-, -, hroom, hfull⟩ := keepFault_flt s cls unit sub (s.flt.seq + 1) (faultBytes s cls status job unit flags detail sub)
  rw [← fault_flt] at hroom hfull
  by_cases h : s.flt.unack < 32
  · exact (hroom h).1.le
  · exact (hfull h).1.le.trans (Nat.le_succ _)

theorem event_same (s : State) (b : Nat) {p : Part} (h : p ≠ .events) : p.same s (s.event b) := by
  cases p <;> simp_all [Part.same, Part.kept]

/-- Non-finite elements counted are reported once until the event is acknowledged (R432, R433): of the core's own only the latch can change. -/
theorem countNonfinite_own (n : CoreId) (s : State) (k : Nat) :
    let t := s.countNonfinite n k
    CoreWork (.events :: reportParts) n s t ∧ (∃ l, t.core n = { s.core n with latch := l }) ∧ KeepsRecords s t ∧
    t.flt.unack ≤ s.flt.unack + 1 := by
  have hbump : CoreWork (.events :: reportParts) n s (s.bump (.core n) 0x70 k) := (coreWork_bump n s (by decide) k).mono (by decide)
  unfold State.countNonfinite State.nonfinite
  split_ifs
  · exact ⟨.refl _ n s, ⟨_, rfl⟩, .refl s, Nat.le_succ _⟩
  · generalize hu : (s.bump (.core n) 0x70 k).event evNonfinite = u
    have hevent : CoreWork [.events] n (s.bump (.core n) 0x70 k) u :=
      hu ▸ .of_same (fun p hp => event_same _ _ fun e => hp (by simp [e])) rfl (by decide) (by decide) rfl
    have hflt : u.flt = s.flt := by rw [← hu]; rfl
    have hcore : u.core n = s.core n := by rw [← hu]; rfl
    obtain ⟨hfault, l, hl⟩ := fault_own n u (cls := 4) (by decide) (by decide) 0 (s.core n).job 0
      (natLe 2 0xFFFF ++ natLe 1 0 ++ zeros 1 ++ natLe 4 0 ++ natLe 4 0 ++ natLe 2 n) 0
    exact ⟨hbump.trans ((hevent.mono (by simp)).trans (hfault.mono (by simp))), ⟨l, by rw [hl, hcore]⟩,
      (KeepsRecords.of_flt hflt).trans (fault_keepsRecords u ..), by rw [← hflt]; exact fault_unack_le _ _ _ _ _ _ _ _⟩
  · exact ⟨hbump, ⟨_, rfl⟩, .of_flt rfl, Nat.le_succ _⟩

end Sys2Proof.Machine
end

section
/-! Reports of the array that tear down: an uncorrectable accumulator row (R99) and a mismatch (R100). -/

namespace Sys2Proof.Machine

/-! ### Records and teardowns late in a command -/

/-- A fault record formed in a command that may have formed one before it is recorded. -/
theorem records_second {s u v : State} {cls status unit flags sub : Nat} {job : Option Nat} {detail : List Byte} (hc : cls < 256)
    (hu : KeepsRecords s u) (hone : u.flt.unack ≤ s.flt.unack + 1)
    (hv : KeepsRecords (u.fault cls status job unit flags detail sub) v) : Records s (finish s v) cls := by
  obtain ⟨hseq, hold, hroom, -⟩ :=
    keepFault_flt u cls unit sub (u.flt.seq + 1) (faultBytes u cls status job unit flags detail sub)
  rw [← fault_flt] at hseq hold hroom
  refine ⟨?_, fun hlt => ⟨u.flt.unack, hu.unack, ?_, ?_⟩⟩
  · have := hu.seq
    have := hv.seq
    rw [finish_seq]; omega
  · have := hv.unack
    rw [(hroom (by omega)).1] at this
    rw [finish_unack]; omega
  · obtain ⟨hun, hring⟩ := hroom (by omega)
    have hkept := hv.ring u.flt.unack (by omega)
    rw [hold] at hkept
    rw [finish_record_class, ← hu.oldest, hkept, hring, tget_tset_same, faultBytes_class _ _ _ _ _ _ _ hc]

/-- A teardown late in a command tears the job down (R394). -/
theorem tearJob_tears {s u : State} (hj : u.jobs = s.jobs) (hsw : u.sw = s.sw) (hc : ∀ n, (u.core n).job = (s.core n).job) (j cls : Nat) :
    Tears s (u.tearJob (some j) cls) j := by
  intro ht hi
  have hjob : u.job j = s.job j := by simp [State.job, hj]
  obtain ⟨hst, hrun, hcores⟩ := tearCore_tears (s := u) (j := j) cls (by rw [hsw]; exact hi)
  have hd : u.tearJob (some j) cls =
      (u.tearCore j cls).post (u.job j).cqEvent 0x31 0x05 (some j) 0xFFFF 0 (jobDetail 0x11 j 0 cls 0 0 0) := by
    simp only [State.tearJob, State.tearDown, hjob, if_pos ht]
  have hp := windsUp_post (u.tearCore j cls) (u.job j).cqEvent 0x31 0x05 (some j) 0xFFFF 0 (jobDetail 0x11 j 0 cls 0 0 0)
  rw [hd]
  refine ⟨by rw [State.job, hp.jobs]; exact hst, by rw [hp.runSlot]; exact hrun, fun n hn hjn => ?_⟩
  rw [(hp.core n).1, (hp.core n).2]
  exact hcores n (by rw [hjob]; exact hn) (by rw [hc]; exact hjn)

/-- What does not touch what the cores run, the jobs or the slot that runs leaves a teardown as it is. -/
theorem Tears.later {s t u : State} {j : Nat} (h : Tears s t j) (hj : u.jobs = t.jobs) (hr : u.runSlot = t.runSlot)
    (hc : ∀ n, (u.core n).job = (t.core n).job ∧ (u.core n).running = (t.core n).running) : Tears s u j := by
  intro ht hi
  obtain ⟨hst, hrun, hcores⟩ := h ht hi
  refine ⟨by rw [State.job, hj]; exact hst, by rw [hr]; exact hrun, fun n hn hjn => ?_⟩
  rw [(hc n).1, (hc n).2]
  exact hcores n hn hjn

/-! ### The array's own reports -/

/-- The record of an uncorrectable row, and the teardown that follows (R99). -/
theorem accFault_eq (s : State) (n r j : Nat) : ∃ detail,
    s.accFault n r (some j) = (s.fault 1 0x40 (some j) (Page.core n).unit 1 detail 1).tearJob (some j) 1 := ⟨_, rfl⟩

/-- Two conversions that differ (R99, R100): counted, reported as class 2, and acted on by ACTION. -/
theorem stageDiffers_eq (s : State) (n : Nat) : ∃ (u : State) (flags : Nat) (detail : List Byte),
    u.flt = s.flt ∧ u.cores = s.cores ∧ u.jobs = s.jobs ∧ u.sw = s.sw ∧ u.ctr (.array n) 0x58 = (s.ctr (.array n) 0x58 + 1) % 2 ^ 48 ∧
    s.stageDiffers n =
      if bitAt (s.preg (.array n) 0x100) 2 then (u.fault 2 0 (s.core n).job (Page.core n).unit flags detail).loosen n
      else (u.fault 2 0 (s.core n).job (Page.core n).unit flags detail).tearJob (s.core n).job 2 := by
  unfold State.stageDiffers State.arrayMismatch
  extract_lets a e f job tear sInfo sNoted sKept
  obtain ⟨flags, detail, hkept⟩ : ∃ flags detail, sKept = sNoted.fault 2 0 job (Page.core n).unit flags detail := ⟨_, _, rfl⟩
  refine ⟨sNoted, flags, detail, rfl, rfl, rfl, rfl, State.ctr_bump_same s (.array n) 0x58 1, ?_⟩
  rw [hkept]
  cases h : bitAt (s.preg (.array n) 0x100) 2
  · exact if_pos (show (!bitAt (s.preg (.array n) 0x100) 2) = true by rw [h]; rfl)
  · exact if_neg (show ¬ (!bitAt (s.preg (.array n) 0x100) 2) = true by rw [h]; decide)

end Sys2Proof.Machine
end

section
/-! ST.OUT (R90, R92): the row's values, what the stage holds, the record, and the store of a patch with its scale rows. -/

namespace Sys2Proof.Machine

/-! ### The parts of an ST.OUT -/

/-- The rows of the patch that the stage collects. -/
def Arr.priorRows (a : Arr) : List (List Nat) :=
  match a.patch with
  | some x => x.rows
  | none => []

theorem priorRows_eq (a : Arr) : (a.patch.map OutPatch.rows).getD [] = a.priorRows := by
  unfold Arr.priorRows
  cases a.patch <;> rfl

/-- Whether one more row completes the patch, or a FLUSH stores it. -/
def Arr.completes (a : Arr) (d : TDesc) (flush : Bool) : Bool := a.priorRows.length + 1 == d.fmt.patchRows || flush

/-- The scale bytes held after one more row of a scale, those of the positions that stay unused zero. -/
def Arr.holdRow (a : Arr) (d : TDesc) (last : Bool) (sa scale : Nat) : List (Nat × Nat) :=
  if d.scaleBytes != 0 then
    let held := holdScale a.scales (sa + a.priorRows.length) scale
    if last then (fromN (a.priorRows.length + 1) (d.fmt.patchRows - (a.priorRows.length + 1))).foldl (fun h m => holdScale h (sa + m) 0) held
    else held
  else a.scales

/-- The values of a row, free where they are unpredictable. -/
def Arr.outRow (a : Arr) (free k set : Nat) (loose : Bool) : List W32 :=
  if loose then freeRow free else outValues (tget {} a.acc k) (tget (List.replicate 32 fOne) a.fsets set)

/-- The statistics of a row (Table 2.8). -/
def Arr.outStats (a : Arr) (k : Nat) (xs : List W32) (cs : List Conv) : Stats :=
  { statsOf (32 * k) xs cs with sat := (statsOf (32 * k) xs cs).sat + (if (tget {} a.acc k : AccRow).sat then 32 else 0) }

/-- A row counted: the free values of a row that is unpredictable, its record, its non-finite elements. -/
def State.noteRow (s : State) (n : Nat) (d : TDesc) (loose : Bool) (st : Stats) : State :=
  ((if loose then { s with free := s.free + 32 } else s).coreStats n d.statsAddr kindArray st).countNonfinite n st.nonfin

/-- A row kept in the stage. -/
def State.keepPatch (s : State) (n : Nat) (x : OutPatch) (held : List (Nat × Nat)) : State :=
  s.onCore n (fun c => { c with arr := { c.arr with patch := some x, scales := held } })

/-- A patch stored at a row, and scale rows with it. -/
def State.putPatch (s : State) (n : Nat) (plain : Bool) (dst : Nat) (bs : List Byte) (held : List (Nat × Nat)) (full : List Nat) : State :=
  ((s.storeBytes n plain dst bs).1.put dst (s.storeBytes n plain dst bs).2).putScales n plain held full

/-- The stage emptied of a stored patch: its slots filled, its rows in flight until a CCLK. -/
def State.emptyStage (s : State) (n : Nat) (loc : BitVec 14) (d : TDesc) (t dstRow : Nat) (held : List (Nat × Nat)) (full : List Nat) : State :=
  let landed := dstRow :: full.map (fun r => rowOf (512 * r))
  (((s.fillSlots n loc 1 d (t + 4)).soak n landed (t + 5)).ruffle n landed (t + 4)).onCore n (fun c =>
    { c with arr := { c.arr with patch := none, scales := held.filter (fun e => !full.contains (e.1 / 512)) } })

/-- An upset of the row or of the stage. -/
def State.outUpset (s : State) (n k : Nat) (job : Option Nat) : OutUpset → State
  | .none => s
  | .accUncorrectable => s.accFault n k job
  | .stageDiffers => s.stageDiffers n

section
variable (s : State) (n : Nat) (row : BitVec 12) (fset : BitVec 2) (odesc : BitVec 6) (loc : BitVec 14) (flush iter : Bool) (d : TDesc) (u : OutUpset)

/-- Whether an ST.OUT writes values that are unpredictable (R91, R99, R100). -/
def State.outLoose : Bool := u != .none || (s.core n).arr.unsure ((s.core n).accRow row iter) fset.toNat

/-- The values of the row. -/
def State.outRow : List W32 := (s.core n).arr.outRow (s.readChan n d).free ((s.core n).accRow row iter) fset.toNat (s.outLoose n row fset iter u)

/-- The row converted. -/
def State.outBlock : QBlock :=
  quantBlock d (d.priv && (s.chanOf n d).2.contains ((s.core n).accRow row iter)) (s.outRow n row fset iter d u)

/-- The state once the row is counted. -/
def State.outNoted : State :=
  (s.readChan n d).noteRow n d (s.outLoose n row fset iter u)
    ((s.core n).arr.outStats ((s.core n).accRow row iter) (s.outRow n row fset iter d u) (s.outBlock n row fset iter d u).elems)

/-- The rows of the patch with this one. -/
def State.outRows : List (List Nat) := (s.core n).arr.priorRows ++ [(s.outBlock n row fset iter d u).elems.map Conv.code]

/-- The scale bytes held with those of this row. -/
def State.outHeld : List (Nat × Nat) :=
  (s.core n).arr.holdRow d ((s.core n).arr.completes d flush) (s.scaleAddrOf n loc true d 0) (s.outBlock n row fset iter d u).scale

/-- The scale rows written: those whose bytes are all held, whatever they hold. -/
def State.outFull : List Nat :=
  if (s.core n).arr.completes d flush then
    fullScaleRows ((s.core n).arr.holdRow d ((s.core n).arr.completes d flush) (s.scaleAddrOf n loc true d 0) 0) flush
  else []

/-- The sill row of the place. -/
def State.outDst : Nat := (s.placeRows n loc 1 true).headD 0

/-- The state that an ST.OUT without an upset leaves. -/
def State.outDone : State :=
  if (s.core n).arr.completes d flush then
    ((s.outNoted n row fset iter d u).putPatch n (plainLoc loc) (rowAddr n (s.outDst n loc)) (patchBytes d.fmt (s.outRows n row fset iter d u))
      (s.outHeld n row fset loc flush iter d u) (s.outFull n loc flush d)).emptyStage n loc d (s.core n).cclk (s.outDst n loc)
      (s.outHeld n row fset loc flush iter d u) (s.outFull n loc flush d)
  else (s.outNoted n row fset iter d u).keepPatch n ⟨s.areg n odesc.toNat, loc.toNat, s.outRows n row fset iter d u⟩
    (s.outHeld n row fset loc flush iter d u)

variable {s n odesc d}

/-- The effect of an ST.OUT on a core that nothing unusual meets. -/
theorem evalOut_run (h : s.calm n) (hd : s.descOf n odesc.toNat = (0, d)) :
    (evalOut s n row fset odesc loc flush iter u).run =
      (s.outDone n row fset odesc loc flush iter d u).outUpset n ((s.core n).accRow row iter) (s.core n).job u := by
  unfold evalOut
  rw [earlyAt_settled h.2.1]
  dsimp only
  rw [hd]
  dsimp only
  rw [schedRead_clean h.1 n h.2.1]
  cases u <;> rfl

end

end Sys2Proof.Machine
end

section
/-! ST.OUT: what a row counted, a row kept and a patch stored leave (R59, R60, R74, R75, R92, R171). -/

namespace Sys2Proof.Machine

/-- The parts that an ST.OUT touches besides its core. -/
def outParts : List Part := [.mem, .regs, .ctrs, .flt, .events, .quarries, .free, .recs]

/-! ### A row counted -/

theorem Reaches.recordOpen {may : List Part} {s t : State} (h : Reaches may s t) (hc : Part.cores ∉ may) (hr : Part.regs ∉ may)
    (hs : Part.runSlot ∉ may) {n a : Nat} (ho : s.recordOpen n a) : t.recordOpen n a :=
  ⟨(h.coreEnter hc hr hs ..).trans ho.1, (h.coreEnter hc hr hs ..).trans ho.2⟩

/-- What a row counted leaves: its record alone is written, joined by Table 2.8 in a period of one kind; of the core its latch can change;
one report at most is formed. -/
structure RowNoted (n : CoreId) (a : Nat) (loose : Bool) (st : Stats) (s t : State) : Prop where
  work : CoreWork outParts n s t
  latch : ∃ l, t.core n = { s.core n with latch := l }
  records : KeepsRecords s t
  one : t.flt.unack ≤ s.flt.unack + 1
  record : ∃ bs : List Byte, bs.length = 32 ∧ t.mem = memWrite s.mem a bs ∧ (s.recordKind a kindArray (s.bytes a 32) = kindArray →
    bs = ((Stats.ofBytes (s.bytes a 32)).join st).bytes ∧ (loose = false → t.free = s.free))

theorem noteRow_open {s : State} {n : CoreId} {d : TDesc} (h : s.calm n) (ho : s.recordOpen n (d.statsAddr + 32 * n)) (loose : Bool) (st : Stats) :
    RowNoted n (d.statsAddr + 32 * n) loose st s (s.noteRow n d loose st) := by
  generalize hu : (if loose then { s with free := s.free + 32 } else s : State) = u
  have hfree : Reaches [.free] s u := by
    rw [← hu]
    cases loose
    exacts [.refl _ s, reaches_free s _]
  obtain ⟨hmem, hecc⟩ : u.mem = s.mem ∧ u.ecc = s.ecc := hfree.same .mem (by decide)
  have hrecs : u.recs = s.recs := hfree.same .recs (by decide)
  generalize ha : d.statsAddr + 32 * (n : Nat) = a at ho ⊢
  have hbytes : u.bytes a 32 = s.bytes a 32 := by rw [State.bytes, hmem]; rfl
  have hkind : u.recordKind a kindArray (s.bytes a 32) = s.recordKind a kindArray (s.bytes a 32) := by simp only [State.recordKind, hrecs]
  obtain ⟨hstats, -, hwm, hwf⟩ := coreStats_open (hfree.calm (by decide) (by decide) (hecc.trans h.1) h)
    (hfree.recordOpen (by decide) (by decide) (by decide) (ha ▸ ho)) kindArray st
  rw [ha, hbytes] at hwm hwf
  have ht : s.noteRow n d loose st = (u.coreStats n d.statsAddr kindArray st).countNonfinite n st.nonfin := by rw [← hu]; rfl
  rw [ht]
  generalize u.coreStats n d.statsAddr kindArray st = w at hstats hwm hwf ⊢
  obtain ⟨hwork, hlatch, hkeeps, hone⟩ := countNonfinite_own n w st.nonfin
  have hflt : w.flt = s.flt := (hstats.same .flt (by decide)).trans (hfree.same .flt (by decide))
  have hcore : w.core n = s.core n := (hstats.core (by decide) n).trans (hfree.core (by decide) n)
  refine ⟨?_, by rw [← hcore]; exact hlatch, (KeepsRecords.of_flt hflt).trans hkeeps, by rw [← hflt]; exact hone,
    u.recordBytes a kindArray (s.bytes a 32) st, recordBytes_length .., ?_, fun hk => ⟨?_, fun hl => ?_⟩⟩
  · exact ((hfree.coreWork (by decide) (by decide) n).mono (by decide)).trans
      (((hstats.coreWork (by decide) (by decide) n).mono (by decide)).trans (hwork.mono (by decide)))
  · rw [(hwork.same .mem (by decide)).1, hwm, hmem]
  · rw [State.recordBytes, hkind, if_pos hk]
  · rw [show State.free _ = w.free from hwork.same .free (by decide), hwf (hkind.trans hk), ← hu, hl]
    rfl

/-! ### Rows of memory written -/

/-- Whole rows written one after the other. -/
def putRows (f : Nat → List Byte) (m : List Host.Cell) (rs : List Nat) : List Host.Cell := rs.foldl (fun m r => memWrite m (512 * r) (f r)) m

section
variable {f : Nat → List Byte} (hf : ∀ r, (f r).length = 512) {m : List Host.Cell} {rs : List Nat}
include hf

theorem memGet_putRows_outside {x : Nat} (hx : x / 512 ∉ rs) : memGet (putRows f m rs) x = memGet m x := by
  induction rs generalizing m with
  | nil => rfl
  | cons r rs ih =>
    simp only [List.mem_cons, not_or] at hx
    have hrow : x < 512 * r ∨ 512 * r + (f r).length ≤ x := by rw [hf]; omega
    exact (ih hx.2).trans (memGet_memWrite_outside _ hrow)

/-- Of rows that differ by their place alone each stands in memory. -/
theorem memGet_putRows_inside (hm : Memory.wf m = true) {r i : Nat} (hr : r ∈ rs) (hi : i < 512) :
    memGet (putRows f m rs) (512 * r + i) = (f r)[i]'(by rw [hf]; exact hi) := by
  induction rs generalizing m with
  | nil => simp at hr
  | cons r' rs ih =>
    by_cases h : r ∈ rs
    · exact ih (Memory.wf_memWrite _ _ hm) h
    · obtain rfl : r = r' := (List.mem_cons.mp hr).resolve_right h
      have hx : (512 * r + i) / 512 ∉ rs := by rw [show (512 * r + i) / 512 = r by omega]; exact h
      exact (memGet_putRows_outside hf hx).trans (memGet_memWrite_inside _ hm _)

end

/-- A range read byte by byte. -/
theorem memRead_eq {m : List Host.Cell} {a n : Nat} {bs : List Byte} (hn : bs.length = n) (h : ∀ i (hi : i < bs.length), memGet m (a + i) = bs[i]) :
    memRead m a n = bs := by
  subst hn
  exact List.ext_getElem (by simp [memRead]) fun i _ hi => by simpa [memRead] using h i hi

/-- One row written, then others: where none of these is the one it stands, each of these does, and no byte besides has changed. -/
theorem putRows_memWrite {f : Nat → List Byte} (hf : ∀ r, (f r).length = 512) {m : List Host.Cell} (hm : Memory.wf m = true) {dst : Nat}
    (hd : dst % 512 = 0) {bs : List Byte} (hb : bs.length = 512) (rs : List Nat) :
    let m' := putRows f (memWrite m dst bs) rs
    ((∀ r ∈ rs, 512 * r ≠ dst) → memRead m' dst 512 = bs) ∧ (∀ r ∈ rs, memRead m' (512 * r) 512 = f r) ∧
    ∀ x, (x < dst ∨ dst + 512 ≤ x) → x / 512 ∉ rs → memGet m' x = memGet m x := by
  refine ⟨fun hne => memRead_eq hb fun i hi => ?_, fun r hr => memRead_eq (hf r) fun i hi => ?_, fun x hx hrs => ?_⟩
  · have hrow : (dst + i) / 512 ∉ rs := fun hr => hne _ hr (by omega)
    rw [memGet_putRows_outside hf hrow]
    exact memGet_memWrite_inside bs hm hi
  · exact memGet_putRows_inside hf (Memory.wf_memWrite _ _ hm) hr (by rwa [hf] at hi)
  · rw [memGet_putRows_outside hf hrs, memGet_memWrite_outside _ (by rw [hb]; exact hx)]

/-! ### The patch and its scale rows stored -/

/-- A scale row as it is written. -/
def scaleRow (held : List (Nat × Nat)) (r : Nat) : List Byte := (List.range 512).map (fun i => BitVec.ofNat 8 ((tfind held (512 * r + i)).getD 0))

theorem scaleRow_length (held : List (Nat × Nat)) (r : Nat) : (scaleRow held r).length = 512 := by simp [scaleRow]

theorem patchBytes_length (f : EFmt) (rows : List (List Nat)) : (patchBytes f rows).length = 512 := Laws.fitTo_length 512 _

/-- A store that reaches into no slot outside its protocol leaves the bytes that it is given (R33). -/
theorem storeBytes_own {s : State} {n a : Nat} {plain : Bool} (h : plain = true → s.foreign n (rowOf a) = false) (bs : List Byte) :
    s.storeBytes n plain a bs = (s, bs) := by
  unfold State.storeBytes
  rw [if_neg]
  cases plain <;> simp_all

theorem storeBytes_work (s : State) (n : CoreId) (plain : Bool) (a : Nat) (bs : List Byte) :
    CoreWork [.mem, .free] n s (s.storeBytes n plain a bs).1 := by
  unfold State.storeBytes
  split
  exacts [(coreWork_free n s _).mono (by decide), .refl _ n s]

theorem foreign_put (s : State) (a : Nat) (bs : List Byte) (n row : Nat) : (s.put a bs).foreign n row = s.foreign n row := rfl

theorem putScales_mem {s : State} {n : Nat} {plain : Bool} {rs : List Nat} (h : plain = true → ∀ r ∈ rs, s.foreign n (rowOf (512 * r)) = false)
    (held : List (Nat × Nat)) : (s.putScales n plain held rs).mem = putRows (scaleRow held) s.mem rs := by
  induction rs generalizing s with
  | nil => rfl
  | cons r rs ih =>
    have hput : s.putScales n plain held (r :: rs) = (s.put (512 * r) (scaleRow held r)).putScales n plain held rs := by
      unfold State.putScales
      rw [List.foldl_cons, storeBytes_own fun hp => h hp r (List.mem_cons_self ..)]
      rfl
    have hrest := ih (s := s.put (512 * r) (scaleRow held r)) fun hp r' hr' => by
      rw [foreign_put]; exact h hp r' (List.mem_cons_of_mem _ hr')
    simp only [hput, hrest, State.put_mem, putRows, List.foldl_cons]

theorem putPatch_work (s : State) (n : CoreId) (plain : Bool) (dst : Nat) (bs : List Byte) (held : List (Nat × Nat)) (full : List Nat) :
    CoreWork [.mem, .free] n s (s.putPatch n plain dst bs held full) := by
  have hstore : ∀ (u : State) a bs, CoreWork [.mem, .free] n u ((u.storeBytes n plain a bs).1.put a (u.storeBytes n plain a bs).2) :=
    fun u a bs => (storeBytes_work u n plain a bs).trans ((coreWork_put n _ a _).mono (by decide))
  exact (hstore s dst bs).trans (.foldl (fun u r => hstore u _ _) _ _)

theorem putPatch_mem {s : State} {n dst : Nat} {plain : Bool} {full : List Nat}
    (h : plain = true → s.foreign n (rowOf dst) = false ∧ ∀ r ∈ full, s.foreign n (rowOf (512 * r)) = false) (bs : List Byte)
    (held : List (Nat × Nat)) : (s.putPatch n plain dst bs held full).mem = putRows (scaleRow held) (memWrite s.mem dst bs) full := by
  unfold State.putPatch
  rw [storeBytes_own fun hp => (h hp).1]
  exact putScales_mem (s := s.put dst bs) (fun hp r hr => by rw [foreign_put]; exact (h hp).2 r hr) held

/-! ### The stage emptied -/

theorem schedule_work {may : List Part} (s : State) (n : CoreId) (h pos k : Nat) (at_ : Nat → Nat) (b : Bool) :
    CoreWork may n s (s.schedule n h pos k at_ b) := by
  unfold State.schedule
  exact coreWork_onCore n s fun _ => ⟨rfl, rfl, rfl⟩

theorem advProd_work {may : List Part} (s : State) (n : CoreId) (h k : Nat) : CoreWork may n s (s.advProd n h k) := by
  unfold State.advProd State.setSlot
  exact coreWork_onCore n s fun _ => ⟨rfl, rfl, rfl⟩

theorem fillSlots_work (s : State) (n : CoreId) (loc : BitVec 14) (rows : Nat) (d : TDesc) (t : Nat) :
    CoreWork [.free, .ctrs] n s (s.fillSlots n loc rows d t) := by
  have hring : ∀ (u : State) h pos k, CoreWork [.free, .ctrs] n u ((u.schedule n h pos k (fun _ => t) true).advProd n h k) := fun u h pos k =>
    (schedule_work u n h pos k _ true).trans (advProd_work _ n h k)
  unfold State.fillSlots
  split
  · exact .refl _ n s
  · extract_lets k one s'
    have hs' : CoreWork [.free, .ctrs] n s s' := by
      unfold s'
      split
      exacts [(hring s _ _ _).trans (hring _ _ _ _), hring s _ _ _]
    exact hs'.trans ((coreWork_bump n s' (by decide) k).mono (by decide))

theorem soak_work (s : State) (n : CoreId) (rows : List Nat) (ready : Nat) : CoreWork [.free, .ctrs] n s (s.soak n rows ready) :=
  coreWork_onCore n s fun _ => ⟨rfl, rfl, rfl⟩

/-- Rows soaked are in flight until the CCLK given. -/
theorem soak_wet (s : State) (n : Nat) {rows : List Nat} {r : Nat} (ready : Nat) (h : r ∈ rows) :
    tget 0 ((s.soak n rows ready).core n).wet r = ready := by
  have hkey : ∀ (rows : List Nat) (t : Tab Nat), r ∈ rows ∨ tget 0 t r = ready →
      tget 0 (rows.foldl (fun t r => tset t r ready) t) r = ready := by
    intro rows
    induction rows with
    | nil => simp
    | cons x rows ih =>
      intro t h
      refine ih _ ?_
      by_cases e : r = x
      · subst e; exact .inr (tget_tset_same ..)
      · rw [tget_tset_ne _ _ _ e]
        exact h.imp_left fun h => (List.mem_cons.mp h).resolve_left e
  simpa [State.soak] using hkey rows (s.core n).wet (.inl h)

theorem ruffle_work (s : State) (n : CoreId) (rows : List Nat) (at_ : Nat) : CoreWork [.free, .ctrs] n s (s.ruffle n rows at_) := by
  unfold State.ruffle
  extract_lets late a blur
  split
  · exact ((coreWork_free n s _).mono (by decide)).trans (coreWork_onCore n _ fun _ => ⟨rfl, rfl, rfl⟩)
  · exact .refl _ n s

/-- What a store takes from the staging halves is none of the rows in flight. -/
theorem ruffle_wet (s : State) (n : Nat) (rows : List Nat) (at_ : Nat) : ((s.ruffle n rows at_).core n).wet = (s.core n).wet := by
  unfold State.ruffle
  extract_lets late a blur
  split
  · rw [State.onCore_eq, State.core_setCore_same]; rfl
  · rfl

section
variable (s : State) (loc : BitVec 14) (d : TDesc) (t dstRow : Nat) (held : List (Nat × Nat)) (full : List Nat)

theorem emptyStage_work (n : CoreId) : CoreWork [.free, .ctrs] n s (s.emptyStage n loc d t dstRow held full) := by
  unfold State.emptyStage
  exact (fillSlots_work s n loc 1 d (t + 4)).trans <| (soak_work _ n _ (t + 5)).trans <| (ruffle_work _ n _ (t + 4)).trans <|
    coreWork_onCore n _ fun _ => ⟨rfl, rfl, rfl⟩

theorem emptyStage_core (n : Nat) :
    let c := (s.emptyStage n loc d t dstRow held full).core n
    c.arr.patch = none ∧ c.arr.scales = held.filter (fun e => !full.contains (e.1 / 512)) ∧ tget 0 c.wet dstRow = t + 5 := by
  unfold State.emptyStage
  dsimp only
  rw [State.onCore_eq, State.core_setCore_same]
  exact ⟨rfl, rfl, by rw [ruffle_wet]; exact soak_wet _ n _ (List.mem_cons_self ..)⟩

end

/-! ### The scale rows written -/

/-- Which scale rows are full turns on the places of the bytes alone. -/
theorem fullScaleRows_congr {h h' : List (Nat × Nat)} (e : h.map Prod.fst = h'.map Prod.fst) (flush : Bool) :
    fullScaleRows h flush = fullScaleRows h' flush := by
  have hrow : h.map (fun e => e.1 / 512) = h'.map (fun e => e.1 / 512) := by
    simpa only [List.map_map, Function.comp_def] using congrArg (List.map (· / 512)) e
  have hcount : ∀ r, h.countP (fun e => e.1 / 512 == r) = h'.countP (fun e => e.1 / 512 == r) := fun r => by
    simpa only [List.countP_map, Function.comp_def] using congrArg (List.countP (· / 512 == r)) e
  simp only [fullScaleRows, hrow, hcount]

theorem holdScale_keys (h : List (Nat × Nat)) (a v : Nat) : (holdScale h a v).map Prod.fst = (h.map Prod.fst).filter (· != a) ++ [a] := by
  rw [holdScale, List.map_append, List.filter_map]
  rfl

/-- The places of the bytes held do not turn on the row's scale. -/
theorem holdRow_keys (a : Arr) (d : TDesc) (last : Bool) (sa x y : Nat) :
    (a.holdRow d last sa x).map Prod.fst = (a.holdRow d last sa y).map Prod.fst := by
  have hfold : ∀ (ms : List Nat) (h h' : List (Nat × Nat)), h.map Prod.fst = h'.map Prod.fst →
      (ms.foldl (fun h m => holdScale h (sa + m) 0) h).map Prod.fst = (ms.foldl (fun h m => holdScale h (sa + m) 0) h').map Prod.fst := by
    intro ms
    induction ms with
    | nil => exact fun _ _ e => e
    | cons m ms ih => exact fun h h' e => ih _ _ (by rw [holdScale_keys, holdScale_keys, e])
  have hone : (holdScale a.scales (sa + a.priorRows.length) x).map Prod.fst = (holdScale a.scales (sa + a.priorRows.length) y).map Prod.fst := by
    rw [holdScale_keys, holdScale_keys]
  unfold Arr.holdRow
  dsimp only
  split_ifs
  exacts [hfold _ _ _ hone, hone, rfl]

end Sys2Proof.Machine
end

section
/-! ST.OUT as a command (R90 to R93, R99, R100, R171): the state that it leaves, part by part, and its upsets. -/

namespace Sys2Proof.Machine

/-! ### The state before an upset -/

theorem RowNoted.after {n : CoreId} {a : Nat} {loose : Bool} {st : Stats} {s u t : State} (hr : Reaches [] s u) (h : RowNoted n a loose st u t) :
    RowNoted n a loose st s t := by
  obtain ⟨hwork, hlatch, hkeeps, hone, bs, hlen, hmem, hbs⟩ := h
  have hm : u.mem = s.mem := (hr.same .mem (by decide)).1
  have hflt : u.flt = s.flt := hr.same .flt (by decide)
  have hrecs : u.recs = s.recs := hr.same .recs (by decide)
  have hfree : u.free = s.free := hr.same .free (by decide)
  have hbytes : u.bytes a 32 = s.bytes a 32 := by rw [State.bytes, hm]; rfl
  have hkind : u.recordKind a kindArray (s.bytes a 32) = s.recordKind a kindArray (s.bytes a 32) := by simp only [State.recordKind, hrecs]
  rw [hbytes, hkind, hfree] at hbs
  exact ⟨((hr.coreWork (by decide) (by decide) n).mono (by decide)).trans hwork, by rw [← hr.core (by decide)]; exact hlatch,
    (KeepsRecords.of_flt hflt).trans hkeeps, by rw [← hflt]; exact hone, bs, hlen, by rw [hmem, hm], hbs⟩

/-- A row kept changes what the stage holds alone. -/
theorem keepPatch_work (s : State) (n : CoreId) (x : OutPatch) (held : List (Nat × Nat)) : CoreWork outParts n s (s.keepPatch n x held) :=
  coreWork_onCore n s fun _ => ⟨rfl, rfl, rfl⟩

section
variable {s : State} {n : CoreId} {d : TDesc} (h : s.calm n) (ho : s.recordOpen n (d.statsAddr + 32 * n))
variable (row : BitVec 12) (fset : BitVec 2) (odesc : BitVec 6) (loc : BitVec 14) (flush iter : Bool) (u : OutUpset)
include h ho

/-- The row of an ST.OUT counted. -/
theorem outNoted_open : RowNoted n (d.statsAddr + 32 * n) (s.outLoose n row fset iter u)
    ((s.core n).arr.outStats ((s.core n).accRow row iter) (s.outRow n row fset iter d u) (s.outBlock n row fset iter d u).elems)
    s (s.outNoted n row fset iter d u) := by
  have hr := readChan_calm h d
  exact .after hr (noteRow_open (hr.calm (by decide) (by decide) ((hr.same .mem (by decide)).2.trans h.1) h)
    (hr.recordOpen (by decide) (by decide) (by decide) ho) _ _)

/-- An ST.OUT is the work of its core, and makes one record at most before an upset. -/
theorem outDone_work :
    let t := s.outDone n row fset odesc loc flush iter d u
    CoreWork outParts n s t ∧ KeepsRecords s t ∧ t.flt.unack ≤ s.flt.unack + 1 := by
  obtain ⟨hwork, -, hkeeps, hone, -⟩ := outNoted_open h ho row fset iter u
  unfold State.outDone
  generalize s.outNoted n row fset iter d u = w at *
  dsimp only
  split
  · generalize hv : w.putPatch n _ _ _ _ _ = v
    have hput : CoreWork [.mem, .free] n w v := hv ▸ putPatch_work ..
    have hempty := emptyStage_work v loc d (s.core n).cclk (s.outDst n loc) (s.outHeld n row fset loc flush iter d u)
      (s.outFull n loc flush d) n
    have hflt : State.flt _ = w.flt := (hempty.same .flt (by decide)).trans (hput.same .flt (by decide))
    exact ⟨hwork.trans ((hput.mono (by decide)).trans (hempty.mono (by decide))), hkeeps.trans (.of_flt hflt), by rw [hflt]; exact hone⟩
  · exact ⟨hwork.trans (keepPatch_work ..), hkeeps.trans (.of_flt rfl), hone⟩

/-- A row that does not complete its patch: what the stage then holds, and its record. -/
theorem outDone_kept (hlast : (s.core n).arr.completes d flush = false) (hm : s.memOk) :
    let t := s.outDone n row fset odesc loc flush iter d u
    let a := d.statsAddr + 32 * n
    (t.core n).arr = { (s.core n).arr with
      patch := some ⟨s.areg n odesc.toNat, loc.toNat, s.outRows n row fset iter d u⟩, scales := s.outHeld n row fset loc flush iter d u } ∧
    (t.core n).slots = (s.core n).slots ∧ (∀ x, (x < a ∨ a + 32 ≤ x) → memGet t.mem x = memGet s.mem x) ∧
    (s.recordKind a kindArray (s.bytes a 32) = kindArray →
      t.bytes a 32 = ((Stats.ofBytes (s.bytes a 32)).join ((s.core n).arr.outStats ((s.core n).accRow row iter)
        (s.outRow n row fset iter d u) (s.outBlock n row fset iter d u).elems)).bytes ∧
      (s.outLoose n row fset iter u = false → t.free = s.free)) := by
  obtain ⟨-, ⟨l, hl⟩, -, -, bs, hlen, hmem, hbs⟩ := outNoted_open h ho row fset iter u
  unfold State.outDone
  rw [hlast, if_neg Bool.false_ne_true]
  generalize s.outNoted n row fset iter d u = w at *
  unfold State.keepPatch
  simp only [State.onCore_eq, State.core_setCore_same, hl, State.setCore_mem, State.setCore_free, true_and]
  refine ⟨fun x hx => ?_, fun hk => ⟨?_, (hbs hk).2⟩⟩
  · rw [hmem, memGet_memWrite_outside _ (by rw [hlen]; exact hx)]
  · rw [← (hbs hk).1]
    refine memRead_eq hlen fun i hi => ?_
    rw [State.setCore_mem, hmem]
    exact memGet_memWrite_inside bs hm hi

/-- A patch stored: the stage emptied of it, its row and the full scale rows in memory, nothing written but these and the record. -/
theorem outDone_stored (hlast : (s.core n).arr.completes d flush = true) (hm : s.memOk)
    (hown : plainLoc loc = true → s.foreign n (rowOf (rowAddr n (s.outDst n loc))) = false ∧
      ∀ r ∈ s.outFull n loc flush d, s.foreign n (rowOf (512 * r)) = false) :
    let t := s.outDone n row fset odesc loc flush iter d u
    let a := d.statsAddr + 32 * n
    let dst := rowAddr n (s.outDst n loc)
    let full := s.outFull n loc flush d
    let held := s.outHeld n row fset loc flush iter d u
    (t.core n).arr.patch = none ∧ (t.core n).arr.scales = held.filter (fun e => !full.contains (e.1 / 512)) ∧
    ((∀ r ∈ full, 512 * r ≠ dst) → t.bytes dst 512 = patchBytes d.fmt (s.outRows n row fset iter d u)) ∧
    (∀ r ∈ full, t.bytes (512 * r) 512 = scaleRow held r) ∧
    (∀ x, (x < dst ∨ dst + 512 ≤ x) → (x < a ∨ a + 32 ≤ x) → x / 512 ∉ full → memGet t.mem x = memGet s.mem x) ∧
    tget 0 (t.core n).wet (s.outDst n loc) = (s.core n).cclk + 5 := by
  obtain ⟨-, ⟨l, hl⟩, -, -, bs, hlen, hmem, -⟩ := outNoted_open h ho row fset iter u
  unfold State.outDone
  rw [if_pos hlast]
  generalize s.outNoted n row fset iter d u = w at *
  generalize s.outHeld n row fset loc flush iter d u = held
  generalize s.outFull n loc flush d = full at *
  have hpatch := patchBytes_length d.fmt (s.outRows n row fset iter d u)
  generalize patchBytes d.fmt (s.outRows n row fset iter d u) = patch at *
  have hdst : rowAddr n (s.outDst n loc) % 512 = 0 := by unfold rowAddr sillBase; omega
  generalize s.outDst n loc = dstRow at *
  generalize rowAddr n dstRow = dst at *
  have hslots : ∀ x, w.foreign n x = s.foreign n x := fun x => by simp only [State.foreign, hl]
  have hput : (w.putPatch n (plainLoc loc) dst patch held full).mem = putRows (scaleRow held) (memWrite w.mem dst patch) full :=
    putPatch_mem (by simpa only [hslots] using hown) patch held
  generalize w.putPatch n (plainLoc loc) dst patch held full = v at *
  obtain ⟨harr, hscales, hwet⟩ := emptyStage_core v loc d (s.core n).cclk dstRow held full n
  have htv := ((emptyStage_work v loc d (s.core n).cclk dstRow held full n).same .mem (by decide)).1
  generalize v.emptyStage n loc d (s.core n).cclk dstRow held full = t at *
  rw [hput, hmem] at htv
  obtain ⟨hrowat, hscaleat, hother⟩ := putRows_memWrite (scaleRow_length held) (Memory.wf_memWrite (d.statsAddr + 32 * n) bs hm) hdst hpatch full
  rw [← htv] at hrowat hscaleat hother
  exact ⟨harr, hscales, hrowat, hscaleat, fun x hxd hxa hxf =>
    (hother x hxd hxf).trans (memGet_memWrite_outside _ (by rw [hlen]; exact hxa)), hwet⟩

end

end Sys2Proof.Machine
end

section
/-! ST.OUT settled (R90 to R93, R99, R100). -/

namespace Sys2Proof.Machine

/-! ### The lane issued -/

/-- What a lane leaves for its sub-bundle is of the sub-bundle alone. -/
theorem issued_core (e : Eval) (n : Nat) : ∃ cur, (e.issued n).core n = { e.run.core n with cur := cur } :=
  ⟨_, by simp [Eval.issued, Eval.names]; rfl⟩

theorem issued_work {may : List Part} (e : Eval) (n : CoreId) : CoreWork may n e.run (e.issued n) := by
  obtain ⟨cur, hc⟩ := issued_core e n
  exact ⟨fun p hp => issued_same e n p fun h => hp (by simp [h]), rfl, fun m hm => issued_ne e hm, by simp [hc], rfl, rfl⟩

theorem issued_flt (e : Eval) (n : Nat) : (e.issued n).flt = e.run.flt := rfl

theorem CoreWork.onlyCore {may : List Part} {n : CoreId} {s t : State} (h : CoreWork may n s t) : OnlyCore s (finish s t) n may :=
  ⟨unchanged_finish h.pending h.same, fun m hm => by rw [finish_get_core, h.other m hm]⟩

theorem CoreWork.job {may : List Part} {n : CoreId} {s t : State} (h : CoreWork may n s t) (m : Nat) : (t.core m).job = (s.core m).job := by
  by_cases hm : m = n
  · rw [hm]; exact h.core.2.1
  · rw [h.other m hm]

/-- A teardown stands when the lane is issued. -/
theorem tears_issued {s : State} {e : Eval} {n : CoreId} {j : Nat} (h : Tears s e.run j) : Tears s (finish s (e.issued n)) j := by
  refine h.later (by rw [finish_jobs]; rfl) (by rw [finish_runSlot]; rfl) fun m => ?_
  rw [finish_get_core]
  by_cases hm : m = n
  · rw [hm]; exact (issued_work (may := []) e n).core.2
  · rw [issued_ne e hm]; exact ⟨rfl, rfl⟩

/-- A record of the lane's effect is recorded when the lane is issued, whatever the work before it recorded. -/
theorem records_issued {s w u : State} {e : Eval} {n cls status unit flags sub : Nat} {job : Option Nat} {detail : List Byte} (hc : cls < 256)
    (hw : KeepsRecords s w) (hone : w.flt.unack ≤ s.flt.unack + 1) (hu : u.flt = w.flt)
    (he : KeepsRecords (u.fault cls status job unit flags detail sub) e.run) : Records s (finish s (e.issued n)) cls :=
  records_second hc (hw.trans (.of_flt hu)) (by rw [hu]; exact hone) (he.trans (.of_flt (issued_flt e n)))

/-- So is a record that tears its job down, and the teardown stands. -/
theorem tornDown_issued {may : List Part} {s w u : State} {e : Eval} {c : CoreId} {cls status unit flags sub j : Nat} {detail : List Byte}
    (hc : cls < 256) (hw : CoreWork may c s w) (hm : Part.jobs ∉ may ∧ Part.sw ∉ may) (hk : KeepsRecords s w)
    (hone : w.flt.unack ≤ s.flt.unack + 1) (hu : u.flt = w.flt ∧ u.cores = w.cores ∧ u.jobs = w.jobs ∧ u.sw = w.sw)
    (he : e.run = (u.fault cls status (some j) unit flags detail sub).tearJob (some j) cls) :
    Records s (finish s (e.issued c)) cls ∧ Tears s (finish s (e.issued c)) j := by
  obtain ⟨hflt, hcores, hjobs, hsw⟩ := hu
  refine ⟨records_issued hc hk hone hflt (he ▸ tearJob_keepsRecords _ _ _), tears_issued ?_⟩
  have hf := windsUp_fault u cls status (some j) unit flags detail sub
  rw [he]
  refine tearJob_tears ?_ ?_ (fun n => ?_) j cls
  · exact hf.jobs.trans (hjobs.trans (hw.same .jobs (by simpa using hm.1)))
  · exact hf.sw.trans (hsw.trans (hw.same .sw (by simpa using hm.2)))
  · rw [(hf.core n).1, State.core, hcores]
    exact hw.job n

section
variable {s : State} {c : CoreId} {row : BitVec 12} {fset : BitVec 2} {odesc : BitVec 6} {loc : BitVec 14} {flush iter : Bool} {d : TDesc}
variable (hl : LaneIssues s c (.stOut row fset odesc loc flush iter)) (hc : s.calm c) (hd : s.descOf c odesc.toNat = (0, d))
include hl hc hd

/-- An ST.OUT that issues: the row, then its upset, then the lane's marks. -/
theorem exec_stOut (u : OutUpset) : ∃ e : Eval,
    e.run = (s.outDone c row fset odesc loc flush iter d u).outUpset c ((s.core c).accRow row iter) (s.core c).job u ∧
    exec (.stOut c row fset odesc loc flush iter u) s = .next (finish s (e.issued c)) := by
  have hexec : exec (.stOut c row fset odesc loc flush iter u) s = execStOut c row fset odesc loc flush iter u s := rfl
  refine ⟨evalOut s c row fset odesc loc flush iter u, evalOut_run row fset loc flush iter u hc hd, ?_⟩
  rw [hexec, execStOut, actCore_current hl.1.1 hl.1.2.1, lane_issues _ id hl, id]

variable (ho : s.recordOpen c (d.statsAddr + 32 * c))
include ho

/-- An uncorrectable row is reported as class 1, and tears the job down (R99). -/
theorem exec_stOut_uncorrectable {j : Nat} (hj : (s.core c).job = some j) :
    ∃ t, exec (.stOut c row fset odesc loc flush iter .accUncorrectable) s = .next t ∧ Records s t 1 ∧ Tears s t j := by
  obtain ⟨e, he, hexec⟩ := exec_stOut hl hc hd .accUncorrectable
  obtain ⟨hwork, hkeeps, hone⟩ := outDone_work hc ho row fset odesc loc flush iter .accUncorrectable
  generalize s.outDone c row fset odesc loc flush iter d .accUncorrectable = w at *
  obtain ⟨detail, hfault⟩ := accFault_eq w c ((s.core c).accRow row iter) j
  rw [hj] at he
  exact ⟨_, hexec, tornDown_issued (by decide) hwork (by decide) hkeeps hone ⟨rfl, rfl, rfl, rfl⟩ (he.trans hfault)⟩

/-- Two conversions that differ are reported as class 2; ACTION decides what follows (R99, R100). -/
theorem exec_stOut_differs {j : Nat} (hj : (s.core c).job = some j) :
    ∃ t, exec (.stOut c row fset odesc loc flush iter .stageDiffers) s = .next t ∧ Records s t 2 ∧
      (bitAt (s.preg (.array c) 0x100) 2 = true → t.ctr (.array c) 0x58 = (s.ctr (.array c) 0x58 + 1) % 2 ^ 48 ∧ (t.core c).arr.loose = true) ∧
      (bitAt (s.preg (.array c) 0x100) 2 = false → Tears s t j) := by
  obtain ⟨e, he, hexec⟩ := exec_stOut hl hc hd .stageDiffers
  obtain ⟨hwork, hkeeps, hone⟩ := outDone_work hc ho row fset odesc loc flush iter .stageDiffers
  generalize s.outDone c row fset odesc loc flush iter d .stageDiffers = w at *
  obtain ⟨u, flags, detail, hflt, hcores, hjobs, hsw, hctr, hdiff⟩ := stageDiffers_eq w c
  replace he : e.run = _ := he.trans hdiff
  rw [hwork.action, hwork.job, hj] at he
  rw [hwork.mismatches] at hctr
  refine ⟨_, hexec, ?_⟩
  cases haction : bitAt (s.preg (.array c) 0x100) 2
  · rw [haction, if_neg Bool.false_ne_true] at he
    obtain ⟨hrec, htear⟩ := tornDown_issued (by decide) hwork (by decide) hkeeps hone ⟨hflt, hcores, hjobs, hsw⟩ he
    exact ⟨hrec, nofun, fun _ => htear⟩
  · rw [haction, if_pos rfl] at he
    have hkept : KeepsRecords (u.fault 2 0 (some j) (Page.core c).unit flags detail) e.run := he ▸ .of_flt rfl
    refine ⟨records_issued (by decide) hkeeps hone hflt hkept, fun _ => ⟨?_, ?_⟩, nofun⟩
    · rw [finish_get_ctr, issued_ctr, he]
      exact (fault_arrayCtr u (by decide) ..).trans hctr
    · obtain ⟨cur, hcur⟩ := issued_core e c
      rw [finish_get_core, hcur, he]
      simp [State.loosen]

/-- An ST.OUT without an upset: what it leaves alone, and what it changes. -/
theorem exec_stOut_done : ∃ t, exec (.stOut c row fset odesc loc flush iter .none) s = .next t ∧ (t.core c).pc = (s.core c).pc ∧
    OnlyCore s t c outParts ∧
    (let u := s.outDone c row fset odesc loc flush iter d .none
     t.mem = u.mem ∧ t.free = u.free ∧ ∃ cur, t.core c = { u.core c with cur := cur }) := by
  obtain ⟨e, he, hexec⟩ := exec_stOut hl hc hd .none
  replace he : e.run = s.outDone c row fset odesc loc flush iter d .none := he
  have hwork := (outDone_work hc ho row fset odesc loc flush iter .none).1.trans (he ▸ issued_work e c)
  obtain ⟨cur, hcur⟩ := issued_core e c
  rw [he] at hcur
  refine ⟨_, hexec, by rw [finish_get_core]; exact hwork.core.1, hwork.onlyCore, ?_, ?_, cur, by rw [finish_get_core]; exact hcur⟩
  · rw [finish_mem, ← he]; rfl
  · rw [finish_free, ← he]; rfl

end

/-! ### The statement's terms -/

/-- Whether the patch is complete, as a proposition. -/
theorem completes_iff (a : Arr) (d : TDesc) (flush : Bool) :
    a.completes d flush = true ↔ ((a.patch.map OutPatch.rows).getD []).length + 1 = d.fmt.patchRows ∨ flush = true := by
  simp [Arr.completes, priorRows_eq]

/-- The scale bytes held, by the cases of a completed patch and of a format with scales. -/
theorem holdRow_eq {a : Arr} {d : TDesc} {last : Bool} {p : Prop} [Decidable p] (hp : last = true ↔ p) (sa scale : Nat) :
    a.holdRow d last sa scale =
      let one := if d.scaleBytes = 0 then a.scales else holdScale a.scales (sa + a.priorRows.length) scale
      if p ∧ d.scaleBytes ≠ 0 then
        (fromN (a.priorRows.length + 1) (d.fmt.patchRows - (a.priorRows.length + 1))).foldl (fun h m => holdScale h (sa + m) 0) one
      else one := by
  unfold Arr.holdRow
  by_cases hs : d.scaleBytes = 0
  · simp [hs]
  · by_cases hlast : last = true
    · simp [hs, hlast, hp.mp hlast]
    · simp [hs, hlast, mt hp.mpr hlast]

/-- The scale rows that a stored patch takes with it. -/
theorem outFull_eq {s : State} {n : Nat} {d : TDesc} {flush : Bool} (hlast : (s.core n).arr.completes d flush = true) (row : BitVec 12)
    (fset : BitVec 2) (loc : BitVec 14) (iter : Bool) (u : OutUpset) :
    s.outFull n loc flush d = fullScaleRows (s.outHeld n row fset loc flush iter d u) flush := by
  rw [State.outFull, if_pos hlast]
  exact fullScaleRows_congr (holdRow_keys ..) flush

/-- Settles O21: a row kept by its record and what the stage then holds, a patch stored by the rows written, an upset by its report. -/
theorem outputStageStores : Obligations.OutputStageStores := by
  unfold Obligations.OutputStageStores
  refine ⟨?_, fun s c row fset odesc loc flush iter d j hl hc hd ho hj =>
    ⟨exec_stOut_uncorrectable hl hc hd ho hj, exec_stOut_differs hl hc hd ho hj⟩⟩
  intro s c row fset odesc loc flush iter d a k acc unsure xs q prior rows last rec_ dst sa one held full hl hc hm hd ho
  have hxs : s.outRow c row fset iter d .none = xs := by
    have hfree : (s.readChan c d).free = s.free := (readChan_calm hc d).same .free (by decide)
    rw [State.outRow, hfree]
    rfl
  have hq : s.outBlock c row fset iter d .none = q := by rw [State.outBlock, hxs]
  have hprior : prior = a.priorRows := priorRows_eq a
  have hrows : s.outRows c row fset iter d .none = rows := by rw [State.outRows, hq, ← priorRows_eq]
  have hlast : a.completes d flush = true ↔ last := completes_iff a d flush
  have hheld : s.outHeld c row fset loc flush iter d .none = held := by
    rw [State.outHeld, hq, holdRow_eq hlast, ← priorRows_eq]
  obtain ⟨t, hexec, hpc, honly, hmem, hfree, cur, hcur⟩ := exec_stOut_done hl hc hd ho
  have hbytes : ∀ x n, t.bytes x n = (s.outDone c row fset odesc loc flush iter d .none).bytes x n := fun x n => by
    rw [State.bytes, hmem]; rfl
  refine ⟨t, hexec, hpc, honly, fun hnot => ?_, fun hend hown => ?_⟩
  · have hopen : a.completes d flush = false := Bool.eq_false_iff.mpr fun h => hnot (hlast.mp h)
    obtain ⟨harr, hslots, hother, hrecord⟩ := outDone_kept hc ho row fset odesc loc flush iter .none hopen hm
    rw [hrows, hheld] at harr
    rw [hxs, hq] at hrecord
    exact ⟨by rw [hcur]; exact harr, fun x hx => by rw [hmem]; exact hother x hx,
      fun e => by rw [State.slot, hcur]; exact congrArg (tget 0 · e) hslots, fun hk => ⟨(hbytes _ _).trans (hrecord hk).1, fun hun => hfree.trans ((hrecord hk).2 hun)⟩⟩
  · have hfull : s.outFull c loc flush d = full := by rw [outFull_eq (hlast.mpr hend) row fset loc iter .none, hheld]
    obtain ⟨hpatch, hscales, hdst, hscale, hother, hwet⟩ :=
      outDone_stored hc ho row fset odesc loc flush iter .none (hlast.mpr hend) hm (by rw [hfull]; exact hown)
    rw [hfull, hheld] at hscales
    rw [hfull, hrows] at hdst
    rw [hfull, hheld] at hscale
    rw [hfull] at hother
    exact ⟨by rw [hcur]; exact hpatch, by rw [hcur]; exact hscales, fun h => (hbytes _ _).trans (hdst h),
      fun r hr => (hbytes _ _).trans (hscale r hr), fun x hxd hxa hxf => by rw [hmem]; exact hother x hxd hxa hxf, by rw [hcur]; exact hwet⟩

end Sys2Proof.Machine
end

section
/-! Lanes of a core on which nothing unusual is met: what a channel list read, a slot passed or emptied, a row read leave (R33, R160). -/

namespace Sys2Proof.Machine

/-! ### Lanes -/

/-- A lane that its operation's own evaluation describes, as its command answers where it issues. -/
theorem exec_opLane {s : State} {c : CoreId} {op : LaneOp} (h : LaneIssues s c op) :
    actCore s c (fun s => opLane s c op) = .next (finish s ((evalOp s c op).issued c)) := by
  rw [actCore_current h.1.1 h.1.2.1, opLane, lane_issues _ id h, id]

/-- The frame of an operation, from its work after its descriptor's channel list was read. -/
theorem onlyCoreList_finish {s w : State} {n : CoreId} {d : TDesc} (h : s.calm n) (hw : CoreWork [.ctrs] n (s.readChan n d) w) :
    OnlyCoreList s (finish s w) n d [] := by
  refine ⟨?_, fun hd => ?_⟩
  · exact (((readChan_calm h d).coreWork (by decide) (by decide) n).trans (hw.mono (by decide))).onlyCore
  · have hown : s.readChan n d = s := by
      unfold State.readChan
      split
      · next hp => rw [State.farRead, if_pos (hd.resolve_left (by simp [hp])), schedRead_clean h.1 n h.2.1]
      · rfl
    rw [hown] at hw
    exact hw.onlyCore

/-! ### Cores and reads -/

/-- A core written as it stands reads as before. -/
theorem core_setCore_self (s : State) (n m : Nat) : (s.setCore n (s.core n)).core m = s.core m := by
  by_cases h : m = n
  · rw [h, State.core_setCore_same]
  · rw [State.core_setCore_ne _ _ h]

/-- The slot table stands where the core does. -/
theorem slot_of_core {s t : State} {n : Nat} (h : t.core n = s.core n) (e : Nat) : t.slot n e = s.slot n e := by
  rw [State.slot, State.slot, h]

/-- No row stored is in flight on a core that has settled. -/
theorem wet_settled {c : Core} (h : c.settled = true) : c.wet.filter (fun e => decide (c.cclk < e.2)) = [] := by
  simp only [Core.settled, Bool.and_eq_true, List.all_eq_true, decide_eq_true_eq] at h
  simp only [List.filter_eq_nil_iff, decide_eq_true_eq, not_lt]
  exact h.1

/-- A read of data, off the slots outside their protocol, is the bytes. -/
theorem dataRead_clean {s : State} {n a : Nat} {plain : Bool} (he : s.ecc = []) (hs : (s.core n).settled = true)
    (hf : plain = true → s.foreign n (rowOf a) = false) (len : Nat) : s.dataRead n plain a len = (s, s.bytes a len) := by
  rw [State.dataRead, schedRead_clean he n hs]
  dsimp only
  rw [if_neg]
  cases plain <;> simp_all

/-! ### Slots -/

theorem advCons_work {may : List Part} (s : State) (n : CoreId) (h k : Nat) : CoreWork may n s (s.advCons n h k) := by
  unfold State.advCons State.setSlot
  exact coreWork_onCore n s fun _ => ⟨rfl, rfl, rfl⟩

theorem setFull_work {may : List Part} (s : State) (n : CoreId) (h pos : Nat) (b : Bool) : CoreWork may n s (s.setFull n h pos b) := by
  unfold State.setFull State.setSlot
  exact coreWork_onCore n s fun _ => ⟨rfl, rfl, rfl⟩

/-- CONS_POS advanced, around the ring. -/
theorem sCons_advCons (s : State) (n h k : Nat) :
    sCons ((s.advCons n h k).slot n h) = (sCons (s.slot n h) + k) % sLen (s.slot n h) := by
  rw [slot_advCons, if_pos rfl, sCons, fld_putFld_same]
  refine Nat.mod_eq_of_lt ((Nat.mod_lt _ (by simp [sLen])).trans_le ?_)
  simp [sLen, fld_eq]
  omega

theorem sLen_setFull (s : State) (n h pos : Nat) (b : Bool) (e : Nat) : sLen ((s.setFull n h pos b).slot n e) = sLen (s.slot n e) := by
  unfold sLen
  rw [fld_setFull _ _ _ _ _ _ _ _ (by decide) (by decide)]

/-- An entry whose FULL is cleared is not FULL. -/
theorem sFull_putFld_zero (v : Nat) : sFull (putFld v 63 63 0) = false := by
  rw [sFull, bitAt_eq_fld, fld_putFld_same]
  rfl

/-- A slot emptied is not FULL, and every other is as before. -/
theorem slotFull_setFull (s : State) (n h pos h' pos' : Nat) :
    (s.setFull n h' pos' false).slotFull n h pos =
      (s.slotFull n h pos && h + pos % sLen (s.slot n h) != h' + pos' % sLen (s.slot n h')) := by
  rw [State.slotFull, State.ringSlot, sLen_setFull, slot_setFull]
  split
  · next e => simp [e, sFull_putFld_zero]
  · next e => simp [e, State.slotFull, State.ringSlot]

end Sys2Proof.Machine
end

section
/-! LD.TLOAD hands the loader a tile (R71, R72, R78). -/

namespace Sys2Proof.Machine

/-- A ring's CONS_POS, and its companion's, past the slots of a tile (R78, R160). -/
def State.passTile (s : State) (n : Nat) (loc : BitVec 14) (d : TDesc) : State :=
  match placeOf loc with
  | .rows _ => s
  | .ring h =>
    let k := s.slotsOf n h d.fmt.tileRows
    let u := (s.advCons n h k).bump (.core n) 0x68 k
    if s.companion n h d then u.advCons n (sComp (s.slot n h)) k else u

/-- A core given a shadow tile. -/
def State.giveShadow (s : State) (n : Nat) (x : Tile) : State := s.onCore n (fun c => { c with arr := { c.arr with shadow := some x } })

/-- The tile that an LD.TLOAD hands over, no row read yet. -/
structure Handed (s : State) (n : Nat) (orient : Bool) (loc : BitVec 14) (trow : BitVec 20) (d : TDesc) (x : Tile) : Prop where
  desc : x.desc = d
  chan : x.chan = (s.chanOf n d).2
  transposed : x.transposed = orient
  trow : x.trow = trow.toNat
  place : x.loc = loc.toNat
  rows : x.rows = []
  complete : x.completeAt = none
  wet : x.wet = []
  at_ : x.at_ = (s.core n).cclk
  pos : ∀ h, placeOf loc = .ring h → x.pos = sCons (s.slot n h)

/-- The effect of an LD.TLOAD on a core that nothing unusual meets. -/
theorem evalTload_run {s : State} {n : Nat} {wdesc : BitVec 6} {d : TDesc} (h : s.calm n) (hd : s.descOf n wdesc.toNat = (0, d))
    (orient : Bool) (loc : BitVec 14) (trow : BitVec 20) : ∃ x : Tile,
    (evalTload s n orient loc wdesc trow).run = ((s.readChan n d).passTile n loc d).giveShadow n x ∧ Handed s n orient loc trow d x := by
  obtain ⟨he, hset, -⟩ := h
  have hwet := congrArg (List.map Prod.fst) (wet_settled hset)
  unfold evalTload State.passTile
  rw [earlyAt_settled hset]
  dsimp only
  rw [hd]
  dsimp only
  rw [schedRead_clean he n hset]
  cases hp : placeOf loc with
  | rows r => exact ⟨_, rfl, rfl, rfl, rfl, rfl, rfl, rfl, rfl, hwet, rfl, by simp [hp]⟩
  | ring h => exact ⟨_, rfl, rfl, rfl, rfl, rfl, rfl, rfl, rfl, hwet, rfl, by simp [hp]⟩

section
variable (s : State) (n : CoreId) (loc : BitVec 14) (d : TDesc)

/-- A place passed changes the slot table of its core alone. -/
theorem passTile_core : ∃ sl, (s.passTile n loc d).core n = { s.core n with slots := sl } := by
  unfold State.passTile
  split
  · exact ⟨_, rfl⟩
  · dsimp only
    split <;> simp [State.advCons, State.setSlot]

theorem passTile_work : CoreWork [.ctrs] n s (s.passTile n loc d) := by
  have hpass : ∀ h k, CoreWork [.ctrs] n s ((s.advCons n h k).bump (.core n) 0x68 k) := fun h k =>
    (advCons_work s n h k).trans (coreWork_bump n _ (by decide) k)
  unfold State.passTile
  split
  · exact .refl _ n s
  · dsimp only
    split
    exacts [(hpass _ _).trans (advCons_work ..), hpass _ _]

variable {s n loc d}

/-- Plain rows pass no slot. -/
theorem passTile_rows {r : Nat} (h : placeOf loc = .rows r) : s.passTile n loc d = s := by
  unfold State.passTile
  rw [h]

/-- A ring without a companion passes its own slots. -/
theorem passTile_ring {h : Nat} (hp : placeOf loc = .ring h) (hc : s.companion n h d = false) :
    s.passTile n loc d = (s.advCons n h (s.slotsOf n h d.fmt.tileRows)).bump (.core n) 0x68 (s.slotsOf n h d.fmt.tileRows) := by
  unfold State.passTile
  rw [hp]
  dsimp only
  rw [hc, if_neg Bool.false_ne_true]

end

/-- A shadow tile given is of the array alone. -/
theorem giveShadow_work {may : List Part} (s : State) (n : CoreId) (x : Tile) : CoreWork may n s (s.giveShadow n x) :=
  coreWork_onCore n s fun _ => ⟨rfl, rfl, rfl⟩

/-- LD.TLOAD as a command: what it hands over, and the slots that it passes. -/
theorem exec_ldTload {s : State} {c : CoreId} {orient : Bool} {loc : BitVec 14} {wdesc : BitVec 6} {trow : BitVec 20} {d : TDesc}
    (hl : LaneIssues s c (.ldTload orient loc wdesc trow)) (hc : s.calm c) (hd : s.descOf c wdesc.toNat = (0, d)) :
    ∃ t x, exec (.ldTload c orient loc wdesc trow) s = .next t ∧ OnlyCoreList s t c d [] ∧
      (t.core c).arr = { (s.core c).arr with shadow := some x } ∧ Handed s c orient loc trow d x ∧ (t.core c).pc = (s.core c).pc ∧
      (∀ r, placeOf loc = .rows r → ∀ e, t.slot c e = s.slot c e) ∧
      (∀ h, placeOf loc = .ring h → s.companion c h d = false →
        ∀ e, t.slot c e = (s.advCons c h (s.slotsOf c h d.fmt.tileRows)).slot c e) := by
  have hexec : exec (.ldTload c orient loc wdesc trow) s = _ := exec_opLane hl
  obtain ⟨x, hrun, hx⟩ := evalTload_run hc hd orient loc trow
  replace hrun : (evalOp s c (.ldTload orient loc wdesc trow)).run = _ := hrun
  generalize evalOp s c (.ldTload orient loc wdesc trow) = e at hexec hrun
  have hcore : (s.readChan c d).core c = s.core c := (readChan_calm hc d).core (by decide) c
  generalize hu : s.readChan c d = u at hcore hrun
  obtain ⟨sl, hsl⟩ := passTile_core u c loc d
  have hwork : CoreWork [.ctrs] c u (e.issued c) := by
    refine .trans ?_ (issued_work e c)
    rw [hrun]
    exact (passTile_work ..).trans (giveShadow_work ..)
  obtain ⟨cur, hcur⟩ := issued_core e c
  have htcore : (finish s (e.issued c)).core c = { s.core c with slots := sl, arr := { (s.core c).arr with shadow := some x }, cur := cur } := by
    rw [finish_get_core, hcur, hrun]
    simp [State.giveShadow, hsl, hcore]
  have hslot : ∀ i, (finish s (e.issued c)).slot c i = (u.passTile c loc d).slot c i := fun i => by
    rw [State.slot, State.slot, htcore, hsl]
  refine ⟨_, x, hexec, onlyCoreList_finish hc (hu ▸ hwork), by rw [htcore], hx, by rw [htcore], fun r hr i => ?_, fun h hh hcomp i => ?_⟩
  · rw [hslot, passTile_rows hr, slot_of_core hcore]
  · have hcomp' : u.companion c h d = false := by rw [← hcomp, State.companion, slot_of_core hcore]; rfl
    rw [hslot, passTile_ring hh hcomp']
    refine (slot_advCons ..).trans ?_
    simp only [slot_advCons, State.slotsOf, slot_of_core hcore]

end Sys2Proof.Machine
end

section
/-! The tile loader's try in a CCLK: it takes a row, waits for its slot, or loses the bank (R78, R192). -/

namespace Sys2Proof.Machine

section
variable {s : State} {n : Nat} {x : Tile} (he : s.ecc = []) (hs : (s.core n).settled = true) (hw : x.wet = [])
include he hs hw

theorem loaderRead_clean {a : Nat} (hf : plainLoc (BitVec.ofNat 14 x.loc) = true → s.foreign n (rowOf a) = false) (len : Nat) :
    s.loaderRead n x a len = (s, s.bytes a len) := by
  rw [State.loaderRead, dataRead_clean he hs hf, hw]
  rfl

end

/-- The effect of a try that takes its row: the row's slot emptied with its last row, the bank taken, the row in the tile. -/
def State.takeRow (s : State) (n : Nat) (x : Tile) (row : Nat) (bytes sc : List Byte) : State :=
  ((s.loaderFree n x).onCore n (fun c =>
    { c with busy := ⟨x.at_, bankOf row, true⟩ :: c.busy.filter (fun b => decide (x.at_ ≤ b.at_)) })).setShadow n (x.withRow x.at_ (bytes, sc))

section
variable {s : State} {n : Nat} {x : Tile} (hx : (s.core n).arr.shadow = some x) (hc : x.completeAt = none) (ht : x.at_ < (s.core n).cclk)
include hx hc ht

theorem loaderStep_waits (h : s.loaderNext n x = none) : s.loaderStep n = s.setShadow n { x with at_ := x.at_ + 1 } := by
  unfold State.loaderStep
  simp [hx, hc, h, Nat.not_le.mpr ht]

theorem loaderStep_loses {row sa : Nat} (h : s.loaderNext n x = some (row, sa)) (hl : (s.core n).loaderLoses x.at_ (bankOf row) = true) :
    s.loaderStep n = (s.bump (.sill n) (0x210 + 0x40 * bankOf row)).setShadow n { x with at_ := x.at_ + 1 } := by
  unfold State.loaderStep
  simp [hx, hc, h, Nat.not_le.mpr ht, hl, show 0x200 + 0x40 * bankOf row + 0x10 = 0x210 + 0x40 * bankOf row by omega]

theorem loaderStep_takes {row sa : Nat} (h : s.loaderNext n x = some (row, sa)) (hl : (s.core n).loaderLoses x.at_ (bankOf row) = false)
    (he : s.ecc = []) (hs : (s.core n).settled = true) (hw : x.wet = [])
    (hf : s.rowsFree n (plainLoc (BitVec.ofNat 14 x.loc)) x.desc [(row, sa)]) :
    s.loaderStep n = s.takeRow n x row (s.bytes (rowAddr n row) 512) (if x.desc.scaleBytes = 0 then [] else s.bytes sa x.desc.scaleBytes) := by
  have hrow : plainLoc (BitVec.ofNat 14 x.loc) = true → s.foreign n (rowOf (rowAddr n row)) = false :=
    fun hp => (hf hp _ (List.mem_singleton_self _)).1
  have hscale : x.desc.scaleBytes ≠ 0 → s.loaderRead n x sa x.desc.scaleBytes = (s, s.bytes sa x.desc.scaleBytes) := fun h0 =>
    loaderRead_clean he hs hw (fun hp => (hf hp _ (List.mem_singleton_self _)).2 h0) _
  unfold State.loaderStep
  simp only [hx, hc, h, hl, Nat.not_le.mpr ht, loaderRead_clean he hs hw hrow, Option.isSome_none, decide_false, Bool.or_false,
    Bool.false_eq_true, if_false]
  by_cases h0 : x.desc.scaleBytes = 0
  · simp only [if_pos h0]; rfl
  · simp only [if_neg h0, hscale h0]; rfl

end

section
variable (s : State) (n : CoreId) (x : Tile)

theorem loaderFree_core : ∃ sl, (s.loaderFree n x).core n = { s.core n with slots := sl } := by
  have hfull : ∀ h pos, ∃ sl, (s.setFull n h pos false).core n = { s.core n with slots := sl } := fun h pos => by
    obtain ⟨sl, e⟩ := setFull_eq s n h pos false
    exact ⟨sl, by rw [e, State.core_setCore_same]⟩
  unfold State.loaderFree
  dsimp only
  split
  · exact ⟨_, rfl⟩
  · split_ifs
    · obtain ⟨sl, e⟩ := hfull _ _
      obtain ⟨sl', e'⟩ := setFull_eq (s.setFull n _ _ false) n _ _ false
      exact ⟨sl', by rw [e', State.core_setCore_same, e]⟩
    · exact hfull _ _
    · exact ⟨_, rfl⟩

theorem loaderFree_work {may : List Part} : CoreWork may n s (s.loaderFree n x) := by
  unfold State.loaderFree
  dsimp only
  split
  · exact .refl may n s
  · split_ifs
    exacts [(setFull_work ..).trans (setFull_work ..), setFull_work .., .refl may n s]

/-- Plain rows empty no slot. -/
theorem loaderFree_rows {r : Nat} (h : placeOf (BitVec.ofNat 14 x.loc) = .rows r) : s.loaderFree n x = s := by
  unfold State.loaderFree
  rw [h]

variable {s n x} {h : Nat} (hp : placeOf (BitVec.ofNat 14 x.loc) = .ring h)
include hp

/-- Nor does a row within its slot. -/
theorem loaderFree_within (hi : (x.rows.length + 1) % sRows (s.slot n h) ≠ 0) : s.loaderFree n x = s := by
  unfold State.loaderFree
  rw [hp]
  exact if_neg hi

/-- The last row of a slot empties it. -/
theorem loaderFree_last (hi : (x.rows.length + 1) % sRows (s.slot n h) = 0) :
    (s.loaderFree n x).slotFull n h (x.pos + x.rows.length / sRows (s.slot n h)) = false := by
  unfold State.loaderFree
  rw [hp]
  dsimp only
  rw [if_pos hi]
  split_ifs
  · simp [slotFull_setFull]
  · simp [slotFull_setFull]

end

section
variable (s : State) (n : CoreId) (x : Tile)

/-- A shadow tile replaced is of the array alone. -/
theorem setShadow_work {may : List Part} : CoreWork may n s (s.setShadow n x) := coreWork_onCore n s fun _ => ⟨rfl, rfl, rfl⟩

theorem takeRow_work {may : List Part} (row : Nat) (bytes sc : List Byte) : CoreWork may n s (s.takeRow n x row bytes sc) := by
  unfold State.takeRow
  refine .trans ?_ (setShadow_work ..)
  exact (loaderFree_work s n x).trans (coreWork_onCore n _ fun _ => ⟨rfl, rfl, rfl⟩)

variable {s n}

theorem setShadow_core {y : Tile} (h : (s.core n).arr.shadow = some y) :
    (s.setShadow n x).core n = { s.core n with arr := { (s.core n).arr with shadow := some x } } := by
  rw [State.setShadow, State.onCore_eq, State.core_setCore_same, h]
  rfl

variable {x}

/-- The row taken: of the core the tile, the slots and the bank's mark change. -/
theorem takeRow_core (h : (s.core n).arr.shadow = some x) (row : Nat) (bytes sc : List Byte) : ∃ busy,
    (s.takeRow n x row bytes sc).core n = { s.core n with
      slots := ((s.loaderFree n x).core n).slots, busy := busy, arr := { (s.core n).arr with shadow := some (x.withRow x.at_ (bytes, sc)) } } := by
  obtain ⟨sl, hsl⟩ := loaderFree_core s n x
  unfold State.takeRow
  rw [setShadow_core (y := x) _ (by simp [hsl, h])]
  exact ⟨_, by simp [hsl]; rfl⟩

end

theorem loaderNext_of_core {s t : State} {n : Nat} (h : t.core n = s.core n) (x : Tile) : t.loaderNext n x = s.loaderNext n x := by
  have hslot : t.slot n = s.slot n := funext (slot_of_core h)
  unfold State.loaderNext State.slotFull State.ringSlot State.companion
  rw [hslot]

/-- What is due before the loader's try: nothing, where no change of FULL is scheduled and the loader has tried in every CCLK before. -/
theorem loadUp_idle {s : State} {n : Nat} {x : Tile} (hdue : (s.core n).due = []) (hx : (s.core n).arr.shadow = some x)
    (hat : x.at_ + 1 = (s.core n).cclk) : s.loadUp n = s.setCore n (s.core n) := by
  have hland : Core.land (s.core n) = s.core n := by simp [Core.land, hdue]; rw [← hdue]
  have htries : (s.core n).cclk - 1 - x.at_ = 0 := by omega
  unfold State.loadUp
  simp only [State.onCore_eq, hland, State.core_setCore_same, hx, htries]
  rfl

theorem exec_tileLoaderRow {s : State} {c : CoreId} {x : Tile} (hl : s.live = true) (ho : (s.core c).life.st = .opened)
    (hdue : (s.core c).due = []) (hx : (s.core c).arr.shadow = some x) (hat : x.at_ + 1 = (s.core c).cclk) :
    exec (.tileLoaderRow c) s = .next (finish s ((s.setCore c (s.core c)).loaderStep c)) := by
  have hexec : exec (.tileLoaderRow c) s = execTileLoaderRow c s := rfl
  rw [hexec, execTileLoaderRow, act_live hl, loadUp_idle hdue hx hat, ho]
  rfl

section
variable {s : State} {c : CoreId} {x : Tile} (hl : s.live = true) (ho : (s.core c).life.st = .opened) (hdue : (s.core c).due = [])
variable (hx : (s.core c).arr.shadow = some x) (hcomplete : x.completeAt = none) (hat : x.at_ + 1 = (s.core c).cclk)
include hl ho hdue hx hcomplete hat

/-- A try while the row's slot is not FULL: the loader waits (R78). -/
theorem exec_tileLoaderRow_waits (h : s.loaderNext c x = none) :
    ∃ t, exec (.tileLoaderRow c) s = .next t ∧ OnlyCore s t c [] ∧
      t.core c = { s.core c with arr := { (s.core c).arr with shadow := some { x with at_ := x.at_ + 1 } } } := by
  have hexec := exec_tileLoaderRow hl ho hdue hx hat
  have hself : CoreWork [] c s (s.setCore c (s.core c)) := coreWork_onCore c s fun _ => ⟨rfl, rfl, rfl⟩
  have hcore := core_setCore_self s c c
  generalize s.setCore c (s.core c) = u at *
  rw [loaderStep_waits (by rw [hcore]; exact hx) hcomplete (by rw [hcore]; omega) (by rw [loaderNext_of_core hcore]; exact h)] at hexec
  refine ⟨_, hexec, (hself.trans (setShadow_work ..)).onlyCore, ?_⟩
  rw [finish_get_core, setShadow_core _ (by rw [hcore]; exact hx), hcore]

/-- A try that loses the bank to an access that has it: counted, and the loader tries again (R192). -/
theorem exec_tileLoaderRow_loses {row sa : Nat} (h : s.loaderNext c x = some (row, sa))
    (hlost : (s.core c).loaderLoses x.at_ (bankOf row) = true) :
    ∃ t, exec (.tileLoaderRow c) s = .next t ∧ OnlyCore s t c [.ctrs] ∧
      CtrsBut s t (ctrsAt (.sill c) [0x210 + 0x40 * bankOf row]) ∧
      t.ctr (.sill c) (0x210 + 0x40 * bankOf row) = (s.ctr (.sill c) (0x210 + 0x40 * bankOf row) + 1) % 2 ^ 48 ∧
      t.core c = { s.core c with arr := { (s.core c).arr with shadow := some { x with at_ := x.at_ + 1 } } } := by
  have hexec := exec_tileLoaderRow hl ho hdue hx hat
  have hself : CoreWork [] c s (s.setCore c (s.core c)) := coreWork_onCore c s fun _ => ⟨rfl, rfl, rfl⟩
  have hcore := core_setCore_self s c c
  have hctrs : (s.setCore c (s.core c)).ctrs = s.ctrs := rfl
  generalize s.setCore c (s.core c) = u at *
  rw [loaderStep_loses (by rw [hcore]; exact hx) hcomplete (by rw [hcore]; omega) (by rw [loaderNext_of_core hcore]; exact h)
    (by rw [hcore]; exact hlost)] at hexec
  generalize ho : 0x210 + 0x40 * bankOf row = o at *
  have hctr : u.ctr (.sill c) o = s.ctr (.sill c) o := by rw [State.ctr, hctrs]; rfl
  have htile : CoreWork [] c (u.bump (.sill c) o) ((u.bump (.sill c) o).setShadow c { x with at_ := x.at_ + 1 }) := setShadow_work ..
  refine ⟨_, hexec, ⟨unchanged_finish (htile.pending.trans hself.pending) fun p hp => ?_, fun m hm => ?_⟩, ?_, ?_, ?_⟩
  · simp only [List.mem_cons, List.not_mem_nil, or_false, not_or] at hp
    exact Part.same_trans (hself.same p (by simp [hp])) (Part.same_trans (bump_same u _ o 1 hp.2) (htile.same p (by simp [hp])))
  · rw [finish_get_core, htile.other m hm, State.bump_get_core, hself.other m hm]
  · intro k hk
    rw [finish_ctrs]
    refine (State.ctrs_bump_ne u (.sill c) o 1 k (by simpa [ctrsAt] using hk)).trans (by rw [hctrs])
  · rw [finish_get_ctr, ← hctr]
    exact State.ctr_bump_same u (.sill c) o 1
  · rw [finish_get_core, setShadow_core _ (by rw [State.bump_get_core, hcore]; exact hx), State.bump_get_core, hcore]

/-- A try that takes its row: the row stands in the tile, and its slot is emptied with its last row (R78). -/
theorem exec_tileLoaderRow_takes {row sa : Nat} (hc : s.calm c) (hw : x.wet = []) (h : s.loaderNext c x = some (row, sa))
    (hbank : (s.core c).loaderLoses x.at_ (bankOf row) = false) (hfree : s.rowsFree c (plainLoc (BitVec.ofNat 14 x.loc)) x.desc [(row, sa)]) :
    ∃ t y, exec (.tileLoaderRow c) s = .next t ∧ OnlyCore s t c [] ∧
      (t.core c).arr = { (s.core c).arr with shadow := some y } ∧
      y = { x with rows := y.rows, completeAt := y.completeAt, at_ := x.at_ + 1 } ∧
      y.rows = x.rows ++ s.rowsAt c x.desc [(row, sa)] ∧
      y.completeAt = (if x.rows.length + 1 = x.desc.fmt.tileRows then some (x.at_ + 1 + (if x.transposed then 4 else 0)) else none) ∧
      (∀ r, placeOf (BitVec.ofNat 14 x.loc) = .rows r → row = r + x.rows.length ∧ ∀ e, t.slot c e = s.slot c e) ∧
      (∀ h, placeOf (BitVec.ofNat 14 x.loc) = .ring h →
        ((x.rows.length + 1) % sRows (s.slot c h) ≠ 0 → ∀ e, t.slot c e = s.slot c e) ∧
        ((x.rows.length + 1) % sRows (s.slot c h) = 0 →
          t.slotFull c h (x.pos + x.rows.length / sRows (s.slot c h)) = false)) := by
  have hexec := exec_tileLoaderRow hl ho hdue hx hat
  have hself : CoreWork [] c s (s.setCore c (s.core c)) := coreWork_onCore c s fun _ => ⟨rfl, rfl, rfl⟩
  have hcore := core_setCore_self s c c
  obtain ⟨hmem, hecc⟩ : (s.setCore c (s.core c)).mem = s.mem ∧ (s.setCore c (s.core c)).ecc = s.ecc := ⟨rfl, rfl⟩
  generalize s.setCore c (s.core c) = u at *
  have hux : (u.core c).arr.shadow = some x := by rw [hcore]; exact hx
  have hforeign : ∀ r, u.foreign c r = s.foreign c r := fun r => by rw [State.foreign, hcore]; rfl
  have hbytes : ∀ a n, u.bytes a n = s.bytes a n := fun a n => by rw [State.bytes, hmem]; rfl
  have hslot := slot_of_core hcore
  rw [loaderStep_takes hux hcomplete (by rw [hcore]; omega) (by rw [loaderNext_of_core hcore]; exact h)
    (by rw [hcore]; exact hbank) (hecc.trans hc.1) (by rw [hcore]; exact hc.2.1) hw (by simpa only [State.rowsFree, hforeign] using hfree)] at hexec
  simp only [hbytes] at hexec
  obtain ⟨busy, htake⟩ := takeRow_core hux row (s.bytes (rowAddr c row) 512) (if x.desc.scaleBytes = 0 then [] else s.bytes sa x.desc.scaleBytes)
  have hwork := takeRow_work (may := []) u c x row (s.bytes (rowAddr c row) 512) (if x.desc.scaleBytes = 0 then [] else s.bytes sa x.desc.scaleBytes)
  generalize u.takeRow c x row _ _ = v at *
  have hvslot : ∀ e, (finish s v).slot c e = (u.loaderFree c x).slot c e := fun e => by rw [State.slot, finish_get_core, htake]; rfl
  refine ⟨_, _, hexec, (hself.trans hwork).onlyCore, by rw [finish_get_core, htake, hcore], rfl, rfl, rfl, fun r hr => ⟨?_, fun e => ?_⟩,
    fun r hr => ⟨fun hin e => ?_, fun hlast => ?_⟩⟩
  · rw [State.loaderNext, hr] at h
    cases h
    rfl
  · rw [hvslot, loaderFree_rows _ _ _ hr, hslot]
  · rw [hvslot, loaderFree_within hr (by rw [hslot]; exact hin), hslot]
  · have hempty := loaderFree_last (s := u) hr (by rw [hslot]; exact hlast)
    rw [State.slotFull, State.ringSlot, hslot] at hempty
    rw [State.slotFull, State.ringSlot, hvslot, hvslot]
    exact hempty

end

/-- Settles O15: the tile that an LD.TLOAD hands over and the slots that it passes; the three ways in which a try of the loader goes. -/
theorem tilesLoad : Obligations.TilesLoad := by
  unfold Obligations.TilesLoad
  refine ⟨fun s c orient loc wdesc trow d hl hc hd => ?_, fun s c x hl ho hc hdue hx hw hcomplete hat => ⟨?_, ?_, ?_⟩⟩
  · obtain ⟨t, x, hexec, honly, harr, hx, hpc, hrows, hring⟩ := exec_ldTload hl hc hd
    refine ⟨t, x, hexec, honly, harr, hx.desc, hx.chan, hx.transposed, hx.trow, hx.place, hx.rows, hx.complete, hx.wet, hx.at_, hpc, hrows,
      fun h hh hcomp _ => ⟨hx.pos h hh, ?_, fun e he => ?_⟩⟩
    · rw [hring h hh hcomp, sCons_advCons]
      rfl
    · rw [hring h hh hcomp, slot_advCons, if_neg he]
  · exact fun row sa h hbank hfree => exec_tileLoaderRow_takes hl ho hdue hx hcomplete hat hc hw h hbank hfree
  · exact exec_tileLoaderRow_waits hl ho hdue hx hcomplete hat
  · exact fun row sa h hlost => exec_tileLoaderRow_loses hl ho hdue hx hcomplete hat h hlost

end Sys2Proof.Machine
end

section
/-! LD.STAGE: the rows that it reads and the sets that they make (R81 to R85). -/

namespace Sys2Proof.Machine

/-! ### Lists cut and joined -/

theorem chunksAux_length {α : Type} {n : Nat} (hn : 0 < n) (m k : Nat) (xs : List α) (hx : xs.length = n * m) (hk : m ≤ k) :
    (chunksAux n k xs).length = m := by
  induction m generalizing k xs with
  | zero =>
    obtain rfl : xs = [] := List.length_eq_zero_iff.mp (by simpa using hx)
    cases k <;> rfl
  | succ m ih =>
    obtain ⟨k, rfl⟩ : ∃ j, k = j + 1 := ⟨k - 1, by omega⟩
    cases xs with
    | nil => rw [Nat.mul_succ] at hx; simp at hx; omega
    | cons x xs =>
      rw [chunksAux, List.length_cons, ih k _ (by rw [List.length_drop, hx, Nat.mul_succ]; omega) (by omega)]
      simp

/-- A list of m pieces of n is cut into m. -/
theorem chunks_length {α : Type} {n : Nat} (hn : 0 < n) (m : Nat) (xs : List α) (hx : xs.length = n * m) : (chunks n xs).length = m :=
  chunksAux_length hn m _ xs hx (by rw [hx]; exact Nat.le_mul_of_pos_left m hn)

/-- The i-th of pieces of one length, joined. -/
theorem take_drop_flatMap {α β : Type} {f : α → List β} {k : Nat} (hf : ∀ a, (f a).length = k) (xs : List α) (i : Nat) (hi : i < xs.length) :
    ((xs.flatMap f).drop (i * k)).take k = f xs[i] := by
  induction xs generalizing i with
  | nil => simp at hi
  | cons x xs ih =>
    rw [List.flatMap_cons]
    cases i with
    | zero => simp [List.take_left' (hf x)]
    | succ i =>
      have hdrop : (f x ++ xs.flatMap f).drop ((i + 1) * k) = (xs.flatMap f).drop (i * k) := by
        rw [Nat.add_one_mul, Nat.add_comm, ← List.drop_drop, List.drop_left' (hf x)]
      rw [hdrop]
      simpa using ih i (by simpa using hi)

/-! ### Rows read -/

/-- Scheduled reads of rows in no slot outside its protocol are the rows as they stand. -/
theorem readRows_clean {s : State} {n : Nat} {plain : Bool} {d : TDesc} (he : s.ecc = []) (hs : (s.core n).settled = true) {xs : List (Nat × Nat)}
    (hf : s.rowsFree n plain d xs) : s.readRows n plain d xs = (s, s.rowsAt n d xs) := by
  induction xs with
  | nil => rfl
  | cons x xs ih =>
    obtain ⟨r, sa⟩ := x
    have hrow := dataRead_clean he hs (fun hp => (hf hp _ (List.mem_cons_self ..)).1) 512
    have hscale : d.scaleBytes ≠ 0 → s.dataRead n plain sa d.scaleBytes = (s, s.bytes sa d.scaleBytes) := fun h =>
      dataRead_clean he hs (fun hp => (hf hp _ (List.mem_cons_self ..)).2 h) _
    have hrest := ih fun hp y hy => hf hp y (List.mem_cons_of_mem _ hy)
    unfold State.readRows State.rowsAt
    by_cases h : d.scaleBytes = 0
    · simp only [hrow, h, if_true, hrest]; simp [State.rowsAt, h]
    · simp only [hrow, h, if_false, hscale h, hrest]; simp [State.rowsAt, h]

theorem rowsAt_length (s : State) (n : Nat) (d : TDesc) (xs : List (Nat × Nat)) : (s.rowsAt n d xs).length = xs.length := List.length_map ..

theorem setRows_one_length (d : TDesc) (r : Nat) : (setRows d [r]).length = d.fmt.patchSet := by simp [setRows, fromN]

/-- The rows of patch sets, set by set. -/
theorem rowsAt_setRows (s : State) (n : Nat) (d : TDesc) (sets : List Nat) :
    s.rowsAt n d (setRows d sets) = sets.flatMap (fun r => s.rowsAt n d (setRows d [r])) := by
  simp [State.rowsAt, setRows, List.map_flatMap]

/-- The rows of a set named by a window entry: of a new set those just read, of any other the carried ones (R85). -/
def State.setOf (s : State) (n : Nat) (d : TDesc) (sets : List Nat) (r : Nat) : List (List Byte × List Byte) :=
  if r ∈ sets then s.rowsAt n d (setRows d [r]) else ((s.core n).arr.carried.map PatchSet.rows).getD []

/-- The same, of the rows that were read for some sets. -/
def State.setIn (s : State) (n : Nat) (d : TDesc) (sets : List Nat) (got : List (List Byte × List Byte)) (r : Nat) : List (List Byte × List Byte) :=
  match sets.idxOf? r with
  | some i => (got.drop (i * d.fmt.patchSet)).take d.fmt.patchSet
  | none => ((s.core n).arr.carried.map PatchSet.rows).getD []

theorem setIn_rowsAt (s : State) (n : Nat) (d : TDesc) (sets : List Nat) :
    s.setIn n d sets (s.rowsAt n d (setRows d sets)) = s.setOf n d sets := by
  funext r
  unfold State.setOf State.setIn
  cases h : sets.idxOf? r with
  | none => rw [if_neg (List.idxOf?_eq_none_iff.mp h)]
  | some i =>
    obtain ⟨hi, heq, -⟩ := List.findIdx?_eq_some_iff_getElem.mp h
    have hr : sets[i] = r := by simpa using heq
    have hset := take_drop_flatMap (f := fun r => s.rowsAt n d (setRows d [r])) (k := d.fmt.patchSet)
      (fun r => by rw [rowsAt_length, setRows_one_length]) sets i hi
    rw [if_pos (hr ▸ List.getElem_mem hi), rowsAt_setRows, ← hr]
    exact hset

end Sys2Proof.Machine
end

section
/-! LD.STAGE: its effect as a whole (R81 to R88). -/

namespace Sys2Proof.Machine

/-- The entries of a window list, in the slot at a ring's CONS_POS (R84). -/
def State.winEntries (s : State) (n w : Nat) (f : EFmt) : List Nat :=
  (chunks 4 (s.bytes (rowAddr n (sBuf (s.ringSlot n w (sCons (s.slot n w))))) (4 * f.patchRows))).map leNat

/-- The new sets that they name (R85). -/
def State.winSets (s : State) (n w : Nat) (f : EFmt) : List Nat := newSets ((s.core n).arr.carried.map PatchSet.row) (s.winEntries n w f)

/-- The rows that an LD.STAGE reads, with the addresses of their scale bytes. -/
def State.stageReads (s : State) (n : Nat) (loc : BitVec 14) (d : TDesc) (mode w : Nat) : List (Nat × Nat) :=
  if mode = 1 then setRows d (s.winSets n w d.fmt) else s.stageRows n loc d (if mode = 2 then d.fmt.transRows else d.fmt.patchSet)

/-- The vectors that it makes of them (R81, R84, R87). -/
def State.stageVecs (s : State) (n : Nat) (d : TDesc) (mode w : Nat) (got : List (List Byte × List Byte)) : List SVec :=
  if mode = 0 then (List.range d.fmt.patchRows).map (setVec d.fmt got)
  else if mode = 1 then winVecs d.fmt (s.winEntries n w d.fmt) (s.setIn n d (s.winSets n w d.fmt) got)
  else (transCols d (s.chanOf n d).2 0 got).map (fun k => ⟨k.codes, k.scales⟩)

/-- The set that is carried from then on: in WINDOW mode the last that was read (R85). -/
def State.stageCarries (s : State) (n : Nat) (d : TDesc) (mode w : Nat) (got : List (List Byte × List Byte)) (old : Option PatchSet) : Option PatchSet :=
  if mode = 1 then
    match (s.winSets n w d.fmt).getLast? with
    | some r => some ⟨r, s.setIn n d (s.winSets n w d.fmt) got r⟩
    | none => old
  else old

/-- The slots that it takes. -/
def State.stageTakes (s u : State) (n : Nat) (loc : BitVec 14) (d : TDesc) (mode : Nat) (w : BitVec 10) : State :=
  if mode = 1 then
    u.takeSlots n (winLoc w) (sRows (s.slot n w.toNat)) winDesc (fun _ => (s.core n).cclk) (fun _ => (s.core n).cclk)
  else u.takeSlots n loc (if mode = 2 then d.fmt.transRows else d.fmt.patchSet) d (fun r => (s.core n).cclk + 1 + r / 2)
    (fun r => (s.core n).cclk + 1 + r)

/-- One half of the staging buffer filled, and a set carried from then on. -/
def State.fillHalf (s : State) (n : Nat) (half : Bool) (st : Stage) (carry : Option PatchSet → Option PatchSet) : State :=
  s.onCore n (fun c => { c with arr := { c.arr with
    s0 := if half then c.arr.s0 else st, s1 := if half then st else c.arr.s1, stageCount := c.arr.stageCount + 1
    carried := carry c.arr.carried } })

/-- Rows read after the channel list, where the core meets nothing unusual. -/
theorem readRows_readChan {s : State} {n : Nat} {d : TDesc} (h : s.calm n) {plain : Bool} {xs : List (Nat × Nat)} (hf : s.rowsFree n plain d xs) :
    (s.readChan n d).readRows n plain d xs = (s.readChan n d, s.rowsAt n d xs) := by
  have hr := readChan_calm h d
  obtain ⟨hmem, hecc⟩ : (s.readChan n d).mem = s.mem ∧ (s.readChan n d).ecc = s.ecc := hr.same .mem (by decide)
  have hcore := hr.core (by decide) n
  generalize s.readChan n d = u at *
  have hforeign : ∀ r, u.foreign n r = s.foreign n r := fun r => by rw [State.foreign, hcore]; rfl
  rw [readRows_clean (hecc.trans h.1) (by rw [hcore]; exact h.2.1) (by simpa only [State.rowsFree, hforeign] using hf)]
  simp only [State.rowsAt, State.bytes, hmem]

section
variable {s : State} {n : Nat} {adesc : BitVec 6} {d : TDesc} (h : s.calm n) (hd : s.descOf n adesc.toNat = (0, d))
variable {mode : BitVec 2} {loc : BitVec 14} {w : BitVec 10}
include h hd

/-- The effect of an LD.STAGE on a core that nothing unusual meets. -/
theorem evalStage_run (hf : s.rowsFree n (mode.toNat == 1 || plainLoc loc) d (s.stageReads n loc d mode.toNat w.toNat)) (half : Bool) (k : BitVec 2) :
    ∃ reads fill,
      let got := s.rowsAt n d (s.stageReads n loc d mode.toNat w.toNat)
      (evalStage s n half loc adesc mode k w).run = (s.stageTakes (s.readChan n d) n loc d mode.toNat w).fillHalf n half
        { fmt := d.fmt, t := d.t, vecs := s.stageVecs n d mode.toNat w.toNat got, reads := reads, fillAt := (s.core n).cclk + fill, freeAt := 0
          order := (s.core n).arr.stageCount } (s.stageCarries n d mode.toNat w.toNat got) := by
  have hr := readChan_calm h d
  have hecc : (s.readChan n d).ecc = s.ecc := (hr.same .mem (by decide)).2
  have hcore := hr.core (by decide) n
  have hread := readRows_readChan h hf
  have hsched := fun a => schedRead_clean (hecc.trans h.1) n (by rw [hcore]; exact h.2.1) a 512
  obtain ⟨he, hset, -⟩ := h
  have hearly : (if mode = 1 then s.early n w.toNat else s.earlyAt n loc) = s := by
    rw [early_settled hset, earlyAt_settled hset, ite_self]
  unfold State.stageReads State.winSets State.winEntries at hread
  unfold evalStage
  dsimp only
  rw [hearly, hd]
  dsimp only
  rw [schedRead_clean he n hset, seen_settled hset]
  dsimp only
  rw [hread]
  dsimp only
  rw [hsched]
  exact ⟨_, _, rfl⟩

end

end Sys2Proof.Machine
end

section
/-! LD.STAGE settled (R81 to R88). -/

namespace Sys2Proof.Machine

/-! ### What an LD.STAGE leaves -/

/-- Slots taken: of the core its slot table, and the changes of FULL to come. -/
theorem takeSlots_core (s : State) (n : Nat) (loc : BitVec 14) (rows : Nat) (d : TDesc) (f g : Nat → Nat) :
    ∃ sl due, (s.takeSlots n loc rows d f g).core n = { s.core n with slots := sl, due := due } := by
  unfold State.takeSlots
  split
  · exact ⟨_, _, rfl⟩
  · extract_lets k one u
    have hone : ∀ (v : State) h at_, ∃ sl due, (one v h at_).core n = { v.core n with slots := sl, due := due } := fun v h at_ =>
      ⟨_, _, by simp only [one, State.schedule, State.advCons, State.setSlot, State.onCore_eq, State.core_setCore_same]; rfl⟩
    have hu : ∃ sl due, u.core n = { s.core n with slots := sl, due := due } := by
      unfold u
      split
      · obtain ⟨sl, due, h⟩ := hone s _ f
        obtain ⟨sl', due', h'⟩ := hone (one s _ f) (sComp (s.slot n _)) g
        exact ⟨sl', due', by rw [h', h]⟩
      · exact hone s _ f
    exact hu

theorem takeSlots_work (s : State) (n : CoreId) (loc : BitVec 14) (rows : Nat) (d : TDesc) (f g : Nat → Nat) :
    CoreWork [.ctrs] n s (s.takeSlots n loc rows d f g) := by
  unfold State.takeSlots
  split
  · exact .refl _ n s
  · extract_lets k one u
    have hone : ∀ (v : State) h at_, CoreWork [.ctrs] n v (one v h at_) := fun v h at_ => (schedule_work ..).trans (advCons_work ..)
    have hu : CoreWork [.ctrs] n s u := by
      unfold u
      split
      exacts [(hone ..).trans (hone ..), hone ..]
    exact hu.trans (coreWork_bump n u (by decide) k)

/-- Plain rows take no slot. -/
theorem takeSlots_rows (s : State) (n : Nat) {loc : BitVec 14} {r : Nat} (h : placeOf loc = .rows r) (rows : Nat) (d : TDesc) (f g : Nat → Nat) :
    s.takeSlots n loc rows d f g = s := by
  unfold State.takeSlots
  rw [h]

section
variable (s u : State) (n : CoreId) (loc : BitVec 14) (d : TDesc) (mode : Nat) (w : BitVec 10)

theorem stageTakes_core : ∃ sl due, (s.stageTakes u n loc d mode w).core n = { u.core n with slots := sl, due := due } := by
  unfold State.stageTakes
  split
  exacts [takeSlots_core .., takeSlots_core ..]

theorem stageTakes_work : CoreWork [.ctrs] n u (s.stageTakes u n loc d mode w) := by
  unfold State.stageTakes
  split
  exacts [takeSlots_work .., takeSlots_work ..]

variable {s u n loc d mode w}

/-- Nor does an LD.STAGE of plain rows. -/
theorem stageTakes_rows (hm : mode ≠ 1) {r : Nat} (h : placeOf loc = .rows r) : s.stageTakes u n loc d mode w = u := by
  rw [State.stageTakes, if_neg hm, takeSlots_rows _ _ h]

end

/-- A half filled is of the array alone. -/
theorem fillHalf_work {may : List Part} (s : State) (n : CoreId) (half : Bool) (st : Stage) (carry : Option PatchSet → Option PatchSet) :
    CoreWork may n s (s.fillHalf n half st carry) :=
  coreWork_onCore n s fun _ => ⟨rfl, rfl, rfl⟩

/-- LD.STAGE as a command. -/
theorem exec_ldStage {s : State} {c : CoreId} {half : Bool} {loc : BitVec 14} {adesc : BitVec 6} {mode k : BitVec 2} {w : BitVec 10} {d : TDesc}
    (hl : LaneIssues s c (.ldStage half loc adesc mode k w)) (hc : s.calm c) (hd : s.descOf c adesc.toNat = (0, d))
    (hf : s.rowsFree c (mode.toNat == 1 || plainLoc loc) d (s.stageReads c loc d mode.toNat w.toNat)) :
    ∃ t st, let got := s.rowsAt c d (s.stageReads c loc d mode.toNat w.toNat)
      exec (.ldStage c half loc adesc mode k w) s = .next t ∧ OnlyCoreList s t c d [] ∧ (t.core c).pc = (s.core c).pc ∧
      st.fmt = d.fmt ∧ st.t = d.t ∧ (s.core c).cclk ≤ st.fillAt ∧ st.vecs = s.stageVecs c d mode.toNat w.toNat got ∧
      (t.core c).arr = { (s.core c).arr with
        s0 := if half then (s.core c).arr.s0 else st, s1 := if half then st else (s.core c).arr.s1
        stageCount := (s.core c).arr.stageCount + 1
        carried := s.stageCarries c d mode.toNat w.toNat got (s.core c).arr.carried } ∧
      (mode.toNat ≠ 1 → ∀ r, placeOf loc = .rows r → ∀ e, t.slot c e = s.slot c e) := by
  have hexec : exec (.ldStage c half loc adesc mode k w) s = _ := exec_opLane hl
  obtain ⟨reads, fill, hrun⟩ := evalStage_run hc hd hf half k
  replace hrun : (evalOp s c (.ldStage half loc adesc mode k w)).run = _ := hrun
  generalize evalOp s c (.ldStage half loc adesc mode k w) = e at hexec hrun
  have hcore : (s.readChan c d).core c = s.core c := (readChan_calm hc d).core (by decide) c
  generalize hu : s.readChan c d = u at hcore hrun
  generalize hst : Stage.mk d.fmt _ _ _ _ _ _ = st at hrun
  obtain ⟨sl, due, hsl⟩ := stageTakes_core s u c loc d mode.toNat w
  have hwork : CoreWork [.ctrs] c u (e.issued c) := by
    refine .trans ?_ (issued_work e c)
    rw [hrun]
    exact (stageTakes_work ..).trans (fillHalf_work ..)
  obtain ⟨cur, hcur⟩ := issued_core e c
  rw [hrun, State.fillHalf, State.onCore_eq, State.core_setCore_same, hsl, hcore] at hcur
  refine ⟨_, st, hexec, onlyCoreList_finish hc (hu ▸ hwork), by rw [finish_get_core, hcur], by rw [← hst], by rw [← hst],
    by rw [← hst]; exact Nat.le_add_right _ _, by rw [← hst], by rw [finish_get_core, hcur], fun hm r hr i => ?_⟩
  have hslots : sl = (s.core c).slots := by
    rw [stageTakes_rows hm hr, hcore] at hsl
    exact (congrArg Core.slots hsl).symm
  rw [State.slot, finish_get_core, hcur, hslots]
  rfl

/-! ### The vectors of a window list -/

theorem winEntries_length (s : State) (n w : Nat) (f : EFmt) : (s.winEntries n w f).length = f.patchRows := by
  rw [State.winEntries, List.length_map]
  exact chunks_length (by decide) _ _ (by simp [State.bytes, memRead])

/-- One vector for each entry (R84, R85). -/
theorem winVecs_getD {f : EFmt} {es : List Nat} {setOf : Nat → List (List Byte × List Byte)} {i : Nat} (hi : i < es.length) :
    (winVecs f es setOf).getD i ⟨[], []⟩ =
      if bitAt (es.getD i 0) 31 then zeroVec f else setVec f (setOf (fld (es.getD i 0) 12 0)) (fld (es.getD i 0) 17 13) := by
  rw [List.getD_eq_getElem _ _ (by simpa [winVecs] using hi), List.getD_eq_getElem _ _ hi]
  simp [winVecs]

/-- The modes of an LD.STAGE by their numbers. -/
theorem stageMode_eq : ∀ m : BitVec 2, (m = 0 ↔ m.toNat = 0) ∧ (m = 1 ↔ m.toNat = 1) ∧ (m = 2 ↔ m.toNat = 2) := by decide

/-- Settles O16: the half filled with the vectors of its mode, made of the rows as they stand. -/
theorem stagesFill : Obligations.StagesFill := by
  unfold Obligations.StagesFill
  intro s c half loc adesc mode k w d v es sets rows hl hc hd hf
  obtain ⟨hrowsMode, hwindow, htransposed⟩ := stageMode_eq mode
  have hrows : s.stageReads c loc d mode.toNat w.toNat = rows := by
    unfold State.stageReads
    simp only [← hwindow, ← htransposed]
    rfl
  have hplain : (mode.toNat == 1 || plainLoc loc) = (mode == 1 || plainLoc loc) := by
    simp only [beq_eq_decide, hwindow]
  obtain ⟨t, st, hexec, honly, hpc, hfmt, htensor, hfill, hvecs, harr, hslots⟩ := exec_ldStage hl hc hd (by rw [hrows, hplain]; exact hf)
  rw [hrows] at hvecs harr
  have hhalf : (if half then (t.core c).arr.s1 else (t.core c).arr.s0) = st := by
    rw [harr]
    cases half <;> rfl
  refine ⟨t, hexec, honly, ?_, by cases half <;> simp [harr], fun hm => ?_, by rw [harr], by rw [harr], hpc, fun hm => hslots fun h => hm (hwindow.mpr h)⟩
  · rw [hhalf]
    refine ⟨hfmt, htensor, hfill, fun hm => ?_, fun hm => ?_, fun hm => ?_⟩
    · rw [hvecs, State.stageVecs, if_pos (hrowsMode.mp hm)]
    · rw [hvecs, State.stageVecs, htransposed.mp hm]
      rfl
    · have hread : rows = setRows d sets := if_pos hm
      have hset : s.setIn c d sets (s.rowsAt c d rows) = s.setOf c d sets := by rw [hread, setIn_rowsAt]
      have hwin : st.vecs = winVecs d.fmt es (s.setOf c d sets) := by
        rw [hvecs, State.stageVecs, hwindow.mp hm, ← hset]
        rfl
      have hlen : es.length = d.fmt.patchRows := winEntries_length s c w.toNat d.fmt
      refine ⟨by rw [hwin, winVecs, List.length_map, hlen], fun i hi => ?_, fun r hr => ?_⟩
      · rw [hwin, winVecs_getD (by rw [hlen]; exact hi)]
        rfl
      · have hcarried : (t.core c).arr.carried = some ⟨r, s.setIn c d sets (s.rowsAt c d rows) r⟩ := by
          rw [harr]
          dsimp only
          rw [State.stageCarries, if_pos (hwindow.mp hm), show s.winSets c w.toNat d.fmt = sets from rfl, hr]
        rw [hcarried, hset, State.setOf, if_pos (List.mem_of_getLast? hr)]
  · rw [harr]
    exact if_neg fun h => hm (hwindow.mpr h)

end Sys2Proof.Machine
end

section
/-! ARR.MUL: its effect, and the row that it writes (R82, R89, R91, R96). -/

namespace Sys2Proof.Machine

/-! ### Counters and registers of the array page -/

/-- A counter of the core's array page advanced, other than that of checksum mismatches. -/
theorem coreWork_arrayCtr (n : CoreId) (s : State) {o : Nat} (ho : o ≠ 0x58) (k : Nat) : CoreWork [.ctrs] n s (s.bump (.array n) o k) :=
  .of_same (fun _ hp => bump_same s _ o k (by simpa using hp)) rfl (by simp) (by simp) (State.ctr_bump_ne s k (by omega))

/-- A register of the core's array page written, other than that of its ACTION. -/
theorem coreWork_arrayReg (n : CoreId) (s : State) {o : Nat} (ho : o ≠ 0x100) (v : Nat) : CoreWork [.regs] n s (s.setPreg (.array n) o v) := by
  rw [State.setPreg_eq]
  exact ⟨fun p hp => setReg_same s _ v fun e => hp (by simp [e]), rfl, fun _ _ => rfl, ⟨rfl, rfl, rfl⟩,
    State.reg_setReg_ne s v (by omega), rfl⟩

/-! ### ARR.MUL -/

/-- What an ARR.MUL leaves (R82, R89, R96): its accumulator row at the close of the sub-bundle, the vector off its half, the checker's entry. -/
def State.mulDone (s : State) (n : Nat) (bf which : Bool) (h : Stage) (r : Nat) (p : AccRow × Nat) (e : ChkEnt) : State :=
  let t := (s.core n).cclk
  let left := h.vecs.drop 1
  let h' : Stage := { h with vecs := left, freeAt := if left.isEmpty then t + 1 else h.freeAt }
  ((s.bump (.array n) 0x40).bump (.array n) 0x68 p.2).onCore n (fun c => { c with
    cur := { c.cur with acc := c.cur.acc ++ [(r, p.1)] }
    arr := { c.arr with
      s0 := if which then c.arr.s0 else h'
      s1 := if which then h' else c.arr.s1
      chkQ := c.arr.chkQ ++ [e]
      vecs := c.arr.vecs + 1
      nextAt := t + (if bf then 4 else 1) } })

/-- The outputs of the oldest vector through the active tile. -/
def mulOuts (x : Tile) (h : Stage) : List (Num × Nat) := throughTile x h.fmt (h.vecs.headD ⟨[], []⟩)

/-- The accumulator row that an ARR.MUL writes over an old one, and the sums of it that saturated (R89, R91). -/
def Core.mulRow (c : Core) (x : Tile) (h : Stage) (add : Bool) (old : AccRow) : AccRow × Nat :=
  let p := accumulate old (x.desc.fmt == .int8) add (((mulOuts x h).take 32).map Prod.fst) (c.cclk + (if x.desc.fmt == .bf16 then 132 else 36))
  ({ p.1 with sets := (if add then old.sets else 0) ||| c.arr.setBit }, p.2)

/-- What the checker gains (R96, R100). -/
def Core.mulEntry (c : Core) (x : Tile) (h : Stage) : ChkEnt :=
  { probe := false, int8 := x.desc.fmt == .int8, y := ((mulOuts x h).take 32).map Prod.fst, c := ((mulOuts x h).getD 32 (.nan, 0)).1, sums := []
    bounds := (mulOuts x h).map Prod.snd, tileSeq := c.arr.tileSeq, vec := c.arr.vecs + 1
    at_ := c.cclk + (if x.desc.fmt == .bf16 then 131 else 35) }

section
variable {s : State} {n : Nat} {x : Tile} {which : Bool} {h : Stage} (hx : (s.core n).arr.active = some x) (ho : (s.core n).oldest = some (which, h))
variable (add iter : Bool) (row : BitVec 12) (bad : Bool)
include hx ho

/-- The effect of an ARR.MUL whose row answers. -/
theorem evalMul_run (hb : (bad && add) = false) : (evalMul s n add iter row bad).run =
    s.mulDone n (x.desc.fmt == .bf16) which h ((s.core n).accRow row iter)
      ((s.core n).mulRow x h add (tget {} (s.core n).arr.acc ((s.core n).accRow row iter))) ((s.core n).mulEntry x h) := by
  have hhit : (add && bad) = false := by rw [Bool.and_comm]; exact hb
  unfold evalMul
  dsimp only
  rw [hx, ho]
  dsimp only
  rw [hhit]
  rfl

/-- The effect of one with ADD whose row is uncorrectable: the values that it adds to are free, and the error is reported (R99). -/
theorem evalMul_uncorrectable (hb : (bad && add) = true) : ∃ p k,
    (evalMul s n add iter row bad).run =
      State.accFault { s.mulDone n (x.desc.fmt == .bf16) which h ((s.core n).accRow row iter) p ((s.core n).mulEntry x h) with free := k } n
        ((s.core n).accRow row iter) (s.core n).job := by
  have hhit : (add && bad) = true := by rw [Bool.and_comm]; exact hb
  unfold evalMul
  dsimp only
  rw [hx, ho]
  dsimp only
  rw [hhit]
  exact ⟨(s.core n).mulRow x h add { (tget {} (s.core n).arr.acc ((s.core n).accRow row iter) : AccRow) with vals := freeRow s.free }, _, rfl⟩

end

theorem mulDone_work (s : State) (n : CoreId) (bf which : Bool) (h : Stage) (r : Nat) (p : AccRow × Nat) (e : ChkEnt) :
    CoreWork [.ctrs] n s (s.mulDone n bf which h r p e) := by
  unfold State.mulDone
  refine .trans ((coreWork_arrayCtr n s (o := 0x40) (by decide) 1).trans (coreWork_arrayCtr n _ (o := 0x68) (by decide) p.2)) ?_
  exact coreWork_onCore n _ fun _ => ⟨rfl, rfl, rfl⟩

theorem exec_arrMul {s : State} {c : CoreId} {add iter : Bool} {row : BitVec 12} (hl : LaneIssues s c (.arrMul add iter row)) (bad : Bool) :
    exec (.arrMul c add iter row bad) s = .next (finish s ((evalMul s c add iter row bad).issued c)) := by
  have hexec : exec (.arrMul c add iter row bad) s = execArrMul c add iter row bad s := rfl
  rw [hexec, execArrMul, actCore_current hl.1.1 hl.1.2.1, lane_issues _ id hl, id]

/-! ### The row accumulated (R89) -/

/-- The bound of a saturating sum. -/
theorem satAdd_eq (a b : Int) : satAdd a b =
    (if a + b > 2 ^ 31 - 1 then 2 ^ 31 - 1 else if a + b < -(2 ^ 31 - 1) then -(2 ^ 31 - 1) else a + b,
      decide (a + b > 2 ^ 31 - 1 ∨ a + b < -(2 ^ 31 - 1))) := by
  unfold satAdd
  dsimp only
  split_ifs <;> simp_all

section
variable (c : Core) (x : Tile) (h : Stage) (add : Bool) (old : AccRow)

theorem mulRow_sets : (c.mulRow x h add old).1.sets = (if add then old.sets else 0) ||| c.arr.setBit := rfl

theorem mulRow_readyAt : (c.mulRow x h add old).1.readyAt = c.cclk + (if x.desc.fmt = .bf16 then 132 else 36) := by
  unfold Core.mulRow accumulate
  dsimp only
  split <;> simp

/-- Outside INT8 mode the outputs, or their sums with what the row held, rounded to FP32. -/
theorem mulRow_float (hf : x.desc.fmt ≠ .int8) :
    (c.mulRow x h add old).1.int8 = false ∧ (c.mulRow x h add old).1.sat = (add && old.sat) ∧
    (c.mulRow x h add old).1.vals = (old.vals.zip ((mulOuts x h).take 32)).map
      (fun p => if add then fl ((val32 p.1).add p.2.1) else fl p.2.1) := by
  have hint : (x.desc.fmt == .int8) = false := by simpa using hf
  unfold Core.mulRow accumulate
  rw [hint]
  exact ⟨rfl, rfl, by rw [if_neg Bool.false_ne_true, List.zip_map_right, List.map_map]; rfl⟩

/-- In INT8 mode they saturate, and the row's saturation bit records it. -/
theorem mulRow_int (hf : x.desc.fmt = .int8) :
    let ps := old.vals.zip ((mulOuts x h).take 32)
    let m : Int := 2 ^ 31 - 1
    let v (p : W32 × Num × Nat) : Int := if add then p.1.toInt + roundInt p.2.1 else roundInt p.2.1
    (c.mulRow x h add old).1.int8 = true ∧
    (c.mulRow x h add old).1.vals = ps.map (fun p => toI32 (if add then (if v p > m then m else if v p < -m then -m else v p) else v p)) ∧
    ((c.mulRow x h add old).1.sat = true ↔ add = true ∧ (old.sat = true ∨ ∃ p ∈ ps, v p > m ∨ v p < -m)) := by
  intro ps m v
  have hint : (x.desc.fmt == .int8) = true := by simp [hf]
  unfold Core.mulRow accumulate
  rw [hint, if_pos rfl, List.zip_map_right, List.map_map]
  dsimp only
  refine ⟨rfl, ?_, ?_⟩
  · rw [List.map_map]
    refine List.map_congr_left fun p _ => ?_
    cases add
    · rfl
    · simp only [Function.comp_apply, Prod.map, if_true, satAdd_eq]
      rfl
  · cases add
    · simp
    · simp [satAdd_eq, numInt, m, v, ps]
end

end Sys2Proof.Machine
end

section
/-! ARR.MUL and ARR.SWAP settled (R77, R79, R89, R96, R99). -/

namespace Sys2Proof.Machine

/-- Nor the rows that the sub-bundle will write at its close. -/
theorem issued_acc (e : Eval) (n : Nat) : ((e.issued n).core n).cur.acc = (e.run.core n).cur.acc := by simp [Eval.issued, Eval.names]

section
variable {s : State} {c : CoreId} {add iter : Bool} {row : BitVec 12} {bad : Bool} {x : Tile} {which : Bool} {h : Stage}
variable (hl : LaneIssues s c (.arrMul add iter row)) (hx : (s.core c).arr.active = some x) (ho : (s.core c).oldest = some (which, h))
include hl hx ho

/-- ARR.MUL as a command: the row to be written, the vector off its half, the checker's entry. -/
theorem exec_arrMul_done (hb : (bad && add) = false) :
    ∃ t, exec (.arrMul c add iter row bad) s = .next t ∧ OnlyCore s t c [.ctrs] ∧
      CtrsBut s t (ctrsAt (.array c) [0x40, 0x68]) ∧ t.ctr (.array c) 0x40 = (s.ctr (.array c) 0x40 + 1) % 2 ^ 48 ∧
      (t.core c).cur.acc = (s.core c).cur.acc ++ [((s.core c).accRow row iter,
        ((s.core c).mulRow x h add (tget {} (s.core c).arr.acc ((s.core c).accRow row iter))).1)] ∧
      (if which then (t.core c).arr.s1.vecs else (t.core c).arr.s0.vecs) = h.vecs.drop 1 ∧
      (t.core c).arr.chkQ = (s.core c).arr.chkQ ++ [(s.core c).mulEntry x h] ∧ (t.core c).arr.acc = (s.core c).arr.acc ∧
      (t.core c).pc = (s.core c).pc := by
  have hrun := evalMul_run hx ho add iter row bad hb
  have hexec := exec_arrMul hl bad
  generalize (s.core c).mulRow x h add _ = p at *
  generalize (s.core c).mulEntry x h = chk at *
  generalize evalMul s c add iter row bad = e at *
  have hwork := (mulDone_work s c (x.desc.fmt == .bf16) which h ((s.core c).accRow row iter) p chk).trans (hrun ▸ issued_work e c)
  have hacc := issued_acc e c
  obtain ⟨cur, hcur⟩ := issued_core e c
  rw [hrun] at hcur hacc
  refine ⟨_, hexec, hwork.onlyCore, fun k hk => ?_, ?_, ?_, ?_, ?_, ?_, ?_⟩
  · simp only [ctrsAt, List.map_cons, List.map_nil, List.mem_cons, List.not_mem_nil, or_false, not_or] at hk
    rw [finish_ctrs, issued_ctrs, hrun]
    exact (State.ctrs_bump_ne _ (.array c) 0x68 p.2 k hk.2).trans (State.ctrs_bump_ne s (.array c) 0x40 1 k hk.1)
  · rw [finish_get_ctr, issued_ctr, hrun]
    exact (State.ctr_bump_ne _ p.2 (by omega)).trans (State.ctr_bump_same s (.array c) 0x40 1)
  · rw [finish_get_core, hacc]
    simp [State.mulDone]
  all_goals
    rw [finish_get_core, hcur]
    cases which <;> simp [State.mulDone]

/-- With ADD an uncorrectable row is reported as class 1, and tears the job down (R99). -/
theorem exec_arrMul_uncorrectable (hb : (bad && add) = true) {j : Nat} (hj : (s.core c).job = some j) :
    ∃ t, exec (.arrMul c add iter row bad) s = .next t ∧ Records s t 1 ∧ Tears s t j := by
  obtain ⟨p, k, hrun⟩ := evalMul_uncorrectable hx ho add iter row bad hb
  have hexec := exec_arrMul hl bad
  generalize evalMul s c add iter row bad = e at *
  have hwork := mulDone_work s c (x.desc.fmt == .bf16) which h ((s.core c).accRow row iter) p ((s.core c).mulEntry x h)
  generalize s.mulDone c _ which h _ p _ = u at *
  have hflt : u.flt = s.flt := hwork.same .flt (by decide)
  obtain ⟨v, hv, hsame⟩ : ∃ v : State, v = { u with free := k } ∧ v.flt = u.flt ∧ v.cores = u.cores ∧ v.jobs = u.jobs ∧ v.sw = u.sw :=
    ⟨_, rfl, rfl, rfl, rfl, rfl⟩
  rw [hj, ← hv] at hrun
  obtain ⟨detail, hfault⟩ := accFault_eq v c ((s.core c).accRow row iter) j
  have htorn := tornDown_issued (by decide) hwork (by decide) (.of_flt hflt) (by rw [hflt]; exact Nat.le_succ _) hsame (hrun.trans hfault)
  exact ⟨_, hexec, htorn⟩

end

/-! ### ARR.SWAP (R77, R79, R91, R98) -/

/-- The factors of a tile's columns under a descriptor's factor (R91). -/
def Tile.factors (x : Tile) (d : TDesc) : List W32 :=
  x.cols.map (fun k => fl ((val32 k.fw).mul (val32 (if d.fmt = .int8 then d.t else fOne))))

/-- What an ARR.SWAP leaves. -/
def State.swapDone (s : State) (n : Nat) (x : Tile) (fset : Nat) (fs : List W32) : State :=
  let k := s.core n
  ((s.bump (.array n) 0x48).setPreg (.array n) 0x108 (k.arr.tileSeq + 1)).onCore n (fun c => { c with arr := { c.arr with
    active := some x, shadow := none, shadowFreeAt := k.cclk + 1
    fsets := tset c.arr.fsets fset fs
    fset := some fset
    chkQ := c.arr.chkQ ++ [probeEntry x (c.arr.tileSeq + 1) k.cclk]
    tileSeq := c.arr.tileSeq + 1, vecs := 0
    nextAt := k.cclk + (if x.desc.fmt == .bf16 then 4 else 1) } })

theorem evalSwap_run {s : State} {n : Nat} {x : Tile} {d : TDesc} {adesc : BitVec 6} (he : s.ecc = []) (hs : (s.core n).settled = true)
    (hx : (s.core n).arr.shadow = some x) (hd : s.descOf n adesc.toNat = (0, d)) (fset : BitVec 2) :
    (evalSwap s n fset adesc).run = s.swapDone n x fset.toNat (x.factors d) := by
  have hfactor : (if d.fmt = .int8 then d.t else fOne) = if d.fmt == .int8 then d.t else fOne := by simp
  unfold evalSwap State.swapDone Tile.factors
  rw [hd, hfactor]
  dsimp only
  rw [hx, schedRead_clean he n hs]

theorem swapDone_work (s : State) (n : CoreId) (x : Tile) (fset : Nat) (fs : List W32) : CoreWork [.ctrs, .regs] n s (s.swapDone n x fset fs) := by
  unfold State.swapDone
  refine .trans (((coreWork_arrayCtr n s (o := 0x48) (by decide) 1).mono (by decide)).trans
    ((coreWork_arrayReg n _ (o := 0x108) (by decide) ((s.core n).arr.tileSeq + 1)).mono (by decide))) ?_
  exact coreWork_onCore n _ fun _ => ⟨rfl, rfl, rfl⟩

/-- Settles O17: what an ARR.MUL and an ARR.SWAP leave, as their evaluations give it. -/
theorem arrayMultiplies : Obligations.ArrayMultiplies := by
  unfold Obligations.ArrayMultiplies
  refine ⟨fun s c add iter row bad x which h hl hx ho => ⟨fun hb => ?_, fun hb j hj => exec_arrMul_uncorrectable hl hx ho hb hj⟩,
    fun s c fset adesc x d hl he hs hx hd => ?_⟩
  · obtain ⟨t, hexec, honly, hctrs, hcount, hacc, hvecs, hchk, hold, hpc⟩ := exec_arrMul_done hl hx ho hb
    exact ⟨t, _, _, hexec, honly, hctrs, hcount, hacc,
      ⟨fun hf => mulRow_float _ _ _ _ _ hf, fun hf => mulRow_int _ _ _ _ _ hf, mulRow_sets .., mulRow_readyAt .., rfl, rfl, rfl, rfl,
        by simp [Core.mulEntry]⟩, hvecs, hchk, hold, hpc⟩
  · have hexec : exec (.arrSwap c fset adesc) s = _ := exec_opLane hl
    have hrun : (evalOp s c (.arrSwap fset adesc)).run = s.swapDone c x fset.toNat (x.factors d) := evalSwap_run he hs hx hd fset
    generalize evalOp s c (.arrSwap fset adesc) = e at *
    have hwork := (swapDone_work s c x fset.toNat (x.factors d)).trans (hrun ▸ issued_work e c)
    obtain ⟨cur, hcur⟩ := issued_core e c
    rw [hrun, State.swapDone, State.onCore_eq, State.core_setCore_same] at hcur
    refine ⟨_, hexec, hwork.onlyCore, ⟨?_, fun k hk => ?_⟩, fun k hk => ?_, ?_, ?_⟩
    · have hstaged : (e.issued c).staged = e.run.staged := rfl
      rw [finish_staged, hstaged, hrun]
      rfl
    · rw [finish_get_reg]
      have hregs : (e.issued c).regs = e.run.regs := rfl
      rw [State.reg, hregs, hrun]
      exact State.reg_setReg_ne s _ (by simpa using hk)
    · rw [finish_ctrs, issued_ctrs, hrun]
      exact State.ctrs_bump_ne s (.array c) 0x48 1 k (by simpa [ctrsAt] using hk)
    · rw [finish_get_preg]
      have hregs : (e.issued c).regs = e.run.regs := rfl
      rw [State.preg, State.reg, hregs, hrun]
      exact State.reg_setReg_same s ((Page.array c).base + 0x108) _
    · rw [finish_get_core, hcur]
      exact ⟨rfl, rfl, tget_tset_same .., rfl, rfl, rfl, rfl, rfl, rfl⟩

end Sys2Proof.Machine
end

section
/-! A report of a core, of any class: what it keeps; a mismatch of the array (R100, R428, R436). -/

namespace Sys2Proof.Machine

/-! ### A fault record of a core, of any class -/

/-- What a report of core n keeps: every register outside the fault page but the core's ECC word, every counter outside the fault page, other
cores, and of the core all but its latch. -/
structure CoreReport (n : CoreId) (s t : State) : Prop where
  regs : ∀ k, k < 0x4000 ∨ 0x5000 ≤ k → k ≠ (Page.sill n).base + 0x10C → t.reg k = s.reg k
  ctrs : ∀ k, k < 0x4000 ∨ 0x5000 ≤ k → tget 0 t.ctrs k = tget 0 s.ctrs k
  other : ∀ m, m ≠ n.val → t.core m = s.core m
  core : ∃ l, t.core n = { s.core n with latch := l }

section
variable {n : CoreId} {s t u : State}

theorem CoreReport.refl (n : CoreId) (s : State) : CoreReport n s s :=
  ⟨fun _ _ _ => rfl, fun _ _ => rfl, fun _ _ => rfl, ⟨(s.core n).latch, rfl⟩⟩

theorem CoreReport.trans (h : CoreReport n s t) (g : CoreReport n t u) : CoreReport n s u := by
  obtain ⟨l, hl⟩ := h.core
  obtain ⟨k, hk⟩ := g.core
  exact ⟨fun o ho ho' => (g.regs o ho ho').trans (h.regs o ho ho'), fun o ho => (g.ctrs o ho).trans (h.ctrs o ho),
    fun m hm => (g.other m hm).trans (h.other m hm), k, by rw [hk, hl]⟩

/-- A counter of the fault page advanced. -/
theorem coreReport_bump (n : CoreId) (s : State) {o : Nat} (ho : o < 0x1000) (k : Nat) : CoreReport n s (s.bump .fault o k) :=
  ⟨fun _ _ _ => rfl, fun _ hx => State.ctrs_bump_ne s .fault o k _ (by simp only [Page.base]; omega), fun _ _ => rfl, ⟨(s.core n).latch, rfl⟩⟩

/-- A register of the fault page written. -/
theorem coreReport_setPreg (n : CoreId) (s : State) {o : Nat} (ho : o < 0x1000) (v : Nat) : CoreReport n s (s.setPreg .fault o v) :=
  ⟨fun _ hx _ => State.reg_setReg_ne s v (by simp only [Page.base]; omega), fun _ _ => rfl, fun _ _ => rfl, ⟨(s.core n).latch, rfl⟩⟩

theorem coreReport_releaseLatch (n : CoreId) (s : State) (seq : Nat) : CoreReport n s (s.releaseLatch (Page.core n).unit seq) := by
  obtain ⟨hown, l, hl⟩ := releaseLatch_own n s seq
  refine ⟨fun k _ hk => ?_, fun k _ => congrArg (tget 0 · k) (hown.same .ctrs (by decide)), hown.other, l, hl⟩
  unfold State.releaseLatch
  dsimp only
  rw [coreUnit_index, coreUnit_kind]
  split_ifs with h hquarry
  · exact State.reg_setReg_ne _ _ hk
  · exact absurd hquarry.1 (by decide)
  · rfl

theorem coreReport_keepFault (n : CoreId) (s : State) {cls : Nat} (hc : cls < 256) (sub seq : Nat) (bs : List Byte) :
    CoreReport n s (s.keepFault cls (Page.core n).unit sub seq bs) := by
  have hflt : ∀ (u : State) f, CoreReport n u { u with flt := f } := fun u f =>
    ⟨fun _ _ _ => rfl, fun _ _ => rfl, fun _ _ => rfl, ⟨(u.core n).latch, rfl⟩⟩
  unfold State.keepFault
  extract_lets counted flt formed
  have hformed : CoreReport n s formed := (coreReport_bump n s (o := 0x200 + 8 * (cls - 1)) (by omega) 1).trans (hflt counted _)
  split_ifs
  · exact hformed.trans ((hflt formed _).trans (coreReport_bump n _ (by decide) 1))
  · exact hformed.trans ((coreReport_bump n formed (by decide) 1).trans
      ((coreReport_setPreg n _ (by decide) _).trans (coreReport_releaseLatch n _ seq)))

theorem coreReport_markRetire (n : CoreId) (s : State) : CoreReport n s (s.markRetire (Page.core n).unit) := by
  unfold State.markRetire State.setBit128
  dsimp only
  rw [coreUnit_index, coreUnit_kind, if_pos rfl, Nat.add_assoc]
  refine (coreReport_bump n s (o := 0x50) (by decide) 1).trans ?_
  exact coreReport_setPreg n _ (o := 0x110 + 4 * (n / 32)) (by omega) _

theorem coreReport_fault (n : CoreId) (s : State) {cls : Nat} (hc : cls < 256) (status : Nat) (job : Option Nat) (flags : Nat)
    (detail : List Byte) (sub : Nat) : CoreReport n s (s.fault cls status job (Page.core n).unit flags detail sub) := by
  unfold State.fault
  dsimp only
  split
  exacts [(coreReport_keepFault n s hc _ _ _).trans (coreReport_markRetire n _), coreReport_keepFault n s hc _ _ _]

/-- A register of a page of the core survives its report. -/
theorem CoreReport.array_preg (h : CoreReport n s t) (o : Nat) (ho : o < 0x1000) : t.preg (.array n) o = s.preg (.array n) o :=
  h.regs _ (.inr (by simp only [Page.base]; omega)) (by simp only [Page.base]; omega)

theorem CoreReport.vector_preg (h : CoreReport n s t) (o : Nat) (ho : o < 0x1000) : t.preg (.vector n) o = s.preg (.vector n) o :=
  h.regs _ (.inr (by simp only [Page.base]; omega)) (by simp only [Page.base]; omega)

end

/-- Whether a record is there does not depend on the end of the command. -/
theorem records_of_finish {s v : State} {cls : Nat} (h : Records s (finish s v) cls) : Records s v cls := by
  simpa only [Records, finish_seq, finish_unack, finish_record_class] using h

/-! ### A mismatch of the array (R100) -/

/-- Recorded in the array page, counted, reported as class 2, and acted on by ACTION. -/
theorem arrayMismatch_eq (s : State) (n : Nat) (e : ChkEnt) (kind off col eref : Nat) (a b : W32) : ∃ (u : State) (flags : Nat) (detail : List Byte),
    (u.flt = s.flt ∧ u.cores = s.cores ∧ u.jobs = s.jobs ∧ u.sw = s.sw) ∧
    (u.preg (.array n) 0x10C = e.vec % 2 ^ 32 ∧ u.preg (.array n) 0x110 = a.toNat ∧ u.preg (.array n) 0x114 = b.toNat ∧
      u.ctr (.array n) off = (s.ctr (.array n) off + 1) % 2 ^ 48) ∧
    s.arrayMismatch n e kind off col eref a b =
      if bitAt (s.preg (.array n) 0x100) 2 then (u.fault 2 0 (s.core n).job (Page.core n).unit flags detail).loosen n
      else (u.fault 2 0 (s.core n).job (Page.core n).unit flags detail).tearJob (s.core n).job 2 := by
  unfold State.arrayMismatch
  extract_lets job tear sInfo sNoted sKept
  obtain ⟨flags, detail, hkept⟩ : ∃ flags detail, sKept = sNoted.fault 2 0 job (Page.core n).unit flags detail := ⟨_, _, rfl⟩
  refine ⟨sNoted, flags, detail, ⟨rfl, rfl, rfl, rfl⟩, ⟨?_, ?_, ?_, State.ctr_bump_same s (.array n) off 1⟩, ?_⟩
  · exact (State.reg_setReg_ne _ _ (by simp)).trans ((State.reg_setReg_ne _ _ (by simp)).trans
      ((State.reg_setReg_ne _ _ (by simp)).trans (State.reg_setReg_same _ _ _)))
  · exact (State.reg_setReg_ne _ _ (by simp)).trans ((State.reg_setReg_ne _ _ (by simp)).trans
      ((State.reg_setReg_same _ _ _).trans (Nat.mod_eq_of_lt a.isLt)))
  · exact (State.reg_setReg_ne _ _ (by simp)).trans ((State.reg_setReg_same _ _ _).trans (Nat.mod_eq_of_lt b.isLt))
  · rw [hkept]
    cases h : bitAt (s.preg (.array n) 0x100) 2
    · exact if_pos (show (!bitAt (s.preg (.array n) 0x100) 2) = true by rw [h]; rfl)
    · exact if_neg (show ¬ (!bitAt (s.preg (.array n) 0x100) 2) = true by rw [h]; decide)

end Sys2Proof.Machine
end

section
/-! The checker's comparisons of a vector and of a probe row, case by case (R96, R98, R99, R100). -/

namespace Sys2Proof.Machine

/-- A mismatch of the array page is recorded as class 2; with ACTION 1 what the array writes is unpredictable from then on, otherwise the
job is torn down (R100). -/
theorem arrayMismatch_reports (s : State) (c : CoreId) (e : ChkEnt) (kind off col eref : Nat) (a b : W32) :
    let t := s.arrayMismatch c e kind off col eref a b
    Records s t 2 ∧
    (bitAt (s.preg (.array c) 0x100) 2 = true → t.preg (.array c) 0x10C = e.vec % 2 ^ 32 ∧ t.preg (.array c) 0x110 = a.toNat ∧
      t.preg (.array c) 0x114 = b.toNat ∧ t.ctr (.array c) off = (s.ctr (.array c) off + 1) % 2 ^ 48 ∧ (t.core c).arr.loose = true) ∧
    (∀ j, (s.core c).job = some j → bitAt (s.preg (.array c) 0x100) 2 = false → Tears s t j) := by
  obtain ⟨u, flags, detail, ⟨hflt, hcores, hjobs, hsw⟩, ⟨hvec, ha, hb, hcount⟩, heq⟩ := arrayMismatch_eq s c e kind off col eref a b
  rw [heq]
  have hrep := coreReport_fault c u (cls := 2) (by decide) 0 (s.core c).job flags detail 0
  have hctr := fault_arrayCtr u (cls := 2) (by decide) 0 (s.core c).job (Page.core c).unit flags detail 0 c off
  have hwind := windsUp_fault u 2 0 (s.core c).job (Page.core c).unit flags detail 0
  have hkept : KeepsRecords (u.fault 2 0 (s.core c).job (Page.core c).unit flags detail) (s.arrayMismatch c e kind off col eref a b) := by
    rw [heq]
    split
    exacts [.of_flt rfl, tearJob_keepsRecords _ _ _]
  refine ⟨heq ▸ records_of_finish (records_finish (by decide) hflt hkept), fun hact => ?_, fun j hj hact => ?_⟩
  · rw [if_pos hact]
    exact ⟨(hrep.array_preg 0x10C (by decide)).trans hvec, (hrep.array_preg 0x110 (by decide)).trans ha,
      (hrep.array_preg 0x114 (by decide)).trans hb, hctr.trans hcount, by simp [State.loosen]⟩
  · rw [if_neg (by simp [hact]), hj]
    rw [hj] at hwind
    refine tearJob_tears (hwind.jobs.trans hjobs) (hwind.sw.trans hsw) (fun n => ?_) j 2
    rw [(hwind.core n).1, State.core, hcores]
    rfl

/-! ### The checker's results (R96, R98) -/

/-- The oldest vector, or probe row, off the checker's queue. -/
def State.takeEntry (s : State) (n : Nat) (probe : Bool) : State :=
  s.onCore n (fun k => { k with arr := { k.arr with chkQ := removeFirst (fun x => x.probe == probe) k.arr.chkQ } })

theorem takeEntry_work {may : List Part} (s : State) (n : CoreId) (probe : Bool) : CoreWork may n s (s.takeEntry n probe) :=
  coreWork_onCore n s fun _ => ⟨rfl, rfl, rfl⟩

theorem takeEntry_arr (s : State) (n : Nat) (probe : Bool) :
    ((s.takeEntry n probe).core n).arr = { (s.core n).arr with chkQ := removeFirst (fun x => x.probe == probe) (s.core n).arr.chkQ } := by
  simp [State.takeEntry]

/-- An entry whose CCLK has passed is taken and compared. -/
theorem checkNext_takes {s : State} {n : Nat} {probe : Bool} {e : ChkEnt} (h : (s.core n).arr.chkQ.find? (fun x => x.probe == probe) = some e)
    (hat : s.counted n = true → e.at_ < (s.core n).cclk) (u : ChkUpset) :
    s.checkNext n probe u = if probe then (s.takeEntry n probe).checkProbe n e u else (s.takeEntry n probe).checkVector n e u := by
  have hpast : ¬ (s.counted n && decide ((s.core n).cclk ≤ e.at_)) = true := by
    simp only [Bool.and_eq_true, decide_eq_true_eq, not_and, not_le]
    exact hat
  unfold State.checkNext
  rw [h]
  exact if_neg hpast

section
variable (s : State) (n : Nat) (e : ChkEnt) {u : ChkUpset}

/-! A vector: the outputs and the checksum output as the checker sees them, and their comparison. -/

/-- The 33 values as the checker sees them. -/
def ChkEnt.seen (e : ChkEnt) (u : ChkUpset) : List Num := withUpset (e.y ++ [e.c]) u
/-- The sum of the outputs. -/
def ChkEnt.seenSum (e : ChkEnt) (u : ChkUpset) : Num := sumNum ((e.seen u).take 32)
/-- The checksum output. -/
def ChkEnt.seenChk (e : ChkEnt) (u : ChkUpset) : Num := (e.seen u).getD 32 .nan
/-- The largest bound, 1 at least. -/
def ChkEnt.bound (e : ChkEnt) : Nat := max 1 (maxOf e.bounds)
/-- Whether all of them are finite. -/
def ChkEnt.finite (e : ChkEnt) (u : ChkUpset) : Prop := ((e.seen u).take 32).all Num.isFin = true ∧ (e.seenChk u).isFin = true

/-- A vector mismatch of some kind. -/
def State.vectorMismatch (s : State) (n : Nat) (e : ChkEnt) (u : ChkUpset) (kind : Nat) : State :=
  s.arrayMismatch n e kind 0x58 0 e.bound (fl (e.seenChk u)) (fl (e.seenSum u))

theorem checkVector_parity (h : u = .pathParity) : s.checkVector n e u = s.vectorMismatch n e u 3 := if_pos h

variable (hu : u ≠ .pathParity)
include hu

theorem checkVector_disabled (h : bitAt (s.preg (.array n) 0x100) 0 = false) : s.checkVector n e u = s := by
  unfold State.checkVector
  dsimp only
  rw [if_neg hu, h]
  rfl

variable (hen : bitAt (s.preg (.array n) 0x100) 0 = true)
include hen

/-- An INT8 sum agrees exactly. -/
theorem checkVector_int (hi : e.int8 = true) : s.checkVector n e u = if (e.seenSum u).eqv (e.seenChk u) then s else s.vectorMismatch n e u 1 := by
  unfold State.checkVector
  dsimp only
  rw [if_neg hu, hen, hi]
  rfl

/-- Any other is not compared with a value that is not finite. -/
theorem checkVector_notFinite (hi : e.int8 = false) (hf : ¬ e.finite u) : s.checkVector n e u = s.bump (.array n) 0x50 := by
  unfold State.checkVector
  dsimp only
  rw [if_neg hu, hen, hi, Bool.not_true, if_neg Bool.false_ne_true, if_neg Bool.false_ne_true]
  refine if_pos ?_
  rw [Bool.not_eq_true', ← Bool.not_eq_true, Bool.and_eq_true]
  exact hf

/-- It agrees within the tolerance. -/
theorem checkVector_finite (hi : e.int8 = false) (hf : e.finite u) :
    s.checkVector n e u =
      if exceeds (e.seenChk u) (e.seenSum u) (fld (s.preg (.array n) 0x100) 27 16) e.bound then s.vectorMismatch n e u 1 else s := by
  unfold State.checkVector
  dsimp only
  rw [if_neg hu, hen, hi, Bool.not_true, if_neg Bool.false_ne_true, if_neg Bool.false_ne_true]
  refine if_neg ?_
  rw [Bool.not_eq_true, Bool.not_eq_false', Bool.and_eq_true]
  exact hf

end

/-! A probe row: columns, and the first that differs. -/

section
variable (s : State) (n : Nat) (e : ChkEnt) (u : ChkUpset)

/-- Column i of a probe row. -/
def ChkEnt.col (e : ChkEnt) (u : ChkUpset) (i : Nat) : Num := (withUpset e.y u).getD i .nan
/-- The tile's sum of it. -/
def ChkEnt.colSum (e : ChkEnt) (i : Nat) : Num := e.sums.getD i .nan
/-- Its bound, 1 at least. -/
def ChkEnt.colBound (e : ChkEnt) (i : Nat) : Nat := max 1 (e.bounds.getD i 0)

/-- Whether a column differs from the tile's sum, under a tolerance. -/
def ChkEnt.differs (e : ChkEnt) (u : ChkUpset) (tol i : Nat) : Bool :=
  if e.int8 then !((e.col u i).eqv (e.colSum i)) else (e.col u i).isFin && (e.colSum i).isFin && exceeds (e.col u i) (e.colSum i) tol (e.colBound i)

/-- The columns that are not compared. -/
def ChkEnt.skipped (e : ChkEnt) (u : ChkUpset) : Nat :=
  if e.int8 then 0 else (List.range 33).countP (fun i => !((e.col u i).isFin && (e.colSum i).isFin))

theorem differs_iff (tol i : Nat) : e.differs u tol i = true ↔
    if e.int8 = true then (e.col u i).eqv (e.colSum i) = false
    else (e.col u i).isFin = true ∧ (e.colSum i).isFin = true ∧ exceeds (e.col u i) (e.colSum i) tol (e.colBound i) = true := by
  unfold ChkEnt.differs
  cases e.int8 <;> simp [and_assoc]

variable {u}

theorem checkProbe_parity (h : u = .pathParity) : s.checkProbe n e u = s.arrayMismatch n e 3 0x58 0 e.bound 0 0 := if_pos h

variable (hu : u ≠ .pathParity)
include hu

theorem checkProbe_disabled (h : bitAt (s.preg (.array n) 0x100) 1 = false) : s.checkProbe n e u = s := by
  unfold State.checkProbe
  dsimp only
  rw [if_neg hu, h]
  rfl

/-- Enabled, the columns not compared are counted, and the first that differs is a mismatch. -/
theorem checkProbe_enabled (h : bitAt (s.preg (.array n) 0x100) 1 = true) : s.checkProbe n e u =
    let t := s.bump (.array n) 0x50 (e.skipped u)
    match (List.range 33).find? (e.differs u (fld (s.preg (.array n) 0x100) 15 8)) with
    | some i => t.arrayMismatch n e 2 0x60 i (e.colBound i) (fl (e.col u i)) (fl (e.colSum i))
    | none => t := by
  unfold State.checkProbe
  extract_lets ys ctl cols skip bad t
  rw [if_neg hu, if_neg (show ¬ (!bitAt ctl 1) = true by rw [show bitAt ctl 1 = true from h]; decide)]
  have hskip : skip = e.skipped u := by
    unfold skip cols ChkEnt.skipped
    rw [List.countP_map]
    rfl
  have hfind : cols.find? bad = ((List.range 33).find? (e.differs u (fld (s.preg (.array n) 0x100) 15 8))).map
      (fun j => (j, ys.getD j .nan, e.sums.getD j .nan, max 1 (e.bounds.getD j 0))) := by
    unfold cols
    rw [List.find?_map]
    rfl
  rw [hfind, show t = s.bump (.array n) 0x50 (e.skipped u) from congrArg (fun k => s.bump (.array n) 0x50 k) hskip]
  cases (List.range 33).find? (e.differs u (fld (s.preg (.array n) 0x100) 15 8)) <;> rfl

end

end Sys2Proof.Machine
end

section
/-! The checker's results as commands: ARRAY_CHECK_RESULT, PROBE_CHECK_RESULT (R96, R98). -/

namespace Sys2Proof.Machine

section
variable {s : State} {c : CoreId} {e : ChkEnt} {u : ChkUpset} (hl : s.live = true)
variable (hat : s.counted c = true → e.at_ < (s.core c).cclk)
include hl hat

theorem exec_arrayCheckResult (h : (s.core c).arr.chkQ.find? (fun x => x.probe == false) = some e) :
    exec (.arrayCheckResult c u) s = .next (finish s ((s.takeEntry c false).checkVector c e u)) := by
  have hexec : exec (.arrayCheckResult c u) s = execArrayCheckResult c u s := rfl
  rw [hexec, execArrayCheckResult, act_live hl, checkNext_takes h hat]
  rfl

theorem exec_probeCheckResult (h : (s.core c).arr.chkQ.find? (fun x => x.probe == true) = some e) :
    exec (.probeCheckResult c u) s = .next (finish s ((s.takeEntry c true).checkProbe c e u)) := by
  have hexec : exec (.probeCheckResult c u) s = execProbeCheckResult c u s := rfl
  rw [hexec, execProbeCheckResult, act_live hl, checkNext_takes h hat]
  rfl

end

/-- An entry taken, with columns or a vector counted as not compared, and nothing besides. -/
theorem entryPassed (s : State) (c : CoreId) (probe : Bool) (k : Nat) :
    let t := finish s ((s.takeEntry c probe).bump (.array c) 0x50 k)
    OnlyCore s t c [.ctrs] ∧ CtrsBut s t (ctrsAt (.array c) [0x50]) ∧
    (t.core c).arr = { (s.core c).arr with chkQ := removeFirst (fun x => x.probe == probe) (s.core c).arr.chkQ } ∧
    t.ctr (.array c) 0x50 = (s.ctr (.array c) 0x50 + k) % 2 ^ 48 := by
  refine ⟨((takeEntry_work s c probe).trans (coreWork_arrayCtr c _ (by decide) k)).onlyCore, fun x hx => ?_, ?_, ?_⟩
  · rw [finish_ctrs]
    exact State.ctrs_bump_ne _ _ _ _ _ (by simpa [ctrsAt] using hx)
  · rw [finish_get_core]
    exact takeEntry_arr s c probe
  · rw [finish_get_ctr]
    exact State.ctr_bump_same (s.takeEntry c probe) (.array c) 0x50 k

/-- An entry taken, and nothing counted. -/
theorem entryTaken (s : State) (c : CoreId) (probe : Bool) {may : List Part} :
    let t := finish s (s.takeEntry c probe)
    OnlyCore s t c may ∧ t.ctrs = s.ctrs ∧
    (t.core c).arr = { (s.core c).arr with chkQ := removeFirst (fun x => x.probe == probe) (s.core c).arr.chkQ } := by
  refine ⟨(takeEntry_work s c probe).onlyCore, by rw [finish_ctrs]; rfl, ?_⟩
  rw [finish_get_core]
  exact takeEntry_arr s c probe

section
variable {s : State} {c : CoreId} {e : ChkEnt} {u : ChkUpset} (hl : s.live = true)
variable (hat : s.counted c = true → e.at_ < (s.core c).cclk)
include hl hat

/-- The checker's next vector (R96, R99, R100). -/
theorem vectorChecked (h : (s.core c).arr.chkQ.find? (fun x => x.probe == false) = some e) :
    let ctl := s.preg (.array c) 0x100
    let s1 := s.takeEntry c false
    let passed (t : State) : Prop := (t.core c).arr = { (s.core c).arr with chkQ := removeFirst (fun x => x.probe == false) (s.core c).arr.chkQ }
    (u = .pathParity → exec (.arrayCheckResult c u) s = .next (finish s (s1.vectorMismatch c e u 3))) ∧
    (u ≠ .pathParity →
      (bitAt ctl 0 = false ∨ (e.int8 = true ∧ (e.seenSum u).eqv (e.seenChk u) = true) ∨
        (e.int8 = false ∧ e.finite u ∧ exceeds (e.seenChk u) (e.seenSum u) (fld ctl 27 16) e.bound = false) →
        ∃ t, exec (.arrayCheckResult c u) s = .next t ∧ OnlyCore s t c [] ∧ passed t) ∧
      (bitAt ctl 0 = true → e.int8 = false → ¬ e.finite u →
        ∃ t, exec (.arrayCheckResult c u) s = .next t ∧ OnlyCore s t c [.ctrs] ∧ CtrsBut s t (ctrsAt (.array c) [0x50]) ∧ passed t ∧
          t.ctr (.array c) 0x50 = (s.ctr (.array c) 0x50 + 1) % 2 ^ 48) ∧
      (bitAt ctl 0 = true → (e.int8 = true ∧ (e.seenSum u).eqv (e.seenChk u) = false) ∨
          (e.int8 = false ∧ e.finite u ∧ exceeds (e.seenChk u) (e.seenSum u) (fld ctl 27 16) e.bound = true) →
        exec (.arrayCheckResult c u) s = .next (finish s (s1.vectorMismatch c e u 1)))) := by
  intro ctl s1 passed
  have hexec : exec (.arrayCheckResult c u) s = .next (finish s (s1.checkVector c e u)) := exec_arrayCheckResult hl hat h
  have hctl : s1.preg (.array c) 0x100 = ctl := rfl
  rw [hexec]
  refine ⟨fun hu => by rw [checkVector_parity s1 c e hu], fun hu => ⟨fun hpass => ?_, fun hen hi hf => ?_, fun hen hdiff => ?_⟩⟩
  · have hsame : s1.checkVector c e u = s1 := by
      cases hen : bitAt ctl 0
      · exact checkVector_disabled s1 c e hu hen
      · rcases hpass with hdis | ⟨hi, hagree⟩ | ⟨hi, hf, hwithin⟩
        · exact absurd hen (by simp [hdis])
        · rw [checkVector_int s1 c e hu hen hi, if_pos hagree]
        · rw [checkVector_finite s1 c e hu hen hi hf, hctl, if_neg (by simp [hwithin])]
    obtain ⟨honly, -, harr⟩ := entryTaken s c false (may := [])
    exact ⟨_, by rw [hsame], honly, harr⟩
  · obtain ⟨honly, hctrs, harr, hcount⟩ := entryPassed s c false 1
    exact ⟨_, by rw [checkVector_notFinite s1 c e hu hen hi hf], honly, hctrs, harr, hcount⟩
  · rcases hdiff with ⟨hi, hdiffers⟩ | ⟨hi, hf, hbeyond⟩
    · rw [checkVector_int s1 c e hu hen hi, if_neg (by simp [hdiffers])]
    · rw [checkVector_finite s1 c e hu hen hi hf, hctl, if_pos hbeyond]

/-- The checker's next probe row (R98, R99, R100). -/
theorem probeChecked (h : (s.core c).arr.chkQ.find? (fun x => x.probe == true) = some e) :
    let ctl := s.preg (.array c) 0x100
    let s1 := s.takeEntry c true
    let differs (i : Nat) : Prop := e.differs u (fld ctl 15 8) i = true
    (u = .pathParity → exec (.probeCheckResult c u) s = .next (finish s (s1.arrayMismatch c e 3 0x58 0 e.bound 0 0))) ∧
    (u ≠ .pathParity →
      (bitAt ctl 1 = false ∨ (∀ i, i < 33 → ¬ differs i) →
        ∃ t, exec (.probeCheckResult c u) s = .next t ∧ OnlyCore s t c [.ctrs] ∧ CtrsBut s t (ctrsAt (.array c) [0x50]) ∧
          (bitAt ctl 1 = true → t.ctr (.array c) 0x50 = (s.ctr (.array c) 0x50 + e.skipped u) % 2 ^ 48) ∧
          (t.core c).arr = { (s.core c).arr with chkQ := removeFirst (fun x => x.probe == true) (s.core c).arr.chkQ }) ∧
      (∀ i, bitAt ctl 1 = true → i < 33 → differs i → (∀ k, k < i → ¬ differs k) →
        exec (.probeCheckResult c u) s = .next (finish s
          ((s1.bump (.array c) 0x50 (e.skipped u)).arrayMismatch c e 2 0x60 i (e.colBound i) (fl (e.col u i)) (fl (e.colSum i)))))) := by
  intro ctl s1 differs
  have hexec : exec (.probeCheckResult c u) s = .next (finish s (s1.checkProbe c e u)) := exec_probeCheckResult hl hat h
  have hctl : s1.preg (.array c) 0x100 = ctl := rfl
  rw [hexec]
  refine ⟨fun hu => by rw [checkProbe_parity s1 c e hu], fun hu => ⟨fun hpass => ?_, fun i hen hi hdiff hfirst => ?_⟩⟩
  · cases hen : bitAt ctl 1
    · obtain ⟨honly, hctrs, harr⟩ := entryTaken s c true (may := [.ctrs])
      exact ⟨_, by rw [checkProbe_disabled s1 c e hu hen], honly, fun k _ => by rw [hctrs], fun h => absurd h (by simp), harr⟩
    · have hnone : (List.range 33).find? (e.differs u (fld ctl 15 8)) = none :=
        List.find?_range_eq_none.mpr fun i hi => by simpa [differs] using hpass.resolve_left (by simp [hen]) i hi
      obtain ⟨honly, hctrs, harr, hcount⟩ := entryPassed s c true (e.skipped u)
      exact ⟨_, by rw [checkProbe_enabled s1 c e hu hen, hctl, hnone], honly, hctrs, fun _ => hcount, harr⟩
  · have hsome : (List.range 33).find? (e.differs u (fld ctl 15 8)) = some i :=
      List.find?_range_eq_some.mpr ⟨hdiff, List.mem_range.mpr hi, fun k hk => by simpa [differs] using hfirst k hk⟩
    rw [checkProbe_enabled s1 c e hu hen, hctl, hsome]

end

end Sys2Proof.Machine
end

section
/-! What a vector operation leaves before its duplicate is looked at (R110 to R122), and what reports with room in the ring touch. -/

namespace Sys2Proof.Machine

/-! ### A report with room in the ring -/

/-- With room in the ring, a report touches the ring, the counters and the registers of the fault page alone. -/
theorem fault_room (s : State) (cls status : Nat) (job : Option Nat) (unit flags : Nat) (detail : List Byte) (sub : Nat) (hr : s.flt.unack < 32)
    {p : Part} (h : p ≠ .flt ∧ p ≠ .ctrs ∧ p ≠ .regs) : p.same s (s.fault cls status job unit flags detail sub) := by
  have hmark : ∀ u : State, p.same u (u.markRetire unit) := fun u => by
    cases p <;> simp_all [Part.same, Part.kept, State.markRetire, State.setBit128]
  unfold State.fault
  dsimp only
  split
  · exact Part.same_trans (keepFault_room s _ _ _ _ _ hr ⟨h.1, h.2.1⟩) (hmark _)
  · exact keepFault_room s _ _ _ _ _ hr ⟨h.1, h.2.1⟩

/-- A command that forms one fault record, of whatever class, reports it. -/
theorem reports_of_fault {s u v : State} {cls : Nat} {may : List Part} (hc : cls < 256) (hregs : .regs ∈ may) {status : Nat} {job : Option Nat}
    {unit flags : Nat} {detail : List Byte} {sub : Nat} (hflt : u.flt = s.flt) (hpend : u.pending = s.pending)
    (hu : ∀ p, p ∉ Part.flt :: .ctrs :: may → p.same s u)
    (hvflt : v.flt = (u.fault cls status job unit flags detail sub).flt) (hvpend : v.pending = u.pending)
    (hv : ∀ p, p ∉ Part.flt :: .ctrs :: may → p.same (u.fault cls status job unit flags detail sub) v) : Reports s (finish s v) cls may := by
  obtain ⟨hseq, hold, hroom, -⟩ := keepFault_flt u cls unit sub (u.flt.seq + 1) (faultBytes u cls status job unit flags detail sub)
  rw [← fault_flt, ← hvflt, hflt] at hseq hold hroom
  refine ⟨by simpa using hseq, fun hlt => ⟨by simpa using (hroom hlt).1, ?_, ?_⟩⟩
  · rw [finish_record_class, (hroom hlt).2, tget_tset_same, faultBytes_class _ _ _ _ _ _ _ hc]
  · refine unchanged_finish (hvpend.trans hpend) fun p hp => Part.same_trans (hu p hp) (Part.same_trans ?_ (hv p hp))
    exact fault_room u _ _ _ _ _ _ _ (by rw [hflt]; exact hlt)
      ⟨fun e => hp (by simp [e]), fun e => hp (by simp [e]), fun e => hp (by simp [e, hregs])⟩

/-! ### The effect of a vector operation -/

/-- What a vector operation leaves: of the core only what its sub-bundle will write, and no mismatch counted. -/
structure VecRun (n : CoreId) (s w : State) : Prop where
  work : CoreWork [.ctrs, .free] n s w
  core : ∃ cur, w.core n = { s.core n with cur := cur }
  mismatches : w.ctr (.vector n) 0x50 = s.ctr (.vector n) 0x50

section
variable (n : CoreId) (s : State)

theorem VecRun.trans {n : CoreId} {s t u : State} (h : VecRun n s t) (g : VecRun n t u) : VecRun n s u := by
  obtain ⟨cur, hcur⟩ := h.core
  obtain ⟨cur', hcur'⟩ := g.core
  exact ⟨h.work.trans g.work, ⟨cur', by rw [hcur', hcur]⟩, g.mismatches.trans h.mismatches⟩

theorem vecRun_free : VecRun n s (s.vecFree n) := by
  unfold State.vecFree
  split
  · refine ⟨.of_same (fun p hp => ?_) rfl (by decide) (by decide) rfl, ⟨(s.core n).cur, rfl⟩, rfl⟩
    cases p <;> simp_all [Part.same, Part.kept]
  · exact ⟨.refl _ n s, ⟨(s.core n).cur, rfl⟩, rfl⟩

theorem vecRun_bump {o : Nat} (h : o < 0x50) : VecRun n s (s.bump (.vector n) o) :=
  ⟨.of_same (fun _ hp => bump_same s _ o 1 fun e => hp (by simp [e])) rfl (by decide) (by decide)
    (State.ctr_bump_ne s 1 (by simp only [Page.base]; omega)), ⟨(s.core n).cur, rfl⟩, State.ctr_bump_ne s 1 (by omega)⟩

theorem vecRun_onVec (f : Vec → Vec) : VecRun n s (s.onVec n f) :=
  ⟨coreWork_onCore n s fun _ => ⟨rfl, rfl, rfl⟩, ⟨_, State.core_setCore_same s n _⟩, rfl⟩

/-- An operation counted, and one of the SFU counted as such too. -/
theorem vecRun_counted (f : Vec → Vec) : VecRun n s (((s.vecFree n).bump (.vector n) 0x40).onVec n f) :=
  (vecRun_free n s).trans ((vecRun_bump n _ (by decide)).trans (vecRun_onVec n _ f))

theorem vecRun_countedSfu (f : Vec → Vec) : VecRun n s ((((s.vecFree n).bump (.vector n) 0x40).bump (.vector n) 0x48).onVec n f) :=
  (vecRun_free n s).trans ((vecRun_bump n _ (by decide)).trans ((vecRun_bump n _ (by decide)).trans (vecRun_onVec n _ f)))

theorem vecRun_alu (l : AluLane) : VecRun n s (evalAlu s n l).run := by
  unfold evalAlu
  dsimp only
  exact vecRun_counted n s _

theorem vecRun_sfu (l : FnLane) : VecRun n s (evalSfu s n l).run := by
  unfold evalSfu
  dsimp only
  exact vecRun_countedSfu n s _

theorem vecRun_red (l : FnLane) : VecRun n s (evalRed s n l).run := by
  unfold evalRed
  dsimp only
  exact vecRun_counted n s _

theorem vecRun_dact (l : FnLane) : VecRun n s (evalDact s n l).run := by
  unfold evalDact
  dsimp only
  obtain ⟨lat, occ⟩ := dactTime l.fn.toNat
  split_ifs
  · exact vecRun_counted n s _
  · exact vecRun_countedSfu n s _

end

/-- A vector operation with its class (R119) and its command. -/
structure VecInstr (c : CoreId) (op : LaneOp) (cls : Nat) (i : Option (BitVec 8) → Instr) : Prop where
  cls_lt : cls < 256
  meaning : ∀ u s, exec (i u) s = actCore s c (fun s => vecLane s c op cls u)
  run : ∀ s, VecRun c s (evalOp s c op).run

theorem vecInstr_of {c : CoreId} {op : LaneOp} {cls : Nat} {i : Option (BitVec 8) → Instr}
    (h : (∃ l, op = .vecAlu l ∧ cls = 1 ∧ i = fun u => .vecAlu c l u) ∨ (∃ l, op = .vecSfu l ∧ cls = 2 ∧ i = fun u => .vecSfu c l u) ∨
      (∃ l, op = .vecRed l ∧ cls = 3 ∧ i = fun u => .vecRed c l u) ∨ (∃ l, op = .vecDact l ∧ cls = 4 ∧ i = fun u => .vecDact c l u)) :
    VecInstr c op cls i := by
  rcases h with ⟨l, rfl, rfl, rfl⟩ | ⟨l, rfl, rfl, rfl⟩ | ⟨l, rfl, rfl, rfl⟩ | ⟨l, rfl, rfl, rfl⟩
  · exact ⟨by decide, fun _ _ => rfl, fun s => vecRun_alu c s l⟩
  · exact ⟨by decide, fun _ _ => rfl, fun s => vecRun_sfu c s l⟩
  · exact ⟨by decide, fun _ _ => rfl, fun s => vecRun_red c s l⟩
  · exact ⟨by decide, fun _ _ => rfl, fun s => vecRun_dact c s l⟩

end Sys2Proof.Machine
end

section
/-! The duplicates of the vector unit differ at a lane: what is noted (R119). -/

namespace Sys2Proof.Machine

theorem preg_of_regs {s t : State} (h : t.regs = s.regs) (p : Page) (o : Nat) : t.preg p o = s.preg p o := by
  simp only [State.preg, State.reg, h]

theorem ctr_of_ctrs {s t : State} (h : t.ctrs = s.ctrs) (p : Page) (o : Nat) : t.ctr p o = s.ctr p o := by
  simp only [State.ctr, h]

/-! ### The duplicates differ (R119) -/

/-- VEC_LAST_INFO written and the mismatch counted. -/
def State.vecNoted (s : State) (n cls ln : Nat) : State := (s.setPreg (.vector n) 0x104 (ln * 256 + cls)).bump (.vector n) 0x50

/-- A mismatch with DUP_EN 1 is noted, reported and acted on. -/
theorem vecMismatch_eq {s : State} {n : Nat} (h : bitAt (s.preg (.vector n) 0x100) 0 = true) (cls ln : Nat) : ∃ flags detail,
    s.vecMismatch n cls ln =
      let t := (s.vecNoted n cls ln).fault 2 0 (s.core n).job (Page.core n).unit flags detail 1
      if bitAt (s.preg (.vector n) 0x100) 1 then t else t.tearJob (s.core n).job 2 := by
  unfold State.vecMismatch
  dsimp only
  rw [h]
  cases hact : bitAt (s.preg (.vector n) 0x100) 1 <;> cases hj : (s.core n).job <;> exact ⟨_, _, rfl⟩

section
variable {s : State} {c : CoreId} {op : LaneOp} {cls : Nat} {i : Option (BitVec 8) → Instr} (hv : VecInstr c op cls i) (hl : LaneIssues s c op)
include hv hl

/-- An operation whose duplicate agrees. -/
theorem exec_vecAgrees : exec (i none) s = .next (finish s ((evalOp s c op).issued c)) := by
  rw [hv.meaning, ← exec_opLane hl]
  rfl

/-- One whose duplicate differs at a lane. -/
theorem exec_vecDiffers (ln : BitVec 8) : exec (i (some ln)) s = .next (finish s
    (({ evalOp (s.vecLoosen c) c op with run := (evalOp (s.vecLoosen c) c op).run.vecMismatch c cls ln.toNat } : Eval).issued c)) := by
  rw [hv.meaning, actCore_current hl.1.1 hl.1.2.1, vecLane]
  dsimp only
  rw [lane_issues _ id hl, id]

/-- With DUP_EN 0 nothing else happens. -/
theorem exec_vecIgnored (h : bitAt (s.preg (.vector c) 0x100) 0 = false) (ln : BitVec 8) : exec (i (some ln)) s = exec (i none) s := by
  have hloose : s.vecLoosen c = s := by simp [State.vecLoosen, h]
  have hctl : (evalOp s c op).run.preg (.vector c) 0x100 = s.preg (.vector c) 0x100 :=
    preg_of_regs ((hv.run s).work.same .regs (by decide)).1 _ _
  have hmis : (evalOp s c op).run.vecMismatch c cls ln.toNat = (evalOp s c op).run := by simp [State.vecMismatch, hctl, h]
  rw [exec_vecDiffers hv hl, exec_vecAgrees hv hl, hloose, hmis]

end

/-- A vector unit loosened is of its core alone. -/
theorem vecLoosen_work {may : List Part} (s : State) (n : CoreId) : CoreWork may n s (s.vecLoosen n) := by
  unfold State.vecLoosen
  dsimp only
  split
  exacts [coreWork_onCore n s fun _ => ⟨rfl, rfl, rfl⟩, .refl may n s]

/-- What an operation leaves whose duplicate differs, with the mismatch noted. -/
theorem vecNoted_of_run {s w : State} {c : CoreId} (hw : VecRun c (s.vecLoosen c) w) (cls ln : Nat) :
    CoreWork [.ctrs, .free] c s w ∧ w.flt = s.flt ∧ (w.vecNoted c cls ln).flt = s.flt ∧
    w.preg (.vector c) 0x100 = s.preg (.vector c) 0x100 ∧ (w.core c).job = (s.core c).job ∧
    (∀ p, p ∉ [Part.cores, .ctrs, .free, .regs] → p.same s (w.vecNoted c cls ln)) ∧
    (w.vecNoted c cls ln).ctr (.vector c) 0x50 = (s.ctr (.vector c) 0x50 + 1) % 2 ^ 48 ∧
    (w.vecNoted c cls ln).preg (.vector c) 0x104 = (ln * 256 + cls) % 2 ^ 32 := by
  have hwork : CoreWork [.ctrs, .free] c s w := (vecLoosen_work s c).trans hw.work
  have hflt : w.flt = s.flt := hwork.same .flt (by decide)
  refine ⟨hwork, hflt, hflt, preg_of_regs (hwork.same .regs (by decide)).1 _ _, hwork.core.2.1, fun p hp => ?_, ?_, ?_⟩
  · simp only [List.mem_cons, List.not_mem_nil, or_false, not_or] at hp
    refine Part.same_trans (hwork.same p (by simp [hp])) (Part.same_trans (setReg_same w _ _ ?_) (bump_same _ _ _ _ ?_))
    exacts [hp.2.2.2, hp.2.1]
  · have hctr : w.ctr (.vector c) 0x50 = s.ctr (.vector c) 0x50 :=
      hw.mismatches.trans (ctr_of_ctrs ((vecLoosen_work (may := []) s c).same .ctrs (by decide)) _ _)
    rw [← hctr]
    exact State.ctr_bump_same _ (.vector c) 0x50 1
  · exact State.reg_setReg_same w _ _

end Sys2Proof.Machine
end

section
/-! A mismatch of the vector unit let pass, or torn down for; the checkers settled (R100, R119). -/

namespace Sys2Proof.Machine

section
variable {s : State} {c : CoreId} {op : LaneOp} {cls : Nat} {i : Option (BitVec 8) → Instr} (hv : VecInstr c op cls i) (hl : LaneIssues s c op)
variable (ln : BitVec 8)
include hv hl

/-- The mismatch comes after the operation, on a unit that is loosened where it is let pass. -/
theorem exec_vecNotes : ∃ (e : Eval) (w : State), exec (i (some ln)) s = .next (finish s (e.issued c)) ∧
    e.run = w.vecMismatch c cls ln.toNat ∧ VecRun c (s.vecLoosen c) w :=
  ⟨_, _, exec_vecDiffers hv hl ln, rfl, hv.run (s.vecLoosen c)⟩

variable (hen : bitAt (s.preg (.vector c) 0x100) 0 = true)
include hen

/-- With DUP_EN 1 and ACTION 1 the mismatch is noted and reported, and what the unit writes is unpredictable from then on. -/
theorem exec_vecLetPass (hact : bitAt (s.preg (.vector c) 0x100) 1 = true) :
    ∃ t, exec (i (some ln)) s = .next t ∧ Reports s t 2 [.cores, .regs, .free] ∧
      (∀ m, m ≠ c.val → t.core m = s.core m) ∧ t.preg (.vector c) 0x104 = ln.toNat * 256 + cls ∧
      t.ctr (.vector c) 0x50 = (s.ctr (.vector c) 0x50 + 1) % 2 ^ 48 ∧ (t.core c).vec.loose = true := by
  obtain ⟨e, w, hexec, hrun, hw⟩ := exec_vecNotes hv hl ln
  have hcls := hv.cls_lt
  obtain ⟨hwork, hflt, hnflt, hctl, -, hparts, hcount, hinfo⟩ := vecNoted_of_run hw cls ln.toNat
  obtain ⟨flags, detail, heq⟩ := vecMismatch_eq (hctl.symm ▸ hen) cls ln.toNat
  rw [hctl, if_pos hact] at heq
  rw [heq] at hrun
  have hrep := coreReport_fault c (w.vecNoted c cls ln.toNat) (cls := 2) (by decide) 0 (w.core c).job flags detail 1
  rw [← hrun] at hrep
  have hpend : (e.issued c).pending = (w.vecNoted c cls ln.toNat).pending := by
    have h : (e.issued c).pending = e.run.pending := rfl
    rw [h, hrun, fault_pending]
  refine ⟨_, hexec, reports_of_fault (by decide) (by decide) hnflt hwork.pending (fun p hp => hparts p ?_)
      (by rw [issued_flt, hrun]) hpend (fun p hp => ?_),
    fun m hm => ?_, ?_, ?_, ?_⟩
  · simp only [List.mem_cons, List.not_mem_nil, or_false, not_or] at hp ⊢
    exact ⟨hp.2.2.1, hp.2.1, hp.2.2.2.2, hp.2.2.2.1⟩
  · rw [← hrun]
    exact issued_same e c p fun h => hp (by simp [h])
  · rw [finish_get_core, issued_ne e hm, hrep.other m hm]
    exact hwork.other m hm
  · have hbound : ln.toNat < 256 := ln.isLt
    rw [finish_get_preg, preg_of_regs (s := e.run) (t := e.issued c) rfl, hrep.vector_preg 0x104 (by decide), hinfo]
    omega
  · rw [finish_get_ctr, issued_ctr, ← hcount]
    exact hrep.ctrs _ (.inr (by simp only [Page.base]; omega))
  · obtain ⟨cur, hcur⟩ := issued_core e c
    obtain ⟨latch, hlatch⟩ := hrep.core
    obtain ⟨cur', hcur'⟩ := hw.core
    have hnoted : (w.vecNoted c cls ln.toNat).core c = w.core c := rfl
    have hloose : ((s.vecLoosen c).core c).vec.loose = true := by simp [State.vecLoosen, hen, hact]
    rw [finish_get_core, hcur, hlatch, hnoted, hcur']
    exact hloose

/-- With ACTION 0 it is reported, and tears the job down. -/
theorem exec_vecTears (hact : bitAt (s.preg (.vector c) 0x100) 1 = false) {j : Nat} (hj : (s.core c).job = some j) :
    ∃ t, exec (i (some ln)) s = .next t ∧ Records s t 2 ∧ Tears s t j := by
  obtain ⟨e, w, hexec, hrun, hw⟩ := exec_vecNotes hv hl ln
  obtain ⟨hwork, hflt, -, hctl, hjob, -⟩ := vecNoted_of_run hw cls ln.toNat
  obtain ⟨flags, detail, heq⟩ := vecMismatch_eq (hctl.symm ▸ hen) cls ln.toNat
  rw [hctl, if_neg (by simp [hact]), hjob, hj] at heq
  have htorn := tornDown_issued (u := w.vecNoted c cls ln.toNat) (by decide) hwork (by decide) (.of_flt hflt)
    (by rw [hflt]; exact Nat.le_succ _) ⟨rfl, rfl, rfl, rfl⟩ (hrun.trans heq)
  exact ⟨_, hexec, htorn⟩

end

/-- Settles O18: the checker's results case by case, what a mismatch of the array records, and what one of the vector unit does. -/
theorem checkersReportMismatches : Obligations.CheckersReportMismatches := by
  unfold Obligations.CheckersReportMismatches
  refine ⟨⟨fun s c e u hl h hat => ?_, fun s c e u hl h hat => ?_,
    fun s c e kind off col eref a b _ => arrayMismatch_reports s c e kind off col eref a b⟩, fun s c ln op cls i hl hop => ?_⟩
  · exact vectorChecked (u := u) hl hat h
  · intro ys ctl s1 y sum eref differs skip
    have hdiff : ∀ k, differs k ↔ e.differs u (fld ctl 15 8) k = true := fun k => (differs_iff e u (fld ctl 15 8) k).symm
    obtain ⟨hparity, hcompare⟩ := probeChecked (u := u) hl hat h
    refine ⟨hparity, fun hu => ?_⟩
    obtain ⟨hpass, hfirst⟩ := hcompare hu
    simp only [hdiff]
    exact ⟨hpass, hfirst⟩
  · have hv := vecInstr_of hop
    exact ⟨fun h => exec_vecIgnored hv hl h ln, fun hen hact => exec_vecLetPass hv hl ln hen hact,
      fun hen hact j hj => exec_vecTears hv hl ln hen hact hj⟩

end Sys2Proof.Machine
end

section
/-! The streams of a queue at work: what they leave alone, slot by slot and byte by byte (R211, R212). -/

namespace Sys2Proof.Machine

/-! ### Work of the streams of a queue -/

/-- The parts that the streams of a queue touch. -/
def strmParts : List Part := [.cores, .mem, .ctrs, .free, .out, .hif, .flt, .regs]

/-- What two states of a stream have in common: the ring, the descriptor, the scale bytes of a row. -/
def Strm.Like (x d : Strm) : Prop := x.head = d.head ∧ x.raw = d.raw ∧ x.scales = d.scales

/-- Whether each stream of a queue fills whole slots, with no scales. -/
def State.wholeSlots (s : State) (n q : Nat) : Prop :=
  ∀ x ∈ (s.sq n q).run, dScale x.raw = false ∧ dTotal x.raw % s.slotBytes n x.head = 0

/-- Work of the streams of core n's queue q: the parts named, no other core; of the slot table not what places the buffers, of the streams at
work none but those that were; of memory only their ring buffers. -/
structure StrmWork (n : CoreId) (q : Nat) (s t : State) : Prop where
  same : ∀ p, p ∉ strmParts → p.same s t
  pending : t.pending = s.pending
  other : ∀ m, m ≠ n.val → t.core m = s.core m
  slots : ∀ e hi lo, hi < 38 → lo ≤ hi → fld (t.slot n e) hi lo = fld (s.slot n e) hi lo
  run : ∀ x ∈ (t.sq n q).run, ∃ d ∈ (s.sq n q).run, x.Like d
  mem : ∀ a, ¬ s.strmByte n q a → memGet t.mem a = memGet s.mem a

/-- The same where slots are passed on and streams complete: no bytes are counted, and of memory only what whole slots do not need filled. -/
structure SlotWork (n : CoreId) (q : Nat) (s t : State) : Prop extends StrmWork n q s t where
  bytes : t.ctr (.core n) 0x408 = s.ctr (.core n) 0x408
  whole : s.wholeSlots n q → t.mem = s.mem

section
variable {n : CoreId} {q : Nat} {s t u : State}

theorem StrmWork.sLen (h : StrmWork n q s t) (e : Nat) : sLen (t.slot n e) = sLen (s.slot n e) :=
  congrArg (· + 1) (h.slots e 37 32 (by decide) (by decide))
theorem StrmWork.sRows (h : StrmWork n q s t) (e : Nat) : sRows (t.slot n e) = sRows (s.slot n e) :=
  congrArg (· + 1) (h.slots e 19 13 (by decide) (by decide))
theorem StrmWork.sBuf (h : StrmWork n q s t) (e : Nat) : sBuf (t.slot n e) = sBuf (s.slot n e) := h.slots e 12 0 (by decide) (by decide)

/-- Addresses of ring buffers stand. -/
theorem StrmWork.strmByte (h : StrmWork n q s t) {a : Nat} (hb : t.strmByte n q a) : s.strmByte n q a := by
  obtain ⟨x, hx, hin⟩ := hb
  obtain ⟨d, hd, hhead, hraw, hscales⟩ := h.run x hx
  refine ⟨d, hd, ?_⟩
  simpa only [h.sLen, h.sRows, h.sBuf, hhead, hraw, hscales] using hin

theorem StrmWork.slotBytes (h : StrmWork n q s t) (e : Nat) : t.slotBytes n e = s.slotBytes n e := by
  simp only [State.slotBytes, h.sRows]

theorem StrmWork.seqAddr (h : StrmWork n q s t) (x : Strm) (off : Nat) : t.seqAddr n x off = s.seqAddr n x off := by
  simp only [State.seqAddr, h.slotBytes, State.ringSlot, h.sLen, h.sBuf]

/-- Streams that fill whole slots go on doing so. -/
theorem StrmWork.wholeSlots (h : StrmWork n q s t) (hw : s.wholeSlots n q) : t.wholeSlots n q := by
  intro x hx
  obtain ⟨d, hd, hhead, hraw, -⟩ := h.run x hx
  rw [hhead, hraw, h.slotBytes]
  exact hw d hd

theorem StrmWork.trans (h : StrmWork n q s t) (g : StrmWork n q t u) : StrmWork n q s u where
  same p hp := Part.same_trans (h.same p hp) (g.same p hp)
  pending := g.pending.trans h.pending
  other m hm := (g.other m hm).trans (h.other m hm)
  slots e hi lo h1 h2 := (g.slots e hi lo h1 h2).trans (h.slots e hi lo h1 h2)
  run x hx := by
    obtain ⟨y, hy, hxy⟩ := g.run x hx
    obtain ⟨d, hd, hyd⟩ := h.run y hy
    exact ⟨d, hd, hxy.1.trans hyd.1, hxy.2.1.trans hyd.2.1, hxy.2.2.trans hyd.2.2⟩
  mem a ha := (g.mem a fun hb => ha (h.strmByte hb)).trans (h.mem a ha)

theorem SlotWork.refl (n : CoreId) (q : Nat) (s : State) : SlotWork n q s s :=
  ⟨⟨fun p _ => Part.same_refl s p, rfl, fun _ _ => rfl, fun _ _ _ _ _ => rfl, fun x hx => ⟨x, hx, rfl, rfl, rfl⟩, fun _ _ => rfl⟩, rfl, fun _ => rfl⟩

theorem SlotWork.trans (h : SlotWork n q s t) (g : SlotWork n q t u) : SlotWork n q s u where
  toStrmWork := h.toStrmWork.trans g.toStrmWork
  bytes := g.bytes.trans h.bytes
  whole hw := (g.whole (h.wholeSlots hw)).trans (h.whole hw)

/-- An update of other parts, that counts no bytes. -/
theorem SlotWork.of_same (h : ∀ p, p ∉ [Part.ctrs, .free, .out, .hif, .flt, .regs] → p.same s t) (hp : t.pending = s.pending)
    (hctr : t.ctr (.core n) 0x408 = s.ctr (.core n) 0x408) : SlotWork n q s t := by
  have hmem : t.mem = s.mem := (h .mem (by decide)).1
  have hcores : t.cores = s.cores := h .cores (by decide)
  have hcore : ∀ m, t.core m = s.core m := fun m => by rw [State.core, State.core, hcores]
  refine ⟨⟨fun p hp => h p fun e => hp ?_, hp, fun m _ => hcore m, fun e _ _ _ _ => by rw [slot_of_core (hcore n)], fun x hx => ?_,
    fun _ _ => by rw [hmem]⟩, hctr, fun _ => hmem⟩
  · revert e; cases p <;> decide
  · rw [State.sq, hcore] at hx
    exact ⟨x, hx, rfl, rfl, rfl⟩

/-- An update of the core: of its slot table not what places buffers, of the queue's streams at work those that were. -/
theorem slotWork_onCore (n : CoreId) (s : State) {f : Core → Core}
    (hslots : ∀ e hi lo, hi < 38 → lo ≤ hi → fld (tget 0 (f (s.core n)).slots e) hi lo = fld (s.slot n e) hi lo)
    (hrun : ∀ x ∈ (tget {} (f (s.core n)).sq q : SQ).run, ∃ d ∈ (s.sq n q).run, x.Like d) : SlotWork n q s (s.onCore n f) := by
  rw [State.onCore_eq]
  refine ⟨⟨fun p hp => setCore_same s n _ fun e => hp (by simp [e, strmParts]), rfl, fun m hm => State.core_setCore_ne s _ hm, ?_, ?_, fun _ _ => rfl⟩,
    rfl, fun _ => rfl⟩
  · simpa only [State.slot, State.core_setCore_same] using hslots
  · simpa only [State.sq, State.core_setCore_same] using hrun

/-! ### Slots and streams -/

/-- An entry of the slot table written, that goes on placing the same buffer. -/
theorem slotWork_setSlot (s : State) {e v : Nat} (h : ∀ hi lo, hi < 38 → lo ≤ hi → fld v hi lo = fld (s.slot n e) hi lo) :
    SlotWork n q s (s.setSlot n e v) := by
  refine slotWork_onCore n s (fun x hi lo h1 h2 => ?_) fun x hx => ⟨x, hx, rfl, rfl, rfl⟩
  by_cases hx : x = e
  · simpa [hx] using h hi lo h1 h2
  · simp [State.slot, tget_tset_ne _ _ _ hx]

theorem slotWork_setFull (s : State) (h pos : Nat) (b : Bool) : SlotWork n q s (s.setFull n h pos b) :=
  slotWork_setSlot s fun _ _ h1 h2 => fld_putFld_below _ _ (by omega) h2

theorem slotWork_advProd (s : State) (h k : Nat) : SlotWork n q s (s.advProd n h k) :=
  slotWork_setSlot s fun _ _ h1 h2 => fld_putFld_below _ _ (by omega) h2

theorem slotWork_advCons (s : State) (h k : Nat) : SlotWork n q s (s.advCons n h k) :=
  slotWork_setSlot s fun _ _ h1 h2 => fld_putFld_below _ _ (by omega) h2

/-- A queue updated, of whose streams at work none is new. -/
theorem slotWork_onSq (s : State) {f : SQ → SQ} (h : ∀ x ∈ (f (s.sq n q)).run, ∃ d ∈ (s.sq n q).run, x.Like d) : SlotWork n q s (s.onSq n q f) := by
  refine slotWork_onCore n s (fun _ _ _ _ _ => rfl) fun x hx => ?_
  rw [tget_tset_same] at hx
  exact h x hx

theorem slotWork_onStrm (s : State) (serial : Nat) {f : Strm → Strm} (h : ∀ d, (f d).Like d) : SlotWork n q s (s.onStrm n q serial f) := by
  refine slotWork_onSq s fun x hx => ?_
  obtain ⟨d, hd, rfl⟩ := List.mem_map.mp hx
  refine ⟨d, hd, ?_⟩
  split
  exacts [h d, ⟨rfl, rfl, rfl⟩]

/-! ### Bytes -/

/-- Bytes of ring buffers written. -/
theorem strmWork_put (s : State) {a : Nat} {bs : List Byte} (h : ∀ i < bs.length, s.strmByte n q (a + i)) : StrmWork n q s (s.put a bs) := by
  refine ⟨fun p hp => put_same s a bs fun e => hp (by simp [e, strmParts]), rfl, fun _ _ => rfl, fun _ _ _ _ _ => rfl,
    fun x hx => ⟨x, hx, rfl, rfl, rfl⟩, fun x hx => memGet_memWrite_outside bs ?_⟩
  by_contra hin
  exact hx (by simpa [show a + (x - a) = x by omega] using h (x - a) (by omega))

theorem strmWork_putRow (s : State) {a : Nat} {bs : List Byte} (h : ∀ i < bs.length, s.strmByte n q (a + i)) : StrmWork n q s (s.putRow a bs) :=
  { strmWork_put s h with
    same := fun p hp => putRow_same s a bs fun e => hp (by simp [e, strmParts])
    pending := rfl }

/-- Bytes counted. -/
theorem strmWork_bump (s : State) (o k : Nat) : StrmWork n q s (s.bump (.core n) o k) :=
  ⟨fun p hp => bump_same s _ _ _ fun e => hp (by simp [e, strmParts]), rfl, fun _ _ => rfl, fun _ _ _ _ _ => rfl,
    fun x hx => ⟨x, hx, rfl, rfl, rfl⟩, fun _ _ => rfl⟩

end

end Sys2Proof.Machine
end

section
/-! Records of a stream, and the addresses of its rings (R204, R211, R212). -/

namespace Sys2Proof.Machine

/-! ### Records of a stream -/

/-- A fault record counts on the fault page alone. -/
theorem fault_ctrs (s : State) {cls : Nat} (hc : cls < 256) (status : Nat) (job : Option Nat) (unit flags : Nat) (detail : List Byte) (sub : Nat)
    {k : Nat} (hk : 0x5000 ≤ k) : tget 0 (s.fault cls status job unit flags detail sub).ctrs k = tget 0 s.ctrs k := by
  have hbump : ∀ (u : State) x, x < 0x1000 → tget 0 (u.bump .fault x).ctrs k = tget 0 u.ctrs k := fun u x hx =>
    State.ctrs_bump_ne u .fault x 1 k (by simp only [Page.base]; omega)
  have hlatch : ∀ (u : State) seq, (u.releaseLatch unit seq).ctrs = u.ctrs := fun u seq => by
    unfold State.releaseLatch
    dsimp only
    split_ifs <;> rfl
  have hkeep : ∀ seq bs, tget 0 (s.keepFault cls unit sub seq bs).ctrs k = tget 0 s.ctrs k := fun seq bs => by
    unfold State.keepFault
    dsimp only
    split_ifs
    · exact (hbump _ 0x40 (by decide)).trans (hbump s _ (by omega))
    · rw [hlatch]
      exact (hbump _ 0x48 (by decide)).trans (hbump s _ (by omega))
  unfold State.fault
  dsimp only
  split
  · exact (hbump _ 0x50 (by decide)).trans (hkeep _ _)
  · exact hkeep _ _

/-- A completion record counts on the host interface's page and the fault page alone. -/
theorem post_ctrs (s : State) (h status source : Nat) (job : Option Nat) (sq head : Nat) (detail : List Byte) {k : Nat} (hk : 0x6000 ≤ k) :
    tget 0 (s.post h status source job sq head detail).ctrs k = tget 0 s.ctrs k := by
  have hbump : ∀ (u : State) m, tget 0 (u.bump .hif 0x68 m).ctrs k = tget 0 u.ctrs k := fun u m =>
    State.ctrs_bump_ne u .hif 0x68 m k (by simp only [Page.base]; omega)
  have hwrite : ∀ bs, (s.writeRecord h bs).ctrs = s.ctrs := fun bs => writeRecord_same s h bs (p := .ctrs) (by decide)
  unfold State.post
  dsimp only
  split_ifs
  · exact hbump s 1
  · rw [hwrite]
  · rfl
  · exact (fault_ctrs _ (by decide) _ _ _ _ _ _ (by omega)).trans ((hbump _ _).trans (hbump s 1))

/-- It forms one fault record at most. -/
theorem post_unack_le (s : State) (h status source : Nat) (job : Option Nat) (sq head : Nat) (detail : List Byte) :
    (s.post h status source job sq head detail).flt.unack ≤ s.flt.unack + 1 := by
  have hwrite : ∀ bs, (s.writeRecord h bs).flt = s.flt := fun bs => writeRecord_same s h bs (p := .flt) (by decide)
  unfold State.post
  dsimp only
  split_ifs
  · exact Nat.le_succ _
  · rw [hwrite]; exact Nat.le_succ _
  · exact Nat.le_succ _
  · exact fault_unack_le ((s.bump .hif 0x68).hqError h 2) 13 0 none _ 0 _ 0

section
variable (n : CoreId) (q : Nat) (s : State)

theorem slotWork_strmRecord (status seq pos addr : Nat) : SlotWork n q s (s.strmRecord n q status seq pos addr) := by
  unfold State.strmRecord
  split
  · next j _ =>
    obtain ⟨hcores, hquarries⟩ := post_blocks s (s.job j).cqStream status 0x01 (some j) 0xFFFF 0 (strmDetail n q seq pos addr)
    refine .of_same (fun p hp => ?_) (post_pending ..) ?_
    · by_cases hb : p = .cores ∨ p = .quarries
      · rcases hb with rfl | rfl
        exacts [hcores, hquarries]
      · refine post_same s _ _ _ _ _ _ _ fun h => ?_
        revert hp hb h
        cases p <;> decide
    · exact post_ctrs s _ _ _ _ _ _ _ (by simp only [Page.base]; omega)
  · exact .refl n q s

/-! ### Slots filled, and streams that complete (R204, R211, R212) -/

variable {n q s}

/-- A ring position of a ring is one of its entries. -/
theorem strmByte_ring {x : Strm} (hx : x ∈ (s.sq n q).run) (pos : Nat) {k : Nat} (hk : k < s.slotBytes n x.head) :
    s.strmByte n q (rowAddr n (sBuf (s.ringSlot n x.head pos)) + k) :=
  ⟨x, hx, .inl ⟨pos % sLen (s.slot n x.head), Nat.mod_lt _ (by simp [sLen]), Nat.le_add_right _ _, Nat.add_lt_add_left hk _⟩⟩

/-- A byte of a stream's sequence lies in a buffer of its ring, and so do those that follow in the slot. -/
theorem strmByte_seqAddr {x : Strm} (hx : x ∈ (s.sq n q).run) {off i : Nat} (h : off % s.slotBytes n x.head + i < s.slotBytes n x.head) :
    s.strmByte n q (s.seqAddr n x off + i) := by
  rw [State.seqAddr, Nat.add_assoc]
  exact strmByte_ring hx _ h

theorem strmByte_comp {x : Strm} (hx : x ∈ (s.sq n q).run) (hs : dScale x.raw = true) (pos : Nat) {k : Nat}
    (hk : k < 512 * sRows (s.ringSlot n (dComp x.raw) pos)) : s.strmByte n q (rowAddr n (sBuf (s.ringSlot n (dComp x.raw) pos)) + k) :=
  ⟨x, hx, .inr ⟨hs, pos % sLen (s.slot n (dComp x.raw)), Nat.mod_lt _ (by simp [sLen]), Nat.le_add_right _ _,
    Nat.add_lt_add_left (hk.trans_le (le_max_left _ _)) _⟩⟩

/-- The last slot of a sequence, which its bytes leave part of. -/
theorem lastSlot {total b slots : Nat} (h1 : slots < ceilDiv total b) (h2 : total < (slots + 1) * b) :
    total % b + ((slots + 1) * b - total) = b ∧ total % b ≠ 0 := by
  have hb : 0 < b := Nat.pos_of_ne_zero fun h => by simp [h] at h2
  have hlow : (slots + 1) * b ≤ total + b - 1 := (Nat.le_div_iff_mul_le hb).mp h1
  rw [Nat.add_mul, Nat.one_mul] at hlow h2 ⊢
  have hmod : total % b = total - slots * b := by
    rw [show total = slots * b + (total - slots * b) by omega, Nat.mul_comm, Nat.mul_add_mod, Nat.mod_eq_of_lt (by rw [Nat.mul_comm]; omega)]
    omega
  omega

end

end Sys2Proof.Machine
end

section
/-! Slots filled and streams completed, as work of the queue's streams; the row that a whole row of a sequence lies in (R183, R204, R211). -/

namespace Sys2Proof.Machine

section
variable {n : CoreId} {q : Nat}

/-- The rest of a ring's slot that a sequence ends in, filled with zeros. -/
theorem slotWork_ringRest {s : State} {x : Strm} (hx : x ∈ (s.sq n q).run) (hlt : x.slots < s.slotTotal n x) :
    SlotWork n q s (if dTotal x.raw < (x.slots + 1) * s.slotBytes n x.head
      then s.put (s.seqAddr n x (min ((x.slots + 1) * s.slotBytes n x.head) (dTotal x.raw)))
        (zeros ((x.slots + 1) * s.slotBytes n x.head - min ((x.slots + 1) * s.slotBytes n x.head) (dTotal x.raw)))
      else s) := by
  split
  · next hend =>
    obtain ⟨hrest, hpart⟩ := lastSlot hlt hend
    rw [Nat.min_eq_right hend.le]
    have hbytes : ∀ i < (zeros ((x.slots + 1) * s.slotBytes n x.head - dTotal x.raw)).length, s.strmByte n q (s.seqAddr n x (dTotal x.raw) + i) :=
      fun i hi => strmByte_seqAddr hx (by rw [zeros, List.length_replicate] at hi; omega)
    exact ⟨strmWork_put s hbytes, rfl, fun hw => absurd (hw x hx).2 hpart⟩
  · exact .refl n q s

/-- The rest of a companion slot. -/
theorem slotWork_compRest {s : State} {x : Strm} (hx : x ∈ (s.sq n q).run) (pos : Nat) {done : Nat}
    (hlt : x.cslots * sRows (s.slot n x.head) < scaleRows x.raw) {p : Prop} [Decidable p] :
    let w := s.ringSlot n (dComp x.raw) pos
    SlotWork n q s (if p then s.put (rowAddr n (sBuf w) + done) (zeros (512 * sRows w - done)) else s) := by
  intro w
  have hscale : dScale x.raw = true := by
    by_contra h
    simp [scaleRows, h] at hlt
  split
  · have hbytes : ∀ i < (zeros (512 * sRows w - done)).length, s.strmByte n q (rowAddr n (sBuf w) + done + i) := fun i hi => by
      have hwithin : done + i < 512 * sRows w := by rw [zeros, List.length_replicate] at hi; omega
      rw [Nat.add_assoc]
      exact strmByte_comp hx hscale pos hwithin
    exact ⟨strmWork_put s hbytes, rfl, fun hw => absurd (hw x hx).1 (by simp [hscale])⟩
  · exact .refl n q s

theorem slotWork_fillRing (k : Nat) (s : State) : SlotWork n q s (s.fillRing n q k) := by
  induction k generalizing s with
  | zero => exact .refl n q s
  | succ k ih =>
    unfold State.fillRing
    split
    · exact .refl n q s
    · next x rest hrun =>
      have hx : x ∈ (s.sq n q).run := by rw [hrun]; exact List.mem_cons_self
      extract_lets b total hi at_ sRest sSlot
      split_ifs with hfill
      · refine .trans ?_ (ih _)
        refine .trans ?_ (slotWork_onStrm sSlot x.serial fun _ => ⟨rfl, rfl, rfl⟩)
        have hrest : SlotWork n q s sRest := slotWork_ringRest hx hfill.1
        unfold sSlot
        split
        · exact (slotWork_setFull s x.head at_ false).trans (slotWork_advCons _ x.head 1)
        · exact hrest.trans ((slotWork_setFull sRest x.head at_ true).trans (slotWork_advProd _ x.head 1))
      · exact .refl n q s

theorem slotWork_fillComp (k : Nat) (s : State) : SlotWork n q s (s.fillComp n q k) := by
  induction k generalizing s with
  | zero => exact .refl n q s
  | succ k ih =>
    unfold State.fillComp
    split
    · exact .refl n q s
    · next x rest hrun =>
      have hx : x ∈ (s.sq n q).run := by rw [hrun]; exact List.mem_cons_self
      extract_lets rows total done hi h at_ w used sRest sSlot
      split_ifs with hfill
      · refine .trans ?_ (ih _)
        refine .trans ?_ (slotWork_onStrm sSlot x.serial fun _ => ⟨rfl, rfl, rfl⟩)
        have hrest : SlotWork n q s sRest := slotWork_compRest hx at_ hfill.1
        exact hrest.trans ((slotWork_setFull sRest h at_ true).trans (slotWork_advProd _ h 1))
      · exact .refl n q s

/-- A descriptor taken off counts on the core's page. -/
theorem slotWork_off (s : State) {f : SQ → SQ} (h : ∀ x ∈ (f (s.sq n q)).run, x ∈ (s.sq n q).run) :
    SlotWork n q s ((s.onSq n q f).bump (.core n) 0x400) :=
  (slotWork_onSq s fun x hx => ⟨x, h x hx, rfl, rfl, rfl⟩).trans
    (.of_same (fun _ hp => bump_same _ _ _ _ fun e => hp (by simp [e])) rfl (State.ctr_bump_ne _ 1 (by omega)))

/-- Streams that complete. -/
theorem slotWork_completeStrms (k : Nat) (s : State) : SlotWork n q s (s.completeStrms n q k) := by
  induction k generalizing s with
  | zero => exact .refl n q s
  | succ k ih =>
    unfold State.completeStrms
    extract_lets sFull
    have hfull : SlotWork n q s sFull := (slotWork_fillRing 64 s).trans (slotWork_fillComp 64 _)
    split
    · exact hfull
    · next x rest hrun =>
      extract_lets sOff sNoted
      split_ifs
      · have hoff : SlotWork n q sFull sOff := slotWork_off sFull fun y hy => by rw [hrun]; exact List.mem_cons_of_mem x hy
        have hnoted : SlotWork n q sOff sNoted := by
          unfold sNoted
          split
          exacts [slotWork_strmRecord n q sOff _ _ _ _, .refl n q sOff]
        exact hfull.trans (hoff.trans (hnoted.trans (ih sNoted)))
      · exact hfull

end

/-! ### One row of a sequence (R183, R211) -/

/-- Whole rows of a sequence lie in whole rows of its ring. -/
theorem seqPieces_row (s : State) (n : Nat) (x : Strm) (k : Nat) : s.seqPieces n x (512 * k) 512 = [(0, s.seqAddr n x (512 * k), 512)] := by
  have hrows : List.range (512 / 512 + 2) = [0, 1, 2] := rfl
  unfold State.seqPieces
  rw [hrows, List.filterMap_cons_some (b := (0, s.seqAddr n x (512 * k), 512)), List.filterMap_cons_none, List.filterMap_cons_none,
    List.filterMap_nil]
  · exact if_neg (by rw [if_neg (by decide)]; omega)
  · exact if_neg (by rw [if_neg (by decide)]; omega)
  · have hlen : min (512 * k / 512 * 512 + 512 * (0 + 1)) (512 * k + 512) - 512 * k = 512 := by omega
    dsimp only
    rw [if_pos rfl, if_pos (by omega), hlen, Nat.sub_self]

theorem seqPut_row (s : State) (n : Nat) (x : Strm) (k : Nat) {bs : List Byte} (h : bs.length = 512) :
    s.seqPut n x (512 * k) bs = s.putRow (s.seqAddr n x (512 * k)) bs := by
  rw [State.seqPut, h, seqPieces_row]
  simp [← h]

/-- A row of a sequence is within one slot. -/
theorem strmByte_row {s : State} {n : CoreId} {q : Nat} {x : Strm} (hx : x ∈ (s.sq n q).run) (k : Nat) {i : Nat} (hi : i < 512) :
    s.strmByte n q (s.seqAddr n x (512 * k) + i) := by
  refine strmByte_seqAddr hx ?_
  have hrows : 0 < sRows (s.slot n x.head) := Nat.succ_pos _
  rw [State.slotBytes, Nat.mul_mod_mul_left]
  have := Nat.mod_lt k hrows
  omega

end Sys2Proof.Machine
end

section
/-! WINDOW_ENTRY_GENERATE: nothing, a stream that fails, or a slot's row put (R192, R210, R215). -/

namespace Sys2Proof.Machine

/-! ### A stream that fails (R208, R210) -/

/-- A program fault late in a command is recorded, and tears its job down (R169). -/
theorem progFault_later {s u : State} (hu : WindsUp s u) (hone : u.flt.unack ≤ s.flt.unack + 1) (j unit status core pc check low addr : Nat) :
    let t := finish s (u.progFault (some j) unit status core pc check low addr)
    Records s t 14 ∧ Tears s t j := by
  unfold State.progFault
  generalize progDetail core pc check low addr = detail
  generalize (if (some j).isSome then 1 else 0) = flags
  have hf : WindsUp s (u.fault 14 status (some j) unit flags detail) := hu.trans (windsUp_fault u 14 status (some j) unit flags detail 0)
  have htears := tearJob_tears hf.jobs hf.sw (fun n => (hf.core n).1) j 14
  refine ⟨records_second (by decide) hu.recs hone (tearJob_keepsRecords _ _ _), htears.later ?_ ?_ fun n => ?_⟩
  · exact finish_jobs ..
  · exact finish_runSlot ..
  · rw [finish_get_core]
    exact ⟨rfl, rfl⟩

theorem windsUp_onSq (s : State) (n q : Nat) (f : SQ → SQ) : WindsUp s (s.onSq n q f) := by
  refine ⟨fun m => ?_, rfl, rfl, rfl, .of_flt rfl⟩
  rw [State.onSq, State.onCore_eq]
  by_cases h : m = n
  · rw [h, State.core_setCore_same]
    exact ⟨rfl, rfl⟩
  · rw [State.core_setCore_ne _ _ h]
    exact ⟨rfl, rfl⟩

/-- A descriptor that fails winds up nothing of its job, and makes one fault record at most. -/
theorem windsUp_failStrm (s : State) (n q : Nat) (x : Strm) (status addr : Nat) :
    WindsUp s (s.failStrm n q x status addr) ∧ (s.failStrm n q x status addr).flt.unack ≤ s.flt.unack + 1 := by
  unfold State.failStrm State.strmRecord
  split
  · exact ⟨.refl s, Nat.le_succ _⟩
  · generalize hu : (s.onSq n q _).bump (.core n) 0x400 = u
    have hoff : WindsUp s u := hu ▸ (windsUp_onSq s n q _).trans (windsUp_bump _ _ _ _)
    have hflt : u.flt = s.flt := by rw [← hu]; rfl
    rw [← hflt]
    split
    · exact ⟨hoff.trans (windsUp_post ..), post_unack_le ..⟩
    · exact ⟨hoff, Nat.le_succ _⟩

/-! ### Banks that are free (R192) -/

/-- An access whose banks are free has them. -/
theorem asyncTry_free {s : State} {n : CoreId} {who : Nat} {rows : List Nat} (h : s.banksFree n who rows) (q : Nat) :
    ∃ t, s.asyncTry n who rows = (t, true) ∧ SlotWork n q s t ∧ t.sq n q = s.sq n q ∧ t.mem = s.mem := by
  unfold State.asyncTry
  extract_lets c at_ banks
  split_ifs with hcounts
  · exact ⟨s, rfl, .refl n q s, rfl, rfl⟩
  · simp only [Bool.or_eq_true, Bool.not_eq_true', beq_iff_eq, not_or, Bool.not_eq_false] at hcounts
    have hfree : banks.find? (fun b => c.asyncMeets at_ b who != 0) = none := by
      rw [List.find?_eq_none]
      intro b hb
      obtain ⟨r, hr, rfl⟩ := List.mem_map.mp (List.mem_eraseDups.mp hb)
      simpa using h hcounts.1 hcounts.2 r hr
    have htakes : ∀ (bs : List Nat) (k : Core), (bs.foldl (fun c b => c.takes at_ b who) k).slots = k.slots ∧
        (bs.foldl (fun c b => c.takes at_ b who) k).sq = k.sq := by
      intro bs
      induction bs with
      | nil => exact fun k => ⟨rfl, rfl⟩
      | cons b bs ih => exact fun k => ih (k.takes at_ b who)
    rw [hfree]
    obtain ⟨hslots, hsq⟩ := htakes banks (s.core n)
    refine ⟨_, rfl, slotWork_onCore n s (fun _ _ _ _ _ => by rw [hslots]; rfl) (fun x hx => ?_), ?_, rfl⟩
    · rw [hsq] at hx
      exact ⟨x, hx, rfl, rfl, rfl⟩
    · rw [State.sq, State.onCore_eq, State.core_setCore_same, hsq]
      rfl

/-! ### WINDOW_ENTRY_GENERATE (R215) -/

/-- The WINDOW stream of a queue whose next slot is due. -/
def State.nextWindow (s : State) (n q : Nat) : Option Strm :=
  (s.sq n q).run.find? (fun d => dMode d.raw == 2 && decide (512 * d.win < dTotal d.raw))

/-- The row of a slot of a window list. -/
def State.windowRow (s : State) (d : Strm) : List Byte := fitTo 512 ((windowSlot s.free d.raw d.win).flatMap (fun e => natLe 4 (e.getD 0)))

theorem windowRow_length (s : State) (d : Strm) : (s.windowRow d).length = 512 := Laws.fitTo_length 512 _

/-- A slot of a window list filled, and counted. -/
def State.windowPut (s : State) (n q : Nat) (d : Strm) (row : List Byte) : State :=
  ((s.seqPut n d (512 * d.win) row).onStrm n q d.serial (fun y => { y with win := y.win + 1, got := y.got ++ [(512 * d.win, 512)] })).bump
    (.core n) 0x408 512

theorem nextWindow_mem {s : State} {n q : Nat} {d : Strm} (h : s.nextWindow n q = some d) : d ∈ (s.sq n q).run := List.mem_of_find?_eq_some h

section
variable {s : State} {c : CoreId} {q : Nat} (hcur : (s.core c).current = true)
include hcur

/-- With no list to generate nothing happens. -/
theorem genWindow_none (h : s.nextWindow c q = none) : s.genWindow c q = s := by
  unfold State.genWindow
  rw [catchUp_current hcur]
  unfold State.nextWindow at h
  dsimp only
  rw [h]

variable (hon : s.engineOn c = true) (hhalt : (s.sq c q).halt = 0) (hstop : (s.sq c q).stopping = false)
variable {d : Strm} (hd : s.nextWindow c q = some d) (hready : s.slotsReady c (s.sq c q) d (512 * d.win) 512 = true)
include hon hhalt hstop hd hready

/-- A row beyond the sill is a fault of the stream at its demand position (R210). -/
theorem genWindow_overruns (hes : ∃ e ∈ windowSlot s.free d.raw d.win, e = none) (hat : s.atDemand c (s.sq c q) d (512 * d.win) 512 = true) :
    s.genWindow c q = s.strmFault c q d 7 0 := by
  have hany : (windowSlot s.free d.raw d.win).any Option.isNone = true := by
    obtain ⟨e, he, rfl⟩ := hes
    exact List.any_eq_true.mpr ⟨none, he, rfl⟩
  unfold State.nextWindow at hd
  unfold State.genWindow
  rw [catchUp_current hcur]
  dsimp only
  rw [hd]
  simp [hon, hhalt, hstop, hready, hany, hat]

/-- Otherwise the slot's row is put where its bytes go, and streams complete. -/
theorem genWindow_fills (hes : ∀ e ∈ windowSlot s.free d.raw d.win, e.isSome = true) (hfree : s.banksFree c (q % 4) (s.seqRows c d (512 * d.win) 512)) :
    ∃ u, SlotWork c q s u ∧ u.sq c q = s.sq c q ∧ u.mem = s.mem ∧ s.genWindow c q = (u.windowPut c q d (s.windowRow d)).completeStrms c q 8 := by
  have hany : (windowSlot s.free d.raw d.win).any Option.isNone = false := by
    rw [List.any_eq_false]
    intro e he
    simpa [Option.isSome_iff_ne_none] using hes e he
  obtain ⟨v, htry, hwork, hsq, hmem⟩ := asyncTry_free hfree q
  have hgen : s.genWindow c q = ((if fld (byteFld d.raw 0x34 4) 15 0 = 0 then { v with free := v.free + 2 ^ 33 } else v : State).windowPut c q d
      (s.windowRow d)).completeStrms c q 8 := by
    unfold State.nextWindow at hd
    unfold State.genWindow
    rw [catchUp_current hcur]
    dsimp only
    rw [hd]
    simp only [hon, hhalt, hstop, hready, hany, htry, Bool.not_true, bne_self_eq_false, Bool.or_self, Bool.false_eq_true, if_false]
    rfl
  refine ⟨_, ?_, ?_, ?_, hgen⟩
  · split
    · exact hwork.trans (.of_same (fun p hp => free_same v _ fun e => hp (by simp [e])) rfl rfl)
    · exact hwork
  · split <;> exact hsq
  · split <;> exact hmem

end

end Sys2Proof.Machine
end

section
/-! Window lists settled (R215). -/

namespace Sys2Proof.Machine

section
variable {c : CoreId} {q : Nat} {s : State} {d : Strm} (hd : d ∈ (s.sq c q).run) {row : List Byte} (hrow : row.length = 512)
include hd hrow

/-- A slot of a window list filled touches its row, and is counted. -/
theorem windowPut_work : StrmWork c q s (s.windowPut c q d row) ∧ (s.windowPut c q d row).ctr (.core c) 0x408 = (s.ctr (.core c) 0x408 + 512) % 2 ^ 48 ∧
    (s.windowPut c q d row).mem = memWrite s.mem (s.seqAddr c d (512 * d.win)) row := by
  unfold State.windowPut
  rw [seqPut_row s c d d.win hrow]
  have hput : StrmWork c q s (s.putRow (s.seqAddr c d (512 * d.win)) row) :=
    strmWork_putRow s fun i hi => strmByte_row hd d.win (by omega)
  have hmem : (s.putRow (s.seqAddr c d (512 * d.win)) row).mem = memWrite s.mem (s.seqAddr c d (512 * d.win)) row := rfl
  have hctr : (s.putRow (s.seqAddr c d (512 * d.win)) row).ctr (.core c) 0x408 = s.ctr (.core c) 0x408 := rfl
  generalize s.putRow (s.seqAddr c d (512 * d.win)) row = u at *
  have hstrm : SlotWork c q u (u.onStrm c q d.serial fun y => { y with win := y.win + 1, got := y.got ++ [(512 * d.win, 512)] }) :=
    slotWork_onStrm u d.serial fun _ => ⟨rfl, rfl, rfl⟩
  have hbytes : (u.onStrm c q d.serial fun y => { y with win := y.win + 1, got := y.got ++ [(512 * d.win, 512)] }).mem = u.mem := rfl
  generalize u.onStrm c q d.serial _ = v at *
  refine ⟨hput.trans (hstrm.toStrmWork.trans (strmWork_bump v 0x408 512)), ?_, hbytes.trans hmem⟩
  rw [← hctr, ← hstrm.bytes]
  exact State.ctr_bump_same v (.core c) 0x408 512

end

/-- Settles O27: nothing without a list, a fault on a row beyond the sill, and otherwise the slot's row put. -/
theorem windowListsAreGenerated : Obligations.WindowListsAreGenerated := by
  unfold Obligations.WindowListsAreGenerated
  intro s c q hl hcur hon hhalt hstop next
  have hexec : exec (.windowEntryGenerate c q) s = execWindowEntryGenerate c q s := rfl
  rw [hexec, execWindowEntryGenerate, act_live hl]
  refine ⟨fun hnone => ⟨_, rfl, ?_⟩, fun d hd hready => ⟨fun hes hfree => ⟨_, rfl, ?_⟩, fun j hes hat hj => ⟨_, rfl, ?_⟩⟩⟩
  · rw [genWindow_none hcur hnone]
    exact unchanged_finish rfl fun p _ => Part.same_refl s p
  · obtain ⟨u, hwork, hsq, hmem, hgen⟩ := genWindow_fills hcur hon hhalt hstop hd hready hes hfree
    have hmem_u : d ∈ (u.sq c q.toNat).run := by rw [hsq]; exact nextWindow_mem hd
    obtain ⟨hput, hcount, hrow⟩ := windowPut_work hmem_u (windowRow_length s d)
    have hdone := slotWork_completeStrms (n := c) (q := q.toNat) 8 (u.windowPut c q.toNat d (s.windowRow d))
    have hall := (hwork.toStrmWork.trans hput).trans hdone.toStrmWork
    rw [hgen]
    refine ⟨⟨unchanged_finish hall.pending hall.same, fun m hm => by rw [finish_get_core, hall.other m hm]⟩,
      fun a ha => by rw [finish_mem, hall.mem a ha], fun hok hrun hscale hwhole => ?_, ?_⟩
    · have hslots : s.wholeSlots c q.toNat := by
        intro x hx
        rw [hrun, List.mem_singleton] at hx
        exact hx ▸ ⟨hscale, hwhole⟩
      have hfinal := hdone.whole ((hwork.toStrmWork.trans hput).wholeSlots hslots)
      rw [hrow, hmem, hwork.seqAddr] at hfinal
      have hread := bytes_of_memWrite hok hfinal
      rw [windowRow_length] at hread
      rw [State.bytes, finish_mem]
      exact hread
    · rw [finish_get_ctr, hdone.bytes, hcount, hwork.bytes]
  · rw [genWindow_overruns hcur hon hhalt hstop hd hready hes hat, State.strmFault, hj]
    obtain ⟨hwind, hone⟩ := windsUp_failStrm s c q.toNat d 0x7F 0
    exact progFault_later hwind hone j _ _ _ _ _ _ _

end Sys2Proof.Machine
end

section
/-! Finite values as rationals: comparison, sums, and rounding to a format's last place (R41, R43). -/

namespace Sys2Proof.Machine

/-! ### Comparison and sums of finite values -/

/-- The number that a finite value stands for. -/
def Num.rat : Num → ℚ
  | .fin neg m e => (if neg then -1 else 1) * m * 2 ^ e
  | _ => 0

theorem rat_fin (neg : Bool) (m : Nat) (e : Int) : (Num.fin neg m e).rat = (if neg then -1 else 1) * m * 2 ^ e := rfl

theorem rat_ofInt (v e : Int) : (Num.ofInt v e).rat = v * 2 ^ e := by
  have hv : (v : ℚ) = (if decide (v < 0) = true then -1 else 1) * (v.natAbs : ℚ) := by
    rw [Nat.cast_natAbs]
    split_ifs with h
    · rw [abs_of_neg (by simpa using h)]; push_cast; ring
    · rw [abs_of_nonneg (by simpa using h)]; ring
  rw [Num.ofInt, rat_fin, ← hv]

/-- A value scaled to an exponent not above its own. -/
theorem scaled_rat {neg : Bool} {m : Nat} {e q : Int} (h : q ≤ e) : (Num.scaled neg m e q : ℚ) * 2 ^ q = (Num.fin neg m e).rat := by
  have hpow : (2 : ℚ) ^ (e - q).toNat * 2 ^ q = 2 ^ e := by
    rw [← zpow_natCast, Int.toNat_of_nonneg (by omega), ← zpow_add₀ (by norm_num), Int.sub_add_cancel]
  rw [Num.scaled, rat_fin, ← hpow]
  push_cast
  ring

theorem lt_fin_iff {a b : Bool} {m n : Nat} {e f : Int} : (Num.fin a m e).lt (.fin b n f) = true ↔ (Num.fin a m e).rat < (Num.fin b n f).rat := by
  have hq : (0 : ℚ) < 2 ^ min e f := zpow_pos (by norm_num) _
  rw [← scaled_rat (min_le_left e f), ← scaled_rat (min_le_right e f), mul_lt_mul_iff_left₀ hq, Int.cast_lt]
  exact decide_eq_true_iff

theorem le_fin_iff {a b : Bool} {m n : Nat} {e f : Int} : (Num.fin a m e).le (.fin b n f) = true ↔ (Num.fin a m e).rat ≤ (Num.fin b n f).rat := by
  simp only [Num.le, Num.eqv, Num.isNan, Bool.not_false, Bool.true_and, Bool.or_eq_true, Bool.and_eq_true, Bool.not_eq_true', ← Bool.not_eq_true,
    lt_fin_iff]
  constructor
  · rintro (h | ⟨-, h⟩)
    exacts [h.le, not_lt.mp h]
  · intro h
    rcases h.lt_or_eq with h | h
    exacts [.inl h, .inr (by simp [h])]

/-- An exact sum. -/
theorem add_fin (a b : Bool) (m n : Nat) (e f : Int) : ∃ c k g, (Num.fin a m e).add (.fin b n f) = .fin c k g ∧
    (Num.fin c k g).rat = (Num.fin a m e).rat + (Num.fin b n f).rat := by
  have hsum : ((Num.scaled a m e (min e f) + Num.scaled b n f (min e f) : Int) : ℚ) * 2 ^ min e f =
      (Num.fin a m e).rat + (Num.fin b n f).rat := by
    rw [Int.cast_add, add_mul, scaled_rat (min_le_left e f), scaled_rat (min_le_right e f)]
  rw [← hsum, Num.add]
  split_ifs with h
  · exact ⟨_, _, _, rfl, by rw [h]; simp [rat_fin]⟩
  · exact ⟨_, _, _, rfl, rat_ofInt _ _⟩

/-- The distance of two finite values against a bound of units. -/
theorem dist_le_iff {a b : Bool} {m n k : Nat} {e f u : Int} :
    (((Num.fin a m e).add (Num.fin b n f).neg).abs.le (.fin false k u)) = true ↔ |(Num.fin a m e).rat - (Num.fin b n f).rat| ≤ k * 2 ^ u := by
  obtain ⟨c, l, g, hadd, hrat⟩ := add_fin a (!b) m n e f
  have hneg : (Num.fin (!b) n f).rat = -(Num.fin b n f).rat := by
    cases b <;> simp [rat_fin]
  have habs : (Num.fin false l g).rat = |(Num.fin c l g).rat| := by
    have hnonneg : (0 : ℚ) ≤ l * 2 ^ g := by positivity
    cases c <;> simp [rat_fin]
  rw [Num.neg, hadd, Num.abs, le_fin_iff, habs, hrat, hneg, ← sub_eq_add_neg]
  simp [rat_fin]

/-! ### Rounding -/

/-- Rounding takes one of the two neighbours. -/
theorem rneShift_cases (m r : Nat) : rneShift m r = m / 2 ^ r ∨ rneShift m r = m / 2 ^ r + 1 := by
  unfold rneShift
  dsimp only
  split_ifs
  exacts [.inr rfl, .inl rfl]

theorem rneShift_error (m r : Nat) : |(rneShift m r : ℚ) * 2 ^ r - m| ≤ 2 ^ r := by
  have hdiv : ((m / 2 ^ r : Nat) : ℚ) * 2 ^ r + (m % 2 ^ r : Nat) = m := by exact_mod_cast Nat.div_add_mod' m (2 ^ r)
  have hmod : ((m % 2 ^ r : Nat) : ℚ) ≤ 2 ^ r := by exact_mod_cast (Nat.mod_lt m (by positivity)).le
  have hzero : (0 : ℚ) ≤ (m % 2 ^ r : Nat) := by positivity
  rw [abs_le]
  rcases rneShift_cases m r with h | h <;> rw [h] <;> push_cast <;> constructor <;> nlinarith

/-- The exponent of the last place of a format in the binade of a nonzero number (R43). -/
def FpFmt.unit (f : FpFmt) (m : Nat) (e : Int) : Int := max (e + (Nat.log2 m + 1 : Nat) - f.p) f.emin

/-- The significand before a carry into the next binade. -/
def FpFmt.sig (f : FpFmt) (m : Nat) (e : Int) : Nat :=
  if e ≥ f.unit m e then m * 2 ^ (e - f.unit m e).toNat else rneShift m (f.unit m e - e).toNat

theorem roundSig_eq {m : Nat} (h : m ≠ 0) (f : FpFmt) (e : Int) :
    roundSig f m e = if f.sig m e = 2 ^ f.p then (2 ^ (f.p - 1), f.unit m e + 1) else (f.sig m e, f.unit m e) := if_neg h

section
variable {f : FpFmt} {m : Nat} {e : Int}

/-- A number with no bits below the last place keeps its value. -/
theorem sig_exact (h : f.unit m e ≤ e) : (f.sig m e : ℚ) * 2 ^ f.unit m e = m * 2 ^ e := by
  have hpow : (2 : ℚ) ^ (e - f.unit m e).toNat * 2 ^ f.unit m e = 2 ^ e := by
    rw [← zpow_natCast, Int.toNat_of_nonneg (by omega), ← zpow_add₀ (by norm_num), Int.sub_add_cancel]
  rw [FpFmt.sig, if_pos h, ← hpow]
  push_cast
  ring

/-- Any other is moved by less than a unit. -/
theorem sig_error : |(f.sig m e : ℚ) * 2 ^ f.unit m e - m * 2 ^ e| ≤ 2 ^ f.unit m e := by
  rcases le_or_gt (f.unit m e) e with h | h
  · rw [sig_exact h, sub_self, abs_zero]; positivity
  · have hpow : (2 : ℚ) ^ f.unit m e = 2 ^ (f.unit m e - e).toNat * 2 ^ e := by
      rw [← zpow_natCast, Int.toNat_of_nonneg (by omega), ← zpow_add₀ (by norm_num), Int.sub_add_cancel]
    rw [FpFmt.sig, if_neg (by omega), hpow, ← mul_assoc, ← sub_mul, abs_mul, abs_of_pos (zpow_pos (two_pos : (0 : ℚ) < 2) e)]
    exact mul_le_mul_of_nonneg_right (rneShift_error m _) (by positivity)

/-- It has the bits of the format, and of a normal number its first. -/
theorem sig_bounds (h : m ≠ 0) (hp : 1 ≤ f.p) : f.sig m e ≤ 2 ^ f.p ∧ (f.unit m e ≠ f.emin → 2 ^ (f.p - 1) ≤ f.sig m e) := by
  have hlow : 2 ^ Nat.log2 m ≤ m := Nat.log2_self_le h
  have hhigh : m < 2 ^ (Nat.log2 m + 1) := Nat.lt_log2_self
  have hunit : e + (Nat.log2 m + 1 : Nat) - f.p ≤ f.unit m e := le_max_left _ _
  have hnormal : f.unit m e ≠ f.emin → f.unit m e = e + (Nat.log2 m + 1 : Nat) - f.p := fun h => (max_choice _ _).resolve_right h
  unfold FpFmt.sig
  split_ifs with hexact
  · generalize hk : (e - f.unit m e).toNat = k
    constructor
    · calc m * 2 ^ k ≤ 2 ^ (Nat.log2 m + 1) * 2 ^ k := Nat.mul_le_mul_right _ hhigh.le
        _ = 2 ^ (Nat.log2 m + 1 + k) := (pow_add ..).symm
        _ ≤ 2 ^ f.p := Nat.pow_le_pow_right (by decide) (by omega)
    · intro hn
      have := hnormal hn
      calc 2 ^ (f.p - 1) = 2 ^ (Nat.log2 m + k) := by congr 1; omega
        _ = 2 ^ Nat.log2 m * 2 ^ k := pow_add ..
        _ ≤ m * 2 ^ k := Nat.mul_le_mul_right _ hlow
  · generalize hk : (f.unit m e - e).toNat = k
    have hround : m / 2 ^ k ≤ rneShift m k ∧ rneShift m k ≤ m / 2 ^ k + 1 := by
      rcases rneShift_cases m k with h | h <;> omega
    refine ⟨hround.2.trans (Nat.div_lt_of_lt_mul ?_), fun hn => le_trans ?_ hround.1⟩
    · calc m < 2 ^ (Nat.log2 m + 1) := hhigh
        _ ≤ 2 ^ (k + f.p) := Nat.pow_le_pow_right (by decide) (by omega)
        _ = 2 ^ k * 2 ^ f.p := pow_add ..
    · have := hnormal hn
      rw [Nat.le_div_iff_mul_le (by positivity), ← pow_add]
      exact (Nat.pow_le_pow_right (by decide) (by omega)).trans hlow

end

/-- A rounded number has the format's bits, of a subnormal fewer, and the value of its significand; a carry ends at the next binade's first. -/
theorem roundSig_cases (f : FpFmt) (hp : 1 ≤ f.p) {m : Nat} (h : m ≠ 0) (e : Int) :
    (f.sig m e < 2 ^ f.p ∧ roundSig f m e = (f.sig m e, f.unit m e)) ∨
    (f.sig m e = 2 ^ f.p ∧ roundSig f m e = (2 ^ (f.p - 1), f.unit m e + 1)) := by
  rw [roundSig_eq h]
  split_ifs with hc
  exacts [.inr ⟨hc, rfl⟩, .inl ⟨(sig_bounds h hp).1.lt_of_ne hc, rfl⟩]

end Sys2Proof.Machine
end

section
/-! FP32 rounding, word by word, and the functions that Table 4.4 bounds in units in the last place (R41, R43, R118, log 10). -/

namespace Sys2Proof.Machine

/-! ### FP32 words (R41, Table 2.1) -/

/-- A finite word of a sign, an exponent field and a fraction. -/
theorem decodeIeee_fp32 (neg : Bool) {be t : Nat} (hb : be < 255) (ht : t < 2 ^ 23) :
    decodeIeee fp32 ((if neg then 2 ^ 31 else 0) + be * 2 ^ 23 + t) =
      if be = 0 then .fin neg t (-149) else .fin neg (2 ^ 23 + t) (-149 + be - 1) := by
  have hsign : bitAt ((if neg then 2 ^ 31 else 0) + be * 2 ^ 23 + t) 31 = neg := by
    rw [bitAt, Nat.shiftRight_eq_div_pow]
    cases neg
    · simp; omega
    · simp; omega
  have hexp : fld ((if neg then 2 ^ 31 else 0) + be * 2 ^ 23 + t) 30 23 = be := by
    rw [fld_eq]
    split_ifs <;> omega
  have hfrac : ((if neg then 2 ^ 31 else 0) + be * 2 ^ 23 + t) % 2 ^ 23 = t := by
    split_ifs <;> omega
  unfold decodeIeee
  simp only [fp32, hsign, hexp, hfrac, Nat.reduceAdd, Nat.reduceSub]
  rw [if_neg (by omega)]

/-- The word that a rounded number packs into. -/
theorem packFin_fp32 (neg : Bool) {m s : Nat} {e q : Int} (hr : roundSig fp32 m e = (s, q)) :
    packFin fp32 neg m e 254 =
      if s < 2 ^ 23 then some ((if neg then 2 ^ 31 else 0) + s)
      else if (q + 150).toNat > 254 then none
      else some ((if neg then 2 ^ 31 else 0) + (q + 150).toNat * 2 ^ 23 + (s - 2 ^ 23)) := by
  have hexp : q - -149 + 1 = q + 150 := by ring
  unfold packFin
  rw [hr]
  simp only [fp32, hexp]

/-- Without an overflow it is the number. -/
theorem packFin_finite (neg : Bool) {m s : Nat} {e q : Int} (hr : roundSig fp32 m e = (s, q)) (hs : s < 2 ^ 24) (hq : -149 ≤ q)
    (hsub : s < 2 ^ 23 → q = -149) (ho : q < 105) :
    ∃ b, packFin fp32 neg m e 254 = some b ∧ b < 2 ^ 32 ∧ decodeIeee fp32 b = .fin neg s q := by
  rw [packFin_fp32 neg hr]
  by_cases h : s < 2 ^ 23
  · rw [if_pos h, hsub h]
    refine ⟨_, rfl, by split_ifs <;> omega, ?_⟩
    simpa using decodeIeee_fp32 neg (be := 0) (by decide) h
  · rw [if_neg h, if_neg (by omega)]
    refine ⟨_, rfl, by split_ifs <;> omega, ?_⟩
    rw [decodeIeee_fp32 neg (by omega) (by omega), if_neg (by omega), show 2 ^ 23 + (s - 2 ^ 23) = s by omega,
      show -149 + ((q + 150).toNat : Int) - 1 = q by omega]

/-- FP32 rounds a number below 2^128 to the value of its rounded significand; a carry to 2^128 is the infinity. -/
theorem sfuVal_fl {neg : Bool} {m : Nat} {e : Int} (h : (Num.fin neg m e).lg < 128) : ∃ k g, sfuVal (fl (.fin neg m e)) = .fin neg k g ∧
    (k : ℚ) * 2 ^ g = (roundSig fp32 m e).1 * 2 ^ (roundSig fp32 m e).2 := by
  generalize hr : roundSig fp32 m e = r
  obtain ⟨s, q⟩ := r
  have hfinite : s < 2 ^ 24 → -149 ≤ q → (s < 2 ^ 23 → q = -149) → q < 105 →
      ∃ k g, sfuVal (fl (.fin neg m e)) = .fin neg k g ∧ (k : ℚ) * 2 ^ g = s * 2 ^ q := by
    intro hs hq hsub ho
    obtain ⟨b, hb, hlt, hdec⟩ := packFin_finite neg hr hs hq hsub ho
    refine ⟨s, q, ?_, rfl⟩
    rw [fl, hb, sfuVal, val32, BitVec.toNat_ofNat, Nat.mod_eq_of_lt hlt, hdec]
  by_cases hm : m = 0
  · obtain ⟨rfl, rfl⟩ : 0 = s ∧ (-149 : Int) = q := by simpa [roundSig, hm, fp32] using hr
    exact hfinite (by decide) le_rfl (fun _ => rfl) (by decide)
  have hunit : fp32.unit m e = max (e + Nat.log2 m - 23) (-149) := by simp only [FpFmt.unit, fp32]; push_cast; congr 1; ring
  have hlg : e + Nat.log2 m < 128 := h
  obtain ⟨-, hnormal⟩ := sig_bounds (f := fp32) (e := e) hm (by decide)
  replace hnormal : fp32.unit m e ≠ -149 → 2 ^ 23 ≤ fp32.sig m e := hnormal
  rcases roundSig_cases fp32 (by decide) hm e with ⟨hs, hsq⟩ | ⟨-, hsq⟩
  · obtain ⟨rfl, rfl⟩ := Prod.mk.inj (hsq.symm.trans hr)
    exact hfinite hs (by omega) (fun hlow => by_contra fun hne => absurd (hnormal hne) (by omega)) (by omega)
  · obtain ⟨rfl, rfl⟩ := Prod.mk.inj (hsq.symm.trans hr)
    by_cases ho : fp32.unit m e + 1 < 105
    · exact hfinite (by decide) (by omega) (fun hlow => absurd hlow (by decide)) ho
    · have htop : fp32.unit m e + 1 = 105 := by omega
      have hnone : packFin fp32 neg m e 254 = none := by
        rw [packFin_fp32 neg hr, if_neg (by decide), if_pos (by omega)]
      refine ⟨1, 128, ?_, ?_⟩
      · rw [fl, hnone]
        cases neg <;> decide
      · rw [htop]; simp only [fp32]; norm_num

/-- FP32 rounding lies within a unit in the last place, and is exact where no bit lies below that place. -/
theorem withinUlp_fl {neg : Bool} {m k : Nat} {e : Int} (h : (Num.fin neg m e).lg < 128)
    (hk : 1 ≤ k ∨ max ((Num.fin neg m e).lg - 23) (-149) ≤ e) : withinUlp k (.fin neg m e) (fl (.fin neg m e)) = true := by
  obtain ⟨l, g, hval, hrat⟩ := sfuVal_fl h
  rw [withinUlp, hval, dist_le_iff, rat_fin, rat_fin, mul_assoc, mul_assoc, hrat, ← mul_sub, abs_mul]
  have hsign : |(if neg then -1 else 1 : ℚ)| = 1 := by cases neg <;> simp
  rw [hsign, one_mul]
  by_cases hm : m = 0
  · subst hm
    simp only [roundSig, if_pos]
    norm_num
    positivity
  have hunit : max ((Num.fin neg m e).lg - 23) (-149) = fp32.unit m e := by
    simp only [Num.lg, FpFmt.unit, fp32]; push_cast; congr 1; ring
  have hround : ((roundSig fp32 m e).1 : ℚ) * 2 ^ (roundSig fp32 m e).2 = fp32.sig m e * 2 ^ fp32.unit m e := by
    rcases roundSig_cases fp32 (by decide) hm e with ⟨-, hsq⟩ | ⟨hs, hsq⟩
    · rw [hsq]
    · rw [hsq, hs, zpow_add₀ (by norm_num)]; simp only [fp32]; push_cast; ring
  rw [hround, hunit]
  rw [hunit] at hk
  rcases hk with hk | hexact
  · refine sig_error.trans (le_mul_of_one_le_left (by positivity) (by exact_mod_cast hk))
  · rw [sig_exact hexact, sub_self, abs_zero]; positivity

/-! ### Functions that the manual bounds (R118, log 10) -/

/-- The value of a finite word has no bit below the last place. -/
theorem val32_exact {w : W32} {neg : Bool} {m : Nat} {e : Int} (h : val32 w = .fin neg m e) : max ((Num.fin neg m e).lg - 23) (-149) ≤ e := by
  have hlog : m < 2 ^ 24 → Nat.log2 m ≤ 23 := fun hm => by
    by_cases h0 : m = 0
    · simp [h0]
    · have := (Nat.log2_lt h0).mpr hm; omega
  have hm : m < 2 ^ 24 ∧ -149 ≤ e := by
    have hemin : fp32.emin = -149 := rfl
    have hbits : 2 ^ fp32.mbits = 2 ^ 23 := rfl
    unfold val32 decodeIeee at h
    dsimp only at h
    split at h
    · split at h <;> cases h
    · split at h
      · obtain ⟨-, rfl, rfl⟩ := Num.fin.inj h
        rw [hemin, hbits]
        omega
      · obtain ⟨-, rfl, rfl⟩ := Num.fin.inj h
        rw [hemin, hbits]
        omega
  have := hlog hm.1
  simp only [Num.lg]
  omega

/-- A function without a bound gives the value back. -/
theorem sfuExact_unbounded (fn : Nat) (x : Num) : (sfuExact fn x).2 = 0 → (sfuExact fn x).1 = x := by
  unfold sfuExact
  split
  case h_12 => exact fun _ => rfl
  all_goals exact fun h => absurd h (Nat.succ_ne_zero _)

/-- What is picked near a value lies within the bound where its rounding does. -/
theorem pickNear_within {k : Nat} {a : Num} (h : withinUlp k a (fl a) = true) (pick : Nat) : withinUlp k a (pickNear k pick a) = true := by
  unfold pickNear
  dsimp only
  split
  exacts [‹_›, h]

/-- A function that Table 4.4 bounds has a value within the bound. -/
theorem sfuBounded_within {fn : Nat} {w : W32} (hfin : ∃ neg m e, (sfuExact fn (val32 w)).1 = .fin neg m e)
    (hlg : (sfuExact fn (val32 w)).1.lg < 128) : withinUlp (sfuExact fn (val32 w)).2 (sfuExact fn (val32 w)).1 (sfuBounded fn w) = true := by
  obtain ⟨neg, m, e, ha⟩ := hfin
  refine pickNear_within ?_ _
  rw [ha] at hlg ⊢
  refine withinUlp_fl hlg ?_
  by_cases hk : (sfuExact fn (val32 w)).2 = 0
  · exact .inr (val32_exact ((sfuExact_unbounded _ _ hk).symm.trans ha))
  · exact .inl (Nat.one_le_iff_ne_zero.mpr hk)

end Sys2Proof.Machine
end

section
/-! A vector operation issued (R110 to R122): what it leaves alone, and that its write takes place at the close of the sub-bundle. -/

namespace Sys2Proof.Machine

/-! ### Registers and masks written (R110) -/

@[simp] theorem Vec.reg_setReg_same (x : Vec) (r : Nat) (ls : List W32) (ready : Nat) : (x.setReg r ls ready).reg r = ls := tget_tset_same ..
theorem Vec.reg_setReg_ne (x : Vec) {r k : Nat} (ls : List W32) (ready : Nat) (h : k ≠ r) : (x.setReg r ls ready).reg k = x.reg k :=
  tget_tset_ne _ _ _ h

theorem Vec.mask_setMask_same (x : Vec) {m : Nat} (v ready : Nat) (h : m ≠ 0) : (x.setMask m v ready).mask m = v := by
  rw [Vec.setMask, if_neg h, Vec.mask, if_neg h]
  exact tget_tset_same ..

theorem Vec.mask_setMask_ne (x : Vec) {m k : Nat} (v ready : Nat) (h : k ≠ m) : (x.setMask m v ready).mask k = x.mask k := by
  unfold Vec.setMask
  split
  · rfl
  · simp only [Vec.mask, tget_tset_ne _ _ _ h]

@[simp] theorem Vec.v_setMask (x : Vec) (m v ready : Nat) : (x.setMask m v ready).v = x.v := by
  unfold Vec.setMask
  split <;> rfl

/-! ### The command -/

/-- An operation counted, of the SFU where it takes it, and its write. -/
def State.vecRan (s : State) (n : Nat) (sfu : Bool) (f : Vec → Vec) : State :=
  if sfu then (((s.vecFree n).bump (.vector n) 0x40).bump (.vector n) 0x48).onVec n f else ((s.vecFree n).bump (.vector n) 0x40).onVec n f

/-- A vector operation of a core has written what its vector unit holds at the close of the sub-bundle: of the core nothing else is touched, of the
device the named counters, and free values by a unit that a mismatch has loosened. -/
def VecWrote (s t : State) (c : CoreId) (v : Vec) (offs : List Nat) : Prop :=
  OnlyCore s t c [.ctrs, .free] ∧ ((s.core c).vec.loose = false → t.free = s.free) ∧ CtrsBut s t (ctrsAt (.vector c) offs) ∧
    (t.core c).cur.vec = some v ∧ (t.core c).program = (s.core c).program ∧ (t.core c).pc = (s.core c).pc

theorem VecWrote.mono {s t : State} {c : CoreId} {v : Vec} {offs offs' : List Nat} (h : VecWrote s t c v offs) (ho : offs ⊆ offs') :
    VecWrote s t c v offs' := by
  obtain ⟨honly, hfree, hctrs, hrest⟩ := h
  exact ⟨honly, hfree, fun k hk => hctrs k fun hk' => hk (List.map_subset _ ho hk'), hrest⟩

section
variable (s : State) (n : Nat) (sfu : Bool) (f : Vec → Vec)

theorem vecRan_free (h : (s.core n).vec.loose = false) : (s.vecRan n sfu f).free = s.free := by
  have hown : s.vecFree n = s := if_neg (by simp [h])
  unfold State.vecRan
  rw [hown]
  split <;> rfl

theorem vecRan_ctrs {k : Nat} (h : k ∉ ctrsAt (.vector n) (if sfu then [0x40, 0x48] else [0x40])) :
    tget 0 (s.vecRan n sfu f).ctrs k = tget 0 s.ctrs k := by
  have hown : (s.vecFree n).ctrs = s.ctrs := by unfold State.vecFree; split <;> rfl
  have hbump : ∀ (u : State) o, k ≠ (Page.vector n).base + o → tget 0 (u.bump (.vector n) o).ctrs k = tget 0 u.ctrs k :=
    fun u o ho => State.ctrs_bump_ne u _ o 1 k ho
  unfold State.vecRan
  cases sfu
  · simp only [ctrsAt, Bool.false_eq_true, if_false, List.map_cons, List.map_nil, List.mem_singleton] at h ⊢
    rw [← hown]
    exact hbump _ _ h
  · simp only [ctrsAt, if_true, List.map_cons, List.map_nil, List.mem_cons, List.not_mem_nil, or_false, not_or] at h ⊢
    rw [← hown]
    exact (hbump _ _ h.2).trans (hbump _ _ h.1)

theorem vecRan_core : ∃ cur, (s.vecRan n sfu f).core n = { s.core n with cur := cur } ∧ cur.vec = some (f (s.core n).vecNext) := by
  have hown : (s.vecFree n).core n = s.core n := by unfold State.vecFree; split <;> rfl
  have hwrite : ∀ u : State, u.core n = s.core n → (u.onVec n f).core n =
      { s.core n with cur := { (s.core n).cur with vec := some (f (s.core n).vecNext) } } := fun u hu => by
    rw [State.onVec, State.onCore_eq, State.core_setCore_same, hu]
  unfold State.vecRan
  split
  exacts [⟨_, hwrite _ hown, rfl⟩, ⟨_, hwrite _ hown, rfl⟩]

end

/-- A vector operation that issues, and whose duplicate agrees. -/
theorem exec_vecWrote {s : State} {c : CoreId} {op : LaneOp} {cls : Nat} {i : Option (BitVec 8) → Instr} {sfu : Bool} {f : Vec → Vec}
    (hv : VecInstr c op cls i) (hl : LaneIssues s c op) (hrun : (evalOp s c op).run = s.vecRan c sfu f) :
    ∃ t, exec (i none) s = .next t ∧ VecWrote s t c (f (s.core c).vecNext) (if sfu then [0x40, 0x48] else [0x40]) := by
  have hexec := exec_vecAgrees hv hl
  have hwork := (hv.run s).work
  generalize evalOp s c op = e at hexec hrun hwork
  obtain ⟨cur, hcore, hvec⟩ := vecRan_core s c sfu f
  rw [← hrun] at hcore
  have htwork := hwork.trans (issued_work e c)
  refine ⟨_, hexec, htwork.onlyCore, fun hloose => ?_, fun k hk => ?_, ?_, ?_, by rw [finish_get_core]; exact htwork.core.1⟩
  · rw [finish_free]
    exact (congrArg State.free hrun).trans (vecRan_free s c sfu f hloose)
  · rw [finish_ctrs, issued_ctrs, hrun]
    exact vecRan_ctrs s c sfu f hk
  · rw [finish_get_core]
    have hkept : ((e.issued c).core c).cur.vec = (e.run.core c).cur.vec := by simp [Eval.issued, Eval.names]
    rw [hkept, hcore, hvec]
  · rw [finish_get_core, issued_program, hcore]
    rfl

/-! ### What each class writes -/

section
variable (s : State) (c : CoreId)

/-- The lanes of an ALU operation other than CMP (R116). -/
def Vec.aluLanes (x : Vec) (l : AluLane) : List W32 :=
  let src (i : Nat) (r : BitVec 5) : List W32 :=
    if l.imm && i == aluArity l.fn.toNat then List.replicate 256 (immWord l.imm16) else x.reg r.toNat
  if l.fn = 9 then ((src 1 l.va).zip (src 2 l.vb)).zipIdx.map (fun p => quiet (if bitAt (x.mask l.msel.toNat) p.2 then p.1.1 else p.1.2))
  else if l.fn = 10 then List.replicate 256 (quiet ((src 1 l.va).getD l.lane.toNat 0))
  else (((src 1 l.va).zip (src 2 l.vb)).zip (src 3 l.vc)).map (fun p => aluLane l.fn.toNat p.1.1 p.1.2 p.2)

/-- The functions of the ALU that are not one lane's alone, by their numbers. -/
theorem aluFn_eq : ∀ fn : BitVec 4, (fn = 8 ↔ fn.toNat = 8) ∧ (fn = 9 ↔ fn.toNat = 9) ∧ (fn = 10 ↔ fn.toNat = 10) := by decide

theorem evalAlu_value {l : AluLane} (h : l.fn ≠ 8) : (evalAlu s c l).run = s.vecRan c false (fun v =>
    v.setReg l.vd.toNat (masked ((s.core c).vec.mask l.mask.toNat) (v.reg l.vd.toNat) (s.vecLanes c ((s.core c).vec.aluLanes l)))
      ((s.core c).cclk + 4)) := by
  obtain ⟨hcmp, hsel, hbcast⟩ := aluFn_eq l.fn
  unfold evalAlu Vec.aluLanes
  simp only [hcmp.not.mp h, if_false, hsel, hbcast]
  rfl

/-- One bit of a comparison, free where the unit is loosened (R116, R119). -/
def State.cmpBit (s : State) (n : Nat) (l : AluLane) (i : Nat) : Bool :=
  let x := (s.core n).vec
  let vb : List W32 := if l.imm then List.replicate 256 (immWord l.imm16) else x.reg l.vb.toNat
  if bitAt (x.mask l.mask.toNat) i then
    if x.loose then bitAt (Config.freeValue (s.free + i)).toNat 0 else fcmp l.cond.toNat ((x.reg l.va.toNat).getD i 0) (vb.getD i 0)
  else bitAt (x.mask l.md.toNat) i

/-- The number of which bit i, of those below k, is given. -/
def bitsOf (b : Nat → Bool) (k : Nat) : Nat := (List.range k).foldl (fun acc i => if b i then acc + 2 ^ i else acc) 0

theorem evalAlu_compare {l : AluLane} (h : l.fn = 8) : (evalAlu s c l).run = s.vecRan c false (fun v =>
    v.setMask l.md.toNat (bitsOf (s.cmpBit c l) 256) ((s.core c).cclk + 4)) := by
  have hone : (1 == aluArity 8) = false := by decide
  have htwo : (2 == aluArity 8) = true := by decide
  unfold evalAlu
  simp only [(aluFn_eq l.fn).1.mp h, if_true, hone, htwo, Bool.and_false, Bool.and_true, Bool.false_eq_true, if_false]
  rfl

theorem evalSfu_run (l : FnLane) : (evalSfu s c l).run = s.vecRan c true (fun v =>
    (v.setReg l.vd.toNat (masked ((s.core c).vec.mask l.mask.toNat) (v.reg l.vd.toNat)
      (s.vecLanes c (((s.core c).vec.reg l.va.toNat).map (sfu l.fn.toNat)))) ((s.core c).cclk + 12)).takeSfu ((s.core c).cclk + 4)) := rfl

theorem evalDact_run (l : FnLane) : ∃ sfu ready, ∃ take : Vec → Vec, (∀ v, (take v).v = v.v ∧ (take v).m = v.m) ∧
    (evalDact s c l).run = s.vecRan c sfu (fun v =>
      take (v.setReg l.vd.toNat (masked ((s.core c).vec.mask l.mask.toNat) (v.reg l.vd.toNat)
        (s.vecLanes c ((((s.core c).vec.reg l.va.toNat).zip ((s.core c).vec.reg l.vb.toNat)).map (fun p => dact l.fn.toNat p.1 p.2)))) ready)) := by
  unfold evalDact
  dsimp only
  obtain ⟨lat, occ⟩ := dactTime l.fn.toNat
  by_cases ho : occ = 0
  · exact ⟨false, (s.core c).cclk + lat, id, fun _ => ⟨rfl, rfl⟩, by simp only [ho, if_true]; rfl⟩
  · exact ⟨true, (s.core c).cclk + lat, fun v => v.takeSfu ((s.core c).cclk + occ), fun _ => ⟨rfl, rfl⟩, by simp only [ho, if_false]; rfl⟩

/-- The results of a reduction, one of each segment (R117). -/
def Vec.redResults (x : Vec) (l : FnLane) : List W32 :=
  (chunks (2 ^ (5 + l.seg.toNat)) ((x.reg l.va.toNat).zipIdx.map (fun p =>
    if bitAt (x.mask l.mask.toNat) p.2 then p.1 else if l.fn = 1 then 0xFF800000#32 else 0#32))).map
    (redTree (if l.fn = 1 then fpick true else fadd) (5 + l.seg.toNat))

theorem evalRed_run (l : FnLane) : (evalRed s c l).run = s.vecRan c false (fun v =>
    v.setReg l.vd.toNat (writeFrom ((s.core c).vec.mask l.mask.toNat) l.dbase.toNat (v.reg l.vd.toNat)
      (s.vecLanes c ((s.core c).vec.redResults l))) ((s.core c).cclk + 10)) := rfl

end

end Sys2Proof.Machine
end

section
/-! VECTOR operations settled (R110, R114 to R122): masks of comparisons, segments reduced. -/

namespace Sys2Proof.Machine

/-! ### Comparisons (R116) -/

theorem bitAt_eq_testBit (v n : Nat) : bitAt v n = v.testBit n := by
  rw [bitAt, Nat.testBit_eq_decide_div_mod_eq, Nat.shiftRight_eq_div_pow]
  rfl

theorem bitsOf_succ (b : Nat → Bool) (k : Nat) : bitsOf b (k + 1) = if b k then bitsOf b k + 2 ^ k else bitsOf b k := by
  simp [bitsOf, List.range_succ, List.foldl_append]

theorem bitsOf_lt (b : Nat → Bool) (k : Nat) : bitsOf b k < 2 ^ k := by
  induction k with
  | zero => simp [bitsOf]
  | succ k ih => rw [bitsOf_succ, pow_succ]; split <;> omega

/-- The bits of the number are those given. -/
theorem bitAt_bitsOf (b : Nat → Bool) {k i : Nat} (h : i < k) : bitAt (bitsOf b k) i = b i := by
  rw [bitAt_eq_testBit]
  induction k with
  | zero => omega
  | succ k ih =>
    have htop : (bitsOf b k).testBit k = false := Nat.testBit_lt_two_pow (bitsOf_lt b k)
    rw [bitsOf_succ]
    rcases Nat.lt_succ_iff_lt_or_eq.mp h with hi | rfl
    · cases b k
      · exact ih hi
      · rw [if_pos rfl, Nat.add_comm, Nat.testBit_two_pow_add_gt hi, ih hi]
    · cases hb : b i
      · simpa using htop
      · rw [if_pos rfl, Nat.add_comm, Nat.testBit_two_pow_add_eq, htop]; rfl

/-! ### Reductions (R117) -/

/-- A list of m pieces of n is cut into them in order. -/
theorem chunksAux_eq {α : Type} {n : Nat} (hn : 0 < n) (m k : Nat) (xs : List α) (hx : xs.length = n * m) (hk : m ≤ k) :
    chunksAux n k xs = (List.range m).map (fun i => (xs.drop (i * n)).take n) := by
  induction m generalizing k xs with
  | zero =>
    obtain rfl : xs = [] := List.length_eq_zero_iff.mp (by simpa using hx)
    cases k <;> rfl
  | succ m ih =>
    obtain ⟨k, rfl⟩ : ∃ j, k = j + 1 := ⟨k - 1, by omega⟩
    cases xs with
    | nil => rw [Nat.mul_succ] at hx; simp at hx; omega
    | cons x xs =>
      have hcons : chunksAux n (k + 1) (x :: xs) = (x :: xs).take n :: chunksAux n k ((x :: xs).drop n) := rfl
      rw [hcons, ih k _ (by rw [List.length_drop, hx, Nat.mul_succ]; omega) (by omega), List.range_succ_eq_map, List.map_cons, List.map_map]
      simp [List.drop_drop, Nat.succ_mul, Nat.add_comm]

theorem chunks_eq {α : Type} {n : Nat} (hn : 0 < n) (m : Nat) (xs : List α) (hx : xs.length = n * m) :
    chunks n xs = (List.range m).map (fun i => (xs.drop (i * n)).take n) :=
  chunksAux_eq hn m _ xs hx (by rw [hx]; exact Nat.le_mul_of_pos_left m hn)

/-- One result written into a lane that the mask has. -/
def putLane (mask : Nat) (ls : List W32) (p : Nat) (x : W32) : List W32 := if bitAt mask p then ls.set p x else ls

theorem putLane_length (mask : Nat) (ls : List W32) (p : Nat) (x : W32) : (putLane mask ls p x).length = ls.length := by
  unfold putLane
  split <;> simp

theorem putLane_getD (mask : Nat) (ls : List W32) (p : Nat) (x : W32) (j : Nat) :
    (putLane mask ls p x).getD j 0 = if j = p ∧ j < ls.length ∧ bitAt mask j = true then x else ls.getD j 0 := by
  unfold putLane
  by_cases hj : p = j
  · subst hj
    by_cases hl : p < ls.length
    · cases bitAt mask p <;> simp [hl]
    · simp [hl, List.set_eq_of_length_le (not_lt.mp hl)]
  · have hne : ¬ (j = p ∧ j < ls.length ∧ bitAt mask j = true) := fun h => hj h.1.symm
    rw [if_neg hne]
    split
    · simp [List.getD_eq_getElem?_getD, List.getElem?_set_ne hj]
    · rfl

/-- Results written into a register from a lane on, one for each lane that the mask has. -/
theorem writeFrom_getD (mask base : Nat) (ls res : List W32) (j : Nat) : (writeFrom mask base ls res).getD j 0 =
    if base ≤ j ∧ j < base + res.length ∧ j < ls.length ∧ bitAt mask j = true then res.getD (j - base) 0 else ls.getD j 0 := by
  have hkey : ∀ (res : List W32) (k : Nat) (ls : List W32), ((res.zipIdx k).foldl (fun ls e => putLane mask ls (base + e.2) e.1) ls).getD j 0 =
      if base + k ≤ j ∧ j < base + k + res.length ∧ j < ls.length ∧ bitAt mask j = true then res.getD (j - (base + k)) 0 else ls.getD j 0 := by
    intro res
    induction res with
    | nil => intro k ls; exact (if_neg (by simp; omega)).symm
    | cons x res ih =>
      intro k ls
      rw [List.zipIdx_cons, List.foldl_cons, ih, putLane_length, putLane_getD, List.length_cons]
      rcases lt_trichotomy j (base + k) with h | rfl | h
      · rw [if_neg (by omega), if_neg (by omega), if_neg (by omega)]
      · rw [if_neg (by omega), Nat.sub_self]
        by_cases hb : base + k < ls.length ∧ bitAt mask (base + k) = true
        · rw [if_pos ⟨rfl, hb⟩, if_pos ⟨le_rfl, by omega, hb⟩]; rfl
        · rw [if_neg (fun h => hb h.2), if_neg (fun h => hb h.2.2)]
      · have hne : ¬ (j = base + k ∧ j < ls.length ∧ bitAt mask j = true) := fun hj => h.ne' hj.1
        have hrange : (base + (k + 1) ≤ j ∧ j < base + (k + 1) + res.length) ↔ base + k ≤ j ∧ j < base + k + (res.length + 1) := by omega
        rw [if_neg hne, show j - (base + k) = (j - (base + (k + 1))) + 1 by omega]
        exact if_congr (by rw [← and_assoc, hrange, and_assoc]) rfl rfl
  exact hkey res 0 ls

theorem vecLanes_length (s : State) (n : Nat) (ls : List W32) : (s.vecLanes n ls).length = ls.length := by
  unfold State.vecLanes
  split <;> simp

/-- Segments of 32, 64, 128 or 256 lanes fill a register. -/
theorem segments_fill (seg : BitVec 2) : 2 ^ (5 + seg.toNat) * (256 / 2 ^ (5 + seg.toNat)) = 256 := by
  revert seg
  decide

/-- The results of a reduction are those of the segments in order. -/
theorem redResults_eq {x : Vec} {l : FnLane} (h : (x.reg l.va.toNat).length = 256) :
    let k := 5 + l.seg.toNat
    let ins := (x.reg l.va.toNat).zipIdx.map (fun p => if bitAt (x.mask l.mask.toNat) p.2 then p.1 else if l.fn = 1 then 0xFF800000#32 else 0#32)
    x.redResults l = (List.range (256 / 2 ^ k)).map
      (fun i => redTree (if l.fn = 1 then fpick true else fadd) k ((ins.drop (i * 2 ^ k)).take (2 ^ k))) := by
  intro k ins
  have hins : ins.length = 2 ^ k * (256 / 2 ^ k) := by
    rw [List.length_map, List.length_zipIdx, h]
    exact (segments_fill l.seg).symm
  rw [Vec.redResults, chunks_eq (by positivity) _ _ hins, List.map_map]
  rfl

/-- Settles O19: each class by the write that its operation leaves for the close of the sub-bundle; the bounded functions by FP32 rounding. -/
theorem vectorLanesWriteOneRegister : Obligations.VectorLanesWriteOneRegister := by
  unfold Obligations.VectorLanesWriteOneRegister
  refine ⟨fun fn w hfin hlg => sfuBounded_within hfin hlg, fun s c => ?_⟩
  intro x n same
  refine ⟨fun l hl hfn => ?_, fun l hl hfn hmd => ?_, fun l hl => ?_, fun l hl => ?_, fun l hl hvd hva => ?_⟩
  · have hv := vecInstr_of (c := c) (.inl ⟨l, rfl, rfl, rfl⟩)
    obtain ⟨t, hexec, hwrote⟩ := exec_vecWrote hv hl (evalAlu_value s c hfn)
    exact ⟨t, _, hexec, hwrote, rfl, fun r hr => Vec.reg_setReg_ne _ _ _ hr, Vec.reg_setReg_same ..⟩
  · have hv := vecInstr_of (c := c) (.inl ⟨l, rfl, rfl, rfl⟩)
    obtain ⟨t, hexec, hwrote⟩ := exec_vecWrote hv hl (evalAlu_compare s c hfn)
    have hne : l.md.toNat ≠ 0 := fun h => hmd (BitVec.eq_of_toNat_eq h)
    refine ⟨t, _, hexec, hwrote, Vec.v_setMask .., fun m hm => Vec.mask_setMask_ne _ _ _ hm, fun i hi hfree => ?_⟩
    rw [Vec.mask_setMask_same _ _ _ hne, bitAt_bitsOf _ hi, State.cmpBit]
    split
    · next hb =>
      have hloose : x.loose = false := hfree.resolve_left (by simp [x, hb])
      exact if_neg (by simpa using hloose)
    · rfl
  · have hv := vecInstr_of (c := c) (.inr (.inl ⟨l, rfl, rfl, rfl⟩))
    obtain ⟨t, hexec, hwrote⟩ := exec_vecWrote hv hl (evalSfu_run s c l)
    exact ⟨t, _, hexec, hwrote, rfl, fun r hr => Vec.reg_setReg_ne _ _ ((s.core c).cclk + 12) hr,
      Vec.reg_setReg_same _ _ _ ((s.core c).cclk + 12)⟩
  · have hv := vecInstr_of (c := c) (.inr (.inr (.inr ⟨l, rfl, rfl, rfl⟩)))
    obtain ⟨sfu, ready, take, htake, hrun⟩ := evalDact_run s c l
    obtain ⟨t, hexec, hwrote⟩ := exec_vecWrote hv hl hrun
    have hreg : ∀ v r, (take v).reg r = v.reg r := fun v r => congrArg (tget _ · r) (htake v).1
    refine ⟨t, _, hexec, hwrote.mono (by cases sfu <;> simp), (htake _).2, fun r hr => ?_, ?_⟩
    · rw [hreg]; exact Vec.reg_setReg_ne _ _ _ hr
    · rw [hreg]; exact Vec.reg_setReg_same ..
  · have hv := vecInstr_of (c := c) (.inr (.inr (.inl ⟨l, rfl, rfl, rfl⟩)))
    obtain ⟨t, hexec, hwrote⟩ := exec_vecWrote hv hl (evalRed_run s c l)
    intro k ins res
    have hres : x.redResults l = res := redResults_eq hva
    have hlen : (s.vecLanes c res).length = 256 / 2 ^ k := by rw [vecLanes_length]; simp [res]
    refine ⟨t, _, hexec, hwrote, rfl, fun r hr => Vec.reg_setReg_ne _ _ _ hr, fun i hi hin => ?_, fun i hi => ?_⟩
    · rw [Vec.reg_setReg_same, writeFrom_getD, hres, hlen, hvd, Nat.add_sub_cancel_left]
      simp only [Nat.le_add_right, Nat.add_lt_add_left hi, hin, true_and]
      rfl
    · rw [Vec.reg_setReg_same, writeFrom_getD, hres, hlen, if_neg (by omega)]

end Sys2Proof.Machine
end

section
/-! LD.VEC settled (R111, R112): what a load of a register leaves, and what it counts. -/

namespace Sys2Proof.Machine

/-! ### Reports that stay with the core -/

/-- A part that did not change need not be named. -/
theorem CoreWork.drop {p : Part} {may : List Part} {n : CoreId} {s t : State} (h : CoreWork (p :: may) n s t) (hp : p.same s t) :
    CoreWork may n s t := by
  refine { h with same := fun q hq => ?_ }
  by_cases e : q = p
  · rw [e]; exact hp
  · exact h.same q (by simpa [e] using hq)

/-- A report of a core, of a class that marks no unit, touches no quarry. -/
theorem fault_quarries (n : CoreId) (s : State) {cls : Nat} (hm : marksUnits cls = false) (status : Nat) (job : Option Nat) (flags : Nat)
    (detail : List Byte) (sub : Nat) : (s.fault cls status job (Page.core n).unit flags detail sub).quarries = s.quarries := by
  have hrelease : ∀ (u : State) seq, (u.releaseLatch (Page.core n).unit seq).quarries = u.quarries := by
    intro u seq
    unfold State.releaseLatch
    dsimp only
    rw [coreUnit_index, coreUnit_kind]
    split_ifs with hown hquarry
    exacts [rfl, absurd hquarry.1 (by decide), rfl]
  rw [fault_other _ hm]
  unfold State.keepFault
  dsimp only
  split_ifs
  exacts [rfl, hrelease _ _]

/-- Elements counted non-finite: the counter, the event, and one report at most (R432, R433). -/
theorem countNonfinite_work (n : CoreId) (s : State) (k : Nat) : CoreWork [.regs, .ctrs, .flt, .events] n s (s.countNonfinite n k) := by
  have hquarries : Part.quarries.same s (s.countNonfinite n k) := by
    show (s.countNonfinite n k).quarries = s.quarries
    unfold State.countNonfinite State.nonfinite
    split_ifs
    exacts [rfl, fault_quarries n _ (by decide) .., rfl]
  exact CoreWork.drop ((countNonfinite_own n s k).1.mono (by decide)) hquarries

theorem countNonfinite_zero (s : State) (n : Nat) : s.countNonfinite n 0 = s := if_pos rfl

/-- The frame of an operation with reports of its own, from its work after its descriptor's channel list was read. -/
theorem onlyCoreList_of_work {may : List Part} {s w : State} {n : CoreId} {d : TDesc} (h : s.calm n)
    (hw : CoreWork (.ctrs :: may) n (s.readChan n d) w) : OnlyCoreList s (finish s w) n d may := by
  refine ⟨?_, fun hd => ?_⟩
  · have hread := (readChan_calm h d).coreWork (by decide) (by decide) n
    exact ((hread.mono (by simp)).trans (hw.mono (by simp))).onlyCore
  · have hown : s.readChan n d = s := by
      unfold State.readChan
      split
      · next hp => rw [State.farRead, if_pos (hd.resolve_left (by simp [hp])), schedRead_clean h.1 n h.2.1]
      · rfl
    rw [hown] at hw
    exact hw.onlyCore

/-! ### The rows of a register -/

/-- Rows of a register that lie free, with their scale bytes (R33). -/
theorem rowsFree_place {s : State} {n : Nat} {loc : BitVec 14} {d : TDesc} {outbound : Bool} {sa : Nat}
    (hf : s.rowsFree n (plainLoc loc) d ((s.placeRows n loc d.fmt.vecRows outbound).map (fun r => (r, sa)))) (hp : plainLoc loc = true) :
    (∀ r ∈ s.placeRows n loc d.fmt.vecRows outbound, s.foreign n (rowOf (rowAddr n r)) = false) ∧
    (d.scaleBytes ≠ 0 → s.foreign n (rowOf sa) = false) := by
  have hrow : ∀ r ∈ s.placeRows n loc d.fmt.vecRows outbound,
      s.foreign n (rowOf (rowAddr n r)) = false ∧ (d.scaleBytes ≠ 0 → s.foreign n (rowOf sa) = false) :=
    fun r hr => hf hp (r, sa) (List.mem_map_of_mem hr)
  obtain ⟨r, hr⟩ : ∃ r, r ∈ s.placeRows n loc d.fmt.vecRows outbound := by
    have hplain : bitAt loc.toNat 13 = false := by simpa [plainLoc] using hp
    refine ⟨fld loc.toNat 12 0, ?_⟩
    have hrows : 0 < d.fmt.vecRows := by unfold EFmt.vecRows; split <;> decide
    simp only [State.placeRows, placeOf, hplain, Bool.false_eq_true, if_false, fromN, List.mem_map, List.mem_range]
    exact ⟨0, hrows, rfl⟩
  exact ⟨fun r hr => (hrow r hr).1, (hrow r hr).2⟩

section
variable (s : State) (n : Nat) (loc : BitVec 14) (d : TDesc)

/-- The scale bytes of a part, as they stand. -/
def State.vecScales (part : Nat) : List Byte := if d.scaleBytes = 0 then [] else s.bytes (s.vecScaleAddr n loc false d part) 8

/-- The lanes that an LD.VEC gives (R111, R112). -/
def State.loadLanes (part : Nat) : List W32 :=
  widenLanes d (s.chanOf n d).2 part
    ((((s.placeRows n loc d.fmt.vecRows false).flatMap (fun r => s.bytes (rowAddr n r) 512)).drop (part * d.fmt.vecBytes)).take d.fmt.vecBytes)
    ((s.vecScales n loc d part).map BitVec.toNat)

/-- The lanes that an LD.VEC counts as non-finite: none of FP32 data. -/
def TDesc.loadBad (ls : List W32) : Nat := if d.fmt == .fp32 then 0 else ls.countP (fun w => !(val32 w).isFin)

/-- What an LD.VEC leaves: its slots taken, its non-finite lanes counted, its register at the close of the sub-bundle. -/
def State.vecLoaded (r : Nat) (ls : List W32) (ready : Nat) : State :=
  let bad := d.loadBad ls
  let t := (s.core n).cclk
  (((s.takeSlots n loc d.fmt.vecRows d (fun _ => t + 1) (fun _ => t + 1)).bump (.vector n) 0x58 bad).countNonfinite n bad).onVec n
    (fun v => v.setReg r ls ready)

variable {s n loc d} {part : BitVec 2} {desc : BitVec 6} (h : s.calm n) (hd : s.descOf n desc.toNat = (0, d))
    (hf : s.rowsFree n (plainLoc loc) d
      ((s.placeRows n loc d.fmt.vecRows false).map (fun r => (r, s.vecScaleAddr n loc false d part.toNat))))
include h

/-- The rows and the scale bytes of a part read after the channel list. -/
theorem vecRead_readChan (hf : s.rowsFree n (plainLoc loc) d
      ((s.placeRows n loc d.fmt.vecRows false).map (fun r => (r, s.vecScaleAddr n loc false d part.toNat)))) :
    let rows := s.placeRows n loc d.fmt.vecRows false
    (s.readChan n d).readRows n (plainLoc loc) { d with mode := 0 } (rows.map (fun r => (r, 0))) =
      (s.readChan n d, rows.map (fun r => (s.bytes (rowAddr n r) 512, []))) ∧
    (if d.scaleBytes = 0 then (s.readChan n d, [])
      else (s.readChan n d).dataRead n (plainLoc loc) (s.vecScaleAddr n loc false d part.toNat) 8) = (s.readChan n d, s.vecScales n loc d part.toNat) := by
  have hr := readChan_calm h d
  obtain ⟨hmem, hecc⟩ : (s.readChan n d).mem = s.mem ∧ (s.readChan n d).ecc = s.ecc := hr.same .mem (by decide)
  have hcore := hr.core (by decide) n
  generalize s.readChan n d = u at *
  intro rows
  have hbytes : ∀ a k, u.bytes a k = s.bytes a k := fun a k => by rw [State.bytes, hmem]; rfl
  have hforeign : ∀ r, u.foreign n r = s.foreign n r := fun r => by rw [State.foreign, hcore]; rfl
  have hsettled : (u.core n).settled = true := by rw [hcore]; exact h.2.1
  have hplain : u.rowsFree n (plainLoc loc) { d with mode := 0 } (rows.map (fun r => (r, 0))) := fun hp x hx => by
    obtain ⟨r, hr, rfl⟩ := List.mem_map.mp hx
    exact ⟨(hforeign _).trans ((rowsFree_place hf hp).1 r hr), fun hs => absurd rfl hs⟩
  refine ⟨?_, ?_⟩
  · rw [readRows_clean (hecc.trans h.1) hsettled hplain, State.rowsAt, List.map_map]
    simp only [Function.comp_def, hbytes, TDesc.scaleBytes, Nat.zero_ne_one, if_false, if_true]
  · unfold State.vecScales
    split
    · rfl
    · next hs =>
      rw [dataRead_clean (hecc.trans h.1) hsettled (fun hp => (hforeign _).trans ((rowsFree_place hf hp).2 hs)), hbytes]

include hd hf in
/-- The effect of an LD.VEC on a core that nothing unusual meets. -/
theorem evalLdVec_run (vreg : BitVec 5) : ∃ ready, (evalLdVec s n vreg part loc desc).run =
    (s.readChan n d).vecLoaded n loc d vreg.toNat (s.loadLanes n loc d part.toNat) ready := by
  obtain ⟨hrows, hscales⟩ := vecRead_readChan h hf
  have hcore := (readChan_calm h d).core (by decide) n
  unfold evalLdVec
  rw [earlyAt_settled h.2.1]
  dsimp only
  rw [hd]
  dsimp only
  rw [schedRead_clean h.1 n h.2.1]
  dsimp only
  rw [hrows]
  dsimp only
  rw [hscales, ← hcore, List.flatMap_map]
  unfold State.vecLoaded TDesc.loadBad State.loadLanes
  dsimp only
  exact ⟨_, rfl⟩

end

section
variable (s : State) (n : CoreId) (loc : BitVec 14) (d : TDesc) (r : Nat) (ls : List W32) (ready : Nat)

/-- It is the work of its core, without a report where nothing is counted. -/
theorem vecLoaded_work : CoreWork [.ctrs, .regs, .flt, .events] n s (s.vecLoaded n loc d r ls ready) ∧
    (d.loadBad ls = 0 → CoreWork [.ctrs] n s (s.vecLoaded n loc d r ls ready)) := by
  have hbump : ∀ (u : State) k, CoreWork [.ctrs] n u (u.bump (.vector n) 0x58 k) := fun u k =>
    .of_same (fun _ hp => bump_same u _ 0x58 k (by simpa using hp)) rfl (by decide) (by decide)
      (State.ctr_bump_ne u k (by simp only [Page.base]; omega))
  have hwrite : ∀ (may : List Part) (u : State), CoreWork may n u (u.onVec n (fun v => v.setReg r ls ready)) := fun may u =>
    coreWork_onCore n u fun _ => ⟨rfl, rfl, rfl⟩
  unfold State.vecLoaded
  dsimp only
  have htaken := (takeSlots_work s n loc d.fmt.vecRows d (fun _ => (s.core n).cclk + 1) (fun _ => (s.core n).cclk + 1)).trans
    (hbump _ (d.loadBad ls))
  refine ⟨?_, fun hbad => ?_⟩
  · exact (htaken.mono (by decide)).trans (((countNonfinite_work n _ _).mono (by decide)).trans (hwrite _ _))
  · rw [hbad, countNonfinite_zero, ← hbad]
    exact htaken.trans (hwrite _ _)

/-- Its register is written at the close of the sub-bundle, and its array is as before. -/
theorem vecLoaded_core : let t := s.vecLoaded n loc d r ls ready
    (t.core n).cur.vec = some ((s.core n).vecNext.setReg r ls ready) ∧ (t.core n).arr = (s.core n).arr := by
  obtain ⟨sl, due, htaken⟩ := takeSlots_core s n loc d.fmt.vecRows d (fun _ => (s.core n).cclk + 1) (fun _ => (s.core n).cclk + 1)
  unfold State.vecLoaded
  dsimp only
  generalize s.takeSlots n loc d.fmt.vecRows d _ _ = u at htaken
  obtain ⟨-, ⟨latch, hcounted⟩, -⟩ := countNonfinite_own n (u.bump (.vector n) 0x58 (d.loadBad ls)) (d.loadBad ls)
  rw [State.onVec, State.onCore_eq, State.core_setCore_same, hcounted, State.bump_get_core, htaken]
  exact ⟨rfl, rfl⟩

end

/-- LD.VEC as a command. -/
theorem exec_ldVec {s : State} {c : CoreId} {vreg : BitVec 5} {part : BitVec 2} {loc : BitVec 14} {desc : BitVec 6} {d : TDesc}
    (hl : LaneIssues s c (.ldVec vreg part loc desc)) (hc : s.calm c) (hd : s.descOf c desc.toNat = (0, d))
    (hf : s.rowsFree c (plainLoc loc) d
      ((s.placeRows c loc d.fmt.vecRows false).map (fun r => (r, s.vecScaleAddr c loc false d part.toNat)))) :
    ∃ t ready, exec (.ldVec c vreg part loc desc) s = .next t ∧
      (t.core c).cur.vec = some ((s.core c).vecNext.setReg vreg.toNat (s.loadLanes c loc d part.toNat) ready) ∧
      OnlyCoreList s t c d [.regs, .flt, .events] ∧ (d.fmt = .fp32 → OnlyCoreList s t c d []) ∧ (t.core c).pc = (s.core c).pc ∧
      (t.core c).arr = (s.core c).arr := by
  have hexec : exec (.ldVec c vreg part loc desc) s = _ := exec_opLane hl
  obtain ⟨ready, hrun⟩ := evalLdVec_run hc hd hf vreg
  replace hrun : (evalOp s c (.ldVec vreg part loc desc)).run = _ := hrun
  generalize evalOp s c (.ldVec vreg part loc desc) = e at hexec hrun
  have hcore : (s.readChan c d).core c = s.core c := (readChan_calm hc d).core (by decide) c
  obtain ⟨hwork, hquiet⟩ := vecLoaded_work (s.readChan c d) c loc d vreg.toNat (s.loadLanes c loc d part.toNat) ready
  obtain ⟨hvec, harr⟩ := vecLoaded_core (s.readChan c d) c loc d vreg.toNat (s.loadLanes c loc d part.toNat) ready
  rw [← hrun] at hwork hquiet hvec harr
  rw [hcore] at hvec harr
  have hkept : ((e.issued c).core c).cur.vec = (e.run.core c).cur.vec := by simp [Eval.issued, Eval.names]
  obtain ⟨cur, hcur⟩ := issued_core e c
  refine ⟨_, ready, hexec, ?_, onlyCoreList_of_work hc (hwork.trans (issued_work e c)),
    fun hfmt => onlyCoreList_of_work hc ((hquiet (by simp [TDesc.loadBad, hfmt])).trans (issued_work e c)), ?_, ?_⟩
  · rw [finish_get_core, hkept, hvec]
  · rw [finish_get_core, issued_pc, hwork.core.1, hcore]
  · rw [finish_get_core, hcur]
    exact harr

end Sys2Proof.Machine
end

section
/-! Parts of rows and scale bytes written into memory, and the bytes of a register converted (R42, R75, R112, R183). -/

namespace Sys2Proof.Machine

/-! ### Bytes of memory after a write -/

/-- A byte at or past the start of a write: the write's own while it lasts. -/
theorem memGet_memWrite_from {m : List Host.Cell} (hm : Memory.wf m = true) (a : Nat) (bs : List Byte) (i : Nat) :
    memGet (memWrite m a bs) (a + i) = bs[i]?.getD (memGet m (a + i)) := by
  by_cases h : i < bs.length
  · rw [memGet_memWrite_inside bs hm h, List.getElem?_eq_getElem h]; rfl
  · rw [memGet_memWrite_outside bs (.inr (by omega)), List.getElem?_eq_none (by omega)]; rfl

theorem spliceAt_getElem? {bs new : List Byte} {off : Nat} (ho : off ≤ bs.length) (i : Nat) :
    (spliceAt bs off new)[i]? = if i < off then bs[i]? else if i < off + new.length then new[i - off]? else bs[i]? := by
  have hlen : (bs.take off ++ new).length = off + new.length := by simp [ho]
  unfold spliceAt
  split_ifs with h h'
  · rw [List.getElem?_append_left (by omega), List.getElem?_append_left (by simp; omega), List.getElem?_take_of_lt h]
  · rw [List.getElem?_append_left (by omega), List.getElem?_append_right (by simp; omega), List.length_take, min_eq_left ho]
  · rw [List.getElem?_append_right (by omega), hlen, List.getElem?_drop]
    congr 1
    omega

/-! ### Scale bytes in their row (R75, R183) -/

/-- A scale row rewritten with new bytes in it. -/
def putScale (m : List Host.Cell) (sa : Nat) (bs : List Byte) : List Host.Cell :=
  memWrite m (rowStart sa) (spliceAt (memRead m (rowStart sa) 512) (sa % 512) bs)

section
variable {m : List Host.Cell} (hm : Memory.wf m = true) {sa : Nat} {bs : List Byte}
include hm

theorem memGet_putScale (i : Nat) : memGet (putScale m sa bs) (rowStart sa + i) =
    if sa % 512 ≤ i ∧ i < sa % 512 + bs.length then bs.getD (i - sa % 512) 0 else memGet m (rowStart sa + i) := by
  have hlen : (memRead m (rowStart sa) 512).length = 512 := by simp [memRead]
  have hrow : (memRead m (rowStart sa) 512)[i]?.getD (memGet m (rowStart sa + i)) = memGet m (rowStart sa + i) := by
    by_cases h : i < 512
    · simp [memRead, h]
    · rw [List.getElem?_eq_none (by omega)]; rfl
  rw [putScale, memGet_memWrite_from hm, spliceAt_getElem? (by omega)]
  split_ifs with h1 h2 h3 h4
  · omega
  · exact hrow
  · rw [List.getD_eq_getElem?_getD, List.getElem?_eq_getElem (by omega)]; rfl
  · omega
  · omega
  · exact hrow

/-- Bytes beside those of the part are as before. -/
theorem memGet_putScale_outside {a : Nat} (h : a < sa ∨ sa + bs.length ≤ a) : memGet (putScale m sa bs) a = memGet m a := by
  by_cases hrow : a < rowStart sa
  · exact memGet_memWrite_outside _ (.inl hrow)
  · obtain ⟨i, rfl⟩ := Nat.exists_eq_add_of_le (not_lt.mp hrow)
    rw [memGet_putScale hm, if_neg (by unfold rowStart at h; omega)]

/-- Those of the part are the new ones. -/
theorem memRead_putScale : memRead (putScale m sa bs) sa bs.length = bs := by
  refine memRead_eq rfl fun i hi => ?_
  have ha : sa + i = rowStart sa + (sa % 512 + i) := by unfold rowStart; omega
  rw [ha, memGet_putScale hm, if_pos (by omega), Nat.add_sub_cancel_left, List.getD_eq_getElem _ _ hi]

theorem wf_putScale : Memory.wf (putScale m sa bs) = true := Memory.wf_memWrite _ _ hm

end

/-! ### Parts of rows -/

/-- Bytes written over rows, 512 to a row, each from an offset on. -/
def putParts (n off : Nat) : List Host.Cell → List Byte → List Nat → List Host.Cell
  | m, _, [] => m
  | m, bs, r :: rs => putParts n off (memWrite m (rowAddr n r + off) (bs.take 512)) (bs.drop 512) rs

section
variable {n off : Nat}

theorem wf_putParts {m : List Host.Cell} (hm : Memory.wf m = true) (bs : List Byte) (rs : List Nat) : Memory.wf (putParts n off m bs rs) = true := by
  induction rs generalizing m bs with
  | nil => exact hm
  | cons r rs ih => exact ih (Memory.wf_memWrite _ _ hm) _

theorem memGet_putParts_outside {m : List Host.Cell} {bs : List Byte} {rs : List Nat} {a : Nat}
    (h : ∀ r ∈ rs, a < rowAddr n r + off ∨ rowAddr n r + off + min 512 bs.length ≤ a) : memGet (putParts n off m bs rs) a = memGet m a := by
  induction rs generalizing m bs with
  | nil => rfl
  | cons r rs ih =>
    have hrest : ∀ r ∈ rs, a < rowAddr n r + off ∨ rowAddr n r + off + min 512 (bs.drop 512).length ≤ a := fun r hr =>
      (h r (List.mem_cons_of_mem _ hr)).imp_right fun h => by rw [List.length_drop]; omega
    rw [putParts, ih hrest, memGet_memWrite_outside _ (by simpa using h r (List.mem_cons_self ..))]

/-- Of rows that differ each holds its piece. -/
theorem memGet_putParts_inside {m : List Host.Cell} (hm : Memory.wf m = true) {bs : List Byte} {rs : List Nat} (hn : rs.Nodup)
    (ho : off + min 512 bs.length ≤ 512) {i k r : Nat} (hr : rs[i]? = some r) (hk : k < 512) (hb : 512 * i + k < bs.length) :
    memGet (putParts n off m bs rs) (rowAddr n r + off + k) = bs.getD (512 * i + k) 0 := by
  induction rs generalizing m bs i with
  | nil => simp at hr
  | cons r' rs ih =>
    obtain ⟨hnot, hn⟩ := List.nodup_cons.mp hn
    have hdrop : (bs.drop 512).length = bs.length - 512 := List.length_drop ..
    cases i with
    | zero =>
      obtain rfl : r' = r := by simpa using hr
      have hapart : ∀ x ∈ rs, rowAddr n r' + off + k < rowAddr n x + off ∨
          rowAddr n x + off + min 512 (bs.drop 512).length ≤ rowAddr n r' + off + k := fun x hx => by
        have hne : x ≠ r' := fun e => hnot (e ▸ hx)
        unfold rowAddr
        omega
      rw [putParts, memGet_putParts_outside hapart, memGet_memWrite_inside _ hm (by rw [List.length_take]; omega), List.getElem_take,
        List.getD_eq_getElem _ _ hb]
      simp
    | succ i =>
      rw [putParts, ih (Memory.wf_memWrite _ _ hm) hn (by omega) (by simpa using hr) (by omega), List.getD_eq_getElem?_getD,
        List.getD_eq_getElem?_getD, List.getElem?_drop]
      congr 2
      omega

end

/-! ### A register converted (R42, R112) -/

theorem chunksAux_flatten {α : Type} {n : Nat} (hn : 0 < n) (k : Nat) (xs : List α) (hk : xs.length ≤ k) : (chunksAux n k xs).flatten = xs := by
  induction k generalizing xs with
  | zero => simp [chunksAux, List.length_eq_zero_iff.mp (Nat.le_zero.mp hk)]
  | succ k ih =>
    cases xs with
    | nil => rfl
    | cons x xs =>
      have hcons : chunksAux n (k + 1) (x :: xs) = (x :: xs).take n :: chunksAux n k ((x :: xs).drop n) := rfl
      rw [hcons, List.flatten_cons, ih _ (by simp only [List.length_drop, List.length_cons] at hk ⊢; omega), List.take_append_drop]

/-- The pieces of a list join to it. -/
theorem chunks_flatten {α : Type} {n : Nat} (hn : 0 < n) (xs : List α) : (chunks n xs).flatten = xs := chunksAux_flatten hn _ xs le_rfl

/-- A block has a code for each of its values. -/
theorem quantBlock_length (d : TDesc) (p : Bool) (xs : List W32) : (quantBlock d p xs).elems.length = xs.length := by
  unfold quantBlock
  split
  · split
    exacts [List.length_map .., List.length_map ..]
  · split
    exacts [List.length_map .., List.length_map ..]
  · split
    exacts [List.length_map .., List.length_map ..]
  · exact List.length_map ..
  · exact List.length_map ..
  · exact List.length_map ..

/-- The blocks of a register converted, which of them are privileged as given. -/
def quantLanes (d : TDesc) (priv : Nat → Bool) (xs : List W32) : List QBlock :=
  (chunks 32 xs).zipIdx.map (fun b => quantBlock d (priv b.2) b.1)

theorem quantLanes_length (d : TDesc) (priv : Nat → Bool) {xs : List W32} (h : xs.length = 256) : (quantLanes d priv xs).length = 8 := by
  rw [quantLanes, List.length_map, List.length_zipIdx, chunks_length (by decide) 8 xs h]

/-- They have a code for each lane. -/
theorem quantLanes_elems_length (d : TDesc) (priv : Nat → Bool) (xs : List W32) :
    ((quantLanes d priv xs).flatMap QBlock.elems).length = xs.length := by
  have hkey : ∀ (bs : List (List W32)) (k : Nat),
      (((bs.zipIdx k).map (fun b => quantBlock d (priv b.2) b.1)).flatMap QBlock.elems).length = bs.flatten.length := by
    intro bs
    induction bs with
    | nil => exact fun _ => rfl
    | cons b bs ih =>
      intro k
      rw [List.zipIdx_cons, List.map_cons, List.flatMap_cons, List.length_append, ih, quantBlock_length, List.flatten_cons, List.length_append]
  rw [quantLanes, hkey, chunks_flatten (by decide)]

/-- The bytes of a register's codes. -/
theorem bytesOf_length (f : EFmt) {cs : List Nat} (h : cs.length = 256) : (f.bytesOf cs).length = f.vecBytes := by
  have hflat : ∀ k, (cs.flatMap (natLe k)).length = 256 * k := fun k => by
    simp only [List.length_flatMap, Laws.natLe_length, List.map_const', List.sum_replicate, smul_eq_mul, h]
  cases f
  case e2m1 => simp [EFmt.bytesOf, EFmt.vecBytes, EFmt.blockBytes, chunks_length (n := 2) (by decide) 128 cs h]
  case bf16 => exact hflat 2
  case fp32 => exact hflat 4
  all_goals simp [EFmt.bytesOf, EFmt.vecBytes, EFmt.blockBytes, h]

/-- A part lies in its rows. -/
theorem part_fits (f : EFmt) {part : Nat} (h : part < f.parts) : part * f.vecBytes + min 512 f.vecBytes ≤ 512 := by
  cases f <;> simp only [EFmt.parts, EFmt.vecBytes, EFmt.blockBytes] at h ⊢ <;> omega

/-- The rows of a register hold its bytes, 512 to a row. -/
theorem vecRows_hold (f : EFmt) {i k : Nat} (hi : i < f.vecRows) (hk : k < min 512 f.vecBytes) : 512 * i + k < f.vecBytes := by
  cases f <;> simp [EFmt.vecRows, EFmt.vecBytes, EFmt.blockBytes] at hi hk ⊢ <;> omega

end Sys2Proof.Machine
end

section
/-! ST.VEC in its parts (R59, R75, R112, R171): the record, the rows and the scale bytes written, the place filled. -/

namespace Sys2Proof.Machine

/-! ### The record (R59, R60) -/

/-- A register's pass combined into its record, its non-finite elements counted. -/
def State.noteVec (s : State) (n : Nat) (d : TDesc) (st : Stats) : State :=
  (s.useFree.coreStats n d.statsAddr kindVector st).countNonfinite n st.nonfin

theorem noteVec_open {s : State} {n : CoreId} {d : TDesc} (h : s.calm n) (ho : s.recordOpen n (d.statsAddr + 32 * n)) (st : Stats) :
    let t := s.noteVec n d st
    CoreWork outParts n s t ∧ (∃ l, t.core n = { s.core n with latch := l }) ∧ t.ecc = [] ∧
    ∃ bs : List Byte, bs.length = 32 ∧ t.mem = memWrite s.mem (d.statsAddr + 32 * n) bs := by
  have hfree : Reaches [.free] s s.useFree := reaches_free s (s.free + 1)
  obtain ⟨hstats, hecc, hmem, -⟩ := coreStats_open (hfree.calm (by decide) (by decide) h.1 h)
    (hfree.recordOpen (by decide) (by decide) (by decide) ho) kindVector st
  unfold State.noteVec
  generalize s.useFree.coreStats n d.statsAddr kindVector st = u at *
  obtain ⟨-, hlatch, -⟩ := countNonfinite_own n u st.nonfin
  have hcount := countNonfinite_work n u st.nonfin
  obtain ⟨hcmem, hcecc⟩ : (u.countNonfinite n st.nonfin).mem = u.mem ∧ (u.countNonfinite n st.nonfin).ecc = u.ecc := hcount.same .mem (by decide)
  have hcore : u.core n = s.core n := (hstats.core (by decide) n).trans (hfree.core (by decide) n)
  refine ⟨?_, by rw [← hcore]; exact hlatch, hcecc.trans hecc, _, recordBytes_length .., hcmem.trans hmem⟩
  exact ((hfree.coreWork (by decide) (by decide) n).mono (by decide)).trans
    (((hstats.coreWork (by decide) (by decide) n).mono (by decide)).trans (hcount.mono (by decide)))

/-! ### Rows and scale bytes written -/

/-- A part's place lies in the row. -/
theorem rowOf_part (n r : Nat) {off : Nat} (h : off < 512) : rowOf (rowAddr n r + off) = rowOf (rowAddr n r) := by
  unfold rowOf rowAddr sillBase
  omega

theorem rowOf_rowStart (a : Nat) : rowOf (rowStart a) = rowOf a := by
  unfold rowOf rowStart
  omega

section
variable (n : CoreId) (plain : Bool) (off : Nat)

theorem storeRows_work (bs : List Byte) (rs : List Nat) (s : State) : CoreWork [.mem, .free] n s (s.storeRows n plain off bs rs) := by
  induction rs generalizing s bs with
  | nil => exact .refl _ n s
  | cons r rs ih => exact (storeBytes_work s n plain _ _).trans (((coreWork_put n _ _ _).mono (by decide)).trans (ih _ _))

theorem storeScales_work (s : State) (sa : Nat) (bs : List Byte) : CoreWork [.mem, .free] n s (s.storeScales n plain sa bs) :=
  (storeBytes_work s n plain _ _).trans ((coreWork_put n _ _ _).mono (by decide))

end

/-- Bytes written leave the cores alone, and clean codewords clean. -/
theorem put_keeps (s : State) (a : Nat) (bs : List Byte) : (s.put a bs).cores = s.cores ∧ (s.ecc = [] → (s.put a bs).ecc = []) :=
  ⟨rfl, fun he => by rw [State.put, he]; rfl⟩

section
variable {n : Nat} {plain : Bool} {off : Nat}

/-- Rows that lie in no slot outside its protocol take the bytes (R33). -/
theorem storeRows_own {bs : List Byte} {rs : List Nat} {s : State} (h : plain = true → ∀ r ∈ rs, s.foreign n (rowOf (rowAddr n r + off)) = false) :
    (s.storeRows n plain off bs rs).mem = putParts n off s.mem bs rs ∧ (s.storeRows n plain off bs rs).cores = s.cores ∧
    (s.ecc = [] → (s.storeRows n plain off bs rs).ecc = []) := by
  induction rs generalizing s bs with
  | nil => exact ⟨rfl, rfl, id⟩
  | cons r rs ih =>
    obtain ⟨hpcores, hpecc⟩ := put_keeps s (rowAddr n r + off) (bs.take 512)
    obtain ⟨hmem, hcores, hecc⟩ := ih (s := s.put (rowAddr n r + off) (bs.take 512)) (bs := bs.drop 512)
      fun hp x hx => by rw [foreign_put]; exact h hp x (List.mem_cons_of_mem _ hx)
    have hcons : s.storeRows n plain off bs (r :: rs) = (s.put (rowAddr n r + off) (bs.take 512)).storeRows n plain off (bs.drop 512) rs := by
      rw [State.storeRows, storeBytes_own fun hp => h hp r (List.mem_cons_self ..)]
    rw [hcons]
    exact ⟨hmem, hcores.trans hpcores, fun he => hecc (hpecc he)⟩

/-- And so does a scale row (R75). -/
theorem storeScales_own {s : State} {sa : Nat} (h : plain = true → s.foreign n (rowOf sa) = false) (bs : List Byte) :
    (s.storeScales n plain sa bs).mem = putScale s.mem sa bs ∧ (s.storeScales n plain sa bs).cores = s.cores ∧
    (s.ecc = [] → (s.storeScales n plain sa bs).ecc = []) := by
  have hput : s.storeScales n plain sa bs = s.put (rowStart sa) (spliceAt (s.bytes (rowStart sa) 512) (sa % 512) bs) := by
    rw [State.storeScales, storeBytes_own fun hp => by rw [rowOf_rowStart]; exact h hp]
  rw [hput]
  exact ⟨rfl, put_keeps ..⟩

end

/-- A register's rows stored, and its scale bytes where its format has them. -/
def State.putVec (s : State) (n : Nat) (plain : Bool) (d : TDesc) (off : Nat) (bs : List Byte) (rs : List Nat) (sa : Nat) (scs : List Byte) : State :=
  if d.scaleBytes = 0 then s.storeRows n plain off bs rs else (s.storeRows n plain off bs rs).storeScales n plain sa scs

/-- The memory that they leave. -/
def vecMem (d : TDesc) (n off : Nat) (m : List Host.Cell) (bs : List Byte) (rs : List Nat) (sa : Nat) (scs : List Byte) : List Host.Cell :=
  if d.scaleBytes = 0 then putParts n off m bs rs else putScale (putParts n off m bs rs) sa scs

section
variable {d : TDesc} {n off sa : Nat} {m : List Host.Cell} {bs scs : List Byte} {rs : List Nat} (hm : Memory.wf m = true)
include hm

/-- Beside the scale bytes it is the rows'. -/
theorem memGet_vecMem {a : Nat} (h : d.scaleBytes ≠ 0 → a < sa ∨ sa + scs.length ≤ a) :
    memGet (vecMem d n off m bs rs sa scs) a = memGet (putParts n off m bs rs) a := by
  unfold vecMem
  split
  · rfl
  · next hs => exact memGet_putScale_outside (wf_putParts hm bs rs) (h hs)

theorem memRead_vecMem (h : d.scaleBytes ≠ 0) : memRead (vecMem d n off m bs rs sa scs) sa scs.length = scs := by
  rw [vecMem, if_neg h]
  exact memRead_putScale (wf_putParts hm bs rs)

end

theorem putVec_work (s : State) (n : CoreId) (plain : Bool) (d : TDesc) (off : Nat) (bs : List Byte) (rs : List Nat) (sa : Nat) (scs : List Byte) :
    CoreWork [.mem, .free] n s (s.putVec n plain d off bs rs sa scs) := by
  unfold State.putVec
  split
  exacts [storeRows_work .., (storeRows_work ..).trans (storeScales_work ..)]

theorem putVec_own {s : State} {n : Nat} {plain : Bool} {d : TDesc} {off sa : Nat} {rs : List Nat}
    (hrows : plain = true → ∀ r ∈ rs, s.foreign n (rowOf (rowAddr n r + off)) = false)
    (hscale : plain = true → d.scaleBytes ≠ 0 → s.foreign n (rowOf sa) = false) (he : s.ecc = []) (bs scs : List Byte) :
    let t := s.putVec n plain d off bs rs sa scs
    t.mem = vecMem d n off s.mem bs rs sa scs ∧ t.cores = s.cores ∧ t.ecc = [] := by
  obtain ⟨hmem, hcores, hecc⟩ := storeRows_own hrows (bs := bs)
  unfold State.putVec vecMem
  generalize s.storeRows n plain off bs rs = u at *
  by_cases hs : d.scaleBytes = 0
  · simp only [hs, if_true]
    exact ⟨hmem, hcores, hecc he⟩
  · have hforeign : ∀ r, u.foreign n r = s.foreign n r := fun r => by simp only [State.foreign, State.core, hcores]
    obtain ⟨hsmem, hscores, hsecc⟩ := storeScales_own (fun hp => (hforeign _).trans (hscale hp hs)) scs
    simp only [hs, if_false]
    exact ⟨hsmem.trans (by rw [hmem]), hscores.trans hcores, hsecc (hecc he)⟩

/-! ### What lands -/

/-- The slots of the place filled, its rows in flight until a CCLK. -/
def State.landVec (s : State) (n : Nat) (loc : BitVec 14) (d : TDesc) (rows : List Nat) (t : Nat) : State :=
  ((s.fillSlots n loc d.fmt.vecRows d (t + 2)).soak n rows (t + 3)).ruffle n rows (t + 2)

theorem landVec_work (s : State) (n : CoreId) (loc : BitVec 14) (d : TDesc) (rows : List Nat) (t : Nat) :
    CoreWork [.free, .ctrs] n s (s.landVec n loc d rows t) :=
  (fillSlots_work s n loc d.fmt.vecRows d (t + 2)).trans ((soak_work _ n rows (t + 3)).trans (ruffle_work _ n rows (t + 2)))

theorem fillSlots_vec (s : State) (n : Nat) (loc : BitVec 14) (rows : Nat) (d : TDesc) (t : Nat) :
    ((s.fillSlots n loc rows d t).core n).vec = (s.core n).vec := by
  have hring : ∀ (u : State) h pos k, (((u.schedule n h pos k (fun _ => t) true).advProd n h k).core n).vec = (u.core n).vec := fun u h pos k => by
    simp [State.schedule, State.advProd, State.setSlot]
  unfold State.fillSlots
  split
  · rfl
  · dsimp only
    rw [State.bump_get_core]
    split
    · rw [hring, hring]
    · rw [hring]

theorem landVec_core (s : State) (n : Nat) (loc : BitVec 14) (d : TDesc) (rows : List Nat) (t : Nat) :
    ((s.landVec n loc d rows t).core n).vec = (s.core n).vec ∧ ∀ r ∈ rows, tget 0 ((s.landVec n loc d rows t).core n).wet r = t + 3 := by
  have hruffle : ∀ u : State, ((u.ruffle n rows (t + 2)).core n).vec = (u.core n).vec := fun u => by
    unfold State.ruffle
    extract_lets late a blur
    split
    · rw [State.onCore_eq, State.core_setCore_same]; rfl
    · rfl
  unfold State.landVec
  refine ⟨?_, fun r hr => by rw [ruffle_wet, soak_wet _ n _ hr]⟩
  rw [hruffle, State.soak, State.onCore_eq, State.core_setCore_same]
  exact fillSlots_vec ..

end Sys2Proof.Machine
end

section
/-! ST.VEC as a command; loads and stores of registers settled (R111 to R113, R171). -/

namespace Sys2Proof.Machine

/-! ### The command -/

section
variable (s : State) (n : CoreId) (loc : BitVec 14) (d : TDesc) (r part : Nat)

/-- The rows of the place that an ST.VEC writes. -/
def State.vecStoreRows : List Nat := s.placeRows n loc d.fmt.vecRows true

/-- The blocks of the register converted (R113). -/
def State.storeBlocks : List QBlock := quantLanes d (vecPriv d (s.chanOf n d).2 part) ((s.core n).vec.reg r)

/-- The bytes of their codes, and of their scales. -/
def State.storeData : List Byte := d.fmt.bytesOf (((s.storeBlocks n d r part).flatMap (fun b => b.elems)).map Conv.code)
@[inherit_doc State.storeData] def State.storeScaleBytes : List Byte := (s.storeBlocks n d r part).map (fun b => BitVec.ofNat 8 b.scale)

/-- What an ST.VEC leaves, given its statistics. -/
def State.vecStored (st : Stats) : State :=
  let sa := s.vecScaleAddr n loc true d part
  let rows := s.vecStoreRows n loc d
  (((s.readChan n d).noteVec n d st).putVec n (plainLoc loc) d (part * d.fmt.vecBytes) (s.storeData n d r part) rows sa
    (s.storeScaleBytes n d r part)).landVec n loc d (rows ++ (if d.scaleBytes = 0 then [] else [rowOf sa])) (s.core n).cclk

end

theorem evalStVec_run {s : State} {n : CoreId} {desc : BitVec 6} {d : TDesc} (h : s.calm n) (hd : s.descOf n desc.toNat = (0, d))
    (vreg : BitVec 5) (part : BitVec 2) (loc : BitVec 14) : ∃ st,
    (evalStVec s n vreg part loc desc).run = s.vecStored n loc d vreg.toNat part.toNat st := by
  unfold evalStVec
  rw [earlyAt_settled h.2.1]
  dsimp only
  rw [hd]
  dsimp only
  rw [schedRead_clean h.1 n h.2.1]
  unfold State.vecStored State.landVec State.noteVec State.putVec
  exact ⟨_, rfl⟩

section
variable {s : State} {n : CoreId} {loc : BitVec 14} {d : TDesc} {r part : Nat}

theorem storeData_length (h : ((s.core n).vec.reg r).length = 256) : (s.storeData n d r part).length = d.fmt.vecBytes := by
  refine bytesOf_length d.fmt ?_
  rw [List.length_map]
  exact (quantLanes_elems_length d _ _).trans h

theorem storeScaleBytes_length (h : ((s.core n).vec.reg r).length = 256) : (s.storeScaleBytes n d r part).length = 8 :=
  (List.length_map ..).trans (quantLanes_length d _ h)

theorem vecStoreRows_length : (s.vecStoreRows n loc d).length ≤ d.fmt.vecRows := by
  unfold State.vecStoreRows State.placeRows
  split
  · simp [fromN]
  · exact List.length_take_le ..

variable (h : s.calm n) (ho : s.recordOpen n (d.statsAddr + 32 * n)) (hp : part < d.fmt.parts)
    (hf : s.rowsFree n (plainLoc loc) d ((s.vecStoreRows n loc d).map (fun x => (x, s.vecScaleAddr n loc true d part)))) (st : Stats)
include h ho

/-- An ST.VEC is the work of its core. -/
theorem vecStored_work : CoreWork outParts n s (s.vecStored n loc d r part st) := by
  have hr := readChan_calm h d
  have hcalm := hr.calm (by decide) (by decide) ((hr.same .mem (by decide)).2.trans h.1) h
  have hnote := (noteVec_open hcalm (hr.recordOpen (by decide) (by decide) (by decide) ho) st).1
  have hread := hr.coreWork (by decide) (by decide) n
  unfold State.vecStored
  exact (hread.mono (by decide)).trans (hnote.trans (((putVec_work ..).mono (by decide)).trans ((landVec_work ..).mono (by decide))))

include hp hf

/-- Its memory: the record, then the rows, then the scale bytes. Its register is as before, its rows are in flight for 3 CCLK. -/
theorem vecStored_mem : ∃ bs : List Byte, bs.length = 32 ∧
    let t := s.vecStored n loc d r part st
    t.mem = vecMem d n (part * d.fmt.vecBytes) (memWrite s.mem (d.statsAddr + 32 * n) bs) (s.storeData n d r part) (s.vecStoreRows n loc d)
      (s.vecScaleAddr n loc true d part) (s.storeScaleBytes n d r part) ∧
    t.ecc = [] ∧ (t.core n).vec = (s.core n).vec ∧ ∀ x ∈ s.vecStoreRows n loc d, tget 0 (t.core n).wet x = (s.core n).cclk + 3 := by
  have hr := readChan_calm h d
  obtain ⟨hrmem, hrecc⟩ : (s.readChan n d).mem = s.mem ∧ (s.readChan n d).ecc = s.ecc := hr.same .mem (by decide)
  have hrcore := hr.core (by decide) n
  obtain ⟨-, ⟨l, hl⟩, hnecc, bs, hbs, hnmem⟩ := noteVec_open (hr.calm (by decide) (by decide) (hrecc.trans h.1) h)
    (hr.recordOpen (by decide) (by decide) (by decide) ho) st
  unfold State.vecStored
  generalize (s.readChan n d).noteVec n d st = u at *
  have hforeign : ∀ x, u.foreign n x = s.foreign n x := fun x => by simp only [State.foreign, hl, hrcore]
  have hoff : part * d.fmt.vecBytes < 512 := by
    have hfits := part_fits d.fmt hp
    have hpos : 0 < d.fmt.vecBytes := by cases d.fmt <;> decide
    omega
  obtain ⟨hpmem, hpcores, hpecc⟩ := putVec_own (s := u) (n := n) (plain := plainLoc loc) (d := d) (off := part * d.fmt.vecBytes)
    (rs := s.vecStoreRows n loc d) (sa := s.vecScaleAddr n loc true d part)
    (fun hplain x hx => by rw [rowOf_part _ _ hoff, hforeign]; exact (rowsFree_place hf hplain).1 x hx)
    (fun hplain hs => by rw [hforeign]; exact (rowsFree_place hf hplain).2 hs) hnecc (s.storeData n d r part) (s.storeScaleBytes n d r part)
  dsimp only
  generalize u.putVec n (plainLoc loc) d _ _ _ _ _ = v at *
  generalize hrows : s.vecStoreRows n loc d ++ _ = landed
  obtain ⟨hlmem, hlecc⟩ : (v.landVec n loc d landed (s.core n).cclk).mem = v.mem ∧ (v.landVec n loc d landed (s.core n).cclk).ecc = v.ecc :=
    (landVec_work v n loc d landed (s.core n).cclk).same .mem (by decide)
  obtain ⟨hvec, hwet⟩ := landVec_core v n loc d landed (s.core n).cclk
  have hvcore : v.core n = u.core n := by simp only [State.core, hpcores]
  refine ⟨bs, hbs, by rw [hlmem, hpmem, hnmem, hrmem], hlecc.trans hpecc, by rw [hvec, hvcore, hl, hrcore], fun x hx => hwet x ?_⟩
  rw [← hrows]
  exact List.mem_append_left _ hx

end

/-- ST.VEC as a command. -/
theorem exec_stVec {s : State} {c : CoreId} {vreg : BitVec 5} {part : BitVec 2} {loc : BitVec 14} {desc : BitVec 6} {d : TDesc}
    (hl : LaneIssues s c (.stVec vreg part loc desc)) (hc : s.calm c) (hd : s.descOf c desc.toNat = (0, d))
    (ho : s.recordOpen c (d.statsAddr + 32 * c)) : ∃ t st cur, exec (.stVec c vreg part loc desc) s = .next t ∧
      (t.core c).pc = (s.core c).pc ∧ OnlyCore s t c outParts ∧
      (let u := s.vecStored c loc d vreg.toNat part.toNat st
       t.mem = u.mem ∧ t.ecc = u.ecc ∧ t.core c = { u.core c with cur := cur }) := by
  have hexec : exec (.stVec c vreg part loc desc) s = _ := exec_opLane hl
  obtain ⟨st, hrun⟩ := evalStVec_run hc hd vreg part loc
  replace hrun : (evalOp s c (.stVec vreg part loc desc)).run = _ := hrun
  generalize evalOp s c (.stVec vreg part loc desc) = e at hexec hrun
  have hwork := (vecStored_work (loc := loc) (r := vreg.toNat) (part := part.toNat) hc ho st).trans (hrun ▸ issued_work e c)
  obtain ⟨cur, hcur⟩ := issued_core e c
  rw [hrun] at hcur
  refine ⟨_, st, cur, hexec, by rw [finish_get_core]; exact hwork.core.1, hwork.onlyCore, ?_, ?_, by rw [finish_get_core]; exact hcur⟩
  · rw [finish_mem, ← hrun]; rfl
  · rw [finish_ecc, ← hrun]; rfl

/-- Settles O20: a load by the lanes that it widens, a store by the record, the rows and the scale bytes that it leaves in memory. -/
theorem vecConverts : Obligations.VecConverts := by
  unfold Obligations.VecConverts
  refine ⟨fun s c vreg part loc desc d => ?_, fun s c vreg part loc desc d => ?_⟩
  · intro rows sa hl hc hd hf
    obtain ⟨t, ready, hexec, hvec, hframe⟩ := exec_ldVec hl hc hd hf
    exact ⟨t, _, hexec, hvec, rfl, fun k hk => Vec.reg_setReg_ne _ _ _ hk, Vec.reg_setReg_same .., hframe⟩
  · intro rows sa rec_ q data stored hl hc hm hd ho hpart hlen hf
    obtain ⟨t, st, cur, hexec, hpc, honly, hmem, hecc, hcore⟩ := exec_stVec hl hc hd ho
    obtain ⟨bs, hbs, hvmem, hvecc, hvec, hwet⟩ := vecStored_mem (r := vreg.toNat) hc ho hpart hf st
    rw [hvmem] at hmem
    have hwf : Memory.wf (memWrite s.mem rec_ bs) = true := Memory.wf_memWrite _ _ hm
    have hdata : data.length = d.fmt.vecBytes := storeData_length (s := s) (part := part.toNat) hlen
    have hscs : (s.storeScaleBytes c d vreg.toNat part.toNat).length = 8 := storeScaleBytes_length hlen
    have hrows : ∀ a, (d.scaleBytes ≠ 0 → a < sa ∨ sa + 8 ≤ a) →
        memGet t.mem a = memGet (putParts c (part.toNat * d.fmt.vecBytes) (memWrite s.mem rec_ bs) data rows) a := fun a ha => by
      rw [hmem, memGet_vecMem hwf (by rw [hscs]; exact ha)]
      rfl
    refine ⟨t, hexec, hpc, by rw [hcore]; exact hvec, fun a hns hrec hsc => ?_, ?_, fun hs _ => ?_,
      fun r hr => by rw [hcore]; exact hwet r hr, hecc.trans hvecc, honly.1.mono (by decide), honly.2⟩
    · have hout : ∀ r ∈ rows, a < rowAddr c r + part.toNat * d.fmt.vecBytes ∨
          rowAddr c r + part.toNat * d.fmt.vecBytes + min 512 data.length ≤ a := fun r hr => by
        rw [hdata]
        by_contra hin
        exact hns ⟨r, hr, by omega⟩
      rw [hrows a hsc, memGet_putParts_outside hout, memGet_memWrite_outside _ (by rw [hbs]; exact hrec)]
    · intro hnodup i k r hr hk a ha
      have hi : i < d.fmt.vecRows := ((List.getElem?_eq_some_iff.mp hr).1).trans_le vecStoreRows_length
      rw [hrows a ha]
      exact memGet_putParts_inside hwf hnodup (by rw [hdata]; exact part_fits d.fmt hpart) hr (by omega)
        (by rw [hdata]; exact vecRows_hold d.fmt hi hk)
    · have hread := memRead_vecMem (n := c) (off := part.toNat * d.fmt.vecBytes) (bs := data) (rs := rows) (sa := sa)
        (scs := s.storeScaleBytes c d vreg.toNat part.toNat) hwf hs
      rw [hscs] at hread
      rw [State.bytes, hmem]
      exact hread

end Sys2Proof.Machine
end

section
/-! CTL.NOP, CTL.LOOP and CTL.SKIP settled (R142, R152 to R154). -/

namespace Sys2Proof.Machine

/-- CTL.LOOP pushes the loop of the state in which it issues. -/
theorem exec_ctlLoop {s : State} {c : CoreId} {last : BitVec 11} {count : BitVec 20} (h : LaneIssues s c (.ctlLoop last count)) :
    exec (.ctlLoop c last count) s =
      actCore s c (fun u => ctlLane u c (.ctlLoop last count) 0 (some ((s.core c).newLoop last.toNat count.toNat))) := by
  rw [show exec (.ctlLoop c last count) s = execCtlLoop c last count s from rfl, execCtlLoop, actCore_current h.1.1 h.1.2.1,
    actCore_current h.1.1 h.1.2.1]

/-- CTL.SKIP passes over what its condition names in the state in which it issues. -/
theorem exec_ctlSkip {s : State} {c : CoreId} {level : BitVec 3} {cond : BitVec 2} {count : BitVec 11}
    (h : LaneIssues s c (.ctlSkip level cond count)) :
    exec (.ctlSkip c level cond count) s =
      actCore s c (fun u => ctlLane u c (.ctlSkip level cond count) ((s.core c).skips level cond count)) := by
  rw [show exec (.ctlSkip c level cond count) s = execCtlSkip c level cond count s from rfl, execCtlSkip, actCore_current h.1.1 h.1.2.1,
    actCore_current h.1.1 h.1.2.1]

/-- COND of CTL.SKIP by its code (Table 5.2). -/
theorem skipCond_iff (l : Loop) (cond : BitVec 2) : skipCond l cond = true ↔
    (cond = 0 ∧ l.index = 0) ∨ (cond = 1 ∧ l.left = 1) ∨ (cond = 2 ∧ l.index ≠ 0) ∨ (cond = 3 ∧ l.left ≠ 1) := by
  have hcond : cond = 0 ∨ cond = 1 ∨ cond = 2 ∨ cond = 3 := by revert cond; decide
  rcases hcond with rfl | rfl | rfl | rfl <;> simp [skipCond]

/-- Settles O9: each of the three closes its sub-bundle and leaves the rest; where the PC goes is the loop stack's step, or the skip. -/
theorem ctlStepsTheLoops : Obligations.CtlStepsTheLoops := by
  unfold Obligations.CtlStepsTheLoops
  refine ⟨fun s c h => ?_, fun s c last count h => ?_, fun s c level cond count l h hcount hl hin => ?_⟩
  · obtain ⟨t, hexec, honly, hctrs, hprog, hclosed⟩ := ctl_still (skip := 0) (push := none) h rfl
    rw [if_pos rfl] at hclosed
    refine ⟨t, hexec, honly, hctrs, hprog, fun hnil => ?_, fun l rest hls hne => ?_, fun l rest hls heq hleft => ?_,
      fun l rest hls heq hleft => ?_⟩
    · simpa [hnil, stepLoops] using hclosed
    · simpa [hls, stepLoops, hne] using hclosed
    · simpa [hls, stepLoops, heq, hleft] using hclosed
    · replace hclosed : Closed s t c (stepLoops (s.core c).pc rest).1 (stepLoops (s.core c).pc rest).2 := by
        simpa [hls, stepLoops, heq, Nat.not_lt.mpr hleft] using hclosed
      refine ⟨hclosed, ?_⟩
      rintro rfl
      simpa [stepLoops] using hclosed
  · rw [exec_ctlLoop h]
    obtain ⟨t, hexec, honly, hctrs, hprog, hclosed⟩ :=
      ctl_still (skip := 0) (push := some ((s.core c).newLoop last.toNat count.toNat)) h rfl
    exact ⟨t, hexec, honly, hctrs, hprog, by simpa [Core.newLoop] using hclosed⟩
  · rw [exec_ctlSkip h]
    obtain ⟨t, hexec, honly, hctrs, hprog, hclosed⟩ :=
      ctl_still (skip := (s.core c).skips level cond count) (push := none) h rfl
    refine ⟨t, hexec, honly, hctrs, hprog, ?_⟩
    have hpass := stepLoops_pass (s.core c).pc (s.core c).loops fun k hk => by have := hin k hk; omega
    have hskips : (s.core c).skips level cond count = if skipCond l cond then count.toNat else 0 := by
      simp only [Core.skips, Core.loopAt, hl]
    simp only [hpass, hskips, skipCond_iff] at hclosed
    split_ifs at hclosed ⊢ <;> simp_all
end Sys2Proof.Machine
end

section
/-! CTL.SETA and CTL.SLOTLD settled (R140, R156, R171). -/

namespace Sys2Proof.Machine

/-! ### Tables and bytes -/

/-- An entry that a filter keeps is read. -/
theorem tget_filter {α : Type} (d : α) (t : Tab α) {p : Nat × α → Bool} {k : Nat} (h : p (k, tget d t k) = true) :
    tget d (t.filter p) k = tget d t k := by
  induction t with
  | nil => rfl
  | cons e t ih =>
    obtain ⟨a, v⟩ := e
    by_cases hk : k = a
    · subst hk
      rw [tget, if_pos rfl] at h
      rw [List.filter_cons_of_pos h, tget, tget, if_pos rfl, if_pos rfl]
    · rw [tget, if_neg hk] at h ⊢
      rw [← ih h, List.filter_cons]
      split
      · rw [tget, if_neg hk]
      · rfl

/-- A table with k consecutive entries written. -/
def tsetRange {α : Type} (t : Tab α) (first k : Nat) (f : Nat → α) : Tab α := (List.range k).foldl (fun t i => tset t (first + i) (f i)) t

theorem tsetRange_succ {α : Type} (t : Tab α) (first k : Nat) (f : Nat → α) :
    tsetRange t first (k + 1) f = tset (tsetRange t first k f) (first + k) (f k) := by
  simp [tsetRange, List.range_succ]

/-- Each of them is read. -/
theorem tget_tsetRange_inside {α : Type} (d : α) (t : Tab α) (first : Nat) {k i : Nat} (f : Nat → α) (h : i < k) :
    tget d (tsetRange t first k f) (first + i) = f i := by
  induction k with
  | zero => omega
  | succ k ih =>
    rw [tsetRange_succ]
    by_cases hi : i = k
    · rw [hi, tget_tset_same]
    · rw [tget_tset_ne _ _ _ (by omega), ih (by omega)]

/-- No other is touched. -/
theorem tget_tsetRange_outside {α : Type} (d : α) (t : Tab α) {first k x : Nat} (f : Nat → α) (h : x < first ∨ first + k ≤ x) :
    tget d (tsetRange t first k f) x = tget d t x := by
  induction k with
  | zero => rfl
  | succ k ih => rw [tsetRange_succ, tget_tset_ne _ _ _ (by omega), ih (by omega)]

/-- A piece of bytes read is what stands there. -/
theorem bytes_piece (s : State) (a : Nat) {i n k : Nat} (h : i + n ≤ k) : ((s.bytes a k).drop i).take n = s.bytes (a + i) n := by
  apply List.ext_getElem
  · simp [State.bytes, memRead]; omega
  · intro j _ _
    simp [State.bytes, memRead, Nat.add_assoc]

/-! ### CTL.SLOTLD -/

/-- What a CTL.SLOTLD of k entries leaves: the entries, and the CCLK in which they are in effect. -/
def State.slotsLoaded (s : State) (n first k row : Nat) : State := s.onCore n (fun c => { c with
  slots := tsetRange c.slots first k (fun i => s.num (rowAddr n row + 8 * i) 8)
  slotAt := tsetRange c.slotAt first k (fun _ => c.cclk + latOf row + 2) })

theorem evalSlotld_run {s : State} {n : Nat} (he : s.ecc = []) (hs : (s.core n).settled = true) (first : BitVec 10) (countM1 : BitVec 6)
    (row : BitVec 13) : (evalSlotld s n first countM1 row).run = s.slotsLoaded n first.toNat (countM1.toNat + 1) row.toNat := by
  have hgot : (chunks 8 (s.bytes (rowAddr n row.toNat) (8 * (countM1.toNat + 1)))).map leNat =
      (List.range (countM1.toNat + 1)).map (fun i => s.num (rowAddr n row.toNat + 8 * i) 8) := by
    rw [chunks_eq (by decide) (countM1.toNat + 1) _ (by simp [State.bytes, memRead]), List.map_map]
    refine List.map_congr_left fun i hi => ?_
    have hlt := List.mem_range.mp hi
    rw [Function.comp, bytes_piece s _ (by omega), Nat.mul_comm, State.num]
  have hzip : ∀ (k : Nat) (f : Nat → Nat), ((List.range k).map f).zipIdx = (List.range k).map (fun i => (f i, i)) := by
    intro k f
    apply List.ext_getElem <;> simp
  simp only [evalSlotld, schedRead_clean he n hs, hgot, hzip, List.foldl_map, fromN]
  rfl

/-! ### CONTROL lanes that write their core -/

/-- A CONTROL lane whose effect writes its core, but not what sequences it. -/
theorem ctl_onCore {s : State} {c : CoreId} {op : LaneOp} {x : Core} (h : LaneIssues s c op) (hr : (evalOp s c op).run = s.setCore c x)
    (hseq : x.pc = (s.core c).pc ∧ x.loops = (s.core c).loops ∧ x.cclk = (s.core c).cclk ∧ x.vecNext = (s.core c).vecNext) :
    ∃ t, actCore s c (fun s => ctlLane s c op) = .next t ∧ OnlyCore s t c [.ctrs] ∧ CtrsBut s t (closeCtrs c) ∧
      Closed s t c (stepLoops (s.core c).pc (s.core c).loops).1 (stepLoops (s.core c).pc (s.core c).loops).2 ∧
      (t.core c).program = x.program ∧ (t.core c).slotAt = x.slotAt.filter (fun e => decide (x.cclk + 1 < e.2)) := by
  obtain ⟨hpc, hloops, hcclk, hvec⟩ := hseq
  have hcore : (evalOp s c op).run.core c = x := by rw [hr, State.core_setCore_same]
  obtain ⟨t, hexec, honly, hclosed, hprog, hctrs, -, ht⟩ := ctl_effect (may := []) h (by rw [hr]; rfl)
    (fun p _ hp _ => by rw [hr]; exact setCore_same s c x hp) (fun m hm => by rw [hr, State.core_setCore_ne s x hm])
    (by rw [hcore, hpc]) (by rw [hcore, hloops]) (by rw [hcore, hcclk]) (by rw [hcore, hvec]) (by rw [hr]; rfl) (by rw [hr]; rfl)
  refine ⟨t, hexec, honly, fun k hk => by rw [hctrs k hk, hr]; rfl, hclosed, by rw [hprog, hcore], ?_⟩
  obtain ⟨cur, hcur⟩ := issued_core (evalOp s c op) c
  rw [ht, finish_get_core, closeSub_core, Core.refill_eq, hcur, hcore]
  rfl

/-- Settles O10: the half of the register that CTL.SETA writes, and the entries that CTL.SLOTLD reads from the row. -/
theorem ctlSetaSlotldLoad : Obligations.CtlSetaSlotldLoad := by
  unfold Obligations.CtlSetaSlotldLoad
  refine ⟨fun s c r half imm h => ?_, fun s c first countM1 row h he hs => ?_⟩
  · generalize hv : (if half then putFld (s.areg c r.toNat) 47 24 imm.toNat else putFld (s.areg c r.toNat) 23 0 imm.toNat) = v
    obtain ⟨t, hexec, honly, hctrs, hclosed, hprog, -⟩ := ctl_onCore (x := { s.core c with areg := tset (s.core c).areg r.toNat v })
      h (by simp only [evalOp, evalSeta, hv]; rfl) ⟨rfl, rfl, rfl, rfl⟩
    have hareg : ∀ k, t.areg c k = tget 0 (tset (s.core c).areg r.toNat v) k := fun k => by rw [areg_program, hprog]; rfl
    have himm : imm.toNat % 2 ^ 24 = imm.toNat := Nat.mod_eq_of_lt imm.isLt
    refine ⟨t, hexec, honly, hctrs, hclosed, ?_, fun k hk => ?_, ?_, ?_⟩
    · have htab : (t.core c).areg = tset (s.core c).areg r.toNat v := congrArg Core.areg hprog
      rw [hprog, htab]; rfl
    · rw [hareg, tget_tset_ne _ _ _ hk]; rfl
    all_goals rw [hareg, tget_tset_same, ← hv]
    all_goals cases half
    · exact fld_putFld_above _ _ (by decide) (by decide)
    · exact (fld_putFld_same ..).trans himm
    · exact (fld_putFld_same ..).trans himm
    · exact fld_putFld_below _ _ (by decide) (by decide)
  · obtain ⟨t, hexec, honly, hctrs, hclosed, hprog, hat⟩ := ctl_onCore h (evalSlotld_run he hs first countM1 row) ⟨rfl, rfl, rfl, rfl⟩
    have hslots : (t.core c).slots = tsetRange (s.core c).slots first.toNat (countM1.toNat + 1)
        (fun i => s.num (rowAddr c row.toNat + 8 * i) 8) := congrArg Core.slots hprog
    refine ⟨t, hexec, honly, hctrs, hclosed, by rw [hslots]; exact hprog, fun i hi => ?_, fun i hi => ?_, fun e he => ?_⟩
    · rw [State.slot, hslots, tget_tsetRange_inside 0 _ _ _ (Nat.lt_succ_of_le hi)]
    · have hin := tget_tsetRange_inside 0 (s.core c).slotAt first.toNat (fun _ => (s.core c).cclk + latOf row.toNat + 2) (Nat.lt_succ_of_le hi)
      replace hat : (t.core c).slotAt = (tsetRange _ _ _ _).filter _ := hat
      rw [hat, tget_filter _ _ (by rw [hin]; simp only [decide_eq_true_eq]; omega), hin, latOf]
    · rw [State.slot, hslots, tget_tsetRange_outside 0 _ _ (by omega)]; rfl

end Sys2Proof.Machine
end

section
/-! CTL.SWAIT and CTL.SDROP settled (R160, R162). -/

namespace Sys2Proof.Machine

/-! ### A sub-bundle of a CONTROL operation alone -/

/-- A CONTROL operation alone in its sub-bundle, its checks met, naming no bank: it issues unless it waits (R168). -/
theorem judge_alone {s : State} {n : Nat} {op : LaneOp} (hcur : (s.core n).cur = {}) (hl : s.lintelHeld n = false)
    (henc : (evalOp s n op).enc = 0) (huses : (evalOp s n op).uses = []) (htiming : (evalOp s n op).timing = 0) :
    s.judge n [op] = if (evalOp s n op).holds.isEmpty && (evalOp s n op).slots.isEmpty then .issue else .hold := by
  have hcode : (evalOp s n op).code s n = 0 := by
    have hring : (evalOp s n op).ring.any ([] : List Nat).contains = false := by cases (evalOp s n op).ring <;> rfl
    have hhalf : (evalOp s n op).half.any ([] : List Nat).contains = false := by cases (evalOp s n op).half <;> rfl
    simp [Eval.code, henc, State.bankClash, huses, hcur, hring, hhalf]
  have hwaits : (evalOp s n op).waits s n = !((evalOp s n op).holds.isEmpty && (evalOp s n op).slots.isEmpty) := by
    simp [Eval.waits, State.bankHolds, huses, Bool.not_and]
  simp only [State.judge, evalAll, verdict, List.find?_cons, hcode, hl, hwaits, htiming, List.any_cons, List.any_nil]
  cases (evalOp s n op).holds.isEmpty && (evalOp s n op).slots.isEmpty <;> rfl

/-- It is the next lane where nothing of its sub-bundle has issued. -/
theorem laneIssues_alone {s : State} {n : Nat} {op : LaneOp} (h : CoreIssues s n)
    (hd : decodeSub (BitVec.ofNat 256 (s.core n).word) = some [op]) (hcur : (s.core n).cur = {}) (hj : s.judge n [op] = .issue) :
    LaneIssues s n op := ⟨h, [op], hd, by rw [hcur]; rfl, .inr hj⟩

/-- A CONTROL operation alone in a sub-bundle that holds leaves everything as it is. -/
theorem ctlLane_held {s : State} {n : Nat} {op : LaneOp} (h : CoreIssues s n)
    (hd : decodeSub (BitVec.ofNat 256 (s.core n).word) = some [op]) (hcur : (s.core n).cur = {}) (hj : s.judge n [op] = .hold) :
    ∃ t, actCore s n (fun s => ctlLane s n op) = .next t ∧ Unchanged s t [] := by
  obtain ⟨hlive, hcurrent, he, hp, hf⟩ := h
  refine ⟨_, actCore_current hlive hcurrent _, ?_⟩
  have hlane : ctlLane s n op = s := by simp [ctlLane, lane, he, hp, hf, hd, hcur, hj]
  rw [hlane]
  exact unchanged_finish rfl fun p _ => Part.same_refl s p

/-! ### CTL.SWAIT -/

/-- CTL.SWAIT waits on its slot alone (R162). -/
theorem judge_ctlSwait {s : State} {n : Nat} {empty : Bool} {head : BitVec 10} (hs : (s.core n).settled = true)
    (hcur : (s.core n).cur = {}) (hl : s.lintelHeld n = false) (hring : s.ringOk n head.toNat = true)
    (hdir : sOut (s.slot n head.toNat) = empty) :
    s.judge n [.ctlSwait empty head] =
      if (if empty then s.slotFull n head.toNat (sProd (s.slot n head.toNat)) = false
          else s.slotFull n head.toNat (sCons (s.slot n head.toNat)) = true) then .issue else .hold := by
  rw [judge_alone hcur hl (by simp [evalOp, evalSwait, early_settled hs, hring, hdir, need]) rfl rfl]
  simp only [evalOp, evalSwait, early_settled hs]
  cases empty
  · cases s.slotFull n head.toNat (sCons (s.slot n head.toNat)) <;> simp
  · cases s.slotFull n head.toNat (sProd (s.slot n head.toNat)) <;> simp

/-! ### CTL.SDROP -/

/-- What a CTL.SDROP of k slots leaves: the slots not FULL, CONS_POS moved past them, and their count. -/
def State.slotsDropped (s : State) (n h k : Nat) : State :=
  ((s.setFulls n h (sCons (s.slot n h)) k false).advCons n h k).bump (.core n) 0x68 k

theorem evalSdrop_run {s : State} {n : Nat} (hs : (s.core n).settled = true) (countM1 : BitVec 6) (head : BitVec 10) :
    (evalSdrop s n countM1 head).run = s.slotsDropped n head.toNat (countM1.toNat + 1) := by
  simp only [evalSdrop, early_settled hs]
  rfl

section
variable (s : State) (n h k : Nat)

/-- It writes the slot table of its core and one counter. -/
theorem slotsDropped_eq : ∃ sl, s.slotsDropped n h (k + 1) = (s.setCore n { s.core n with slots := sl }).bump (.core n) 0x68 (k + 1) := by
  obtain ⟨sl, hsl⟩ := setFulls_eq s n h (sCons (s.slot n h)) k false
  unfold State.slotsDropped
  rw [hsl, State.advCons, State.setSlot, State.onCore_eq, State.core_setCore_same, setCore_setCore]
  exact ⟨_, rfl⟩

/-- Of an entry, the fields above and below CONS_POS but FULL stand. -/
theorem slotsDropped_fld (e : Nat) {hi lo : Nat} (hhi : hi < 63) (hlo : lo ≤ hi) (hcons : hi < 38 ∨ 43 < lo) :
    fld ((s.slotsDropped n h k).slot n e) hi lo = fld (s.slot n e) hi lo := by
  obtain ⟨hfld, -, -⟩ := setFulls_slots s n h (sCons (s.slot n h)) k false
  change fld (((s.setFulls n h (sCons (s.slot n h)) k false).advCons n h k).slot n e) hi lo = _
  rw [slot_advCons]
  split
  · next he =>
    subst he
    refine Eq.trans ?_ (hfld e hi lo hhi hlo)
    exact hcons.elim (fun hc => fld_putFld_below _ _ hc hlo) fun hc => fld_putFld_above _ _ hc (by decide)
  · exact hfld e hi lo hhi hlo

theorem slotsDropped_cons : sCons ((s.slotsDropped n h k).slot n h) = (sCons (s.slot n h) + k) % sLen (s.slot n h) := by
  obtain ⟨hfld, -, -⟩ := setFulls_slots s n h (sCons (s.slot n h)) k false
  refine (sCons_advCons _ n h k).trans ?_
  rw [sCons, sLen, hfld h 43 38 (by decide) (by decide), hfld h 37 32 (by decide) (by decide)]
  rfl

theorem slotsDropped_empty {i : Nat} (hi : i < k) : (s.slotsDropped n h k).slotFull n h (sCons (s.slot n h) + i) = false := by
  obtain ⟨-, hfull, -⟩ := setFulls_slots s n h (sCons (s.slot n h)) k false
  have hlen : sLen ((s.slotsDropped n h k).slot n h) = sLen (s.slot n h) := by
    rw [sLen, slotsDropped_fld s n h k h (by decide) (by decide) (by decide), sLen]
  rw [State.slotFull, State.ringSlot, hlen, sFull, ← hfull i hi, bitAt_eq_fld, bitAt_eq_fld]
  change (fld (((s.setFulls n h (sCons (s.slot n h)) k false).advCons n h k).slot n _) 63 63 == 1) = _
  rw [slot_advCons]
  split
  · next he => rw [fld_putFld_above _ _ (by decide) (by decide), he]
  · rfl

theorem slotsDropped_other {e : Nat} (he : e ≠ h) (hi : ∀ i, i < k → e ≠ h + (sCons (s.slot n h) + i) % sLen (s.slot n h)) :
    (s.slotsDropped n h k).slot n e = s.slot n e := by
  obtain ⟨-, -, hother⟩ := setFulls_slots s n h (sCons (s.slot n h)) k false
  refine (slot_advCons _ n h k e).trans ?_
  rw [if_neg he, hother e hi]

end

/-- CTL.SDROP as a command. -/
theorem exec_ctlSdrop {s : State} {c : CoreId} {countM1 : BitVec 6} {head : BitVec 10} (h : LaneIssues s c (.ctlSdrop countM1 head))
    (hs : (s.core c).settled = true) :
    let r := s.slotsDropped c head.toNat (countM1.toNat + 1)
    ∃ t, exec (.ctlSdrop c countM1 head) s = .next t ∧ OnlyCore s t c [.ctrs] ∧ CtrsBut s t (closeCtrs c ++ ctrsAt (.core c) [0x68]) ∧
      Closed s t c (stepLoops (s.core c).pc (s.core c).loops).1 (stepLoops (s.core c).pc (s.core c).loops).2 ∧
      (t.core c).program = { (s.core c).program with slots := (t.core c).slots } ∧ (∀ e, t.slot c e = r.slot c e) ∧
      t.ctr (.core c) 0x68 = (s.ctr (.core c) 0x68 + (countM1.toNat + 1)) % 2 ^ 48 := by
  intro r
  have hrun : (evalOp s c (.ctlSdrop countM1 head)).run = r := evalSdrop_run hs countM1 head
  obtain ⟨sl, hr⟩ := slotsDropped_eq s c head.toNat countM1.toNat
  replace hr : r = (s.setCore c { s.core c with slots := sl }).bump (.core c) 0x68 (countM1.toNat + 1) := hr
  have hcore : r.core c = { s.core c with slots := sl } := by rw [hr, State.bump_get_core, State.core_setCore_same]
  obtain ⟨t, hexec, honly, hclosed, hprog, hctrs, -, -⟩ := ctl_effect (may := []) h (by rw [hrun, hr]; rfl)
    (fun p _ hp hp' => by rw [hrun, hr]; exact Part.same_trans (setCore_same s c _ hp) (bump_same _ _ _ _ hp'))
    (fun m hm => by rw [hrun, hr, State.bump_get_core, State.core_setCore_ne s _ hm])
    (by rw [hrun, hcore]) (by rw [hrun, hcore]) (by rw [hrun, hcore]) (by rw [hrun, hcore]; rfl)
    (by rw [hrun, hr, State.ctr_bump_ne _ _ (by omega)]; rfl) (by rw [hrun, hr, State.ctr_bump_ne _ _ (by omega)]; rfl)
  rw [hrun] at hprog hctrs
  refine ⟨t, hexec, honly, fun k hk => ?_, hclosed, ?_, fun e => by rw [slot_program, hprog]; rfl, ?_⟩
  · simp only [ctrsAt, List.map_cons, List.map_nil, List.mem_append, List.mem_singleton, not_or] at hk
    rw [hctrs k hk.1, hr, State.ctrs_bump_ne _ _ _ _ _ hk.2]
    rfl
  · have hslots : (t.core c).slots = sl := (congrArg Core.slots hprog).trans (by rw [hcore]; rfl)
    rw [hprog, hslots, hcore]
    rfl
  · have hkept := hctrs ((Page.core c).base + 0x68) (by simp [closeCtrs, ctrsAt])
    rw [State.ctr, hkept, hr]
    exact State.ctr_bump_same (s.setCore c _) (.core c) 0x68 _

/-- Settles O11: CTL.SWAIT by what its slot shows, CTL.SDROP by the slots, the position and the count that it leaves. -/
theorem ctlSwaitSdropRun : Obligations.CtlSwaitSdropRun := by
  unfold Obligations.CtlSwaitSdropRun
  refine ⟨fun s c empty head hs => ⟨fun h => ?_, fun h hd hcur hl hring hdir => ?_⟩, fun s c countM1 head h hs _ => ?_⟩
  · obtain ⟨t, hexec, honly, hctrs, hprog, hclosed⟩ := ctl_still (skip := 0) (push := none) h (early_settled hs _)
    exact ⟨t, hexec, honly, hctrs, hclosed, hprog⟩
  · have hjudge := judge_ctlSwait hs hcur hl hring hdir
    exact ⟨fun hready => laneIssues_alone h hd hcur (hjudge.trans (if_pos hready)),
      fun hready => ctlLane_held h hd hcur (hjudge.trans (if_neg hready))⟩
  · obtain ⟨t, hexec, honly, hctrs, hclosed, hprog, hslot, hcount⟩ := exec_ctlSdrop h hs
    have hfull : ∀ pos, t.slotFull c head.toNat pos = (s.slotsDropped c head.toNat (countM1.toNat + 1)).slotFull c head.toNat pos :=
      fun pos => by simp only [State.slotFull, State.ringSlot, hslot]
    refine ⟨t, hexec, honly, hctrs, hclosed, hprog, ?_, fun i hi => ?_, fun e he hi => ?_, hcount⟩
    · rw [hslot, slotsDropped_cons]; rfl
    · rw [hfull, slotsDropped_empty _ _ _ _ (Nat.lt_succ_of_le hi)]
    · rw [hslot, slotsDropped_other _ _ _ _ he fun i hlt => hi i (Nat.le_of_lt_succ hlt)]

end Sys2Proof.Machine
end

section
/-! Messages of the engines and lintels sent (R344, R345): what they leave alone, and that their ports turn on no lintel and no counter. -/

namespace Sys2Proof.Machine

/-! ### Link faults -/

/-- The UNIT of a port is no core and no quarry. -/
theorem portUnit_other : ∀ p : PortId, (Page.port p).unit / 2 ^ 24 ≠ 0x10 ∧ (Page.port p).unit / 2 ^ 24 ≠ 0x20 := by decide

/-- A link fault touches the ring, the counters and the registers. -/
theorem linkFault_same (s : State) (p : PortId) (cause peer seq abortCls : Nat) (job : Option Nat) (status : Nat) (torn : Bool) {q : Part}
    (h : q ∉ [Part.flt, .ctrs, .regs]) : q.same s (s.linkFault p cause peer seq abortCls job status torn) := by
  obtain ⟨hcores, hquarries⟩ := fault_blocks s 5 status job (if torn then 1 else 0)
    (natLe 1 p ++ natLe 1 cause ++ natLe 2 peer ++ natLe 4 seq ++ natLe 1 abortCls) 0 (portUnit_other p)
  by_cases hq : q = .cores ∨ q = .quarries
  · rcases hq with rfl | rfl
    exacts [hcores, hquarries]
  · exact fault_same _ _ _ _ _ _ _ _ (by revert h hq; cases q <;> decide)

/-! ### Messages sent -/

/-- A state after messages were sent, or found no route: ports, and what a link fault touches; the counters of no page but the fault page, and
of port 0 the one of messages with no route. -/
structure Sends (s t : State) : Prop where
  same : ∀ p, p ∉ [Part.ports, .flt, .ctrs, .regs] → p.same s t
  pending : t.pending = s.pending
  ctrs : ∀ k, 0x5000 ≤ k → k ≠ (Page.port 0).base + 0xB0 → tget 0 t.ctrs k = tget 0 s.ctrs k

theorem Sends.trans {s t u : State} (h : Sends s t) (g : Sends t u) : Sends s u :=
  ⟨fun p hp => Part.same_trans (h.same p hp) (g.same p hp), g.pending.trans h.pending,
    fun k hk hk' => (g.ctrs k hk hk').trans (h.ctrs k hk hk')⟩

theorem sends_sendCtl (s : State) (sender : Nat) (m : Msg) : Sends s (s.sendCtl sender m) := by
  unfold State.sendCtl
  extract_lets m'
  split
  · next p _ =>
    exact ⟨fun q hq => by cases q <;> first | exact absurd (by decide) hq | simp [Part.same, Part.kept, State.queueMsg], rfl, fun _ _ _ => rfl⟩
  · refine ⟨fun q hq => ?_, by simp [State.linkFault], fun k hk hk' => ?_⟩
    · exact Part.same_trans (bump_same _ _ _ _ (by rintro rfl; exact hq (by decide)))
        (linkFault_same _ 0 _ _ _ _ _ _ _ (by revert hq; cases q <;> decide))
    · exact (fault_ctrs _ (by decide) _ _ _ _ _ _ hk).trans (State.ctrs_bump_ne _ _ _ _ _ hk')

theorem sends_sendGroup (s : State) (sender g : Nat) (m : Msg) : Sends s (s.sendGroup sender g m) := by
  unfold State.sendGroup
  generalize s.members g = ds
  induction ds generalizing s with
  | nil => exact ⟨fun p _ => Part.same_refl s p, rfl, fun _ _ _ => rfl⟩
  | cons d ds ih => exact (sends_sendCtl s sender { m with dst := d }).trans (ih _)

/-! ### What the ports turn on -/

/-- A state with other lintels and counters. -/
def State.withLints (s : State) (ls : Tab Lint) (cs : Tab Nat) : State := { s with lintels := ls, ctrs := cs }

theorem keepFault_withLints (s : State) (ls : Tab Lint) (cs : Tab Nat) (cls sub seq : Nat) (bs : List Byte) {unit : Nat}
    (h : unit / 2 ^ 24 ≠ 0x10 ∧ unit / 2 ^ 24 ≠ 0x20) :
    ∃ cs', (s.withLints ls cs).keepFault cls unit sub seq bs = (s.keepFault cls unit sub seq bs).withLints ls cs' := by
  unfold State.keepFault
  dsimp only
  split_ifs with hroom hroom'
  · exact ⟨_, rfl⟩
  · exact absurd hroom hroom'
  · exact absurd ‹_› hroom
  · rw [releaseLatch_other _ _ h, releaseLatch_other _ _ h]
    exact ⟨_, rfl⟩

theorem sendCtl_withLints (s : State) (ls : Tab Lint) (cs : Tab Nat) (sender : Nat) (m : Msg) :
    ∃ cs', (s.withLints ls cs).sendCtl sender m = (s.sendCtl sender m).withLints ls cs' := by
  have hroute : (s.withLints ls cs).routePort sender m.dst = s.routePort sender m.dst := rfl
  unfold State.sendCtl
  dsimp only
  rw [hroute]
  cases s.routePort sender m.dst with
  | some p => exact ⟨cs, rfl⟩
  | none =>
    dsimp only [State.linkFault]
    rw [fault_other _ (by decide), fault_other _ (by decide)]
    exact keepFault_withLints (s.bump (.port 0) 0xB0) ls _ 5 0 _ _ (portUnit_other 0)

/-- The ports after a message to a group turn on no lintel and no counter. -/
theorem sendGroup_withLints (s : State) (ls : Tab Lint) (cs : Tab Nat) (sender g : Nat) (m : Msg) :
    ∃ cs', (s.withLints ls cs).sendGroup sender g m = (s.sendGroup sender g m).withLints ls cs' := by
  unfold State.sendGroup
  rw [show (s.withLints ls cs).members g = s.members g from rfl]
  generalize s.members g = ds
  induction ds generalizing s cs with
  | nil => exact ⟨cs, rfl⟩
  | cons d ds ih =>
    obtain ⟨cs', hsend⟩ := sendCtl_withLints s ls cs sender { m with dst := d }
    rw [List.foldl_cons, List.foldl_cons, hsend]
    exact ih _ cs'

end Sys2Proof.Machine
end

section
/-! Lintels settled (R163 to R166). -/

namespace Sys2Proof.Machine

/-! ### An arrival -/

/-- A core's own arrival, before any message. -/
def State.arrivedAt (s : State) (n j id : Nat) : State :=
  (s.onLint j id (fun l => { l with arrived := l.arrived ||| 2 ^ n, last := tset l.last n l.phase })).bump (.core n) 0x58

/-- Whether the arrival of a core is the last of a lintel that has a notify group. -/
def Lint.lastArrival (l : Lint) (n : Nat) : Prop := (l.arrived ||| 2 ^ n) &&& l.mask = l.mask ∧ l.notify ≠ 0xFF

theorem arrivedAt_same (s : State) (n j id : Nat) {p : Part} (h : p ≠ .lintels) (h' : p ≠ .ctrs) : p.same s (s.arrivedAt n j id) := by
  refine Part.same_trans (u := s.onLint j id _) ?_ (bump_same _ _ _ _ h')
  cases p <;> first | exact absurd rfl h | simp [Part.same, Part.kept]

section
variable {s : State} {n j id : Nat}

theorem arrive_last (h : (s.lint j id).lastArrival n) : s.arrive n j id =
    (s.arrivedAt n j id).sendGroup 0 (s.lint j id).notify (lintelMsg (s.keyOf j) id (s.lint j id).phase) := by
  obtain ⟨hall, hgroup⟩ := h
  unfold State.arrive
  dsimp only
  rw [State.bump_get_lint, State.lint_onLint_same]
  exact if_pos (by simp [hall, hgroup])

theorem arrive_early (h : ¬ (s.lint j id).lastArrival n) : s.arrive n j id = s.arrivedAt n j id := by
  unfold State.arrive
  dsimp only
  rw [State.bump_get_lint, State.lint_onLint_same]
  exact if_neg (by simpa [Lint.lastArrival] using h)

end

/-- CTL.ARRIVE leaves what its arrival leaves; CTL.LINTEL then waits for the phase in which its core arrived (R164). -/
theorem evalArrive_run {s : State} {n j : Nat} (id : BitVec 8) (wait : Bool) (hj : (s.core n).job = some j) :
    (evalArrive s n id wait).run = if wait then (s.arrive n j id.toNat).onCore n
      (fun c => { c with lintWait := some (id.toNat, (s.lint j id.toNat).phase) }) else s.arrive n j id.toNat := by
  simp only [evalArrive, hj, Option.getD_some]

/-- CTL.ARRIVE and CTL.LINTEL touch their own core's wait, beyond the arrival. -/
theorem evalArrive_effect {s : State} {n j : Nat} (id : BitVec 8) (wait : Bool) (hj : (s.core n).job = some j)
    (hcores : (s.arrive n j id.toNat).cores = s.cores) :
    (evalArrive s n id wait).run.core n =
        { s.core n with lintWait := if wait then some (id.toNat, (s.lint j id.toNat).phase) else (s.core n).lintWait } ∧
      (∀ m, m ≠ n → (evalArrive s n id wait).run.core m = s.core m) ∧
      (evalArrive s n id wait).run.pending = (s.arrive n j id.toNat).pending ∧
      ∀ p : Part, p ≠ .cores → p.same (s.arrive n j id.toNat) (evalArrive s n id wait).run := by
  have hcore : ∀ m, (s.arrive n j id.toNat).core m = s.core m := fun m => by rw [State.core, hcores]; rfl
  rw [evalArrive_run id wait hj]
  cases wait with
  | false => exact ⟨hcore n, fun m _ => hcore m, rfl, fun p _ => Part.same_refl _ p⟩
  | true =>
    refine ⟨?_, fun m hm => (State.core_setCore_ne _ _ hm).trans (hcore m), rfl, fun p hp => setCore_same _ _ _ hp⟩
    rw [if_pos rfl, if_pos rfl, State.onCore_eq, State.core_setCore_same, hcore]

/-- Everything about CTL.ARRIVE and CTL.LINTEL, from what the arrival leaves alone. -/
theorem exec_arrive {s w : State} {c : CoreId} {id : BitVec 8} {j : Nat} {wait : Bool} {may : List Part}
    (h : LaneIssues s c (if wait then .ctlLintel id else .ctlArrive id)) (hj : (s.core c).job = some j) (hw : s.arrive c j id.toNat = w)
    (hp : w.pending = s.pending) (hcores : w.cores = s.cores) (hs : ∀ p, p ∉ may → p ≠ .ctrs → p.same s w)
    (h48 : w.ctr (.core c) 0x48 = s.ctr (.core c) 0x48) (h40 : w.ctr (.core c) 0x40 = s.ctr (.core c) 0x40) :
    ∃ t, exec (if wait then .ctlLintel c id else .ctlArrive c id) s = .next t ∧ OnlyCore s t c (.ctrs :: may) ∧
      Closed s t c (stepLoops (s.core c).pc (s.core c).loops).1 (stepLoops (s.core c).pc (s.core c).loops).2 ∧
      (t.core c).program = { (s.core c).program with
        lintWait := if wait then some (id.toNat, (s.lint j id.toNat).phase) else (s.core c).lintWait } ∧
      (∀ k, k ∉ closeCtrs c → tget 0 t.ctrs k = tget 0 w.ctrs k) ∧ t.lintels = w.lintels ∧ t.ports = w.ports := by
  obtain ⟨hown, hother, hpending, hpart⟩ := evalArrive_effect (n := c) id wait hj (hw ▸ hcores)
  rw [hw] at hpending hpart
  have hctrs : (evalArrive s c id wait).run.ctrs = w.ctrs := hpart .ctrs (by decide)
  have hop : evalOp s c (if wait then .ctlLintel id else .ctlArrive id) = evalArrive s c id wait := by cases wait <;> rfl
  rw [← hop] at hown hother hpending hpart hctrs
  obtain ⟨t, hexec, honly, hclosed, hprog, hclose, hsame, rfl⟩ := ctl_effect (may := may) h (hpending.trans hp)
    (fun p hm hc hk => Part.same_trans (hs p hm hk) (hpart p hc)) hother (by rw [hown]) (by rw [hown]) (by rw [hown])
    (by rw [hown]; rfl) (by rw [State.ctr, hctrs]; exact h48) (by rw [State.ctr, hctrs]; exact h40)
  refine ⟨_, ?_, honly, hclosed, ?_, fun k hk => by rw [hclose k hk, hctrs], ?_, ?_⟩
  · rw [← hexec]; cases wait <;> rfl
  · rw [hprog, hown]; rfl
  · exact (finish_lintels _ _).trans (Part.same_trans (hpart .lintels (by decide)) (hsame .lintels (by decide) (by decide)))
  · exact (finish_ports _ _).trans (Part.same_trans (hpart .ports (by decide)) (hsame .ports (by decide) (by decide)))

/-- The lintel after an arrival. -/
theorem lint_arrivedAt (s : State) (n j id : Nat) : (s.arrivedAt n j id).lint j id =
    { s.lint j id with arrived := (s.lint j id).arrived ||| 2 ^ n, last := tset (s.lint j id).last n (s.lint j id).phase } := by
  rw [State.arrivedAt, State.bump_get_lint, State.lint_onLint_same]

theorem lint_arrivedAt_ne (s : State) (n : Nat) {j id k m : Nat} (h : 256 * k + m ≠ 256 * j + id) :
    (s.arrivedAt n j id).lint k m = s.lint k m := by
  rw [State.arrivedAt, State.bump_get_lint, State.lint_onLint_ne _ _ h]

/-- The last arrival's messages are those of the state before it. -/
theorem arrive_ports {s : State} {n j id : Nat} (h : (s.lint j id).lastArrival n) : (s.arrive n j id).ports =
    (s.sendGroup 0 (s.lint j id).notify (lintelMsg (s.keyOf j) id (s.lint j id).phase)).ports := by
  obtain ⟨cs, hcs⟩ := sendGroup_withLints s (s.arrivedAt n j id).lintels (s.arrivedAt n j id).ctrs 0 (s.lint j id).notify
    (lintelMsg (s.keyOf j) id (s.lint j id).phase)
  have hports := congrArg State.ports hcs
  rw [arrive_last h]
  exact hports

/-- An arrival and its messages: of lintels and counters the core's own, and what sending touches. -/
theorem sends_arrive (s : State) (n j id : Nat) : Sends (s.arrivedAt n j id) (s.arrive n j id) := by
  by_cases h : (s.lint j id).lastArrival n
  · rw [arrive_last h]; exact sends_sendGroup _ _ _ _
  · rw [arrive_early h]; exact ⟨fun p _ => Part.same_refl _ p, rfl, fun _ _ _ => rfl⟩

/-- Of its core's counters an arrival moves the one of arrivals. -/
theorem ctr_arrive (s : State) (c : CoreId) (j id o : Nat) (ho : o < 0x1000) :
    (s.arrive c j id).ctr (.core c) o = (s.arrivedAt c j id).ctr (.core c) o :=
  (sends_arrive s c j id).ctrs _ (by simp only [Page.base]; omega) (by have := c.isLt; simp only [Page.base]; omega)

/-! ### CTL.WAIT -/

/-- CTL.WAIT waits for the phase in which its core last arrived (R164). -/
theorem judge_ctlWait {s : State} {c : CoreId} {id : BitVec 8} {j p : Nat} (hcur : (s.core c).cur = {}) (hl : s.lintelHeld c = false)
    (hj : (s.core c).job = some j) (hv : (s.lint j id.toNat).valid = true) (hm : bitAt (s.lint j id.toNat).mask c = true)
    (hlast : tfind (s.lint j id.toNat).last c = some p) :
    s.judge c [.ctlWait id] = if p < (s.lint j id.toNat).phase then .issue else .hold := by
  rw [judge_alone hcur hl (by simp [evalOp, evalWait, hj, hv, need]) rfl rfl]
  by_cases hp : p < (s.lint j id.toNat).phase
  · simp [evalOp, evalWait, hj, hm, hlast, hp]
  · simp [evalOp, evalWait, hj, hm, hlast, hp, Nat.le_of_not_lt hp]

/-! ### LINTEL_RELEASE -/

/-- A lintel whose phase is released. -/
def Lint.next (l : Lint) : Lint := { l with phase := l.phase + 1, arrived := 0, msgCur := l.msgNext, msgNext := 0 }

/-- Whether a lintel has gathered all it waits for. -/
def Lint.whole (l : Lint) : Prop := l.arrived &&& l.mask = l.mask ∧ l.expect ≤ l.msgCur ∧ (l.mask ≠ 0 ∨ l.expect ≠ 0)

theorem release_whole {s : State} {j id : Nat} (hv : (s.lint j id).valid = true) (hw : (s.lint j id).whole) :
    s.release j id = (s.onLint j id Lint.next).tagRelease j id := by
  obtain ⟨harrived, hexpect, hsome⟩ := hw
  exact if_pos (by simpa [hv, harrived, hexpect] using hsome)

theorem release_waits {s : State} {j id : Nat} (hw : ¬ (s.lint j id).whole) : s.release j id = s :=
  if_neg (by simpa [Lint.whole, and_assoc] using fun _ => not_and.mp hw)

@[simp] theorem finish_get_lint (s0 s : State) (j id : Nat) : (finish s0 s).lint j id = s.lint j id := by simp [State.lint]

/-- A release is of no account to a job without tags. -/
theorem tagRelease_none {s : State} {j : Nat} (h : ∀ e ∈ s.red.tags, e.1 / 4096 ≠ j) (id : Nat) : s.tagRelease j id = s := by
  have hnone : s.red.tags.filter (fun e => e.1 / 4096 == j && e.2.st != .idle) = [] :=
    List.filter_eq_nil_iff.mpr fun e he => by simp [h e he]
  rw [State.tagRelease, hnone, List.foldl_nil]

/-- Settles O12: an arrival by what it and its messages leave alone, CTL.WAIT by the phase it waits for, a release by what it waits for. -/
theorem lintelsGather : Obligations.LintelsGather := by
  unfold Obligations.LintelsGather
  refine ⟨fun s c id j wait h hj => ?_, fun s c id => ⟨fun h => ?_, fun j p h hd hcur hl hj hv hm hlast => ?_⟩, fun s j id hlive hv => ⟨?_, ?_⟩⟩
  · have hsends := sends_arrive s c j id.toNat
    have hlints : (s.arrive c j id.toNat).lintels = (s.arrivedAt c j id.toNat).lintels := hsends.same .lintels (by decide)
    have hsame : ∀ p : Part, p ∉ [Part.lintels, .ports, .flt, .regs] → p ≠ .ctrs → p.same s (s.arrive c j id.toNat) := fun p hp hc => by
      simp only [List.mem_cons, List.not_mem_nil, or_false, not_or] at hp
      obtain ⟨hlint, hports, hflt, hregs⟩ := hp
      exact Part.same_trans (arrivedAt_same s c j id.toNat hlint hc) (hsends.same p (by simp [hports, hflt, hc, hregs]))
    have hcores : (s.arrive c j id.toNat).cores = s.cores := hsame .cores (by decide) (by decide)
    have h48 : (s.arrive c j id.toNat).ctr (.core c) 0x48 = s.ctr (.core c) 0x48 :=
      (ctr_arrive s c j _ _ (by decide)).trans (State.ctr_bump_ne _ 1 (by omega))
    have h40 : (s.arrive c j id.toNat).ctr (.core c) 0x40 = s.ctr (.core c) 0x40 :=
      (ctr_arrive s c j _ _ (by decide)).trans (State.ctr_bump_ne _ 1 (by omega))
    obtain ⟨t, hexec, honly, hclosed, hprog, hctrs, htl, htp⟩ := exec_arrive h hj rfl hsends.pending hcores hsame h48 h40
    have hlint : ∀ k m, t.lint k m = (s.arrivedAt c j id.toNat).lint k m := fun k m => by rw [State.lint, htl, hlints]; rfl
    refine ⟨t, hexec, honly, fun hearly => ⟨?_, fun k hk => ?_⟩, fun hlast => htp.trans (arrive_ports hlast), hclosed, hprog,
      (hlint _ _).trans (lint_arrivedAt s c j _), fun k m hkm => (hlint k m).trans (lint_arrivedAt_ne s c hkm), ?_⟩
    · obtain ⟨t', hexec', honly', -⟩ := exec_arrive (may := [.lintels]) h hj rfl hsends.pending hcores (fun p hp hc => by
        rw [arrive_early hearly]; exact arrivedAt_same s c j _ (List.ne_of_not_mem_cons hp) hc) h48 h40
      obtain rfl : t = t' := Host.Outcome.next.inj (hexec.symm.trans hexec')
      exact honly'
    · simp only [ctrsAt, List.map_cons, List.map_nil, List.mem_append, List.mem_singleton, not_or] at hk
      rw [hctrs k hk.1, arrive_early hearly]
      exact State.ctrs_bump_ne _ _ _ _ _ hk.2
    · have hkept := hctrs ((Page.core c).base + 0x58) (by simp [closeCtrs, ctrsAt])
      exact hkept.trans ((ctr_arrive s c j _ _ (by decide)).trans (State.ctr_bump_same (s.onLint _ _ _) _ _ _))
  · obtain ⟨t, hexec, honly, hctrs, hprog, hclosed⟩ := ctl_still (skip := 0) (push := none) h rfl
    exact ⟨t, hexec, honly, hctrs, hclosed, hprog⟩
  · have hjudge := judge_ctlWait hcur hl hj hv hm hlast
    exact ⟨fun hp => laneIssues_alone h hd hcur (hjudge.trans (if_pos hp)),
      fun hp => ctlLane_held h hd hcur (hjudge.trans (if_neg (Nat.not_lt.mpr hp)))⟩
  · intro hwhole
    have hexec : exec (.lintelRelease j id) s = .next (finish s ((s.onLint j id.toNat Lint.next).tagRelease j id.toNat)) := by
      rw [← release_whole hv hwhole]
      exact act_live hlive _
    refine ⟨hexec, fun htags => ⟨_, hexec, ?_⟩⟩
    rw [tagRelease_none (s := s.onLint j id.toNat Lint.next) htags]
    refine ⟨unchanged_finish rfl fun p hp => ?_, ?_, fun k m hkm => ?_⟩
    · cases p <;> first | exact absurd (by decide) hp | simp [Part.same, Part.kept]
    · rw [finish_get_lint, State.lint_onLint_same]; rfl
    · rw [finish_get_lint, State.lint_onLint_ne _ _ hkm]
  · intro hwhole
    have hexec : exec (.lintelRelease j id) s = .next (finish s (s.release j id.toNat)) := act_live hlive _
    rw [release_waits hwhole] at hexec
    exact ⟨_, hexec, unchanged_finish rfl fun p _ => Part.same_refl s p⟩

end Sys2Proof.Machine
end

section
/-! CTL.END settled (R155). -/

namespace Sys2Proof.Machine

/-! ### Cores that a job runs no more -/

/-- A job is read of the jobs alone. -/
theorem job_of_jobs {s u : State} (h : u.jobs = s.jobs) (j : Nat) : u.job j = s.job j := by rw [State.job, h]; rfl

/-- The cores of a list stopped. -/
def State.coresStopped (s : State) (ks : List Nat) : State :=
  ks.foldl (fun (s : State) k => s.onCore k (fun c => { c with running := false })) s

theorem core_coresStopped (ks : List Nat) (s : State) (m : Nat) :
    (s.coresStopped ks).core m = if m ∈ ks then { s.core m with running := false } else s.core m := by
  induction ks generalizing s with
  | nil => rfl
  | cons k ks ih =>
    refine (ih (s.onCore k fun c => { c with running := false })).trans ?_
    by_cases hm : m = k
    · subst hm
      simp
    · simp [hm, State.core_setCore_ne _ _ hm]

theorem coresStopped_same (ks : List Nat) (s : State) {p : Part} (h : p ≠ .cores) : p.same s (s.coresStopped ks) := by
  induction ks generalizing s with
  | nil => exact Part.same_refl s p
  | cons k ks ih => exact Part.same_trans (setCore_same s k _ h) (ih _)

theorem coresStopped_pending (ks : List Nat) (s : State) : (s.coresStopped ks).pending = s.pending :=
  foldl_pending (f := fun (s : State) k => s.onCore k (fun c => { c with running := false })) (fun _ _ => rfl) ks s

/-- Every core of a job has raised its end flag. -/
def State.allEnded (s : State) (j : Nat) : Prop := ∀ k ∈ coresOf (s.job j).placed, (s.core k).ended = true

/-- A job over, its completion record still to come: it is ENDED, and holds the cores no more. -/
def State.jobOver (s : State) (j : Nat) : State :=
  { (s.coresStopped (coresOf (s.job j).placed)).onJob j (fun x => { x with st := .ended }) with runSlot := none, lastSlot := j }

/-- A job over, with its completion record. -/
def State.jobOverTold (s : State) (j : Nat) : State :=
  (s.jobOver j).post ((s.jobOver j).job j).cqEvent 0 0x05 (some j) 0xFFFF 0 (jobDetail 0x10 j 0 0 0 0 0)

section
variable {s : State} {n j : Nat}

/-- The job of the last core is over (R155). -/
theorem jobEnded_all (hj : (s.core n).job = some j) (hrun : s.runSlot = some j) (h : s.allEnded j) : s.jobEnded n = s.jobOverTold j := by
  have hall : (coresOf (s.job j).placed).all (fun k => (s.core k).ended) = true := List.all_eq_true.mpr h
  have hslot : ((s.coresStopped (coresOf (s.job j).placed)).onJob j (fun x => { x with st := .ended })).runSlot = some j :=
    (coresStopped_same _ s (p := .runSlot) (by decide)).1.trans hrun
  unfold State.jobEnded
  rw [hj]
  dsimp only
  rw [if_pos hall]
  exact congrArg (fun u : State => u.post (u.job j).cqEvent 0 0x05 (some j) 0xFFFF 0 (jobDetail 0x10 j 0 0 0 0 0)) (if_pos hslot)

/-- While a core of the job has not ended, it runs on. -/
theorem jobEnded_early (hj : (s.core n).job = some j) (h : ¬ s.allEnded j) : s.jobEnded n = s := by
  unfold State.jobEnded
  rw [hj]
  exact if_neg (mt List.all_eq_true.mp h)

end

theorem core_jobOver (s : State) (j m : Nat) : (s.jobOver j).core m =
    if m ∈ coresOf (s.job j).placed then { s.core m with running := false } else s.core m :=
  core_coresStopped (coresOf (s.job j).placed) s m

/-- Job slots after a job is over. -/
theorem job_jobOver (s : State) (j k : Nat) : (s.jobOver j).job k = if k = j then { s.job j with st := .ended } else s.job k := by
  have hjobs : ∀ k, (s.coresStopped (coresOf (s.job j).placed)).job k = s.job k :=
    job_of_jobs (coresStopped_same _ s (p := .jobs) (by decide))
  change ((s.coresStopped (coresOf (s.job j).placed)).onJob j (fun x => { x with st := .ended })).job k = _
  split
  · next hk => rw [hk, State.job_onJob_same, hjobs]
  · next hk => rw [State.job_onJob_ne _ _ hk, hjobs]

theorem jobOver_same (s : State) (j : Nat) {p : Part} (h : p ∉ [Part.cores, .jobs, .runSlot]) : p.same s (s.jobOver j) := by
  refine Part.same_trans (coresStopped_same (coresOf (s.job j).placed) s (by rintro rfl; exact h (by decide))) ?_
  cases p <;> first | exact absurd (by decide) h | simp [Part.same, Part.kept, State.jobOver]

section
variable (s : State) (j : Nat)

theorem jobOverTold_same {p : Part} (h : p ∉ [Part.cores, .regs, .ctrs, .hif, .out, .flt, .jobs, .runSlot]) : p.same s (s.jobOverTold j) := by
  refine Part.same_trans (jobOver_same s j (by revert h; cases p <;> decide)) ?_
  by_cases hq : p = .quarries
  · subst hq
    exact (post_blocks ..).2
  · exact post_same _ _ _ _ _ _ _ _ (by revert h hq; cases p <;> decide)

theorem jobOverTold_pending : (s.jobOverTold j).pending = s.pending :=
  (post_pending ..).trans (coresStopped_pending _ s)

theorem core_jobOverTold (m : Nat) : (s.jobOverTold j).core m =
    if m ∈ coresOf (s.job j).placed then { s.core m with running := false } else s.core m := by
  rw [← core_jobOver, State.core, State.jobOverTold, (post_blocks ..).1]
  rfl

theorem job_jobOverTold (k : Nat) : (s.jobOverTold j).job k = if k = j then { s.job j with st := .ended } else s.job k :=
  (job_of_jobs (post_same (p := .jobs) _ _ _ _ _ _ _ _ (by decide)) k).trans (job_jobOver s j k)

theorem slot_jobOverTold : (s.jobOverTold j).runSlot = none ∧ (s.jobOverTold j).lastSlot = j :=
  post_same (s.jobOver j) _ _ _ _ _ _ _ (p := .runSlot) (by decide)

theorem ctr_jobOverTold (n o : Nat) : (s.jobOverTold j).ctr (.core n) o = s.ctr (.core n) o :=
  (post_ctrs _ _ _ _ _ _ _ _ (by simp only [Page.base]; omega)).trans
    (congrArg (tget 0 · _) (jobOver_same s j (p := .ctrs) (by decide)))

end

/-! ### The end of a core -/

/-- A core that has ended: its last sub-bundle closed, its flag raised. -/
def State.coreOver (s : State) (n : Nat) : State :=
  (((evalOp s n .ctlEnd).issued n).closeSub n 0 none).onCore n (fun k => { k with ended := true })

theorem exec_ctlEnd {s : State} {c : CoreId} (h : LaneIssues s c .ctlEnd) :
    exec (.ctlEnd c) s = .next (finish s ((s.coreOver c).jobEnded c)) := by
  rw [show exec (.ctlEnd c) s = execCtlEnd c s from rfl, execCtlEnd, actCore_current h.1.1 h.1.2.1, lane_issues _ _ h]
  unfold State.coreOver State.raiseEnd
  rfl

section
variable (s : State) (n : Nat)

theorem coreOver_same {p : Part} (h : p ≠ .cores) (h' : p ≠ .ctrs) : p.same s (s.coreOver n) :=
  Part.same_trans (issued_same (evalOp s n .ctlEnd) n p h)
    (Part.same_trans (closeSub_same _ n 0 none p ⟨h, h'⟩) (setCore_same _ n _ h))

theorem coreOver_pending : (s.coreOver n).pending = s.pending := by
  simp [State.coreOver, State.closeSub, State.tick, Eval.issued, Eval.names, evalOp]

theorem coreOver_core_ne {m : Nat} (h : m ≠ n) : (s.coreOver n).core m = s.core m :=
  (State.core_setCore_ne _ _ h).trans ((closeSub_core_ne _ 0 none h).trans (issued_ne (evalOp s n .ctlEnd) h))

theorem coreOver_ctrs {k : Nat} (h : k ∉ closeCtrs n) : tget 0 (s.coreOver n).ctrs k = tget 0 s.ctrs k :=
  closeSub_ctrs ((evalOp s n .ctlEnd).issued n) n 0 none h

theorem coreOver_core : (s.coreOver n).core n = { (((evalOp s n .ctlEnd).issued n).closeSub n 0 none).core n with ended := true } :=
  State.core_setCore_same _ _ _

theorem coreOver_program : ((s.coreOver n).core n).program = { (s.core n).program with ended := true } := by
  have hprog := (closeSub_program ((evalOp s n .ctlEnd).issued n) n 0 none).trans (issued_program (evalOp s n .ctlEnd) n)
  rw [coreOver_core]
  exact congrArg (fun c : Core => { c with ended := true }) hprog

end

/-- The core itself, the sub-bundle closed, whether or not it runs on. -/
theorem coreOver_closed {s t : State} {c : CoreId} (hcore : t.core c = { (s.coreOver c).core c with running := (t.core c).running })
    (hctr : ∀ o < 0x1000, t.ctr (.core c) o = (s.coreOver c).ctr (.core c) o) :
    Closed s t c (stepLoops (s.core c).pc (s.core c).loops).1 (stepLoops (s.core c).pc (s.core c).loops).2 := by
  have hclosed := ctl_closed (s := s) (u := (evalOp s c .ctlEnd).issued c) (n := c) (skip := 0) (push := none)
    (issued_pc ..) (issued_loops ..) (issued_cclk ..) (issued_vecNext ..) rfl rfl
  unfold Closed at hclosed ⊢
  rw [hcore, coreOver_core, hctr _ (by decide), hctr _ (by decide)]
  rw [finish_get_core, finish_get_ctr, finish_get_ctr] at hclosed
  exact hclosed

/-- A core that evaluates belongs to the running job, -/
theorem evaluates_runSlot {s : State} {n : Nat} (h : s.evaluates n = true) : s.runSlot = (s.core n).job := by
  simp only [State.evaluates, Bool.and_eq_true, beq_iff_eq] at h
  obtain ⟨⟨-, hslot⟩, -⟩ := h
  exact hslot

/-- and has not ended. -/
theorem evaluates_ended {s : State} {n : Nat} (h : (s.core n).ended = true) : s.evaluates n = false := by simp [State.evaluates, h]

section
variable {s : State} {c : CoreId} {j : Nat}

theorem job_coreOver (k : Nat) : (s.coreOver c).job k = s.job k := job_of_jobs (coreOver_same s c (p := .jobs) (by decide) (by decide)) k

theorem ended_coreOver : ((s.coreOver c).core c).ended = true := by rw [coreOver_core]

/-- With its last core the others must have ended before. -/
theorem allEnded_coreOver :
    (s.coreOver c).allEnded j ↔ ∀ k ∈ coresOf (s.job j).placed, k ≠ c.val → (s.core k).ended = true := by
  unfold State.allEnded
  rw [job_coreOver]
  refine forall₂_congr fun k _ => ?_
  by_cases hk : k = c.val
  · subst hk
    simp [ended_coreOver]
  · simp [hk, coreOver_core_ne s c hk]

/-- A core that ends before another of its job. -/
theorem exec_ctlEnd_early (h : LaneIssues s c .ctlEnd) (hj : (s.core c).job = some j) (hall : ¬ (s.coreOver c).allEnded j) :
    exec (.ctlEnd c) s = .next (finish s (s.coreOver c)) := by
  rw [exec_ctlEnd h, jobEnded_early ((congrArg Core.job (coreOver_program s c)).trans hj) hall]

/-- The last core of its job to end. -/
theorem exec_ctlEnd_last (h : LaneIssues s c .ctlEnd) (hj : (s.core c).job = some j) (hall : (s.coreOver c).allEnded j) :
    exec (.ctlEnd c) s = .next (finish s ((s.coreOver c).jobOverTold j)) := by
  have hrun : (s.coreOver c).runSlot = some j := by
    rw [(coreOver_same s c (p := .runSlot) (by decide) (by decide)).1]
    exact (evaluates_runSlot h.1.2.2.1).trans hj
  rw [exec_ctlEnd h, jobEnded_all ((congrArg Core.job (coreOver_program s c)).trans hj) hrun hall]

end

/-- The cores after the last of a job has ended: its own are stopped. -/
theorem core_lastOver (s : State) (c : CoreId) (j m : Nat) : ((s.coreOver c).jobOverTold j).core m =
    if m ∈ coresOf (s.job j).placed then { (s.coreOver c).core m with running := false } else (s.coreOver c).core m := by
  rw [core_jobOverTold, job_coreOver]

theorem unchanged_lastOver (s : State) (c : CoreId) (j : Nat) :
    Unchanged s (finish s ((s.coreOver c).jobOverTold j)) [.cores, .regs, .ctrs, .hif, .out, .flt, .jobs, .runSlot] := by
  refine unchanged_finish ((jobOverTold_pending _ j).trans (coreOver_pending s c)) fun p hp => ?_
  exact Part.same_trans (coreOver_same s c (by rintro rfl; exact hp (by decide)) (by rintro rfl; exact hp (by decide)))
    (jobOverTold_same _ j hp)

theorem onlyCore_coreOver (s : State) (c : CoreId) : OnlyCore s (finish s (s.coreOver c)) c [.ctrs] := by
  refine ⟨unchanged_finish (coreOver_pending s c) fun p hp => ?_, fun m hm => ?_⟩
  · simp only [List.mem_cons, List.not_mem_nil, or_false, not_or] at hp
    exact coreOver_same s c hp.1 hp.2
  · rw [finish_get_core, coreOver_core_ne s c hm]

/-- Settles O13: the close of the sub-bundle, then the job's end where every core has ended; past the image, the program fault. -/
theorem ctlEndEnds : Obligations.CtlEndEnds := by
  unfold Obligations.CtlEndEnds
  refine ⟨fun s c j h hj => ?_, fun s c j hlive hcur he hp hj => ?_⟩
  · intro all
    by_cases hlast : all
    · have hall : (s.coreOver c).allEnded j := allEnded_coreOver.mpr hlast
      have hcore := core_lastOver s c j
      have hother : ∀ m, m ≠ c.val → ((s.coreOver c).jobOverTold j).core m =
          if m ∈ coresOf (s.job j).placed then { s.core m with running := false } else s.core m := fun m hm => by
        rw [hcore, coreOver_core_ne s c hm]
      have hjob := fun k => (job_jobOverTold (s.coreOver c) j k).trans (by rw [job_coreOver, job_coreOver])
      have hended : (((s.coreOver c).jobOverTold j).core c).ended = true := by rw [hcore]; split <;> exact ended_coreOver
      obtain ⟨hrunSlot, hlastSlot⟩ := slot_jobOverTold (s.coreOver c) j
      refine ⟨_, exec_ctlEnd_last h hj hall, ?_, ?_, coreOver_closed ?_ fun o _ => ?_, fun m hm hmj => ?_, fun hn => absurd hlast hn,
        fun _ => ⟨?_, ?_, ?_, fun k hk => ?_, fun k hk => ?_, fun k hk => ?_, unchanged_lastOver s c j⟩⟩
      · rw [finish_get_core, hended]
      · exact evaluates_ended (by rw [finish_get_core, hended])
      · rw [finish_get_core, hcore]; split <;> rfl
      · rw [finish_get_ctr, ctr_jobOverTold]
      · rw [finish_get_core, hother m hm, if_neg hmj]
      · rw [finish_get_job, hjob, if_pos rfl]
      · rw [finish_runSlot, hrunSlot]
      · rw [finish_lastSlot, hlastSlot]
      · rw [finish_get_job, hjob, if_neg hk]
      · rw [finish_get_core, hcore, if_pos hk]
      · rw [finish_get_core, hother k hk]; split <;> rfl
    · have hall : ¬ (s.coreOver c).allEnded j := mt allEnded_coreOver.mp hlast
      refine ⟨_, exec_ctlEnd_early h hj hall, ?_, ?_, coreOver_closed ?_ fun o _ => ?_, fun m hm _ => (onlyCore_coreOver s c).2 m hm,
        fun _ => ⟨onlyCore_coreOver s c, fun k hk => ?_, ?_⟩, fun hn => absurd hn hlast⟩
      · rw [finish_get_core, ended_coreOver]
      · exact evaluates_ended (by rw [finish_get_core, ended_coreOver])
      · rw [finish_get_core]
      · rw [finish_get_ctr]
      · rw [finish_ctrs, coreOver_ctrs s c hk]
      · rw [finish_get_core, coreOver_program]
  · refine ⟨finish s (s.coreFault c 0x0D 0xFF 0), ?_, coreFault_records s c _ _ _, coreFault_tears hj _ _ _⟩
    rw [show exec (.ctlEnd c) s = execCtlEnd c s from rfl, execCtlEnd, actCore_current hlive hcur]
    simp [lane, he, hp]

end Sys2Proof.Machine
end

section
/-! INSTRUCTION_FETCH settled (R151). -/

namespace Sys2Proof.Machine

/-- A teardown stands to the end of the command. -/
theorem Tears.finish {s0 s t : State} {j : Nat} (h : Tears s t j) : Tears s (Machine.finish s0 t) j :=
  h.later (finish_jobs ..) (finish_runSlot ..) fun n => by rw [finish_get_core]; exact ⟨rfl, rfl⟩

/-- The half of a core's instruction buffer that awaits a block. -/
def Core.awaits (c : Core) (block : Nat) : Option IHalf :=
  (c.h0.toList ++ c.h1.toList).find? (fun h => h.block == block && !h.filled)

/-- A half filled, where it is the one awaited. -/
def IHalf.fillIn (h : IHalf) (x : Option IHalf) : Option IHalf := if x = some h then some { h with filled := true } else x

theorem IHalf.map_filled (h : IHalf) (x : Option IHalf) :
    x.map (fun y => if y = h then { y with filled := true } else y) = h.fillIn x := by
  cases x with
  | none => rfl
  | some y =>
    by_cases hy : y = h
    · subst hy
      simp [IHalf.fillIn]
    · simp [IHalf.fillIn, hy]

section
variable {s : State} {n block : Nat} {h : IHalf}

theorem fetchBlock_none (hw : (s.core n).awaits block = none) : s.fetchBlock n block = s := by
  unfold Core.awaits at hw
  simp only [State.fetchBlock, hw]

theorem fetchBlock_waits (hw : (s.core n).awaits block = some h) (hb : h.bad = none) (hg : h.got.length < 64) :
    s.fetchBlock n block = s := by
  unfold Core.awaits at hw
  simp only [State.fetchBlock, hw, hb, hg, if_true, ite_self]

theorem fetchBlock_fills (hw : (s.core n).awaits block = some h) (hr : (s.core n).running = true) (hf : (s.core n).faulted = false)
    (hb : h.bad = none) (hg : 64 ≤ h.got.length) : s.fetchBlock n block =
      (s.bump (.core n) 0x60).onCore n (fun c => { c with h0 := h.fillIn c.h0, h1 := h.fillIn c.h1 }) := by
  unfold Core.awaits at hw
  simp only [State.fetchBlock, hw, hr, hf, hb, Nat.not_lt.mpr hg, IHalf.map_filled, Bool.not_true, Bool.or_self, Bool.false_eq_true, if_false]

theorem fetchBlock_bad {st a : Nat} (hw : (s.core n).awaits block = some h) (hr : (s.core n).running = true)
    (hf : (s.core n).faulted = false) (hb : h.bad = some (st, a)) : s.fetchBlock n block =
      if st = 0x40 then s.tearJob (s.core n).job 1
      else s.progFault (s.core n).job (Page.core n).unit st n (s.core n).pc (if st = 0x60 then 9 else 0xFF) 0xFF a := by
  unfold Core.awaits at hw
  simp only [State.fetchBlock, hw, hr, hf, hb, Bool.not_true, Bool.or_self, Bool.false_eq_true, if_false]

end

theorem exec_instructionFetch {s : State} (hl : s.live = true) (c : CoreId) (block : Nat) :
    exec (.instructionFetch c block) s = .next (finish s (s.fetchBlock c block)) := act_live hl fun s => s.fetchBlock c block

/-- Settles O23, by the half that awaits the block and what its requests have brought. -/
theorem instructionFetchFills : Obligations.InstructionFetchFills := by
  unfold Obligations.InstructionFetchFills
  intro s c block j hl hj hr hf
  have hexec := exec_instructionFetch hl c block
  have hstill : Unchanged s (finish s s) [] := unchanged_finish rfl fun p _ => Part.same_refl s p
  refine ⟨fun hnone => ?_, fun h hw => ⟨fun hb hg => ?_, fun hb hg => ?_, fun st a hb => ?_⟩⟩
  · have hw : (s.core c).awaits block = none := List.find?_eq_none.mpr fun h hh => by simpa using hnone h hh
    rw [fetchBlock_none hw] at hexec
    exact ⟨_, hexec, hstill⟩
  · rw [fetchBlock_waits hw hb hg] at hexec
    exact ⟨_, hexec, hstill⟩
  · rw [fetchBlock_fills hw hr hf hb hg] at hexec
    refine ⟨_, hexec, ⟨unchanged_finish rfl fun p hp => ?_, fun m hm => ?_⟩, fun k hk => ?_, ?_, ?_⟩
    · simp only [List.mem_cons, List.not_mem_nil, or_false, not_or] at hp
      exact Part.same_trans (bump_same _ _ _ _ hp.2) (setCore_same _ _ _ hp.1)
    · rw [finish_get_core, State.onCore_eq, State.core_setCore_ne _ _ hm, State.bump_get_core]
    · simp only [ctrsAt, List.map_cons, List.map_nil, List.mem_singleton] at hk
      rw [finish_ctrs]
      exact State.ctrs_bump_ne _ _ _ _ _ hk
    · rw [finish_get_ctr]
      exact State.ctr_bump_same _ _ _ _
    · rw [finish_get_core, State.onCore_eq, State.core_setCore_same]
      rfl
  · rw [fetchBlock_bad hw hr hf hb, hj] at hexec
    refine ⟨_, hexec, ?_⟩
    by_cases hst : st = 0x40
    · rw [if_pos hst]
      exact ⟨(tearJob_tears (u := s) rfl rfl (fun _ => rfl) j 1).finish, fun hn => absurd hst hn⟩
    · rw [if_neg hst]
      exact ⟨progFault_tears rfl rfl rfl j _ _ _ _ _ _ _, fun _ => progFault_records rfl ..⟩

end Sys2Proof.Machine
end

section
/-! Registers that reports and teardowns leave alone: those from the reduction page to the pages of the quarries, but the ECC words of the
sills (R201, R428, R394). -/

namespace Sys2Proof.Machine

/-- A register that no report and no teardown writes. -/
def quietReg (k : Nat) : Prop := 0x8000 ≤ k ∧ k < 0x300000 ∧ k % 0x4000 ≠ 0x310C

/-- Of the quiet registers every one as before. -/
def KeepsRegs (s t : State) : Prop := ∀ k, quietReg k → t.reg k = s.reg k

theorem KeepsRegs.of_regs {s t : State} (h : t.regs = s.regs) : KeepsRegs s t := fun k _ => by rw [State.reg, h]; rfl

theorem KeepsRegs.refl (s : State) : KeepsRegs s s := fun _ _ => rfl

theorem KeepsRegs.trans {s t u : State} (h : KeepsRegs s t) (g : KeepsRegs t u) : KeepsRegs s u := fun k hk => (g k hk).trans (h k hk)

theorem KeepsRegs.foldl {α : Type} {f : State → α → State} (h : ∀ s x, KeepsRegs s (f s x)) (xs : List α) (s : State) :
    KeepsRegs s (xs.foldl f s) := by
  induction xs generalizing s with
  | nil => exact .refl s
  | cons x xs ih => exact (h s x).trans (ih _)

theorem keepsRegs_setReg (s : State) {o : Nat} (v : Nat) (h : ¬ quietReg o) : KeepsRegs s (s.setReg o v) := fun _ hk =>
  State.reg_setReg_ne s v fun e => h (e ▸ hk)

/-! ### Reports -/

theorem keepsRegs_releaseLatch (s : State) (unit seq : Nat) : KeepsRegs s (s.releaseLatch unit seq) := by
  unfold State.releaseLatch
  dsimp only
  split_ifs
  · exact keepsRegs_setReg (s.onCore _ _) _ (by simp only [quietReg, Page.base]; omega)
  · exact keepsRegs_setReg (s.onQuarry _ _) _ (by simp only [quietReg, Page.base]; omega)
  · exact .refl s

theorem keepsRegs_fault (s : State) (cls status : Nat) (job : Option Nat) (unit flags : Nat) (detail : List Byte) (sub : Nat) :
    KeepsRegs s (s.fault cls status job unit flags detail sub) := by
  have hkeep : ∀ seq bs, KeepsRegs s (s.keepFault cls unit sub seq bs) := fun seq bs => by
    unfold State.keepFault
    extract_lets counted flt formed
    split_ifs
    · exact .of_regs rfl
    · refine KeepsRegs.trans ?_ (keepsRegs_releaseLatch _ _ _)
      exact keepsRegs_setReg (formed.bump .fault 0x48) _ (by simp only [quietReg, Page.base]; omega)
  unfold State.fault
  dsimp only
  split
  · refine (hkeep _ _).trans (keepsRegs_setReg (State.bump _ .fault 0x50) _ ?_)
    simp only [quietReg, Page.base]
    split <;> omega
  · exact hkeep _ _

theorem keepsRegs_writeRecord (s : State) (h : Nat) (bs : List Byte) : KeepsRegs s (s.writeRecord h bs) :=
  .of_regs (writeRecord_same s h bs (p := .regs) (by decide)).1

theorem keepsRegs_post (s : State) (h status source : Nat) (job : Option Nat) (sq head : Nat) (detail : List Byte) :
    KeepsRegs s (s.post h status source job sq head detail) := by
  unfold State.post
  dsimp only
  split_ifs
  · exact .of_regs rfl
  · exact keepsRegs_writeRecord _ _ _
  · exact .of_regs rfl
  · exact KeepsRegs.trans (t := (s.bump .hif 0x68).hqError h 2) (.of_regs rfl) (keepsRegs_fault _ _ _ _ _ _ _ _)

theorem keepsRegs_jobDone (s : State) (c : JobCmd) (slot : Option Nat) (status reason cls placed dur : Nat) :
    KeepsRegs s (s.jobDone c slot status reason cls placed dur) := by
  unfold State.jobDone State.postSq
  exact (keepsRegs_post _ _ _ _ _ _ _ _).trans (.of_regs rfl)

theorem keepsRegs_sendCtl (s : State) (sender : Nat) (m : Msg) : KeepsRegs s (s.sendCtl sender m) := by
  unfold State.sendCtl
  extract_lets m'
  split
  · exact .of_regs rfl
  · exact KeepsRegs.trans (t := s.bump (.port 0) 0xB0) (.of_regs rfl) (keepsRegs_fault _ _ _ _ _ _ _ _)

theorem keepsRegs_sendAbort (s : State) (j t status cls origin : Nat) : KeepsRegs s (s.sendAbort j t status cls origin) := by
  unfold State.sendAbort
  exact (KeepsRegs.foldl (fun _ _ => keepsRegs_sendCtl _ _ _) _ _).trans (.of_regs rfl)

/-! ### Teardowns -/

/-- Below the quarries' pages no window stands. -/
theorem winWord0_low {k : Nat} (h : k < 0x300000) : winWord0 k = none := by
  have hpage : ∀ n, pageOf k ≠ some (.quarry n) := fun n => by
    have hpg : k / 0x1000 < 0x300 := by omega
    unfold pageOf
    generalize k / 0x1000 = pg at hpg
    dsimp only
    split_ifs
    · interval_cases pg <;> simp
    · simp
    · generalize hr : (pg - 0x100) % 4 = r
      have : r < 4 := by omega
      interval_cases r <;> simp
    · omega
    all_goals simp
  unfold winWord0
  split
  · next n hn => exact absurd hn (hpage n)
  · rfl

theorem tfind_map_other {α : Type} {f : Nat × α → Nat × α} (hf : ∀ e, (f e).1 = e.1) {k : Nat} (hk : ∀ e, e.1 = k → f e = e) (t : Tab α) :
    tfind (t.map f) k = tfind t k := by
  induction t with
  | nil => rfl
  | cons e t ih =>
    by_cases he : e.1 = k
    · simp [tfind, hk e he, he]
    · simpa [tfind, hf, he] using ih

theorem keepsRegs_closeWindows (s : State) (j : Nat) : KeepsRegs s (s.closeWindows j) := by
  intro k hk
  obtain ⟨-, hlow, -⟩ := hk
  unfold State.closeWindows State.reg
  dsimp only
  rw [tfind_map_other (fun e => ?_) fun e he => ?_]
  · split
    · split <;> rfl
    · rfl
  · rw [he, winWord0_low hlow]

theorem keepsRegs_benchTeardown (s : State) (j n : Nat) (qs : Tab BQ) : KeepsRegs s (s.benchTeardown j n qs) := by
  refine KeepsRegs.foldl (fun s e => ?_) qs s
  split
  · split
    exacts [keepsRegs_post _ _ _ _ _ _ _ _, .refl s]
  · exact .refl s

theorem keepsRegs_attTeardown (s : State) (j : Nat) : KeepsRegs s (s.attTeardown j) := by
  unfold State.attTeardown
  extract_lets mine slots pool cmds att kept
  refine KeepsRegs.trans (t := kept) (.of_regs rfl) (KeepsRegs.foldl (fun u c => ?_) _ _)
  exact (keepsRegs_post _ _ _ _ _ _ _ _).trans (.of_regs rfl)

theorem keepsRegs_parksTorn (s : State) (j cls : Nat) : KeepsRegs s (s.parksTorn j cls) := by
  unfold State.parksTorn
  refine KeepsRegs.foldl (fun u c => ?_) _ _
  exact KeepsRegs.trans (t := { u with jobCmds := removeFirst (· == c) u.jobCmds }) (.of_regs rfl) (keepsRegs_jobDone _ _ _ _ _ _ _ _)

theorem keepsRegs_switchTorn (s : State) (j cls : Nat) : KeepsRegs s (s.switchTorn j cls) := by
  have hdone : ∀ c dur, KeepsRegs s (({ s with sw := {} } : State).jobDone c (some j) 0x31 0 cls 0 dur) := fun c dur =>
    KeepsRegs.trans (t := { s with sw := {} }) (.of_regs rfl) (keepsRegs_jobDone _ _ _ _ _ _ _ _)
  unfold State.switchTorn
  dsimp only
  split_ifs
  · exact .refl s
  · split
    · exact .of_regs rfl
    · split
      exacts [hdone _ _, .of_regs rfl]
  · split
    exacts [hdone _ _, .of_regs rfl]
  · exact .refl s

theorem keepsRegs_tearCore (s : State) (j cls : Nat) : KeepsRegs s (s.tearCore j cls) := by
  unfold State.tearCore
  extract_lets jb live sHalt sBench tags tag sTags red sRed sAtt sTorn sKey sPark sSlot
  have hHalt : KeepsRegs s sHalt := KeepsRegs.foldl (f := State.haltCore) (fun _ _ => .of_regs rfl) _ _
  have hBench : KeepsRegs sHalt sBench := KeepsRegs.foldl (fun u n => by
    dsimp only
    split
    exacts [(keepsRegs_benchTeardown u j n _).trans (.of_regs rfl), keepsRegs_benchTeardown u j n _]) _ _
  have hTags : KeepsRegs sBench sTags := KeepsRegs.foldl (fun u e => by
    dsimp only
    split
    exacts [.of_regs rfl, (keepsRegs_sendAbort u _ _ _ _ _).trans (.of_regs rfl)]) _ _
  have hAtt : KeepsRegs sTags sAtt := KeepsRegs.trans (t := sRed) (.of_regs rfl)
    ((keepsRegs_attTeardown sRed j).trans ((keepsRegs_closeWindows _ j).trans (.of_regs rfl)))
  have hKey : KeepsRegs sAtt sKey := keepsRegs_setReg sTorn _ (by simp only [quietReg, Page.base]; omega)
  have hPark : KeepsRegs sKey sPark := by
    by_cases h : sKey.runSlot = some j ∧ sKey.sw.phase = .idle
    · rw [show sPark = sKey.parksTorn j cls from if_pos h]
      exact keepsRegs_parksTorn _ _ _
    · rw [show sPark = sKey from if_neg h]
      exact .refl _
  have hSlot : KeepsRegs sPark (sSlot.bump .job 0x58) := by
    by_cases h : sPark.runSlot = some j
    · rw [show sSlot = { sPark with runSlot := none, lastSlot := j } from if_pos h]
      exact .of_regs rfl
    · rw [show sSlot = sPark from if_neg h]
      exact .of_regs rfl
  exact hHalt.trans (hBench.trans (hTags.trans (hAtt.trans (hKey.trans (hPark.trans (hSlot.trans (keepsRegs_switchTorn _ j cls)))))))

theorem keepsRegs_tearJob (s : State) (job : Option Nat) (cls : Nat) : KeepsRegs s (s.tearJob job cls) := by
  unfold State.tearJob State.tearDown
  split
  · next j =>
    split
    exacts [(keepsRegs_tearCore s j cls).trans (keepsRegs_post _ _ _ _ _ _ _ _), .refl s]
  · exact .refl s

end Sys2Proof.Machine
end

section
/-! The detectors settled (R175 to R179). -/

namespace Sys2Proof.Machine

/-! ### A report with a teardown -/

/-- A record formed while the ring and the jobs stand as they were, and the teardown that follows. -/
theorem faultTorn {s u : State} {cls : Nat} (hc : cls < 256) (hflt : u.flt = s.flt) (hjobs : u.jobs = s.jobs) (hsw : u.sw = s.sw)
    (hcore : ∀ n, (u.core n).job = (s.core n).job) (status : Nat) (job : Option Nat) (unit flags : Nat) (detail : List Byte) (j : Nat) :
    let t := finish s ((u.fault cls status job unit flags detail).tearDown j cls)
    Records s t cls ∧ Tears s t j := by
  have hf := windsUp_fault u cls status job unit flags detail 0
  exact ⟨records_finish hc hflt (tearJob_keepsRecords _ (some j) cls),
    (tearJob_tears (hf.jobs.trans hjobs) (hf.sw.trans hsw) (fun n => (hf.core n).1.trans (hcore n)) j cls).finish⟩

/-! ### What a detector writes -/

/-- The class of a detector's record. -/
def Alarm.cls (a : Alarm) : Nat := if a.lint then 8 else 6

theorem Alarm.cls_lt (a : Alarm) : a.cls < 256 := by unfold Alarm.cls; split <;> decide

theorem Alarm.cls_other (a : Alarm) : marksUnits a.cls = false := by unfold Alarm.cls; split <;> rfl

theorem sounded_eq (s : State) (n : Nat) (a : Alarm) : ∃ detail,
    s.sounded n a = (s.setPreg (.core n) 0x118 a.info).fault a.cls 0 (some a.job) (Page.core n).unit 1 detail := by
  unfold State.sounded Alarm.cls
  cases a.lint <;> exact ⟨_, rfl⟩

/-- The alarms of other cores touch the cores, -/
theorem alarmed_same (s : State) (j : Nat) (but : Option Nat) {p : Part} (h : p ≠ .cores) : p.same s (s.alarmed j but) := by
  refine List.foldlRecOn (motive := fun t : State => p.same s t) _ _ (Part.same_refl s p) fun t ht m _ => ?_
  split
  exacts [Part.same_trans ht (setCore_same _ _ _ h), ht]

/-- and not what they run. -/
theorem alarmed_job (s : State) (j : Nat) (but : Option Nat) (n : Nat) : ((s.alarmed j but).core n).job = (s.core n).job := by
  refine List.foldlRecOn (motive := fun t : State => (t.core n).job = (s.core n).job) _ _ rfl fun t ht m _ => ?_
  split
  · rw [State.onCore_eq]
    by_cases hn : n = m
    · subst hn
      rw [State.core_setCore_same]
      exact ht
    · rw [State.core_setCore_ne _ _ hn]
      exact ht
  · exact ht

section
variable {s : State} {n : Nat} {lint : Bool} {a : Alarm}

/-- A detector that fires while none of its core has fired before. -/
theorem detector_fires (hcur : (s.core n).current = true) (hnone : (s.core n).alarm = none) (hf : s.fires n = some a) (hl : a.lint = lint) :
    s.detector n lint = ((s.alarmed a.job (some n)).sounded n a).tearDown a.job a.cls := by
  subst hl
  have hfilter : (some a).filter (fun b => b.lint == a.lint) = some a := if_pos (beq_self_eq_true _)
  simp only [State.detector, catchUp_current hcur, hnone, hf, Option.filter_none, hfilter]
  rfl

/-- One that does not fire. -/
theorem detector_silent (hcur : (s.core n).current = true) (hnone : (s.core n).alarm = none) (hf : ∀ a, s.fires n = some a → a.lint ≠ lint) :
    s.detector n lint = s := by
  have hfilter : (s.fires n).filter (fun a => a.lint == lint) = none := by
    cases h : s.fires n with
    | none => rfl
    | some a => simp [hf a h]
  simp only [State.detector, catchUp_current hcur, hnone, Option.filter_none, hfilter]

/-- One that has fired beside another (R179). -/
theorem detector_alarm (hcur : (s.core n).current = true) (ha : (s.core n).alarm = some a) (hl : a.lint = lint) :
    s.detector n lint = (s.onCore n (fun c => { c with alarm := none })).sounded n a := by
  subst hl
  have hfilter : (some a).filter (fun b => b.lint == a.lint) = some a := if_pos (beq_self_eq_true _)
  simp only [State.detector, catchUp_current hcur, ha, hfilter]

/-- A detector fires at 65,536 CCLK at the earliest (Table 5.14). -/
theorem fires_late (hcur : (s.core n).current = true) (hf : s.fires n = some a) :
    65536 ≤ if a.lint then (s.core n).lintHold else (s.core n).slotHold := by
  unfold State.fires at hf
  rw [catchUp_current hcur] at hf
  dsimp only at hf
  split at hf
  · split at hf
    · cases hf
    · split at hf
      · split at hf
        · next hlimit =>
          cases hf
          exact (le_max_left _ _).trans (of_decide_eq_true (Bool.and_eq_true_iff.mp hlimit).2)
        · cases hf
      · split at hf
        · next hlimit =>
          cases hf
          exact (le_max_left _ _).trans (of_decide_eq_true (Bool.and_eq_true_iff.mp hlimit).2)
        · cases hf
      · cases hf
  · cases hf

/-- The detector of a slot at its limit (R175). -/
theorem fires_slot {j head e : Nat} {h : Held} (hcur : (s.core n).current = true) (hj : (s.core n).job = some j) (hc : s.counted n = true)
    (hi : (s.core n).cur.issued = 0) (he : s.evaluation n = .held h) (hs : h.slot = some (head, e)) (hen : bitAt (s.preg (.core n) 0x100) 0 = true)
    (hlimit : max 65536 (s.preg (.core n) 0x10C) ≤ (s.core n).slotHold) :
    s.fires n = some ⟨false, j, 2 ^ 30 + sAgent (s.slot n head) * 2 ^ 26 + e * 2 ^ 16 + sAgentId (s.slot n head) * 2 ^ 8⟩ := by
  unfold State.fires
  rw [catchUp_current hcur]
  dsimp only
  simp only [hj, he, hc, hi, hs]
  exact (if_neg (by decide)).trans (if_pos (Bool.and_eq_true_iff.mpr ⟨hen, decide_eq_true hlimit⟩))

/-- The detector of a lintel at its limit (R176). -/
theorem fires_lint {j id : Nat} {h : Held} (hcur : (s.core n).current = true) (hj : (s.core n).job = some j) (hc : s.counted n = true)
    (hi : (s.core n).cur.issued = 0) (he : s.evaluation n = .held h) (hs : h.slot = none) (hl : h.lint = some id)
    (hen : bitAt (s.preg (.core n) 0x100) 1 = true) (hlimit : max 65536 (s.preg (.core n) 0x110) ≤ (s.core n).lintHold) :
    s.fires n = some ⟨true, j, 2 ^ 31 + id * 2 ^ 16⟩ := by
  unfold State.fires
  rw [catchUp_current hcur]
  dsimp only
  simp only [hj, he, hc, hi, hs, hl]
  exact (if_neg (by decide)).trans (if_pos (Bool.and_eq_true_iff.mpr ⟨hen, decide_eq_true hlimit⟩))

end

/-- A detector that fires reports its class, tears its job down and leaves DL_INFO. -/
theorem fired_reports (s : State) (c : CoreId) (a : Alarm) :
    let t := finish s (((s.alarmed a.job (some c)).sounded c a).tearDown a.job a.cls)
    Records s t a.cls ∧ Tears s t a.job ∧ t.preg (.core c) 0x118 = a.info % 2 ^ 32 := by
  intro t
  obtain ⟨detail, hsounded⟩ := sounded_eq (s.alarmed a.job (some c)) c a
  have ht : t = finish s ((((s.alarmed a.job (some c)).setPreg (.core c) 0x118 a.info).fault a.cls 0 (some a.job) (Page.core c).unit 1
      detail).tearDown a.job a.cls) := by rw [← hsounded]
  obtain ⟨hrecords, htears⟩ := faultTorn (s := s) (u := (s.alarmed a.job (some c)).setPreg (.core c) 0x118 a.info) a.cls_lt
    (alarmed_same s a.job (some c) (p := .flt) (by decide)) (alarmed_same s a.job (some c) (p := .jobs) (by decide))
    (alarmed_same s a.job (some c) (p := .sw) (by decide)) (alarmed_job s a.job (some c)) 0 (some a.job) (Page.core c).unit 1 detail a.job
  refine ⟨ht ▸ hrecords, ht ▸ htears, ?_⟩
  have hquiet : quietReg ((Page.core c).base + 0x118) := by
    have := c.isLt
    simp only [quietReg, Page.base]
    omega
  rw [ht, finish_get_preg]
  exact (((keepsRegs_fault _ _ _ _ _ _ _ _).trans (keepsRegs_tearJob _ (some a.job) a.cls)) _ hquiet).trans (State.reg_setReg_same _ _ _)

/-- A detector that fired beside another makes its record, no more. -/
theorem alarm_reports {s : State} {c : CoreId} {a : Alarm} :
    let t := finish s ((s.onCore c (fun k => { k with alarm := none })).sounded c a)
    Reports s t a.cls [.cores, .regs] ∧ (t.core c).alarm = none := by
  intro t
  obtain ⟨detail, hsounded⟩ := sounded_eq (s.onCore c (fun k => { k with alarm := none })) c a
  refine ⟨?_, ?_⟩
  · change Reports s (finish s _) a.cls _
    rw [hsounded]
    refine reports_finish a.cls_lt a.cls_other 0 _ _ _ _ 0 rfl rfl fun p hp => ?_
    simp only [List.mem_cons, List.not_mem_nil, or_false, not_or] at hp
    obtain ⟨-, -, hcores, hregs⟩ := hp
    exact Part.same_trans (setCore_same s c _ hcores) (setReg_same _ _ _ hregs)
  · obtain ⟨l, hl⟩ := (coreReport_fault c ((s.onCore c (fun k => { k with alarm := none })).setPreg (.core c) 0x118 a.info) a.cls_lt 0
      (some a.job) 1 detail 0).core
    change ((finish s _).core c).alarm = none
    rw [finish_get_core, hsounded, hl]
    simp

/-! ### The stream watchdog -/

/-- A core's sample kept for the next. -/
def State.sampled (s : State) (n : Nat) : State :=
  s.onCore n (fun c => { c with swdLast := s.cycles n, swdAt := c.cclk })

/-- A cycle that a core reports: met at its last sample too, and of no lower core. -/
def Core.twice (c : Core) (n : Nat) (p : List (Nat × Nat)) : Bool := c.swdLast.contains p && p.all (fun x => decide (n ≤ x.1))

section
variable {s : State} {n : Nat}

theorem watchdogSample_off (hcur : (s.core n).current = true) (h : s.samples n = false) : s.watchdogSample n = s := by
  simp [State.watchdogSample, catchUp_current hcur, h]

theorem watchdogSample_clear (hcur : (s.core n).current = true) (h : s.samples n = true)
    (hf : (s.cycles n).find? ((s.core n).twice n) = none) : s.watchdogSample n = s.sampled n := by
  unfold Core.twice at hf
  simp only [State.watchdogSample, catchUp_current hcur, h, hf]
  rfl

theorem watchdogSample_cycle {p : List (Nat × Nat)} {j : Nat} (hcur : (s.core n).current = true) (h : s.samples n = true)
    (hj : (s.core n).job = some j) (hf : (s.cycles n).find? ((s.core n).twice n) = some p) : s.watchdogSample n =
      (((s.sampled n).alarmed j none).fault 7 0 (some j) (Page.core n).unit 1 (slotPairs p)).tearDown j 7 := by
  unfold Core.twice at hf
  simp only [State.watchdogSample, catchUp_current hcur, h, hf, hj]
  rfl

theorem sampled_job (m : Nat) : ((s.sampled n).core m).job = (s.core m).job := by
  rw [State.sampled, State.onCore_eq]
  by_cases hm : m = n
  · subst hm
    rw [State.core_setCore_same]
  · rw [State.core_setCore_ne _ _ hm]

end

/-- A cycle met twice is class 7, and the job is torn down (R177). -/
theorem cycle_reports (s : State) (n j : Nat) (p : List (Nat × Nat)) :
    let t := finish s ((((s.sampled n).alarmed j none).fault 7 0 (some j) (Page.core n).unit 1 (slotPairs p)).tearDown j 7)
    Records s t 7 ∧ Tears s t j := by
  have hsame : ∀ p : Part, p ≠ .cores → p.same s ((s.sampled n).alarmed j none) := fun p hp =>
    Part.same_trans (setCore_same s n _ hp) (alarmed_same (s.sampled n) j none hp)
  exact faultTorn (s := s) (by decide) (hsame .flt (by decide)) (hsame .jobs (by decide)) (hsame .sw (by decide))
    (fun m => (alarmed_job _ j none m).trans (sampled_job m)) 0 (some j) (Page.core n).unit 1 (slotPairs p) j

/-- What a core reports in the words of R177. -/
theorem twice_iff (c : Core) (n : Nat) (p : List (Nat × Nat)) : c.twice n p = true ↔ p ∈ c.swdLast ∧ ∀ x ∈ p, n ≤ x.1 := by
  simp [Core.twice]

/-! ### The commands -/

theorem exec_slotDeadlock {s : State} (h : s.live = true) (c : CoreId) :
    exec (.slotDeadlock c) s = .next (finish s (s.detector c false)) := act_live h fun s => s.detector c false

theorem exec_lintelWatchdog {s : State} (h : s.live = true) (c : CoreId) :
    exec (.lintelWatchdog c) s = .next (finish s (s.detector c true)) := act_live h fun s => s.detector c true

theorem exec_streamWatchdogSample {s : State} (h : s.live = true) (c : CoreId) :
    exec (.streamWatchdogSample c) s = .next (finish s (s.watchdogSample c)) := act_live h fun s => s.watchdogSample c

/-- A command that does nothing. -/
theorem unchanged_none (s : State) (may : List Part) : Unchanged s (finish s s) may := unchanged_finish rfl fun p _ => Part.same_refl s p

/-- Settles O24, by what each detector finds: its wait at the limit, an alarm kept, or nothing; and by what the sample finds. -/
theorem detectorsFire : Obligations.DetectorsFire := by
  unfold Obligations.DetectorsFire
  refine ⟨fun s c j hl hcur hj => ?_, fun s c j hl hcur hj => ⟨fun hoff => ?_, fun hon => ?_⟩⟩
  · have hslotCmd := exec_slotDeadlock hl c
    have hlintCmd := exec_lintelWatchdog hl c
    refine ⟨fun h head e hnone hc hi he hs hen hlimit => ?_, fun h id hnone hc hi he hs hlint hen hlimit => ?_,
      fun a ha => ⟨fun hlint => ?_, fun hlint => ?_⟩, fun hnone hlow => ?_, fun hnone hlow => ?_⟩
    · rw [detector_fires hcur hnone (fires_slot hcur hj hc hi he hs hen hlimit) rfl] at hslotCmd
      exact ⟨_, hslotCmd, fired_reports s c _⟩
    · rw [detector_fires hcur hnone (fires_lint hcur hj hc hi he hs hlint hen hlimit) rfl] at hlintCmd
      exact ⟨_, hlintCmd, fired_reports s c _⟩
    · rw [detector_alarm hcur ha hlint] at hslotCmd
      have hreports := alarm_reports (s := s) (c := c) (a := a)
      rw [show a.cls = 6 by rw [Alarm.cls, hlint]; rfl] at hreports
      exact ⟨_, hslotCmd, hreports⟩
    · rw [detector_alarm hcur ha hlint] at hlintCmd
      have hreports := alarm_reports (s := s) (c := c) (a := a)
      rw [show a.cls = 8 by rw [Alarm.cls, hlint]; rfl] at hreports
      exact ⟨_, hlintCmd, hreports⟩
    · rw [detector_silent hcur hnone fun a ha hlint => ?_] at hslotCmd
      · exact ⟨_, hslotCmd, unchanged_none s []⟩
      · have hlate := fires_late hcur ha
        simp only [hlint, Bool.false_eq_true, if_false] at hlate
        exact absurd hlate (Nat.not_le.mpr hlow)
    · rw [detector_silent hcur hnone fun a ha hlint => ?_] at hlintCmd
      · exact ⟨_, hlintCmd, unchanged_none s []⟩
      · have hlate := fires_late hcur ha
        simp only [hlint, if_true] at hlate
        exact absurd hlate (Nat.not_le.mpr hlow)
  · have hexec := exec_streamWatchdogSample hl c
    rw [watchdogSample_off hcur hoff] at hexec
    exact ⟨_, hexec, unchanged_none s []⟩
  · have hexec := exec_streamWatchdogSample hl c
    refine ⟨fun hclear => ?_, fun p hp => ?_⟩
    · have hfind : (s.cycles c).find? ((s.core c).twice c) = none := List.find?_eq_none.mpr fun p hp htwice =>
        hclear p ⟨hp, (twice_iff _ _ _).mp htwice⟩
      rw [watchdogSample_clear hcur hon hfind] at hexec
      refine ⟨_, hexec, ⟨unchanged_finish rfl fun p hp => setCore_same _ _ _ (List.ne_of_not_mem_cons hp), fun m hm => ?_⟩, ?_⟩
      · rw [finish_get_core]
        exact State.core_setCore_ne _ _ hm
      · rw [finish_get_core]
        exact State.core_setCore_same _ _ _
    · obtain ⟨hmem, htwice⟩ := hp
      obtain ⟨p', hfind⟩ : ∃ p', (s.cycles c).find? ((s.core c).twice c) = some p' :=
        Option.isSome_iff_exists.mp (List.find?_isSome.mpr ⟨p, hmem, (twice_iff _ _ _).mpr htwice⟩)
      rw [watchdogSample_cycle hcur hon hj hfind] at hexec
      exact ⟨_, hexec, cycle_reports s c j p'⟩

end Sys2Proof.Machine
end

section
/-! A CTL message taken from its buffer and checked (R336, R340, R349). -/

namespace Sys2Proof.Machine

/-! ### A message taken -/

/-- A message taken touches the port, the count of the pauses that it ends, and what leaves. -/
theorem takeMsg_eq (s : State) (p : Nat) (e : Nat × List Byte) : ∃ ps cs os,
    s.takeMsg p e = { s with ports := ps, ctrs := cs, out := os } ∧
    ∀ k, k ≠ (Page.port p).base + 0xC8 → tget 0 cs k = tget 0 s.ctrs k := by
  have hpfc : ∀ (u : State) cls, ∃ ps cs os, u.pfc p cls = { u with ports := ps, ctrs := cs, out := os } ∧
      ∀ k, k ≠ (Page.port p).base + 0xC8 → tget 0 cs k = tget 0 u.ctrs k := fun u cls => by
    unfold State.pfc
    dsimp only
    split_ifs
    · exact ⟨_, _, _, rfl, fun _ _ => rfl⟩
    · exact ⟨_, _, _, rfl, fun k hk => State.ctrs_bump_ne u _ _ 1 k hk⟩
    · exact ⟨_, _, _, rfl, fun k hk => State.ctrs_bump_ne u _ _ 1 k hk⟩
    · exact ⟨_, _, _, rfl, fun _ _ => rfl⟩
  unfold State.takeMsg
  extract_lets taken
  split
  · exact ⟨_, _, _, rfl, fun _ _ => rfl⟩
  · obtain ⟨ps, cs, os, hu, hcs⟩ := hpfc (taken.onPort p fun q => { q with
      ret := if taken.isEth p then q.ret else tset q.ret e.1 (tget 0 q.ret e.1 + tget 0 q.buf e.1)
      buf := tset q.buf e.1 0 }) e.1
    exact ⟨ps, cs, os, hu, hcs⟩

section
variable (s : State) (p : Nat) (e : Nat × List Byte)

theorem takeMsg_same {q : Part} (h : q ∉ [Part.ports, .ctrs, .out]) : q.same s (s.takeMsg p e) := by
  obtain ⟨ps, cs, os, hu, -⟩ := takeMsg_eq s p e
  rw [hu]
  cases q <;> first | exact absurd (by decide) h | exact ⟨rfl, rfl⟩ | exact ⟨rfl, rfl, rfl⟩ | rfl

theorem takeMsg_pending : (s.takeMsg p e).pending = s.pending := by
  obtain ⟨ps, cs, os, hu, -⟩ := takeMsg_eq s p e
  rw [hu]

/-- Of the counters it moves the one of pauses alone. -/
theorem takeMsg_ctr {q : Page} {o : Nat} (h : q.base + o ≠ (Page.port p).base + 0xC8) : (s.takeMsg p e).ctr q o = s.ctr q o := by
  obtain ⟨ps, cs, os, hu, hcs⟩ := takeMsg_eq s p e
  rw [hu]
  exact hcs _ h

@[simp] theorem takeMsg_red : (s.takeMsg p e).red = s.red := takeMsg_same s p e (q := .red) (by decide)
@[simp] theorem takeMsg_flt : (s.takeMsg p e).flt = s.flt := takeMsg_same s p e (q := .flt) (by decide)
@[simp] theorem takeMsg_tag (j t : Nat) : (s.takeMsg p e).tag j t = s.tag j t := by rw [State.tag, takeMsg_red]; rfl
@[simp] theorem takeMsg_shard (j t k : Nat) : (s.takeMsg p e).shard j t k = s.shard j t k := by rw [State.shard, takeMsg_tag]; rfl
@[simp] theorem takeMsg_lint (j id : Nat) : (s.takeMsg p e).lint j id = s.lint j id := by
  rw [State.lint, show (s.takeMsg p e).lintels = s.lintels from takeMsg_same s p e (q := .lintels) (by decide)]
  rfl
@[simp] theorem takeMsg_bytes (a n : Nat) : (s.takeMsg p e).bytes a n = s.bytes a n := by
  rw [State.bytes, (takeMsg_same s p e (q := .mem) (by decide)).1]
  rfl
@[simp] theorem takeMsg_bucket (j t : Nat) : (s.takeMsg p e).bucket j t = s.bucket j t := by
  obtain ⟨ps, cs, os, hu, -⟩ := takeMsg_eq s p e
  rw [hu]
  rfl
@[simp] theorem takeMsg_rcLive (j : Nat) (m : Msg) : (s.takeMsg p e).rcLive j m = s.rcLive j m := by
  rw [State.rcLive, takeMsg_tag, takeMsg_bucket]
  rfl
@[simp] theorem takeMsg_checkMsg (m : Msg) : (s.takeMsg p e).checkMsg m = s.checkMsg m := by
  obtain ⟨ps, cs, os, hu, -⟩ := takeMsg_eq s p e
  rw [hu]
  rfl

theorem windsUp_takeMsg : WindsUp s (s.takeMsg p e) :=
  .of_eq (takeMsg_same s p e (q := .cores) (by decide)) (takeMsg_same s p e (q := .jobs) (by decide))
    (takeMsg_same s p e (q := .sw) (by decide)) (takeMsg_same s p e (q := .runSlot) (by decide)).1 (takeMsg_flt s p e)

end

/-- The frame of a command that takes a message, from the frame of what the message does. -/
theorem unchanged_taken {s w : State} {p : Nat} {e : Nat × List Byte} {may : List Part} (hp : w.pending = (s.takeMsg p e).pending)
    (h : ∀ q, q ∉ .ports :: .ctrs :: .out :: may → q.same (s.takeMsg p e) w) :
    Unchanged s (finish s w) (.ports :: .ctrs :: .out :: may) :=
  unchanged_finish (hp.trans (takeMsg_pending s p e)) fun q hq => Part.same_trans
    (takeMsg_same s p e fun hm => hq (List.mem_append_left (as := [Part.ports, .ctrs, .out]) may hm)) (h q hq)

/-! ### What the check finds -/

section
variable {s : State} {p j : Nat} {e : Nat × List Byte} {is : Msg → Bool} (f : State → Nat → Msg → State)
  (hf : (s.port p).inbox.find? (fun x => x.1 == 2) = some e) (hi : is (Msg.ofBytes e.2) = true)
include hf hi

/-- A CTL message for another chip. -/
theorem ctl_misrouted (hd : (Msg.ofBytes e.2).dst ≠ s.chipId) : s.ctl p is f = (s.takeMsg p e).misrouted p (Msg.ofBytes e.2) := by
  have hcheck : s.checkMsg (Msg.ofBytes e.2) = .misrouted := if_pos hd
  simp only [State.ctl, State.headMsg, hf, hi, if_true, takeMsg_checkMsg, hcheck]

/-- One under a key of no job. -/
theorem ctl_noKey (hd : (Msg.ofBytes e.2).dst = s.chipId) (hk : s.slotOfKey (Msg.ofBytes e.2).key = none) :
    s.ctl p is f = (s.takeMsg p e).bump (.port p) 0xA0 := by
  have hcheck : s.checkMsg (Msg.ofBytes e.2) = .noKey := by simp only [State.checkMsg, hd, hk, ne_eq, not_true_eq_false, if_false]
  simp only [State.ctl, State.headMsg, hf, hi, if_true, takeMsg_checkMsg, hcheck]

/-- One of a torn-down job. -/
theorem ctl_torn (hd : (Msg.ofBytes e.2).dst = s.chipId) (hk : s.slotOfKey (Msg.ofBytes e.2).key = some j)
    (ht : bitAt (s.preg .links (0x104 + 4 * j)) 30 = true) :
    s.ctl p is f = if (Msg.ofBytes e.2).kind = 0x10 ∧ (Msg.ofBytes e.2).sub = 1 then (s.takeMsg p e).answerOpen (Msg.ofBytes e.2) 3 0x31
      else s.takeMsg p e := by
  have hcheck : s.checkMsg (Msg.ofBytes e.2) = .torn := by
    simp only [State.checkMsg, hd, hk, ht, ne_eq, not_true_eq_false, if_false, if_true]
  simp only [State.ctl, State.headMsg, hf, hi, if_true, takeMsg_checkMsg, hcheck]

/-- One of a loaded job. -/
theorem ctl_job (hd : (Msg.ofBytes e.2).dst = s.chipId) (hk : s.slotOfKey (Msg.ofBytes e.2).key = some j)
    (ht : bitAt (s.preg .links (0x104 + 4 * j)) 30 = false) : s.ctl p is f = f (s.takeMsg p e) j (Msg.ofBytes e.2) := by
  have hcheck : s.checkMsg (Msg.ofBytes e.2) = .job j := by
    simp only [State.checkMsg, hd, hk, ht, ne_eq, not_true_eq_false, if_false, Bool.false_eq_true]
  simp only [State.ctl, State.headMsg, hf, hi, if_true, takeMsg_checkMsg, hcheck]

end

end Sys2Proof.Machine
end

section
/-! What the messages of the reduction engine do (R287 to R300). -/

namespace Sys2Proof.Machine

/-! ### Teardowns late in a command -/

/-- A teardown after what leaves the jobs as they were. -/
theorem WindsUp.tearDown {s u : State} (h : WindsUp s u) (j cls : Nat) : Tears s (finish s (u.tearDown j cls)) j :=
  (tearJob_tears h.jobs h.sw (fun n => (h.core n).1) j cls).finish

theorem preg_setPreg_same (s : State) (p : Page) (o v : Nat) : (s.setPreg p o v).preg p o = v % 2 ^ 32 := State.reg_setReg_same s _ v

theorem preg_setPreg_ne (s : State) (p : Page) {o x : Nat} (v : Nat) (h : x ≠ o) : (s.setPreg p o v).preg p x = s.preg p x :=
  State.reg_setReg_ne s v (by omega)

/-- A tag and its status left in the page of the engine, with the origin of its failure (Table 9.11). -/
def State.infoLeft (s : State) (j t status origin : Nat) : State :=
  (s.setPreg .red 0x110 (status * 2 ^ 24 + j * 2 ^ 12 + t)).setPreg .red 0x114 origin

theorem preg_infoLeft (s : State) (j t status origin : Nat) :
    (s.infoLeft j t status origin).preg .red 0x110 = (status * 2 ^ 24 + j * 2 ^ 12 + t) % 2 ^ 32 ∧
    (s.infoLeft j t status origin).preg .red 0x114 = origin % 2 ^ 32 := by
  unfold State.infoLeft
  refine ⟨?_, preg_setPreg_same _ _ _ _⟩
  rw [preg_setPreg_ne _ _ _ (by decide), preg_setPreg_same]

/-- A tag FAILED, its record still to come (R300). -/
def State.failNoted (s : State) (j t status origin : Nat) : State :=
  let u := (s.onTag j t (fun x => { x with st := .failed })).infoLeft j t status origin
  { u with red := { u.red with xfers := u.red.xfers.filter (fun x => !(x.job == j && x.tag == t)) } }

theorem preg_failNoted (s : State) (j t status origin : Nat) :
    (s.failNoted j t status origin).preg .red 0x110 = (status * 2 ^ 24 + j * 2 ^ 12 + t) % 2 ^ 32 ∧
    (s.failNoted j t status origin).preg .red 0x114 = origin % 2 ^ 32 := by
  have hregs : (s.failNoted j t status origin).regs = ((s.onTag j t (fun x => { x with st := .failed })).infoLeft j t status origin).regs := rfl
  rw [preg_of_regs hregs, preg_of_regs hregs]
  exact preg_infoLeft _ j t status origin

theorem windsUp_failNoted (s : State) (j t status origin : Nat) : WindsUp s (s.failNoted j t status origin) := .of_eq rfl rfl rfl rfl rfl

/-- With NOTIFY its record follows (R303). -/
theorem markFailed_cases (s : State) (j t status origin : Nat) : s.markFailed j t status origin = s.failNoted j t status origin ∨
      ∃ cq detail, s.markFailed j t status origin = (s.failNoted j t status origin).post cq status 0x03 (some j) 0xFFFF 0 detail := by
  unfold State.markFailed
  dsimp only
  split
  exacts [.inr ⟨_, _, rfl⟩, .inl rfl]

theorem windsUp_markFailed (s : State) (j t status origin : Nat) : WindsUp s (s.markFailed j t status origin) := by
  have hnoted := windsUp_failNoted s j t status origin
  obtain hmark | ⟨cq, detail, hmark⟩ := markFailed_cases s j t status origin
  · rw [hmark]
    exact hnoted
  · rw [hmark]
    exact hnoted.trans (windsUp_post _ _ _ _ _ _ _ _)

/-- A tag's failure forms one record at most. -/
theorem markFailed_unack_le (s : State) (j t status origin : Nat) : (s.markFailed j t status origin).flt.unack ≤ s.flt.unack + 1 := by
  obtain hmark | ⟨cq, detail, hmark⟩ := markFailed_cases s j t status origin
  · rw [hmark]
    exact Nat.le_succ _
  · rw [hmark]
    exact post_unack_le (s.failNoted j t status origin) _ _ _ _ _ _ _

/-- It leaves the tag, the status and the origin in the page of the engine. -/
theorem preg_markFailed (s : State) (j t status origin : Nat) :
    (s.markFailed j t status origin).preg .red 0x110 = (status * 2 ^ 24 + j * 2 ^ 12 + t) % 2 ^ 32 ∧
    (s.markFailed j t status origin).preg .red 0x114 = origin % 2 ^ 32 := by
  obtain ⟨hinfo, horigin⟩ := preg_failNoted s j t status origin
  obtain hmark | ⟨cq, detail, hmark⟩ := markFailed_cases s j t status origin
  · rw [hmark]
    exact ⟨hinfo, horigin⟩
  · rw [hmark]
    exact ⟨(keepsRegs_post _ _ _ _ _ _ _ _ _ (by simp [quietReg, Page.base])).trans hinfo,
      (keepsRegs_post _ _ _ _ _ _ _ _ _ (by simp [quietReg, Page.base])).trans horigin⟩

/-- A tag that fails tears its job down (R300). -/
theorem failTag_tears {s u : State} (h : WindsUp s u) (j t status cls : Nat) (detail : List Byte) :
    Tears s (finish s (u.failTag j t status cls detail)) j :=
  (h.trans ((windsUp_markFailed u j t status u.chipId).trans
    ((windsUp_sendAbort _ j t status cls u.chipId).trans (windsUp_fault _ cls status (some j) redUnit 1 detail 0)))).tearDown j cls

/-! ### Shards -/

theorem shard_onShard (s : State) (j t k : Nat) (f : ShardSt → ShardSt) : (s.onShard j t k f).shard j t k = f (s.shard j t k) := by
  rw [State.shard, State.onShard, State.tag_onTag_same, tget_tset_same]
  rfl

theorem onShard_same (s : State) (j t k : Nat) (f : ShardSt → ShardSt) {p : Part} (h : p ≠ .red) : p.same s (s.onShard j t k f) := by
  cases p <;> first | exact absurd rfl h | simp [Part.same, Part.kept, State.onShard]

@[simp] theorem finish_get_shard (s0 s : State) (j t k : Nat) : (finish s0 s).shard j t k = s.shard j t k := by
  rw [State.shard, finish_get_tag]
  rfl

/-- The arrivals of a shard after one more. -/
def ShardSt.arrive (x : ShardSt) (orig csum : Nat) : ShardSt :=
  { x with arrivals := x.arrivals + 1, orig := x.orig + orig, csum := (x.csum + csum) % 2 ^ 64 }

/-- An arrival at a shard of which the chip is not the root is counted, no more (R287). -/
theorem arrival_counted (s : State) (j t k orig csum : Nat) (h : seRole (s.shardEnt (s.bucket j t) k) ≠ 3) :
    s.arrival j t k orig csum = (s.onShard j t k (fun x => x.arrive orig csum)).bump .red 0x50 := if_neg fun hroot => h hroot.1

/-! ### The engine's answers -/

section
variable {u : State} {j : Nat} {m : Msg}

theorem rxOpen_none (h : (u.tag j (rcTag m)).st = .idle ∨ (u.tag j (rcTag m)).st = .failed) : u.rxOpen j m = u.answerOpen m 3 0x60 :=
  if_pos (by simpa using h)

theorem rxOpen_accepts (h : (u.tag j (rcTag m)).st.inStep = true ∨ (rcXfer m = 3 ∧ (u.tag j (rcTag m)).st = .reduced))
    (hstep : (u.tag j (rcTag m)).step = rcStep m) : u.rxOpen j m =
      (if rcXfer m = 1 then u.onShard j (rcTag m) (rcShard m) (fun x => { x with hdrOpen := true }) else u).answerOpen m 2 (rcXfer m) := by
  have hlive : ¬ ((u.tag j (rcTag m)).st == .idle || (u.tag j (rcTag m)).st == .failed) = true := by
    rcases h with h | ⟨-, h⟩
    · revert h
      cases (u.tag j (rcTag m)).st <;> decide
    · rw [h]
      decide
  exact (if_neg hlive).trans (if_pos ⟨hstep, by simpa using h⟩)

theorem rxOpen_other (hidle : (u.tag j (rcTag m)).st ≠ .idle) (hfailed : (u.tag j (rcTag m)).st ≠ .failed)
    (hstep : (u.tag j (rcTag m)).step ≠ rcStep m) :
    u.rxOpen j m = u.answerOpen m 3 (if ((u.tag j (rcTag m)).step + 1) % 256 = rcStep m then 0x10 else 0x60) := by
  refine (if_neg (by simp [hidle, hfailed])).trans ((if_neg fun h => hstep h.1).trans ?_)
  split <;> rfl

theorem rxAccept_some {x : Xfer} (h : u.red.xfers.find? (fun x => answers j m x && x.kind == rcXfer m) = some x) :
    u.rxAccept j m = (u.onXfer x.id (fun y => { y with accepted := true, retry := false })).pumpOn x.id := by
  simp only [State.rxAccept, h]

theorem rxAccept_none (h : u.red.xfers.find? (fun x => answers j m x && x.kind == rcXfer m) = none) : u.rxAccept j m = u := by
  simp only [State.rxAccept, h]

theorem rxRefuse_retry (h : u.red.xfers.any (answers j m) = true) (hx : rcXfer m = 0x10) : u.rxRefuse j m =
    { u with red := { u.red with xfers := u.red.xfers.map (fun x => if answers j m x then { x with retry := true } else x) } } :=
  (if_pos h).trans (if_pos hx)

theorem redFail_torn (s : State) (j t shard peer : Nat) (here : Bool) :
    s.redFail j t shard 0x31 here peer = s.failTag j t 0x31 5 (natLe 1 0xFF ++ natLe 1 6 ++ natLe 2 peer) := rfl

/-- A REFUSE with another status fails the tag. -/
theorem rxRefuse_fails (h : u.red.xfers.any (answers j m) = true) (hx : rcXfer m ≠ 0x10) :
    ∃ cls detail, u.rxRefuse j m = u.failTag j (rcTag m) (rcXfer m) cls detail := by
  by_cases htorn : rcXfer m = 0x31
  · refine ⟨5, natLe 1 0xFF ++ natLe 1 6 ++ natLe 2 m.src, ?_⟩
    rw [htorn, ← redFail_torn _ _ _ (rcShard m) _ false]
    exact (if_pos h).trans ((if_neg hx).trans (if_pos htorn))
  · exact ⟨14, _, (if_pos h).trans ((if_neg hx).trans (if_neg htorn))⟩

theorem rxDone_live (h : u.rcLive j m = true ∧ (u.tag j (rcTag m)).st.inStep = true) :
    u.rxDone j m = u.arrival j (rcTag m) (rcShard m) (byteFld m.data 0x10 2) (byteFld m.data 8 8) := if_pos (by simpa using h)

theorem rxDone_other (h : ¬ (u.rcLive j m = true ∧ (u.tag j (rcTag m)).st.inStep = true)) : u.rxDone j m = u := if_neg (by simpa using h)

theorem rxDeliver_live (h : u.rcLive j m = true ∧ (u.tag j (rcTag m)).st.inStep = true) : u.rxDeliver j m =
    (u.onShard j (rcTag m) (rcShard m) (fun x => { x with dsum := some (byteFld m.data 8 8) })).verifyDelivered j (rcTag m) (rcShard m) :=
  if_pos (by simpa using h)

theorem rxDeliver_other (h : ¬ (u.rcLive j m = true ∧ (u.tag j (rcTag m)).st.inStep = true)) : u.rxDeliver j m = u :=
  if_neg (by simpa using h)

theorem rxAbort_none (p : Nat) (h : (u.tag j (rcTag m)).st = .idle ∨ (u.tag j (rcTag m)).st = .failed) : u.rxAbort p j m = u.bump .red 0x90 :=
  if_pos (by simpa using h)

theorem rxAbort_fails (p : Nat) (hidle : (u.tag j (rcTag m)).st ≠ .idle) (hfailed : (u.tag j (rcTag m)).st ≠ .failed) : ∃ detail,
    u.rxAbort p j m = (((u.bump .red 0x90).markFailed j (rcTag m) (rcXfer m) (byteFld m.data 0x12 2)).fault 5 (rcXfer m) (some j)
      (Page.port p).unit 9 detail).tearDown j 5 :=
  ⟨_, if_neg (by simp [hidle, hfailed])⟩

end

/-- An ABORT that fails its tag: its record, the teardown, and the tag and the origin left in the page of the engine. -/
theorem abort_reports {s u : State} (hu : WindsUp s u) (hflt : u.flt = s.flt) (j t status origin unit flags : Nat) (detail : List Byte) :
    let v := finish s (((u.markFailed j t status origin).fault 5 status (some j) unit flags detail).tearDown j 5)
    Records s v 5 ∧ Tears s v j ∧ v.preg .red 0x110 = (status * 2 ^ 24 + j * 2 ^ 12 + t) % 2 ^ 32 ∧ v.preg .red 0x114 = origin % 2 ^ 32 := by
  intro v
  have hmark := hu.trans (windsUp_markFailed u j t status origin)
  have hquiet : ∀ o, quietReg (Page.red.base + o) → v.preg .red o = (u.markFailed j t status origin).preg .red o := fun o ho =>
    (finish_get_preg ..).trans (((keepsRegs_fault _ _ _ _ _ _ _ _).trans (keepsRegs_tearJob _ (some j) 5)) _ ho)
  obtain ⟨hinfo, horigin⟩ := preg_markFailed u j t status origin
  refine ⟨records_second (by decide) hmark.recs ?_ (tearJob_keepsRecords _ (some j) 5),
    (hmark.trans (windsUp_fault _ 5 status (some j) unit flags detail 0)).tearDown j 5, ?_, ?_⟩
  · rw [← hflt]
    exact markFailed_unack_le u j t status origin
  · rw [hquiet 0x110 (by simp [quietReg, Page.base]), hinfo]
  · rw [hquiet 0x114 (by simp [quietReg, Page.base]), horigin]

end Sys2Proof.Machine
end

section
/-! The messages of the reduction engine and of lintels settled (R166, R287 to R300, R340). -/

namespace Sys2Proof.Machine

/-! ### Bounds of a message's fields -/

theorem leNat_lt (bs : List Byte) : leNat bs < 256 ^ bs.length := by
  induction bs with
  | nil => exact Nat.one_pos
  | cons b bs ih =>
    have := b.isLt
    rw [leNat, List.length_cons, Nat.pow_succ]
    omega

theorem byteFld_lt (bs : List Byte) (o n : Nat) : byteFld bs o n < 256 ^ n :=
  (leNat_lt _).trans_le (Nat.pow_le_pow_right (by decide) (List.length_take_le ..))

theorem slotOfKey_lt {s : State} {key j : Nat} (h : s.slotOfKey key = some j) : j < 4 := List.mem_range.mp (List.mem_of_find?_eq_some h)

/-- What an engine's failure leaves in its page fits its register. -/
theorem tagInfo_lt {s : State} {m : Msg} {j : Nat} (h : s.slotOfKey m.key = some j) : rcXfer m * 2 ^ 24 + j * 2 ^ 12 + rcTag m < 2 ^ 32 := by
  have hslot := slotOfKey_lt h
  have hxfer : rcXfer m < 256 := byteFld_lt _ _ 1
  have htag : rcTag m < 4096 := fld_lt _ 11 0
  omega

/-! ### Every message's command -/

/-- The command of a message of the engines or of a lintel (Table 11.6). -/
def EngineCmd (p : PortId) (m : Msg) (i : Instr) : Prop :=
  (m.kind = 0x10 ∧ ((i = .openMsg p ∧ m.sub = 1) ∨ (i = .acceptMsg p ∧ m.sub = 2) ∨ (i = .refuseMsg p ∧ m.sub = 3) ∨
    (i = .doneMsg p ∧ m.sub = 4) ∨ (i = .deliverChecksum p ∧ m.sub = 5) ∨ (i = .gathered p ∧ m.sub = 6) ∨ (i = .abortMsg p ∧ m.sub = 7))) ∨
  (m.kind = 0x11 ∧ i = .lintel p)

/-- It takes a CTL message of its kind; OPEN alone is answered for a torn-down job. -/
theorem engineCmd_ctl {s : State} {p : PortId} {m : Msg} {i : Instr} (hl : s.live = true) (h : EngineCmd p m i) : ∃ is f, is m = true ∧
    exec i s = .next (finish s (s.ctl p is f)) ∧ (i = .openMsg p ↔ m.kind = 0x10 ∧ m.sub = 1) := by
  have hred : ∀ i sub f, (∀ s, exec i s = act s (fun s => s.redCtl p sub f)) → m.kind = 0x10 → m.sub = sub → (i = .openMsg p ↔ sub = 1) →
      ∃ is f, is m = true ∧ exec i s = .next (finish s (s.ctl p is f)) ∧ (i = .openMsg p ↔ m.kind = 0x10 ∧ m.sub = 1) := by
    intro i sub f hexec hkind hsub hopen
    exact ⟨fun m => m.kind == 0x10 && m.sub == sub, f, by simp [hkind, hsub], (hexec s).trans (act_live hl _), by simp [hkind, hsub, hopen]⟩
  obtain ⟨hkind, ⟨rfl, hsub⟩ | ⟨rfl, hsub⟩ | ⟨rfl, hsub⟩ | ⟨rfl, hsub⟩ | ⟨rfl, hsub⟩ | ⟨rfl, hsub⟩ | ⟨rfl, hsub⟩⟩ | ⟨hkind, rfl⟩ := h
  · exact hred _ 1 State.rxOpen (fun _ => rfl) hkind hsub (by simp)
  · exact hred _ 2 State.rxAccept (fun _ => rfl) hkind hsub (by simp)
  · exact hred _ 3 State.rxRefuse (fun _ => rfl) hkind hsub (by simp)
  · exact hred _ 4 State.rxDone (fun _ => rfl) hkind hsub (by simp)
  · exact hred _ 5 State.rxDeliver (fun _ => rfl) hkind hsub (by simp)
  · exact hred _ 6 State.rxGathered (fun _ => rfl) hkind hsub (by simp)
  · exact hred _ 7 (fun s j m => s.rxAbort p j m) (fun _ => rfl) hkind hsub (by simp)
  · refine ⟨fun m => m.kind == 0x11, fun s j m => s.lintelIn p j m, by simp [hkind], ?_, by simp [hkind]⟩
    rw [show exec (.lintel p) s = execLintel p s from rfl, execLintel, act_live hl]

/-- A link fault reported as a message is taken. -/
theorem linkFault_taken {s u : State} {p : PortId} {e : Nat × List Byte} (o : Nat) (hu : u = (s.takeMsg p e).bump (.port p) o)
    (cause peer seq abortCls : Nat) (job : Option Nat) (ho : o ≠ 0xC8) :
    let v := finish s (u.linkFault p cause peer seq abortCls job)
    Unchanged s v [.ports, .ctrs, .out, .flt, .regs] ∧ Records s v 5 ∧ v.ctr (.port p) o = (s.ctr (.port p) o + 1) % 2 ^ 48 := by
  subst hu
  refine ⟨unchanged_taken (e := e) (p := p) ?_ fun q hq => ?_, records_finish (u := (s.takeMsg p e).bump (.port p) o) (by decide) (takeMsg_flt s p e) (.refl _), ?_⟩
  · exact fault_pending ..
  · simp only [List.mem_cons, List.not_mem_nil, or_false, not_or] at hq
    obtain ⟨-, hctrs, -, hflt, hregs⟩ := hq
    exact Part.same_trans (bump_same _ _ _ _ hctrs) (linkFault_same _ p _ _ _ _ _ _ _ (by simp [hctrs, hflt, hregs]))
  · rw [finish_get_ctr]
    refine (fault_ctrs _ (by decide) _ _ _ _ _ _ (by simp only [Page.base]; omega)).trans ?_
    exact (State.ctr_bump_same _ _ _ _).trans (by rw [takeMsg_ctr s p e (by omega)])

/-! ### Messages of a loaded job -/

/-- A CTL message of a loaded job at the head of its buffer. -/
structure Hears (s : State) (p : PortId) (e : Nat × List Byte) (j : Nat) : Prop where
  live : s.live = true
  head : (s.port p).inbox.find? (fun x => x.1 == 2) = some e
  dst : (Msg.ofBytes e.2).dst = s.chipId
  key : s.slotOfKey (Msg.ofBytes e.2).key = some j
  loaded : bitAt (s.preg .links (0x104 + 4 * j)) 30 = false

section
variable {s : State} {p : PortId} {e : Nat × List Byte} {j : Nat}

/-- A message of the reduction engine acts on its job. -/
theorem Hears.redCtl (h : Hears s p e j) {sub : Nat} (hkind : (Msg.ofBytes e.2).kind = 0x10) (hsub : (Msg.ofBytes e.2).sub = sub)
    (f : State → Nat → Msg → State) :
    act s (fun s => s.redCtl p sub f) = .next (finish s (f (s.takeMsg p e) j (Msg.ofBytes e.2))) := by
  rw [act_live h.live, State.redCtl, ctl_job f h.head (by simp [hkind, hsub]) h.dst h.key h.loaded]

/-- A LINTEL message, too. -/
theorem Hears.lintel (h : Hears s p e j) (hkind : (Msg.ofBytes e.2).kind = 0x11) :
    exec (.lintel p) s = .next (finish s ((s.takeMsg p e).lintelIn p j (Msg.ofBytes e.2))) := by
  rw [show exec (.lintel p) s = execLintel p s from rfl, execLintel, act_live h.live, ctl_job _ h.head (by simp [hkind]) h.dst h.key h.loaded]

/-- A message that does nothing but leave its buffer. -/
theorem unchanged_takeMsg (s : State) (p : Nat) (e : Nat × List Byte) : Unchanged s (finish s (s.takeMsg p e)) [.ports, .ctrs, .out] :=
  unchanged_taken rfl fun q _ => Part.same_refl _ q

/-- One that touches the engine alone. -/
theorem unchanged_red {w : State} {p : Nat} (hp : w.pending = (s.takeMsg p e).pending) (h : ∀ q : Part, q ≠ .red → q ≠ .ctrs → q.same (s.takeMsg p e) w) :
    Unchanged s (finish s w) [.red, .ports, .ctrs, .out] :=
  (unchanged_taken (may := [.red]) hp fun q hq => by
    simp only [List.mem_cons, List.not_mem_nil, or_false, not_or] at hq
    exact h q hq.2.2.2 hq.2.1).mono (by decide)

end

end Sys2Proof.Machine
end

section
/-! The engine's messages, one by one, and O42. -/

namespace Sys2Proof.Machine

section
variable {s : State} {p : PortId} {e : Nat × List Byte} {j : Nat}

/-- A shard's progress changed by a message. -/
theorem unchanged_onShard (s : State) (p : Nat) (e : Nat × List Byte) (j t k : Nat) (f : ShardSt → ShardSt) :
    Unchanged s (finish s ((s.takeMsg p e).onShard j t k f)) [.red, .ports, .ctrs, .out] :=
  unchanged_red (p := p) (e := e) rfl fun _ hq _ => onShard_same _ j t k f hq

/-- OPEN at its receiver (R288). -/
theorem Hears.openMsg (h : Hears s p e j) (hkind : (Msg.ofBytes e.2).kind = 0x10) (hsub : (Msg.ofBytes e.2).sub = 1) :
    exec (.openMsg p) s = .next (finish s ((s.takeMsg p e).rxOpen j (Msg.ofBytes e.2))) := h.redCtl hkind hsub State.rxOpen

theorem Hears.acceptMsg (h : Hears s p e j) (hkind : (Msg.ofBytes e.2).kind = 0x10) (hsub : (Msg.ofBytes e.2).sub = 2) :
    exec (.acceptMsg p) s = .next (finish s ((s.takeMsg p e).rxAccept j (Msg.ofBytes e.2))) := h.redCtl hkind hsub State.rxAccept

theorem Hears.refuseMsg (h : Hears s p e j) (hkind : (Msg.ofBytes e.2).kind = 0x10) (hsub : (Msg.ofBytes e.2).sub = 3) :
    exec (.refuseMsg p) s = .next (finish s ((s.takeMsg p e).rxRefuse j (Msg.ofBytes e.2))) := h.redCtl hkind hsub State.rxRefuse

theorem Hears.doneMsg (h : Hears s p e j) (hkind : (Msg.ofBytes e.2).kind = 0x10) (hsub : (Msg.ofBytes e.2).sub = 4) :
    exec (.doneMsg p) s = .next (finish s ((s.takeMsg p e).rxDone j (Msg.ofBytes e.2))) := h.redCtl hkind hsub State.rxDone

theorem Hears.deliverChecksum (h : Hears s p e j) (hkind : (Msg.ofBytes e.2).kind = 0x10) (hsub : (Msg.ofBytes e.2).sub = 5) :
    exec (.deliverChecksum p) s = .next (finish s ((s.takeMsg p e).rxDeliver j (Msg.ofBytes e.2))) := h.redCtl hkind hsub State.rxDeliver

theorem Hears.gathered (h : Hears s p e j) (hkind : (Msg.ofBytes e.2).kind = 0x10) (hsub : (Msg.ofBytes e.2).sub = 6) :
    exec (.gathered p) s = .next (finish s ((s.takeMsg p e).rxGathered j (Msg.ofBytes e.2))) := h.redCtl hkind hsub State.rxGathered

theorem Hears.abortMsg (h : Hears s p e j) (hkind : (Msg.ofBytes e.2).kind = 0x10) (hsub : (Msg.ofBytes e.2).sub = 7) :
    exec (.abortMsg p) s = .next (finish s ((s.takeMsg p e).rxAbort p j (Msg.ofBytes e.2))) :=
  h.redCtl hkind hsub fun s j m => s.rxAbort p j m

/-! ### Lintel messages (R166) -/

theorem onLint_same (s : State) (j id : Nat) (f : Lint → Lint) {q : Part} (h : q ≠ .lintels) : q.same s (s.onLint j id f) := by
  cases q <;> first | exact absurd rfl h | simp [Part.same, Part.kept]

/-- A lintel changed by a message. -/
theorem lint_taken (s : State) (p : Nat) (e : Nat × List Byte) (j id : Nat) (f : Lint → Lint) :
    Unchanged s (finish s ((s.takeMsg p e).onLint j id f)) [.lintels, .ports, .ctrs, .out] ∧
    (finish s ((s.takeMsg p e).onLint j id f)).lint j id = f (s.lint j id) ∧
    ∀ a b, 256 * a + b ≠ 256 * j + id → (finish s ((s.takeMsg p e).onLint j id f)).lint a b = s.lint a b := by
  have hframe : Unchanged s (finish s ((s.takeMsg p e).onLint j id f)) [.ports, .ctrs, .out, .lintels] :=
    unchanged_taken rfl fun q hq => onLint_same _ j id f (by rintro rfl; exact hq (by decide))
  refine ⟨hframe.mono (by decide), ?_, fun a b hab => ?_⟩
  · rw [finish_get_lint, State.lint_onLint_same, takeMsg_lint]
  · rw [finish_get_lint, State.lint_onLint_ne _ _ hab, takeMsg_lint]

/-- The phase that a LINTEL message names, of four. -/
def Msg.phase (m : Msg) : Nat := byteFld m.data 1 1 % 4

section
variable {u : State} {m : Msg}

/-- A message of the current phase, -/
theorem lintelIn_current (hv : (u.lint j (byteFld m.data 0 1)).valid = true) (he : (u.lint j (byteFld m.data 0 1)).expect ≠ 0)
    (hph : m.phase = (u.lint j (byteFld m.data 0 1)).phase % 4) :
    u.lintelIn p j m = u.onLint j (byteFld m.data 0 1) (fun l => { l with msgCur := l.msgCur + 1 }) :=
  if_pos (by unfold Msg.phase at hph; simp [hv, he, hph])

/-- of the one after it, -/
theorem lintelIn_next (hv : (u.lint j (byteFld m.data 0 1)).valid = true) (he : (u.lint j (byteFld m.data 0 1)).expect ≠ 0)
    (hph : m.phase = ((u.lint j (byteFld m.data 0 1)).phase + 1) % 4) :
    u.lintelIn p j m = u.onLint j (byteFld m.data 0 1) (fun l => { l with msgNext := l.msgNext + 1 }) := by
  unfold Msg.phase at hph
  have hlater : byteFld m.data 1 1 % 4 ≠ (u.lint j (byteFld m.data 0 1)).phase % 4 := by omega
  exact (if_neg (by simp [hlater])).trans (if_pos (by simp [hv, he, hph]))

/-- and any other. -/
theorem lintelIn_other (h : (u.lint j (byteFld m.data 0 1)).valid = false ∨ (u.lint j (byteFld m.data 0 1)).expect = 0 ∨
      (m.phase ≠ (u.lint j (byteFld m.data 0 1)).phase % 4 ∧ m.phase ≠ ((u.lint j (byteFld m.data 0 1)).phase + 1) % 4)) :
    u.lintelIn p j m = (u.bump (.port p) 0xD8).linkFault p 5 m.src (byteFld m.data 0 1 + 256 * m.phase) 0 (some j) := by
  unfold Msg.phase at h ⊢
  obtain hv | he | ⟨hcur, hnext⟩ := h
  · exact (if_neg (by simp [hv])).trans (if_neg (by simp [hv]))
  · exact (if_neg (by simp [he])).trans (if_neg (by simp [he]))
  · exact (if_neg (by simp [hcur])).trans (if_neg (by simp [hnext]))

end

end

/-- Every command of a message to another chip, or under a key that names no loaded job. -/
theorem engineCmd_idle {s : State} {p : PortId} {e : Nat × List Byte} {i : Instr} (hl : s.live = true)
    (hf : (s.port p).inbox.find? (fun x => x.1 == 2) = some e) (hi : EngineCmd p (Msg.ofBytes e.2) i) :
    let m := Msg.ofBytes e.2
    (m.dst ≠ s.chipId → ∃ v, exec i s = .next v ∧ Unchanged s v [.ports, .ctrs, .out, .flt, .regs] ∧ Records s v 5 ∧
      v.ctr (.port p) 0xA8 = (s.ctr (.port p) 0xA8 + 1) % 2 ^ 48) ∧
    (m.dst = s.chipId → s.slotOfKey m.key = none → ∃ v, exec i s = .next v ∧ Unchanged s v [.ports, .ctrs, .out] ∧
      v.ctr (.port p) 0xA0 = (s.ctr (.port p) 0xA0 + 1) % 2 ^ 48) ∧
    (∀ j, m.dst = s.chipId → s.slotOfKey m.key = some j → bitAt (s.preg .links (0x104 + 4 * j)) 30 = true →
      exec i s = .next (finish s (if i = .openMsg p then (s.takeMsg p e).answerOpen m 3 0x31 else s.takeMsg p e))) := by
  intro m
  obtain ⟨is, f, his, hexec, hopen⟩ := engineCmd_ctl hl hi
  refine ⟨fun hd => ?_, fun hd hk => ?_, fun j hd hk ht => ?_⟩
  · rw [ctl_misrouted f hf his hd] at hexec
    exact ⟨_, hexec, linkFault_taken 0xA8 rfl 4 m.src 0 0 none (by decide)⟩
  · rw [ctl_noKey f hf his hd hk] at hexec
    refine ⟨_, hexec, unchanged_taken (p := p) (e := e) (may := []) rfl fun q hq => ?_, ?_⟩
    · exact bump_same _ _ _ _ (by rintro rfl; exact hq (by decide))
    · rw [finish_get_ctr, State.ctr_bump_same, takeMsg_ctr s p e (by omega)]
  · rw [hexec, ctl_torn f hf his hd hk ht]
    by_cases ho : i = .openMsg p
    · rw [if_pos ho, if_pos (hopen.mp ho)]
    · rw [if_neg ho, if_neg (mt hopen.mpr ho)]

section
variable {s : State} {p : PortId} {e : Nat × List Byte} {j : Nat}

/-- REFUSE of a transfer (R288). -/
theorem refuse_settled (h : Hears s p e j) (hkind : (Msg.ofBytes e.2).kind = 0x10) (hsub : (Msg.ofBytes e.2).sub = 3)
    (hany : s.red.xfers.any (answers j (Msg.ofBytes e.2)) = true) :
    (rcXfer (Msg.ofBytes e.2) = 0x10 → ∃ v, exec (.refuseMsg p) s = .next v ∧ Unchanged s v [.red, .ports, .ctrs, .out] ∧
      v.red = { s.red with xfers := s.red.xfers.map (fun x => if answers j (Msg.ofBytes e.2) x then { x with retry := true } else x) }) ∧
    (rcXfer (Msg.ofBytes e.2) ≠ 0x10 → ∃ v, exec (.refuseMsg p) s = .next v ∧ Tears s v j) := by
  have hexec := h.refuseMsg hkind hsub
  have hany' : (s.takeMsg p e).red.xfers.any (answers j (Msg.ofBytes e.2)) = true := by rw [takeMsg_red]; exact hany
  refine ⟨fun hx => ?_, fun hx => ?_⟩
  · rw [rxRefuse_retry hany' hx] at hexec
    refine ⟨_, hexec, unchanged_red (p := p) (e := e) rfl fun q hred _ => ?_, ?_⟩
    · cases q <;> first | exact absurd rfl hred | simp [Part.same, Part.kept]
    · rw [finish_red]
      simp only [takeMsg_red]
  · obtain ⟨cls, detail, hfails⟩ := rxRefuse_fails hany' hx
    rw [hfails] at hexec
    exact ⟨_, hexec, failTag_tears (windsUp_takeMsg s p e) j _ _ cls detail⟩

/-- DONE of a tag that stands in its step (R287). -/
theorem done_counted (s : State) (p : Nat) (e : Nat × List Byte) (j t k orig csum : Nat) (hrole : seRole (s.shardEnt (s.bucket j t) k) ≠ 3) :
    Unchanged s (finish s ((s.takeMsg p e).arrival j t k orig csum)) [.red, .ports, .ctrs, .out] ∧
    (finish s ((s.takeMsg p e).arrival j t k orig csum)).shard j t k = (s.shard j t k).arrive orig csum := by
  have hrole' : seRole ((s.takeMsg p e).shardEnt ((s.takeMsg p e).bucket j t) k) ≠ 3 := by
    rw [takeMsg_bucket, State.shardEnt, takeMsg_bytes]
    exact hrole
  rw [arrival_counted _ _ _ _ _ _ hrole']
  refine ⟨unchanged_red rfl fun q hred hctrs => Part.same_trans (onShard_same _ j t k _ hred) (bump_same _ _ _ _ hctrs), ?_⟩
  rw [finish_get_shard]
  exact (shard_onShard (s.takeMsg p e) j t k (fun x => x.arrive orig csum)).trans (congrArg (ShardSt.arrive · orig csum) (takeMsg_shard s p e j t k))

/-- ABORT of a tag (R300). -/
theorem abort_settled (h : Hears s p e j) (hkind : (Msg.ofBytes e.2).kind = 0x10) (hsub : (Msg.ofBytes e.2).sub = 7) :
    let m := Msg.ofBytes e.2
    let tg := s.tag j (rcTag m)
    ((tg.st = .idle ∨ tg.st = .failed) → ∃ v, exec (.abortMsg p) s = .next v ∧ Unchanged s v [.ports, .ctrs, .out] ∧
      v.ctr .red 0x90 = (s.ctr .red 0x90 + 1) % 2 ^ 48) ∧
    (tg.st ≠ .idle → tg.st ≠ .failed → ∃ v, exec (.abortMsg p) s = .next v ∧ Records s v 5 ∧ Tears s v j ∧
      v.preg .red 0x110 = rcXfer m * 2 ^ 24 + j * 2 ^ 12 + rcTag m ∧ v.preg .red 0x114 = byteFld m.data 0x12 2) := by
  intro m tg
  have hexec := h.abortMsg hkind hsub
  have htag : (s.takeMsg p e).tag j (rcTag m) = tg := takeMsg_tag s p e j _
  refine ⟨fun hst => ?_, fun hidle hfailed => ?_⟩
  · rw [rxAbort_none p (by rw [htag]; exact hst)] at hexec
    refine ⟨_, hexec, unchanged_taken (p := p) (e := e) (may := []) rfl fun q hq => ?_, ?_⟩
    · exact bump_same _ _ _ _ (by rintro rfl; exact hq (by decide))
    · rw [finish_get_ctr, State.ctr_bump_same, takeMsg_ctr s p e (by simp only [Page.base]; omega)]
  · obtain ⟨detail, hfails⟩ := rxAbort_fails (u := s.takeMsg p e) p (by rw [htag]; exact hidle) (by rw [htag]; exact hfailed)
    rw [hfails] at hexec
    obtain ⟨hrecords, htears, hinfo, horigin⟩ := abort_reports (s := s) (u := (s.takeMsg p e).bump .red 0x90)
      ((windsUp_takeMsg s p e).trans (windsUp_bump _ _ _ _)) (takeMsg_flt s p e) j (rcTag m) (rcXfer m) (byteFld m.data 0x12 2)
      (Page.port p).unit 9 detail
    refine ⟨_, hexec, hrecords, htears, hinfo.trans (Nat.mod_eq_of_lt (tagInfo_lt h.key)), horigin.trans (Nat.mod_eq_of_lt ?_)⟩
    exact (byteFld_lt m.data 0x12 2).trans (by decide)

end

/-- Settles O42: what the check of R340 finds, then of a loaded job each message by what it does to its tag, shard or lintel. -/
theorem engineMessagesAct : Obligations.EngineMessagesAct := by
  unfold Obligations.EngineMessagesAct
  intro s p e hl hf m u t k mine
  refine ⟨fun i hi => engineCmd_idle hl hf hi, fun j hd hk ht => ?_⟩
  have h : Hears s p e j := ⟨hl, hf, hd, hk, ht⟩
  have htag : u.tag j t = s.tag j t := takeMsg_tag s p e j t
  have hred : u.red = s.red := takeMsg_red s p e
  have hrc : u.rcLive j m = s.rcLive j m := takeMsg_rcLive s p e j m
  have hleft := unchanged_takeMsg s p e
  intro tg live
  have hlive : live ↔ u.rcLive j m = true ∧ (u.tag j t).st.inStep = true := by rw [hrc, htag]
  refine ⟨fun hkind => ⟨fun hsub => ?_, fun hsub => ?_, fun hsub hany => refuse_settled h hkind hsub hany, fun hsub => ?_, fun hsub => ?_,
    fun hsub hrl => ?_, fun hsub => abort_settled h hkind hsub⟩, fun hkind => ?_⟩
  · have hexec := h.openMsg hkind hsub
    refine ⟨fun hst => ?_, fun hst hstep => ⟨fun hx => ?_, fun hx => ?_⟩, fun hidle hfailed hstep => ?_⟩
    · rw [hexec, rxOpen_none (by rw [htag]; exact hst)]
    · rw [hexec, rxOpen_accepts (by rw [htag]; exact hst) (by rw [htag]; exact hstep), if_neg hx]
    · rw [hexec, rxOpen_accepts (by rw [htag]; exact hst) (by rw [htag]; exact hstep), if_pos hx, hx]
    · rw [hexec, rxOpen_other (by rw [htag]; exact hidle) (by rw [htag]; exact hfailed) (by rw [htag]; exact hstep), htag]
  · have hexec := h.acceptMsg hkind hsub
    refine ⟨fun x hx => ?_, fun hx => ?_⟩
    · rw [hexec, rxAccept_some (by rw [hred]; exact hx)]
    · rw [rxAccept_none (by rw [hred]; exact hx)] at hexec
      exact ⟨_, hexec, hleft⟩
  · have hexec := h.doneMsg hkind hsub
    refine ⟨fun hon => ?_, fun hoff => ?_⟩
    · rw [rxDone_live (hlive.mp hon)] at hexec
      exact ⟨hexec, fun hrole => ⟨_, hexec, done_counted s p e j t k _ _ hrole⟩⟩
    · rw [rxDone_other (mt hlive.mpr hoff)] at hexec
      exact ⟨_, hexec, hleft⟩
  · have hexec := h.deliverChecksum hkind hsub
    refine ⟨fun hon => ?_, fun hoff => ?_⟩
    · rw [hexec, rxDeliver_live (hlive.mp hon)]
    · rw [rxDeliver_other (mt hlive.mpr hoff)] at hexec
      exact ⟨_, hexec, hleft⟩
  · have hexec := h.gathered hkind hsub
    rw [show u.rxGathered j m = u.onShard j t k (fun x => { x with gathered := true }) from if_pos (hrc.trans hrl)] at hexec
    refine ⟨_, hexec, ?_, unchanged_onShard s p e j t k _⟩
    rw [finish_get_shard, shard_onShard, takeMsg_shard]
  · have hexec := h.lintel hkind
    intro id ph l mends
    have hlint : u.lint j id = l := takeMsg_lint s p e j id
    refine ⟨fun hv he hph => ?_, fun hv he hph => ?_, fun hother => ?_⟩
    · rw [lintelIn_current (by rw [hlint]; exact hv) (by rw [hlint]; exact he) (by rw [hlint]; exact hph)] at hexec
      exact ⟨_, hexec, lint_taken s p e j id _⟩
    · rw [lintelIn_next (by rw [hlint]; exact hv) (by rw [hlint]; exact he) (by rw [hlint]; exact hph)] at hexec
      exact ⟨_, hexec, lint_taken s p e j id _⟩
    · rw [lintelIn_other (by rw [hlint]; exact hother)] at hexec
      exact ⟨_, hexec, linkFault_taken 0xD8 rfl 5 m.src (id + 256 * ph) 0 (some j) (by decide)⟩

end Sys2Proof.Machine
end

section
/-! The scrubber of a sill and of a quarry (R185 to R188, R238 to R243): what its reads leave alone in either block, what comes of a codeword
that they correct, and of one that they cannot. -/

namespace Sys2Proof.Machine

/-! ### Cells under a scrubber -/

/-- The cells of a block under its scrubber: the block's number, its control page and its part of the state; of a block of its kind, as the
state holds it, the repair queue and the patrol's position (R186, R188, R243). -/
structure Cells (β : Type) where
  num : Nat
  page : Page
  part : Part
  block : Tab Core → Tab Quarry → Nat → β
  queue : β → List Nat
  pos : β → Nat

/-- The sill of a core. -/
def sillCells (n : CoreId) : Cells Core := ⟨n, .sill n, .cores, fun cores _ m => tget (Core.fresh m) cores m, Core.repairQ, Core.scrubPos⟩
/-- A quarry. -/
def quarryCells (q : CoreId) : Cells Quarry := ⟨q, .quarry q, .quarries, fun _ quarries m => tget {} quarries m, Quarry.repairQ, Quarry.scrubPos⟩

variable {β : Type}

/-- A block of the kind, as a state holds it. -/
def Cells.at (c : Cells β) (s : State) (m : Nat) : β := c.block s.cores s.quarries m
/-- What waits for repair (R186). -/
def Cells.repairs (c : Cells β) (s : State) : List Nat := c.queue (c.at s c.num)
/-- What was corrected waits for repair, or the queue is full (R186). -/
def Cells.mended (c : Cells β) (s : State) (u : Nat) : Prop := u ∈ c.repairs s ∨ 8 ≤ (c.repairs s).length

/-- The parts that a scrubber's reads touch. -/
def Cells.parts (c : Cells β) : List Part := [c.part, .mem, .ctrs, .regs, .flt]

/-- Of the state only those parts are touched, of memory only the codes, of the page's counters only the named ones, of the blocks of the
kind only this one. -/
structure CellFrame (c : Cells β) (may : List Nat) (s t : State) : Prop where
  same : ∀ p, p ∉ c.parts → p.same s t
  pending : t.pending = s.pending
  mem : t.mem = s.mem
  ctrs : ∀ o, o < 0x1000 → o ∉ may → t.ctr c.page o = s.ctr c.page o
  other : ∀ m, m ≠ c.num → c.at t m = c.at s m

/-- The scrubber at work besides: what is poisoned stays so, its control register and the patrol's position stand, and nothing leaves the repair
queue. -/
structure CellWork (c : Cells β) (may : List Nat) (s t : State) : Prop extends CellFrame c may s t where
  poison : ∀ k, (tget ⟨[], false⟩ s.ecc k).poison = true → (tget ⟨[], false⟩ t.ecc k).poison = true
  control : t.preg c.page 0x100 = s.preg c.page 0x100
  pos : c.pos (c.at t c.num) = c.pos (c.at s c.num)
  repairs : c.repairs s <+: c.repairs t

section
variable {c : Cells β} {may may' : List Nat} {s t u : State}

theorem CellFrame.trans (h : CellFrame c may s t) (g : CellFrame c may t u) : CellFrame c may s u where
  same p hp := Part.same_trans (h.same p hp) (g.same p hp)
  pending := g.pending.trans h.pending
  mem := g.mem.trans h.mem
  ctrs o ho hm := (g.ctrs o ho hm).trans (h.ctrs o ho hm)
  other m hm := (g.other m hm).trans (h.other m hm)

theorem CellFrame.mono (h : CellFrame c may s t) (hm : may ⊆ may') : CellFrame c may' s t :=
  { h with ctrs := fun o ho ho' => h.ctrs o ho fun hin => ho' (hm hin) }

/-- The frame of the whole command. -/
theorem CellFrame.unchanged (h : CellFrame c may s t) : Unchanged s (finish s t) c.parts := unchanged_finish h.pending h.same

theorem CellWork.refl (c : Cells β) (may : List Nat) (s : State) : CellWork c may s s :=
  ⟨⟨fun p _ => Part.same_refl s p, rfl, rfl, fun _ _ _ => rfl, fun _ _ => rfl⟩, fun _ h => h, rfl, rfl, List.prefix_rfl⟩

theorem CellWork.trans (h : CellWork c may s t) (g : CellWork c may t u) : CellWork c may s u where
  toCellFrame := h.toCellFrame.trans g.toCellFrame
  poison k hk := g.poison k (h.poison k hk)
  control := g.control.trans h.control
  pos := g.pos.trans h.pos
  repairs := h.repairs.trans g.repairs

theorem CellWork.mono (h : CellWork c may s t) (hm : may ⊆ may') : CellWork c may' s t :=
  { h with toCellFrame := h.toCellFrame.mono hm }

theorem CellWork.foldl {α : Type} {f : State → α → State} (h : ∀ s x, CellWork c may s (f s x)) (xs : List α) (s : State) :
    CellWork c may s (xs.foldl f s) := by
  induction xs generalizing s with
  | nil => exact .refl c may s
  | cons x xs ih => exact (h s x).trans (ih _)

/-- What waits for repair goes on waiting. -/
theorem CellWork.mended (h : CellWork c may s t) {r : Nat} (hm : c.mended s r) : c.mended t r :=
  hm.imp (fun hin => h.repairs.subset hin) fun hlen => hlen.trans h.repairs.length_le

end

/-! ### The named updates -/

section
variable (c : Cells β) (s : State)

theorem cellFrame_ecc (e : Tab Cw) : CellFrame c [] s { s with ecc := e } := by
  refine ⟨fun p hp => ?_, rfl, rfl, fun _ _ _ => rfl, fun _ _ => rfl⟩
  cases p <;> simp_all [Part.same, Part.kept, Cells.parts]

theorem cellFrame_bump (q : Page) (o k : Nat) {may : List Nat} (h : ∀ x, x < 0x1000 → x ∉ may → c.page.base + x ≠ q.base + o) :
    CellFrame c may s (s.bump q o k) :=
  ⟨fun _ hp => bump_same s q o k fun e => hp (by simp [e, Cells.parts]), rfl, rfl, fun x hx hm => State.ctr_bump_ne s k (h x hx hm), fun _ _ => rfl⟩

/-- A counter advanced, of another page or a named one. -/
theorem cellWork_bump (q : Page) (o k : Nat) {may : List Nat} (h : ∀ x, x < 0x1000 → x ∉ may → c.page.base + x ≠ q.base + o) :
    CellWork c may s (s.bump q o k) := ⟨cellFrame_bump c s q o k h, fun _ h => h, rfl, rfl, List.prefix_rfl⟩

/-- A counter of the page advanced. -/
theorem cellWork_bumpOwn (o k : Nat) {may : List Nat} (h : o ∈ may) : CellWork c may s (s.bump c.page o k) :=
  cellWork_bump c s _ o k fun x _ hx e => hx (by rwa [Nat.add_left_cancel e])

/-- A register written that is not the control register. -/
theorem cellWork_setReg (o v : Nat) {may : List Nat} (h : c.page.base + 0x100 ≠ o) : CellWork c may s (s.setReg o v) :=
  ⟨⟨fun _ hp => setReg_same s o v fun e => hp (by simp [e, Cells.parts]), rfl, rfl, fun _ _ _ => rfl, fun _ _ => rfl⟩, fun _ h => h,
    State.reg_setReg_ne s v h, rfl, List.prefix_rfl⟩

/-- The fault ring updated. -/
theorem cellWork_flt (f : Flt) : CellWork c [] s { s with flt := f } := by
  refine ⟨⟨fun p hp => ?_, rfl, rfl, fun _ _ _ => rfl, fun _ _ => rfl⟩, fun _ h => h, rfl, rfl, List.prefix_rfl⟩
  cases p <;> simp_all [Part.same, Part.kept, Cells.parts]

end

theorem cellFrame_onCore (n : CoreId) (s : State) (f : Core → Core) : CellFrame (sillCells n) [] s (s.onCore n f) :=
  ⟨fun _ hp => setCore_same s n _ fun e => hp (by simp [e, Cells.parts, sillCells]), rfl, rfl, fun _ _ _ => rfl,
    fun _ hm => State.core_setCore_ne s _ hm⟩

/-- The core updated beside its patrol's position, nothing leaving its repair queue. -/
theorem cellWork_onCore (n : CoreId) (s : State) {f : Core → Core} (hpos : (f (s.core n)).scrubPos = (s.core n).scrubPos)
    (hq : (s.core n).repairQ <+: (f (s.core n)).repairQ) : CellWork (sillCells n) [] s (s.onCore n f) := by
  have hat : (sillCells n).at (s.onCore n f) n = f (s.core n) := State.core_setCore_same ..
  exact ⟨cellFrame_onCore n s f, fun _ h => h, rfl, (congrArg Core.scrubPos hat).trans hpos, hq.trans (by rw [← hat]; exact List.prefix_rfl)⟩

theorem cellFrame_onQuarry (q : CoreId) (s : State) (f : Quarry → Quarry) : CellFrame (quarryCells q) [] s (s.onQuarry q f) :=
  ⟨fun _ hp => onQuarry_same s q _ fun e => hp (by simp [e, Cells.parts, quarryCells]), rfl, rfl, fun _ _ _ => rfl,
    fun _ hm => State.quarry_onQuarry_ne s _ hm⟩

/-- The quarry updated beside its patrol's position, nothing leaving its repair queue. -/
theorem cellWork_onQuarry (q : CoreId) (s : State) {f : Quarry → Quarry} (hpos : (f (s.quarry q)).scrubPos = (s.quarry q).scrubPos)
    (hq : (s.quarry q).repairQ <+: (f (s.quarry q)).repairQ) : CellWork (quarryCells q) [] s (s.onQuarry q f) := by
  have hat : (quarryCells q).at (s.onQuarry q f) q = f (s.quarry q) := State.quarry_onQuarry_same ..
  exact ⟨cellFrame_onQuarry q s f, fun _ h => h, rfl, (congrArg Quarry.scrubPos hat).trans hpos, hq.trans (by rw [← hat]; exact List.prefix_rfl)⟩

/-! ### Reports of a block (R201, R428, R436) -/

theorem quarryUnit_index : ∀ q : CoreId, (Page.quarry q).unit % 2 ^ 16 = q := by decide

theorem quarryUnit_kind : ∀ q : CoreId, (Page.quarry q).unit / 2 ^ 24 = 0x20 := by decide

/-- A sill's latch released. -/
theorem sillWork_releaseLatch (n : CoreId) (s : State) (seq : Nat) : CellWork (sillCells n) [] s (s.releaseLatch (Page.core n).unit seq) := by
  unfold State.releaseLatch
  dsimp only
  rw [coreUnit_index, coreUnit_kind]
  split_ifs with hown hquarry
  · exact (cellWork_onCore n s rfl List.prefix_rfl).trans (cellWork_setReg _ _ _ _ (by simp [sillCells]))
  · exact absurd hquarry.1 (by decide)
  · exact .refl _ _ s

/-- A quarry's latch released. -/
theorem quarryWork_releaseLatch (q : CoreId) (s : State) (seq : Nat) :
    CellWork (quarryCells q) [] s (s.releaseLatch (Page.quarry q).unit seq) := by
  unfold State.releaseLatch
  dsimp only
  rw [quarryUnit_index, quarryUnit_kind]
  split_ifs with hcore hown
  · exact absurd hcore.1 (by decide)
  · exact (cellWork_onQuarry q s rfl List.prefix_rfl).trans (cellWork_setReg _ _ _ _ (by simp [quarryCells]))
  · exact .refl _ _ s

theorem faultBase : Page.fault.base = 0x4000 := rfl

section
variable {c : Cells β} (hpage : 0x5000 ≤ c.page.base) {unit : Nat} (hunit : unit % 2 ^ 16 < 128)
variable (hlatch : ∀ s seq, CellWork c [] s (s.releaseLatch unit seq)) (s : State)
include hpage

/-- A counter of the fault page advanced. -/
theorem cellWork_faultBump {o : Nat} (ho : o < 0x1000) (k : Nat) : CellWork c [] s (s.bump .fault o k) :=
  cellWork_bump c s .fault o k fun x _ _ => by have := faultBase; omega

include hlatch in
theorem cellWork_keepFault {cls : Nat} (hc : cls < 256) (sub seq : Nat) (bs : List Byte) : CellWork c [] s (s.keepFault cls unit sub seq bs) := by
  unfold State.keepFault
  extract_lets counted flt formed
  have hformed : CellWork c [] s formed :=
    (cellWork_faultBump hpage s (o := 0x200 + 8 * (cls - 1)) (by omega) 1).trans (cellWork_flt c counted _)
  split_ifs
  · exact hformed.trans ((cellWork_flt c formed _).trans (cellWork_faultBump hpage _ (by decide) 1))
  · refine hformed.trans ((cellWork_faultBump hpage formed (o := 0x48) (by decide) 1).trans (CellWork.trans ?_ (hlatch _ seq)))
    exact cellWork_setReg c _ _ _ (by have := faultBase; omega)

include hunit hlatch in
/-- A fault record of the block touches of it the latch alone. -/
theorem cellWork_fault {cls : Nat} (hc : cls < 256) (status : Nat) (job : Option Nat) (flags : Nat) (detail : List Byte) (sub : Nat) :
    CellWork c [] s (s.fault cls status job unit flags detail sub) := by
  unfold State.fault
  dsimp only
  have hkeep := cellWork_keepFault hpage hlatch s hc sub (s.flt.seq + 1)
  split
  · refine (hkeep _).trans ((cellWork_faultBump hpage _ (o := 0x50) (by decide) 1).trans (cellWork_setReg c _ _ _ ?_))
    have := faultBase
    split <;> omega
  · exact hkeep _

end

theorem sillWork_fault (n : CoreId) (s : State) {cls : Nat} (hc : cls < 256) (status : Nat) (job : Option Nat) (flags : Nat) (detail : List Byte)
    (sub : Nat) : CellWork (sillCells n) [] s (s.fault cls status job (Page.core n).unit flags detail sub) :=
  cellWork_fault (by simp only [sillCells, Page.base]; omega) (by rw [coreUnit_index]; exact n.isLt) (sillWork_releaseLatch n) s hc ..

theorem quarryWork_fault (q : CoreId) (s : State) {cls : Nat} (hc : cls < 256) (status : Nat) (job : Option Nat) (flags : Nat) (detail : List Byte)
    (sub : Nat) : CellWork (quarryCells q) [] s (s.fault cls status job (Page.quarry q).unit flags detail sub) :=
  cellWork_fault (by simp only [quarryCells, Page.base]; omega) (by rw [quarryUnit_index]; exact q.isLt) (quarryWork_releaseLatch q) s hc ..

end Sys2Proof.Machine
end

section
/-! What a scrubber's read of a sill or a quarry meets: the events of its codewords, what waits for repair after them, what is poisoned (R185 to
R188, R238 to R240). -/

namespace Sys2Proof.Machine

variable {β : Type} {c : Cells β} {may : List Nat} {s t u : State}

/-! ### What waits for repair -/

/-- The end of an event that was corrected: its row or unit waits already, or comes to wait where there is room; else that is counted (R186). -/
theorem queued_work {noted push full : State} {b row : Nat} (hnoted : CellWork c may s noted) (hpush : CellWork c may noted push)
    (hfull : CellWork c may noted full) (hrow : row ∈ c.repairs push) :
    let t := if (!bitAt (noted.preg c.page 0x100) b || (c.repairs s).contains row) = true then noted
      else if (c.repairs s).length < 8 then push else full
    CellWork c may s t ∧ (bitAt (s.preg c.page 0x100) b = true → c.mended t row) := by
  dsimp only
  split_ifs with hskip hroom
  · refine ⟨hnoted, fun hb => hnoted.mended (.inl ?_)⟩
    rw [hnoted.control, hb] at hskip
    simpa using hskip
  · exact ⟨hnoted.trans hpush, fun _ => .inl hrow⟩
  · exact ⟨hnoted.trans hfull, fun _ => (hnoted.trans hfull).mended (.inr (Nat.le_of_not_lt hroom))⟩

/-- Of some events every corrected one has come to wait. -/
theorem foldl_mended {f : State → Nat × Cw → State} {unit : Nat × Cw → Nat} {b : Nat} (hwork : ∀ s e, CellWork c may s (f s e))
    (hmend : ∀ (s : State) e, e.2.grade = 1 → bitAt (s.preg c.page 0x100) b = true → c.mended (f s e) (unit e)) {xs : List (Nat × Cw)}
    {e : Nat × Cw} (he : e ∈ xs) (hg : e.2.grade = 1) (hb : bitAt (s.preg c.page 0x100) b = true) : c.mended (xs.foldl f s) (unit e) := by
  induction xs generalizing s with
  | nil => simp at he
  | cons x xs ih =>
    rcases List.mem_cons.mp he with rfl | he
    · exact (CellWork.foldl hwork xs (f s e)).mended (hmend s e hg hb)
    · exact ih he (by rwa [(hwork s x).control])

/-! ### Codewords -/

theorem foldl_ecc {α : Type} {f : State → α → State} (h : ∀ s x, (f s x).ecc = s.ecc) (xs : List α) (s : State) : (xs.foldl f s).ecc = s.ecc := by
  induction xs generalizing s with
  | nil => rfl
  | cons x xs ih => exact (ih _).trans (h s x)

theorem mem_of_tfind {α : Type} {t : Tab α} {k : Nat} {v : α} (h : tfind t k = some v) : (k, v) ∈ t := by
  obtain ⟨e, he, rfl⟩ := Option.map_eq_some_iff.mp h
  have hk : e.1 = k := by simpa using List.find?_some he
  exact hk ▸ List.mem_of_find?_eq_some he

/-- The codewords of a range from a codeword's first byte that are not clean. -/
theorem mem_badCws {a len : Nat} (ha : a % 32 = 0) {e : Nat × Cw} :
    e ∈ s.badCws a len ↔ e ∈ s.ecc ∧ a ≤ 32 * e.1 ∧ 32 * e.1 < a + len ∧ 0 < e.2.grade := by
  have hlow : a < 32 * e.1 + 32 ↔ a ≤ 32 * e.1 := by omega
  simp [State.badCws, hlow, and_assoc]

/-- A poisoned codeword is uncorrectable (R188, R239). -/
theorem grade_of_poison {w : Cw} (h : w.poison = true) : w.grade = 2 := by simp [Cw.grade, h]

theorem cellWork_poison (c : Cells β) (s : State) (a len : Nat) : CellWork c [] s (s.poison a len) :=
  ⟨⟨fun _ hp => poison_same s a len fun e => hp (by simp [e, Cells.parts]), rfl, rfl, fun _ _ _ => rfl, fun _ _ => rfl⟩,
    fun _ h => foldl_markPoison_poison _ _ (.inr h), rfl, rfl, List.prefix_rfl⟩

/-- Ranges poisoned: the codewords of each. -/
theorem foldl_poison_ecc (g : Nat × Cw → Nat) (len : Nat) (xs : List (Nat × Cw)) (s : State) :
    (xs.foldl (fun (s : State) e => s.poison (g e) len) s).ecc =
      (xs.flatMap (fun e => fromN (g e / 32) (ceilDiv len 32))).foldl markPoison s.ecc := by
  induction xs generalizing s with
  | nil => rfl
  | cons x xs ih =>
    rw [List.foldl_cons, ih, List.flatMap_cons, List.foldl_append]
    rfl

theorem tfind_foldl_markPoison {ks : List Nat} (e : Tab Cw) {k : Nat} (h : k ∉ ks) : tfind (ks.foldl markPoison e) k = tfind e k := by
  induction ks generalizing e with
  | nil => rfl
  | cons x ks ih =>
    simp only [List.mem_cons, not_or] at h
    rw [List.foldl_cons, ih _ h.2]
    exact tfind_tset_ne _ _ h.1

theorem mem_tset {α : Type} {t : Tab α} {k : Nat} {v : α} {e : Nat × α} (h : e ∈ tset t k v) : e ∈ t ∨ e = (k, v) := by
  induction t with
  | nil => exact .inr (by simpa [tset] using h)
  | cons x t ih =>
    obtain ⟨a, w⟩ := x
    unfold tset at h
    split_ifs at h with h1 h2
    · subst h1
      exact (List.mem_cons.mp h).elim .inr fun h => .inl (List.mem_cons_of_mem _ h)
    · exact (List.mem_cons.mp h).elim .inr .inl
    · exact (List.mem_cons.mp h).elim (fun h => .inl (h ▸ List.mem_cons_self ..)) fun h => (ih h).imp_left (List.mem_cons_of_mem _)

/-- An entry after codewords were poisoned is one of before, or poisoned. -/
theorem mem_foldl_markPoison {ks : List Nat} {t : Tab Cw} {e : Nat × Cw} (h : e ∈ ks.foldl markPoison t) : e ∈ t ∨ e.2.poison = true := by
  induction ks generalizing t with
  | nil => exact .inl h
  | cons k ks ih =>
    rcases ih h with h | h
    · exact (mem_tset h).imp_right fun h => by rw [h]
    · exact .inr h

theorem mem_fromN {lo n k : Nat} : k ∈ fromN lo n ↔ lo ≤ k ∧ k < lo + n := by
  simp only [fromN, List.mem_map, List.mem_range]
  exact ⟨fun ⟨i, hi, e⟩ => by omega, fun h => ⟨k - lo, by omega, by omega⟩⟩

/-- What a scrubber's read leaves of a codeword that it met: poison where it could not correct it, its row or unit waiting for repair where it
could. -/
def Cells.dealt (c : Cells β) (mends : Bool) (s : State) (k row : Nat) (w : Cw) : Prop :=
  (w.grade = 2 → (tget ⟨[], false⟩ s.ecc k).poison = true) ∧ (w.grade = 1 → mends = true → c.mended s row)

theorem CellWork.dealt (h : CellWork c may s t) {mends : Bool} {k row : Nat} {w : Cw} (hd : c.dealt mends s k row w) : c.dealt mends t k row w :=
  ⟨fun hg => h.poison k (hd.1 hg), fun hg hm => h.mended (hd.2 hg hm)⟩

theorem sillCells_dealt (n : CoreId) (mends : Bool) (s : State) (k row : Nat) (w : Cw) : (sillCells n).dealt mends s k row w ↔
    (w.grade = 2 → (tget ⟨[], false⟩ s.ecc k).poison = true) ∧
    (w.grade = 1 → mends = true → row ∈ (s.core n).repairQ ∨ 8 ≤ (s.core n).repairQ.length) := Iff.rfl

theorem quarryCells_dealt (q : CoreId) (mends : Bool) (s : State) (k unit : Nat) (w : Cw) : (quarryCells q).dealt mends s k unit w ↔
    (w.grade = 2 → (tget ⟨[], false⟩ s.ecc k).poison = true) ∧
    (w.grade = 1 → mends = true → unit ∈ (s.quarry q).repairQ ∨ 8 ≤ (s.quarry q).repairQ.length) := Iff.rfl

/-! ### An event of a sill (R185, R186, R201) -/

section
variable (n : CoreId) (s : State) (source : Nat) (job : Option Nat) (flags : Nat) (e : Nat × Cw)

/-- The sill counters that its events advance (Table 6.9). -/
def sillEventCtrs : List Nat := [0x40, 0x48, 0x60]

theorem sillEvent_work : CellWork (sillCells n) sillEventCtrs s (s.sillEvent n source job flags e) ∧
    (e.2.grade = 1 → bitAt (s.preg (.sill n) 0x100) 1 = true →
      (sillCells n).mended (s.sillEvent n source job flags e) ((32 * e.1 - sillBase n) / 512)) := by
  have hown : ∀ (u : State) o, o ∈ sillEventCtrs → CellWork (sillCells n) sillEventCtrs u (u.bump (.sill n) o) :=
    fun u o ho => cellWork_bumpOwn (sillCells n) u o 1 ho
  have hinfo : ∀ (u : State) v, CellWork (sillCells n) sillEventCtrs u (u.setPreg (.sill n) 0x10C v) :=
    fun u v => cellWork_setReg _ u _ v (by simp [sillCells])
  unfold State.sillEvent
  extract_lets off row cw info x sCorr sNoted sLost sLatched
  have hNoted : CellWork (sillCells n) sillEventCtrs s sNoted := by
    refine (hown s 0x40 (by decide)).trans ?_
    unfold sNoted
    split
    exacts [.refl _ _ _, hinfo _ _]
  have hLatched : CellWork (sillCells n) sillEventCtrs s sLatched := by
    refine (hown s 0x48 (by decide)).trans ?_
    unfold sLatched
    split
    exacts [.refl _ _ _, (hinfo _ _).trans ((cellWork_onCore n _ rfl List.prefix_rfl).mono (by simp))]
  by_cases hg : e.2.grade = 1
  · rw [if_pos hg]
    have hpush := (cellWork_onCore n sNoted (f := fun c => { c with repairQ := c.repairQ ++ [row] }) rfl (List.prefix_append _ _)).mono
      (may' := sillEventCtrs) (by simp)
    have hrow : row ∈ (sillCells n).repairs (sNoted.onCore n fun c => { c with repairQ := c.repairQ ++ [row] }) := by
      simp [Cells.repairs, Cells.at, sillCells]
    obtain ⟨hwork, hmend⟩ := queued_work (b := 1) hNoted hpush (hown sNoted 0x60 (by decide)) hrow
    exact ⟨hwork, fun _ => hmend⟩
  · rw [if_neg hg]
    exact ⟨hLatched.trans ((sillWork_fault n _ (by decide) ..).mono (by simp)), fun h => absurd h hg⟩

theorem sillEvent_ecc : (s.sillEvent n source job flags e).ecc = s.ecc := by
  unfold State.sillEvent
  extract_lets off row cw info x sCorr sNoted sLost sLatched
  have hNoted : sNoted.ecc = s.ecc := by unfold sNoted; split <;> rfl
  have hLatched : sLatched.ecc = s.ecc := by unfold sLatched; split <;> rfl
  have hfault := (fault_same sLatched 1 0x40 job (Page.core n).unit flags (eccDetail (rowAddr n row) cw source) 0 (p := .mem) (by decide)).2
  split_ifs
  exacts [hNoted, hNoted, hNoted, hfault.trans hLatched]

/-! ### An event of a quarry (R238, R240, R201) -/

/-- The quarry counters that its events advance (Table 8.16). -/
def quarryEventCtrs : List Nat := [0x50, 0x58, 0xA8]

theorem quarryEvent_work : CellWork (quarryCells n) quarryEventCtrs s (s.quarryEvent n source job flags e) ∧
    (e.2.grade = 1 → bitAt (s.preg (.quarry n) 0x100) 2 = true →
      (quarryCells n).mended (s.quarryEvent n source job flags e) ((32 * e.1 - quarryBase n) / 64)) := by
  have hown : ∀ (u : State) o, o ∈ quarryEventCtrs → CellWork (quarryCells n) quarryEventCtrs u (u.bump (.quarry n) o) :=
    fun u o ho => cellWork_bumpOwn (quarryCells n) u o 1 ho
  have hinfo : ∀ (u : State) v w, CellWork (quarryCells n) quarryEventCtrs u ((u.setPreg (.quarry n) 0x110 v).setPreg (.quarry n) 0x114 w) :=
    fun u v w => (cellWork_setReg _ u _ v (by simp [quarryCells])).trans (cellWork_setReg _ _ _ w (by simp [quarryCells]))
  unfold State.quarryEvent
  extract_lets unit cw info x sCorr sNoted sLost sLatched
  have hNoted : CellWork (quarryCells n) quarryEventCtrs s sNoted := by
    refine (hown s 0x50 (by decide)).trans ?_
    unfold sNoted
    split
    exacts [.refl _ _ _, hinfo _ _ _]
  have hLatched : CellWork (quarryCells n) quarryEventCtrs s sLatched := by
    refine (hown s 0x58 (by decide)).trans ?_
    unfold sLatched
    split
    exacts [.refl _ _ _, (hinfo _ _ _).trans ((cellWork_onQuarry n _ rfl List.prefix_rfl).mono (by simp))]
  by_cases hg : e.2.grade = 1
  · rw [if_pos hg]
    have hpush := (cellWork_onQuarry n sNoted (f := fun q => { q with repairQ := q.repairQ ++ [unit] }) rfl (List.prefix_append _ _)).mono
      (may' := quarryEventCtrs) (by simp)
    have hrow : unit ∈ (quarryCells n).repairs (sNoted.onQuarry n fun q => { q with repairQ := q.repairQ ++ [unit] }) := by
      simp [Cells.repairs, Cells.at, quarryCells]
    obtain ⟨hwork, hmend⟩ := queued_work (b := 2) hNoted hpush (hown sNoted 0xA8 (by decide)) hrow
    exact ⟨hwork, fun _ => hmend⟩
  · rw [if_neg hg]
    exact ⟨hLatched.trans ((quarryWork_fault n _ (by decide) ..).mono (by simp)), fun h => absurd h hg⟩

theorem quarryEvent_ecc : (s.quarryEvent n source job flags e).ecc = s.ecc := by
  unfold State.quarryEvent
  extract_lets unit cw info x sCorr sNoted sLost sLatched
  have hNoted : sNoted.ecc = s.ecc := by unfold sNoted; split <;> rfl
  have hLatched : sLatched.ecc = s.ecc := by unfold sLatched; split <;> rfl
  have hfault := (fault_same sLatched 1 0x40 job (Page.quarry n).unit flags (eccDetail (quarryBase n + 64 * unit) cw source)
    (unit * 2 + qBank (64 * unit) % 2) (p := .mem) (by decide)).2
  split_ifs
  exacts [hNoted, hNoted, hNoted, hfault.trans hLatched]

end

end Sys2Proof.Machine
end

section
/-! SILL_PATROL_SCRUB and SILL_REPAIR: a row read, rows read one after the other, the row at the head of the queue (R185 to R188). -/

namespace Sys2Proof.Machine

/-! ### A row read -/

theorem rowAddr_aligned (n row : Nat) : rowAddr n row % 32 = 0 := by simp only [rowAddr, sillBase]; omega

/-- Whether a codeword lies in a row of a sill. -/
def inRow (n row k : Nat) : Prop := rowAddr n row ≤ 32 * k ∧ 32 * k < rowAddr n row + 512

theorem scrubReserve_work (n : CoreId) (s : State) (bank : Nat) : CellWork (sillCells n) [] s (s.scrubReserve n bank) := by
  unfold State.scrubReserve
  split
  exacts [cellWork_onCore n s rfl List.prefix_rfl, .refl _ _ s]

theorem scrubReserve_ecc (s : State) (n bank : Nat) : (s.scrubReserve n bank).ecc = s.ecc := by unfold State.scrubReserve; split <;> rfl

theorem scrubReserve_ctrs (s : State) (n bank : Nat) : (s.scrubReserve n bank).ctrs = s.ctrs := by unfold State.scrubReserve; split <;> rfl

theorem scrubReserve_repairQ (s : State) (n bank : Nat) : ((s.scrubReserve n bank).core n).repairQ = (s.core n).repairQ := by
  unfold State.scrubReserve; split <;> simp

section
variable (n : CoreId) (s : State) (row : Nat)

/-- A row's uncorrectable codewords. -/
def State.lostCws (s : State) (n row : Nat) : List (Nat × Cw) := (s.badCws (rowAddr n row) 512).filter (fun e => e.2.grade == 2)

/-- A row's events, its read counted. -/
def State.rowEvents (s : State) (n row : Nat) : State :=
  (s.badCws (rowAddr n row) 512).foldl (fun (s : State) e => s.sillEvent n 2 none 0 e) (s.bump (.sill n) 0x50)

theorem scrubRead_eq : s.scrubRead n row =
    ((s.lostCws n row).foldl (fun (s : State) e => s.poison (32 * e.1) 32) (s.rowEvents n row)).scrubReserve n (bankOf row) := rfl

theorem rowEvents_work : CellWork (sillCells n) sillEventCtrs (s.bump (.sill n) 0x50) (s.rowEvents n row) :=
  .foldl (fun u e => (sillEvent_work n u 2 none 0 e).1) _ _

/-- What follows a row's events keeps what they left. -/
theorem scrubRead_after : CellWork (sillCells n) [] (s.rowEvents n row) (s.scrubRead n row) := by
  rw [scrubRead_eq]
  have hlost : CellWork (sillCells n) [] (s.rowEvents n row)
      ((s.lostCws n row).foldl (fun (s : State) e => s.poison (32 * e.1) 32) (s.rowEvents n row)) :=
    .foldl (fun u (e : Nat × Cw) => cellWork_poison _ u (32 * e.1) 32) _ _
  exact hlost.trans (scrubReserve_work n _ (bankOf row))

/-- A row's read as work of the scrubber, once it is counted. -/
theorem scrubRead_counted : CellWork (sillCells n) sillEventCtrs (s.bump (.sill n) 0x50) (s.scrubRead n row) :=
  (rowEvents_work n s row).trans ((scrubRead_after n s row).mono (by simp))

/-- The sill counters that reads of the scrubber advance (Table 6.9). -/
def sillScrubCtrs : List Nat := 0x50 :: sillEventCtrs

theorem scrubRead_work : CellWork (sillCells n) sillScrubCtrs s (s.scrubRead n row) := by
  have hcount : CellWork (sillCells n) sillScrubCtrs s (s.bump (.sill n) 0x50) := cellWork_bumpOwn (sillCells n) s 0x50 1 (by decide)
  exact hcount.trans ((scrubRead_counted n s row).mono (by simp [sillScrubCtrs]))

theorem scrubRead_reads : (s.scrubRead n row).ctr (.sill n) 0x50 = (s.ctr (.sill n) 0x50 + 1) % 2 ^ 48 :=
  ((scrubRead_counted n s row).ctrs 0x50 (by decide) (by decide)).trans (State.ctr_bump_same ..)

/-- The codewords that a row's read poisons. -/
theorem scrubRead_ecc : (s.scrubRead n row).ecc = ((s.lostCws n row).flatMap (fun e => fromN (32 * e.1 / 32) (ceilDiv 32 32))).foldl markPoison s.ecc := by
  rw [scrubRead_eq, scrubReserve_ecc, foldl_poison_ecc, State.rowEvents, foldl_ecc (fun u e => sillEvent_ecc n u 2 none 0 e), State.bump_ecc]

variable {s row}

theorem mem_lostCws {e : Nat × Cw} : e ∈ s.lostCws n row ↔ e ∈ s.ecc ∧ inRow n row e.1 ∧ e.2.grade = 2 := by
  simp only [State.lostCws, List.mem_filter, mem_badCws (rowAddr_aligned n row), inRow, beq_iff_eq]
  constructor
  · exact fun ⟨⟨he, hlo, hhi, _⟩, hg⟩ => ⟨he, ⟨hlo, hhi⟩, hg⟩
  · exact fun ⟨he, ⟨hlo, hhi⟩, hg⟩ => ⟨⟨he, hlo, hhi, by omega⟩, hg⟩

/-- They are the row's uncorrectable ones. -/
theorem mem_poisoned {k : Nat} : k ∈ (s.lostCws n row).flatMap (fun e => fromN (32 * e.1 / 32) (ceilDiv 32 32)) ↔ ∃ e ∈ s.lostCws n row, e.1 = k := by
  simp only [List.mem_flatMap, mem_fromN, ceilDiv]
  exact exists_congr fun e => and_congr_right fun _ => by omega

/-- Codewords of other rows stand. -/
theorem scrubRead_other {k : Nat} (hk : ¬ inRow n row k) : tfind (s.scrubRead n row).ecc k = tfind s.ecc k := by
  rw [scrubRead_ecc]
  refine tfind_foldl_markPoison _ fun h => ?_
  obtain ⟨e, he, rfl⟩ := (mem_poisoned n).mp h
  exact hk ((mem_lostCws n).mp he).2.1

/-- Those of the row are dealt with. -/
theorem scrubRead_dealt {k : Nat} {w : Cw} (hk : tfind s.ecc k = some w) (hr : inRow n row k) :
    (sillCells n).dealt (bitAt (s.preg (.sill n) 0x100) 1) (s.scrubRead n row) k ((32 * k - sillBase n) / 512) w := by
  have hin : (k, w) ∈ s.ecc := mem_of_tfind hk
  refine ⟨fun hg => ?_, fun hg hb => ?_⟩
  · rw [scrubRead_ecc]
    exact foldl_markPoison_poison _ _ (.inl ((mem_poisoned n).mpr ⟨(k, w), (mem_lostCws n).mpr ⟨hin, hr, hg⟩, rfl⟩))
  · have hbad : (k, w) ∈ s.badCws (rowAddr n row) 512 := (mem_badCws (rowAddr_aligned n row)).mpr ⟨hin, hr.1, hr.2, by rw [hg]; decide⟩
    refine (scrubRead_after n s row).mended ?_
    exact foldl_mended (c := sillCells n) (unit := fun e => (32 * e.1 - sillBase n) / 512) (b := 1) (fun u e => (sillEvent_work n u 2 none 0 e).1)
      (fun u e => (sillEvent_work n u 2 none 0 e).2) hbad hg hb

end

/-! ### Rows read one after the other (R188) -/

/-- Rows of a sill read by the scrubber. -/
def State.scrubRows (s : State) (n : Nat) (rows : List Nat) : State := rows.foldl (fun (s : State) r => s.scrubRead n r) s

section
variable (n : CoreId)

theorem scrubRows_work (s : State) (rows : List Nat) : CellWork (sillCells n) sillScrubCtrs s (s.scrubRows n rows) :=
  .foldl (fun u r => scrubRead_work n u r) _ _

theorem scrubRows_reads (s : State) (row : Nat) (rows : List Nat) :
    (s.scrubRows n (row :: rows)).ctr (.sill n) 0x50 = (s.ctr (.sill n) 0x50 + (rows.length + 1)) % 2 ^ 48 := by
  induction rows generalizing s row with
  | nil => exact scrubRead_reads n s row
  | cons r rows ih =>
    rw [show s.scrubRows n (row :: r :: rows) = (s.scrubRead n row).scrubRows n (r :: rows) from rfl, ih, scrubRead_reads, List.length_cons]
    omega

theorem scrubRows_other (s : State) {rows : List Nat} {k : Nat} (h : ∀ r ∈ rows, ¬ inRow n r k) : tfind (s.scrubRows n rows).ecc k = tfind s.ecc k := by
  induction rows generalizing s with
  | nil => rfl
  | cons r rows ih => exact (ih (s.scrubRead n r) fun x hx => h x (List.mem_cons_of_mem _ hx)).trans (scrubRead_other n (h r (List.mem_cons_self ..)))

/-- The first of the rows that holds a codeword deals with it, and the rest leave it so. -/
theorem scrubRows_dealt {s : State} {rows : List Nat} {k : Nat} {w : Cw} (hk : tfind s.ecc k = some w) (hr : ∃ r ∈ rows, inRow n r k) :
    (sillCells n).dealt (bitAt (s.preg (.sill n) 0x100) 1) (s.scrubRows n rows) k ((32 * k - sillBase n) / 512) w := by
  induction rows generalizing s with
  | nil => simp at hr
  | cons r rows ih =>
    by_cases hin : inRow n r k
    · exact (scrubRows_work n (s.scrubRead n r) rows).dealt (scrubRead_dealt n hk hin)
    · obtain ⟨x, hx, hxk⟩ := hr
      have hrest : x ∈ rows := (List.mem_cons.mp hx).resolve_left fun e => hin (e ▸ hxk)
      have hctl : (s.scrubRead n r).preg (.sill n) 0x100 = s.preg (.sill n) 0x100 := (scrubRead_work n s r).control
      rw [← hctl]
      exact ih ((scrubRead_other n hin).trans hk) ⟨x, hrest, hxk⟩

end

/-! ### Upsets between patrols (R184, R237) -/

/-- Upsets touch the codes alone. -/
theorem foldl_upset_eq (a : Nat) (f : CwUpset → CwUpset) (errs : List CwUpset) (s : State) :
    ∃ e, errs.foldl (fun (s : State) u => s.upset a (f u)) s = { s with ecc := e } := by
  induction errs generalizing s with
  | nil => exact ⟨s.ecc, rfl⟩
  | cons u errs ih =>
    obtain ⟨x, hx⟩ : ∃ x, s.upset a (f u) = { s with ecc := x } := by
      unfold State.upset
      dsimp only
      split
      exacts [⟨s.ecc, rfl⟩, ⟨_, rfl⟩]
    obtain ⟨e, he⟩ := ih (s.upset a (f u))
    exact ⟨e, by rw [List.foldl_cons, he, hx]⟩

/-! ### SILL_PATROL_SCRUB (R188) -/

section
variable (n : CoreId) (s : State) (errs : List CwUpset)

/-- Whether the scrubber of a sill patrols. -/
def State.sillPatrols (s : State) (n : Nat) : Prop := bitAt (s.preg (.sill n) 0x100) 0 = true ∧ (s.coreLife n).st = .opened ∧ (s.core n).repairQ = []

/-- What a patrol step that reads leaves of a state with the upsets. -/
def State.sillPatrolled (u : State) (n : Nat) : State :=
  (u.scrubRows n (patrolRows (u.core n).scrubPos)).onCore n (fun c => { c with scrubPos := (c.scrubPos + 1) % 512 })

theorem sillUpsets_eq : ∃ e, s.sillUpsets n errs = { s with ecc := e } := foldl_upset_eq _ _ errs s

theorem sillPatrols_upsets : (s.sillUpsets n errs).sillPatrols n ↔ s.sillPatrols n := by
  obtain ⟨e, he⟩ := sillUpsets_eq n s errs
  rw [he]
  rfl

theorem sillPatrols_iff : (bitAt (s.preg (.sill n) 0x100) 0 && (s.coreLife n).st == .opened && (s.core n).repairQ.isEmpty) = true ↔
    s.sillPatrols n := by
  simp [State.sillPatrols, and_assoc]

theorem sillPatrol_off (h : ¬ s.sillPatrols n) : s.sillPatrol n errs = s.sillUpsets n errs :=
  if_neg fun hc => h ((sillPatrols_upsets n s errs).mp ((sillPatrols_iff n _).mp hc))

theorem sillPatrol_on (h : s.sillPatrols n) : s.sillPatrol n errs = (s.sillUpsets n errs).sillPatrolled n :=
  if_pos ((sillPatrols_iff n _).mpr ((sillPatrols_upsets n s errs).mpr h))

end

end Sys2Proof.Machine
end

section
/-! What SILL_PATROL_SCRUB and SILL_REPAIR leave (R186, R188). -/

namespace Sys2Proof.Machine

/-! ### A patrol step that reads -/

theorem patrolRows_cons (pos : Nat) : ∃ r rows, patrolRows pos = r :: rows ∧ rows.length = 15 := ⟨_, _, rfl, rfl⟩

section
variable (n : CoreId) (u : State)

theorem sillPatrolled_frame : CellFrame (sillCells n) sillScrubCtrs u (u.sillPatrolled n) := by
  unfold State.sillPatrolled
  generalize patrolRows (u.core n).scrubPos = rows
  exact (scrubRows_work n u rows).toCellFrame.trans ((cellFrame_onCore n _ _).mono (by simp))

theorem sillPatrolled_pos : ((u.sillPatrolled n).core n).scrubPos = ((u.core n).scrubPos + 1) % 512 := by
  unfold State.sillPatrolled
  generalize patrolRows (u.core n).scrubPos = rows
  have hpos : ((u.scrubRows n rows).core n).scrubPos = (u.core n).scrubPos := (scrubRows_work n u rows).pos
  rw [State.onCore_eq, State.core_setCore_same, hpos]

theorem sillPatrolled_reads : (u.sillPatrolled n).ctr (.sill n) 0x50 = (u.ctr (.sill n) 0x50 + 16) % 2 ^ 48 := by
  obtain ⟨r, rows, hrows, hlen⟩ := patrolRows_cons (u.core n).scrubPos
  have hreads := scrubRows_reads n u r rows
  rw [hlen] at hreads
  rw [State.sillPatrolled, hrows, State.onCore_eq, State.setCore_get_ctr, hreads]

variable {u}

theorem sillPatrolled_other {pos : Nat} (hpos : (u.core n).scrubPos = pos) {k : Nat} (h : ∀ r ∈ patrolRows pos, ¬ inRow n r k) :
    tfind (u.sillPatrolled n).ecc k = tfind u.ecc k := by
  rw [State.sillPatrolled, hpos]
  generalize patrolRows pos = rows at h
  exact scrubRows_other n u h

theorem sillPatrolled_dealt {pos : Nat} (hpos : (u.core n).scrubPos = pos) {k : Nat} {w : Cw} (hk : tfind u.ecc k = some w)
    (hr : ∃ r ∈ patrolRows pos, inRow n r k) :
    (sillCells n).dealt (bitAt (u.preg (.sill n) 0x100) 1) (u.sillPatrolled n) k ((32 * k - sillBase n) / 512) w := by
  rw [State.sillPatrolled, hpos]
  generalize patrolRows pos = rows at hr
  obtain ⟨hlost, hmend⟩ := scrubRows_dealt n hk hr
  refine ⟨hlost, fun hg hb => ?_⟩
  have hq : (sillCells n).repairs ((u.scrubRows n rows).onCore n fun c => { c with scrubPos := (c.scrubPos + 1) % 512 }) =
      (sillCells n).repairs (u.scrubRows n rows) := by
    simp [Cells.repairs, Cells.at, sillCells, State.core]
  rw [Cells.mended, hq]
  exact hmend hg hb

end

/-! ### SILL_REPAIR -/

section
variable {n : CoreId} {s : State} {r : Nat} {rest : List Nat} (hq : (s.core n).repairQ = r :: rest)

/-- Whether a row again needs a correction. -/
def State.rowAgain (s : State) (n r : Nat) : Prop := ∃ e ∈ s.ecc, rowAddr n r ≤ 32 * e.1 ∧ 32 * e.1 < rowAddr n r + 512 ∧ e.2.grade = 1

theorem rowAgain_iff : (s.badCws (rowAddr n r) 512).any (fun e => e.2.grade == 1) = true ↔ s.rowAgain n r := by
  simp only [List.any_eq_true, mem_badCws (rowAddr_aligned n r), beq_iff_eq, State.rowAgain]
  refine exists_congr fun e => ⟨fun ⟨⟨he, hlo, hhi, _⟩, hg⟩ => ⟨he, hlo, hhi, hg⟩, fun ⟨he, hlo, hhi, hg⟩ => ⟨⟨he, hlo, hhi, by omega⟩, hg⟩⟩

/-- The row at the head of the queue read again, and off the queue. -/
def State.rowReread (s : State) (n r : Nat) (rest : List Nat) : State := (s.scrubRead n r).onCore n (fun c => { c with repairQ := rest })

/-- The row written back as it was corrected. -/
def State.rowMended (u : State) (n r : Nat) : State := ((u.scrubbed (rowAddr n r) 512).bump (.sill n) 0x58).scrubReserve n (bankOf r)

theorem sillRepair_none (h : (s.core n).repairQ = []) : s.sillRepair n = s := by simp [State.sillRepair, h]

include hq in
theorem sillRepair_again (h : s.rowAgain n r) : s.sillRepair n = (s.rowReread n r rest).rowMended n r := by
  unfold State.sillRepair
  rw [hq]
  exact if_pos (rowAgain_iff.mpr h)

include hq in
theorem sillRepair_clean (h : ¬ s.rowAgain n r) : s.sillRepair n = s.rowReread n r rest := by
  unfold State.sillRepair
  rw [hq]
  exact if_neg fun hc => h (rowAgain_iff.mp hc)

end

section
variable (n : CoreId) (s : State) (r : Nat) (rest : List Nat)

theorem rowReread_frame : CellFrame (sillCells n) sillScrubCtrs s (s.rowReread n r rest) :=
  (scrubRead_work n s r).toCellFrame.trans ((cellFrame_onCore n _ _).mono (by simp))

theorem rowReread_repairQ : ((s.rowReread n r rest).core n).repairQ = rest := by simp [State.rowReread]

theorem rowReread_reads : (s.rowReread n r rest).ctr (.sill n) 0x50 = (s.ctr (.sill n) 0x50 + 1) % 2 ^ 48 := scrubRead_reads n s r

variable {s r rest}

/-- A row that needs no correction needs none after. -/
theorem rowReread_clean (h : ¬ s.rowAgain n r) : ¬ (s.rowReread n r rest).rowAgain n r := by
  rintro ⟨e, he, hlo, hhi, hg⟩
  have hecc : (s.rowReread n r rest).ecc = _ := scrubRead_ecc n s r
  rw [hecc] at he
  rcases mem_foldl_markPoison he with he | hp
  · exact h ⟨e, he, hlo, hhi, hg⟩
  · rw [grade_of_poison hp] at hg
    exact absurd hg (by decide)

variable (u : State) (r)

theorem rowMended_frame : CellFrame (sillCells n) [0x58] u (u.rowMended n r) := by
  have hscrub : CellFrame (sillCells n) [0x58] u (u.scrubbed (rowAddr n r) 512) := (cellFrame_ecc _ u _).mono (by simp)
  have hcount := (cellWork_bumpOwn (sillCells n) (u.scrubbed (rowAddr n r) 512) 0x58 1 (may := [0x58]) (by simp)).toCellFrame
  exact hscrub.trans (hcount.trans ((scrubReserve_work n _ (bankOf r)).toCellFrame.mono (by simp)))

theorem rowMended_repairQ : ((u.rowMended n r).core n).repairQ = (u.core n).repairQ := by
  rw [State.rowMended, scrubReserve_repairQ]
  rfl

theorem rowMended_mends : (u.rowMended n r).ctr (.sill n) 0x58 = (u.ctr (.sill n) 0x58 + 1) % 2 ^ 48 := by
  rw [State.rowMended, State.ctr, scrubReserve_ctrs]
  exact State.ctr_bump_same ..

/-- A row mended needs no correction. -/
theorem rowMended_clean : ¬ (u.rowMended n r).rowAgain n r := by
  rintro ⟨e, he, hlo, hhi, hg⟩
  rw [State.rowMended, scrubReserve_ecc, State.bump_ecc] at he
  have hkeep := (List.mem_filter.mp he).2
  simp [hlo, hhi, hg] at hkeep

end

section
variable {n : CoreId} {s : State} {r : Nat} {rest : List Nat} (hq : (s.core n).repairQ = r :: rest)
include hq

/-- A repair rereads its row, and mends it where that again needs a correction. -/
theorem sillRepair_cases : s.rowAgain n r ∧ s.sillRepair n = (s.rowReread n r rest).rowMended n r ∨
    ¬ s.rowAgain n r ∧ s.sillRepair n = s.rowReread n r rest := by
  by_cases h : s.rowAgain n r
  exacts [.inl ⟨h, sillRepair_again hq h⟩, .inr ⟨h, sillRepair_clean hq h⟩]

theorem sillRepair_frame : CellFrame (sillCells n) (0x58 :: sillScrubCtrs) s (s.sillRepair n) := by
  have hread := (rowReread_frame n s r rest).mono (may' := 0x58 :: sillScrubCtrs) (by simp)
  rcases sillRepair_cases hq with ⟨-, e⟩ | ⟨-, e⟩ <;> rw [e]
  exacts [hread.trans ((rowMended_frame n r _).mono (by simp)), hread]

theorem sillRepair_repairQ : ((s.sillRepair n).core n).repairQ = rest := by
  have hread := rowReread_repairQ n s r rest
  rcases sillRepair_cases hq with ⟨-, e⟩ | ⟨-, e⟩ <;> rw [e]
  exacts [(rowMended_repairQ n r _).trans hread, hread]

theorem sillRepair_reads : (s.sillRepair n).ctr (.sill n) 0x50 = (s.ctr (.sill n) 0x50 + 1) % 2 ^ 48 := by
  have hread := rowReread_reads n s r rest
  rcases sillRepair_cases hq with ⟨-, e⟩ | ⟨-, e⟩ <;> rw [e]
  exacts [((rowMended_frame n r _).ctrs 0x50 (by decide) (by decide)).trans hread, hread]

theorem sillRepair_mends : (s.rowAgain n r → (s.sillRepair n).ctr (.sill n) 0x58 = (s.ctr (.sill n) 0x58 + 1) % 2 ^ 48) ∧
    (¬ s.rowAgain n r → (s.sillRepair n).ctr (.sill n) 0x58 = s.ctr (.sill n) 0x58) := by
  have hread : (s.rowReread n r rest).ctr (.sill n) 0x58 = s.ctr (.sill n) 0x58 := (rowReread_frame n s r rest).ctrs 0x58 (by decide) (by decide)
  refine ⟨fun h => ?_, fun h => ?_⟩
  · rw [sillRepair_again hq h, rowMended_mends, hread]
  · rw [sillRepair_clean hq h, hread]

/-- No row needs a correction after its repair. -/
theorem sillRepair_cleans : ¬ (s.sillRepair n).rowAgain n r := by
  rcases sillRepair_cases hq with ⟨-, e⟩ | ⟨h, e⟩ <;> rw [e]
  exacts [rowMended_clean n r _, rowReread_clean n h]

end

/-! ### The commands -/

section
variable {s : State} (hl : s.live = true) (c : CoreId)
include hl

theorem exec_sillPatrolScrub_live (errs : List CwUpset) : exec (.sillPatrolScrub c errs) s = .next (finish s (s.sillPatrol c errs)) := by
  rw [show exec (.sillPatrolScrub c errs) s = execSillPatrolScrub c errs s from rfl]
  exact act_live hl _

theorem exec_sillRepair_live : exec (.sillRepair c) s = .next (finish s (s.sillRepair c)) := by
  rw [show exec (.sillRepair c) s = execSillRepair c s from rfl]
  exact act_live hl _

end

/-- Upsets, whichever they are, are within the scrubber's frame. -/
theorem sillUpsets_frame {n : CoreId} (s : State) (errs : List CwUpset) : CellFrame (sillCells n) [] s (s.sillUpsets n errs) := by
  obtain ⟨e, he⟩ := sillUpsets_eq n s errs
  rw [he]
  exact cellFrame_ecc _ s e

/-- The frame of a sill's scrubber is one of its core. -/
theorem CellFrame.onlyCore {n : CoreId} {may : List Nat} {s t : State} (h : CellFrame (sillCells n) may s t) :
    OnlyCore s (finish s t) n [.mem, .ctrs, .regs, .flt] :=
  ⟨h.unchanged, fun m hm => (finish_get_core s t m).trans (h.other m hm)⟩

end Sys2Proof.Machine
end

section
/-! QUARRY_PATROL_SCRUB and QUARRY_REPAIR: units read by the scrubber where nothing waits before it, and what the commands leave (R238 to R243). -/

namespace Sys2Proof.Machine

/-! ### Units read -/

section
variable (q : CoreId) (s : State) (a len : Nat)

/-- Of a range's codeword events the uncorrectable ones. -/
def State.lostUnits (s : State) (a len : Nat) : List (Nat × Cw) := (s.unitEvents a len).filter (fun e => e.2.grade == 2)

/-- A range's read counted. -/
def State.unitsCounted (s : State) (q a len : Nat) : State := (s.bump (.quarry q) 0x98).bump (.quarry q) 0x40 (units a len)

/-- A range's events, its read counted. -/
def State.blockEvents (s : State) (q a len : Nat) : State :=
  (s.unitEvents a len).foldl (fun (s : State) e => s.quarryEvent q 3 none 0 e) (s.unitsCounted q a len)

/-- The quarry counters that reads of the scrubber advance (Table 8.16). -/
def quarryScrubCtrs : List Nat := 0x98 :: 0x40 :: 0x70 :: quarryEventCtrs

theorem openRow_work : CellWork (quarryCells q) [0x70] s (s.openRow q a) := by
  have hhit : CellWork (quarryCells q) [0x70] s (s.bump (.quarry q) 0x70) := cellWork_bumpOwn (quarryCells q) s 0x70 1 (by simp)
  unfold State.openRow
  dsimp only
  split
  exacts [hhit.trans ((cellWork_onQuarry q _ rfl List.prefix_rfl).mono (by simp)), (cellWork_onQuarry q s rfl List.prefix_rfl).mono (by simp)]

theorem openRow_ecc (n : Nat) : (s.openRow n a).ecc = s.ecc := (openRow_same s n a (p := .mem) (by decide)).2

theorem unitEvents_congr {s t : State} (h : t.ecc = s.ecc) (a len : Nat) : t.unitEvents a len = s.unitEvents a len := by
  simp [State.unitEvents, State.badCws, h]

theorem scrubUnits_eq (h : s.admitted q = []) : s.scrubUnits q a len =
    (((s.openRow q a).lostUnits a len).foldl (fun (s : State) e => s.poison (64 * (e.1 / 2)) 64) ((s.openRow q a).blockEvents q a len)) := by
  unfold State.scrubUnits
  rw [settle_idle h]
  rfl

theorem blockEvents_work : CellWork (quarryCells q) quarryEventCtrs (s.unitsCounted q a len) (s.blockEvents q a len) :=
  .foldl (fun u e => (quarryEvent_work q u 3 none 0 e).1) _ _

variable {s} (h : s.admitted q = [])
include h

/-- What follows the events keeps what they left. -/
theorem scrubUnits_after : CellWork (quarryCells q) [] ((s.openRow q a).blockEvents q a len) (s.scrubUnits q a len) := by
  rw [scrubUnits_eq q s a len h]
  exact .foldl (fun u (e : Nat × Cw) => cellWork_poison _ u (64 * (e.1 / 2)) 64) _ _

/-- The read as work of the scrubber, once its row is open and it is counted. -/
theorem scrubUnits_counted : CellWork (quarryCells q) quarryEventCtrs ((s.openRow q a).unitsCounted q a len) (s.scrubUnits q a len) :=
  (blockEvents_work q _ a len).trans ((scrubUnits_after q a len h).mono (by simp))

theorem scrubUnits_work : CellWork (quarryCells q) quarryScrubCtrs s (s.scrubUnits q a len) := by
  have hcount : CellWork (quarryCells q) quarryScrubCtrs (s.openRow q a) ((s.openRow q a).unitsCounted q a len) :=
    (cellWork_bumpOwn (quarryCells q) _ 0x98 1 (by decide)).trans (cellWork_bumpOwn (quarryCells q) _ 0x40 (units a len) (by decide))
  exact ((openRow_work q s a).mono (by decide)).trans (hcount.trans ((scrubUnits_counted q a len h).mono (by decide)))

theorem scrubUnits_reads : (s.scrubUnits q a len).ctr (.quarry q) 0x98 = (s.ctr (.quarry q) 0x98 + 1) % 2 ^ 48 := by
  have hopen : (s.openRow q a).ctr (.quarry q) 0x98 = s.ctr (.quarry q) 0x98 := (openRow_work q s a).ctrs 0x98 (by decide) (by decide)
  have hctr : (s.scrubUnits q a len).ctr (.quarry q) 0x98 = ((s.openRow q a).unitsCounted q a len).ctr (.quarry q) 0x98 :=
    (scrubUnits_counted q a len h).ctrs 0x98 (by decide) (by decide)
  rw [hctr, State.unitsCounted, State.ctr_bump_ne _ _ (by simp), State.ctr_bump_same, hopen]

theorem scrubUnits_units : (s.scrubUnits q a len).ctr (.quarry q) 0x40 = (s.ctr (.quarry q) 0x40 + units a len) % 2 ^ 48 := by
  have hopen : (s.openRow q a).ctr (.quarry q) 0x40 = s.ctr (.quarry q) 0x40 := (openRow_work q s a).ctrs 0x40 (by decide) (by decide)
  have hctr : (s.scrubUnits q a len).ctr (.quarry q) 0x40 = ((s.openRow q a).unitsCounted q a len).ctr (.quarry q) 0x40 :=
    (scrubUnits_counted q a len h).ctrs 0x40 (by decide) (by decide)
  rw [hctr, State.unitsCounted, State.ctr_bump_same, State.ctr_bump_ne _ _ (by simp), hopen]

/-- The codewords that the read poisons. -/
theorem scrubUnits_ecc : (s.scrubUnits q a len).ecc =
    ((s.lostUnits a len).flatMap (fun e => fromN (64 * (e.1 / 2) / 32) (ceilDiv 64 32))).foldl markPoison s.ecc := by
  have hlost : (s.openRow q a).lostUnits a len = s.lostUnits a len := by
    rw [State.lostUnits, unitEvents_congr (openRow_ecc s a q), State.lostUnits]
  have hevents : ((s.openRow q a).blockEvents q a len).ecc = s.ecc :=
    (foldl_ecc (fun u e => quarryEvent_ecc q u 3 none 0 e) _ _).trans (openRow_ecc s a q)
  rw [scrubUnits_eq q s a len h, hlost, foldl_poison_ecc, hevents]

end

section
variable {q : CoreId} {s : State} {a len : Nat}

/-- Of an uncorrectable codeword of the range both codewords of its unit are poisoned. -/
theorem mem_unitsPoisoned {e : Nat × Cw} (he : e ∈ s.badCws a len) (hg : e.2.grade = 2) {k : Nat} (hk : k / 2 = e.1 / 2) :
    k ∈ (s.lostUnits a len).flatMap (fun e => fromN (64 * (e.1 / 2) / 32) (ceilDiv 64 32)) := by
  have hunit : ∀ d ∈ s.lostUnits a len, d.1 / 2 = e.1 / 2 →
      k ∈ (s.lostUnits a len).flatMap (fun e => fromN (64 * (e.1 / 2) / 32) (ceilDiv 64 32)) := fun d hd hde =>
    List.mem_flatMap.mpr ⟨d, hd, mem_fromN.mpr (by simp only [ceilDiv]; omega)⟩
  by_cases hpair : e.1 % 2 = 1 ∧ ∃ d ∈ s.badCws a len, d.1 + 1 = e.1 ∧ d.2.grade = 2
  · obtain ⟨hodd, d, hd, hde, hdg⟩ := hpair
    have heven : ¬ d.1 % 2 = 1 := by omega
    exact hunit d (by simp [State.lostUnits, State.unitEvents, hd, hdg, heven]) (by omega)
  · refine hunit e ?_ rfl
    simp only [not_and, not_exists] at hpair
    have hkeep : e ∈ s.unitEvents a len := by
      refine List.mem_filter.mpr ⟨he, ?_⟩
      simp only [Bool.not_eq_true', Bool.and_eq_false_iff, List.any_eq_false, beq_eq_false_iff_ne]
      by_cases hodd : e.1 % 2 = 1
      · exact .inr fun d hd => by simpa using hpair hodd d hd
      · exact .inl (.inl hodd)
    exact List.mem_filter.mpr ⟨hkeep, by simpa using hg⟩

variable (h : s.admitted q = [])
include h

/-- Codewords of the range are dealt with. -/
theorem scrubUnits_dealt (ha : a % 32 = 0) {k : Nat} {w : Cw} (hk : tfind s.ecc k = some w) (h1 : a ≤ 32 * k) (h2 : 32 * k < a + len) :
    (quarryCells q).dealt (bitAt (s.preg (.quarry q) 0x100) 2) (s.scrubUnits q a len) k ((32 * k - quarryBase q) / 64) w := by
  have hbad : 0 < w.grade → (k, w) ∈ s.badCws a len := fun hg => (mem_badCws ha).mpr ⟨mem_of_tfind hk, h1, h2, hg⟩
  refine ⟨fun hg => ?_, fun hg hb => (scrubUnits_after q a len h).mended ?_⟩
  · rw [scrubUnits_ecc q a len h]
    exact foldl_markPoison_poison _ _ (.inl (mem_unitsPoisoned (hbad (by omega)) hg rfl))
  · have hevent : (k, w) ∈ (s.openRow q a).unitEvents a len := by
      rw [unitEvents_congr (openRow_ecc s a q)]
      exact List.mem_filter.mpr ⟨hbad (by omega), by simp [hg]⟩
    have hctl : (s.openRow q a).preg (.quarry q) 0x100 = s.preg (.quarry q) 0x100 := (openRow_work q s a).control
    exact foldl_mended (c := quarryCells q) (s := (s.openRow q a).unitsCounted q a len) (unit := fun e => (32 * e.1 - quarryBase q) / 64) (b := 2)
      (fun u e => (quarryEvent_work q u 3 none 0 e).1) (fun u e => (quarryEvent_work q u 3 none 0 e).2) hevent hg (hctl ▸ hb)

end

/-! ### QUARRY_PATROL_SCRUB (R243) -/

theorem quarryBase_aligned (q : Nat) : quarryBase q % 64 = 0 := by simp only [quarryBase]; omega

/-- The block that a patrol step of a quarry reads. -/
def State.blockAt (s : State) (q : Nat) : Nat := quarryBase q + 512 * (s.quarry q).scrubPos

theorem blockAt_aligned (s : State) (q : Nat) : s.blockAt q % 64 = 0 := by
  have := quarryBase_aligned q
  simp only [State.blockAt]
  omega

section
variable (q : CoreId) (s : State) (errs : List CwUpset)

/-- Whether the scrubber of a quarry patrols. -/
def State.quarryPatrols (s : State) (q : Nat) : Prop :=
  bitAt (s.preg (.quarry q) 0x100) 1 = true ∧ (s.quarry q).life.st = .opened ∧ (s.quarry q).repairQ = []

/-- What a patrol step that reads leaves of a state with the upsets. -/
def State.quarryPatrolled (u : State) (q : Nat) : State :=
  (u.scrubUnits q (u.blockAt q) 512).onQuarry q (fun y => { y with scrubPos := (y.scrubPos + 1) % 1572864 })

theorem quarryUpsets_eq : ∃ e, s.quarryUpsets q errs = { s with ecc := e } := foldl_upset_eq _ _ errs s

theorem quarryUpsets_frame : CellFrame (quarryCells q) [] s (s.quarryUpsets q errs) := by
  obtain ⟨e, he⟩ := quarryUpsets_eq q s errs
  rw [he]
  exact cellFrame_ecc _ s e

theorem quarryPatrols_upsets : (s.quarryUpsets q errs).quarryPatrols q ↔ s.quarryPatrols q := by
  obtain ⟨e, he⟩ := quarryUpsets_eq q s errs
  rw [he]
  rfl

theorem quarryPatrols_iff : (bitAt (s.preg (.quarry q) 0x100) 1 && (s.quarry q).life.st == .opened && (s.quarry q).repairQ.isEmpty) = true ↔
    s.quarryPatrols q := by
  simp [State.quarryPatrols, and_assoc]

theorem quarryPatrol_off (h : ¬ s.quarryPatrols q) : s.quarryPatrol q errs = s.quarryUpsets q errs :=
  if_neg fun hc => h ((quarryPatrols_upsets q s errs).mp ((quarryPatrols_iff q _).mp hc))

theorem quarryPatrol_on (h : s.quarryPatrols q) : s.quarryPatrol q errs = (s.quarryUpsets q errs).quarryPatrolled q :=
  if_pos ((quarryPatrols_iff q _).mpr ((quarryPatrols_upsets q s errs).mpr h))

variable {u : State} (h : u.admitted q = [])
include h

theorem quarryPatrolled_frame : CellFrame (quarryCells q) quarryScrubCtrs u (u.quarryPatrolled q) :=
  (scrubUnits_work q _ 512 h).toCellFrame.trans ((cellFrame_onQuarry q _ _).mono (by simp))

theorem quarryPatrolled_pos : ((u.quarryPatrolled q).quarry q).scrubPos = ((u.quarry q).scrubPos + 1) % 1572864 := by
  have hpos : ((u.scrubUnits q (u.blockAt q) 512).quarry q).scrubPos = (u.quarry q).scrubPos := (scrubUnits_work q _ 512 h).pos
  rw [State.quarryPatrolled, State.quarry_onQuarry_same, hpos]

theorem quarryPatrolled_reads : (u.quarryPatrolled q).ctr (.quarry q) 0x98 = (u.ctr (.quarry q) 0x98 + 1) % 2 ^ 48 := scrubUnits_reads q _ 512 h

theorem quarryPatrolled_units : (u.quarryPatrolled q).ctr (.quarry q) 0x40 = (u.ctr (.quarry q) 0x40 + 8) % 2 ^ 48 := by
  have hunits : units (u.blockAt q) 512 = 8 := by
    have := blockAt_aligned u q
    simp only [units]
    omega
  rw [← hunits]
  exact scrubUnits_units q _ 512 h

variable {q} in
theorem quarryPatrolled_dealt {k : Nat} {w : Cw} (hk : tfind u.ecc k = some w) (h1 : u.blockAt q ≤ 32 * k) (h2 : 32 * k < u.blockAt q + 512) :
    (quarryCells q).dealt (bitAt (u.preg (.quarry q) 0x100) 2) (u.quarryPatrolled q) k ((32 * k - quarryBase q) / 64) w := by
  have halign := blockAt_aligned u q
  obtain ⟨hlost, hmend⟩ := scrubUnits_dealt h (by omega) hk h1 h2
  refine ⟨hlost, fun hg hb => ?_⟩
  have hq : (quarryCells q).repairs (u.quarryPatrolled q) = (quarryCells q).repairs (u.scrubUnits q (u.blockAt q) 512) := by
    simp [Cells.repairs, Cells.at, quarryCells, State.quarryPatrolled, State.quarry]
  rw [Cells.mended, hq]
  exact hmend hg hb

end

/-! ### QUARRY_REPAIR (R186, R238) -/

/-- The first byte of a unit of a quarry. -/
def unitAddr (q u : Nat) : Nat := quarryBase q + 64 * u

theorem unitAddr_aligned (q u : Nat) : unitAddr q u % 64 = 0 := by
  have := quarryBase_aligned q
  simp only [unitAddr]
  omega

/-- A greatest element is one of the list, or 0. -/
theorem maxOf_mem {xs : List Nat} (h : maxOf xs ≠ 0) : maxOf xs ∈ xs := by
  have key : ∀ (xs : List Nat) b, xs.foldl Nat.max b = b ∨ xs.foldl Nat.max b ∈ xs := by
    intro xs
    induction xs with
    | nil => exact fun b => .inl rfl
    | cons x xs ih =>
      intro b
      rcases ih (Nat.max b x) with hmax | hin
      · rw [List.foldl_cons, hmax]
        rcases Nat.le_total b x with hle | hle
        · exact .inr (by simp [Nat.max_eq_right hle])
        · exact .inl (Nat.max_eq_left hle)
      · exact .inr (List.mem_cons_of_mem _ hin)
  exact (key xs 0).resolve_left h

section
variable (q : CoreId) (s : State) (a : Nat) (rest : List Nat)

/-- The unit at the head of the queue read again, and off the queue. -/
def State.unitReread (s : State) (q a : Nat) (rest : List Nat) : State := (s.scrubUnits q a 64).onQuarry q (fun y => { y with repairQ := rest })

/-- The unit written back as it was corrected. -/
def State.unitMended (u : State) (q a : Nat) : State := (u.scrubbed a 64).bump (.quarry q) 0xA0

theorem quarryRepair_none (h : (s.quarry q).repairQ = []) : s.quarryRepair q = s := by simp [State.quarryRepair, h]

theorem quarryRepair_cons {u : Nat} (h : (s.quarry q).repairQ = u :: rest) : s.quarryRepair q =
    if s.grade (unitAddr q u) 64 = 1 then (s.unitReread q (unitAddr q u) rest).unitMended q (unitAddr q u)
    else s.unitReread q (unitAddr q u) rest := by
  unfold State.quarryRepair
  rw [h]
  simp only [beq_iff_eq]
  rfl

theorem unitReread_repairQ : ((s.unitReread q a rest).quarry q).repairQ = rest := by simp [State.unitReread]

theorem unitMended_frame (u : State) : CellFrame (quarryCells q) [0xA0] u (u.unitMended q a) := by
  have hscrub : CellFrame (quarryCells q) [0xA0] u (u.scrubbed a 64) := (cellFrame_ecc _ u _).mono (by simp)
  exact hscrub.trans (cellWork_bumpOwn (quarryCells q) (u.scrubbed a 64) 0xA0 1 (by simp)).toCellFrame

theorem unitMended_mends (u : State) : (u.unitMended q a).ctr (.quarry q) 0xA0 = (u.ctr (.quarry q) 0xA0 + 1) % 2 ^ 48 := State.ctr_bump_same ..

/-- A unit mended needs no correction. -/
theorem unitMended_clean {u : State} {e : Nat × Cw} (he : e ∈ (u.unitMended q a).ecc) (h1 : a ≤ 32 * e.1) (h2 : 32 * e.1 < a + 64) : e.2.grade ≠ 1 := by
  have hkeep := (List.mem_filter.mp he).2
  simpa [h1, h2] using hkeep

variable {s} (h : s.admitted q = [])
include h

theorem unitReread_frame : CellFrame (quarryCells q) quarryScrubCtrs s (s.unitReread q a rest) :=
  (scrubUnits_work q a 64 h).toCellFrame.trans ((cellFrame_onQuarry q _ _).mono (by simp))

theorem unitReread_reads : (s.unitReread q a rest).ctr (.quarry q) 0x98 = (s.ctr (.quarry q) 0x98 + 1) % 2 ^ 48 := scrubUnits_reads q a 64 h

/-- An uncorrectable unit read again is poisoned, both its codewords. -/
theorem unitReread_poison (ha : a % 64 = 0) (hg : s.grade a 64 = 2) {k : Nat} (hk : k / 2 = a / 64) :
    (tget ⟨[], false⟩ (s.unitReread q a rest).ecc k).poison = true := by
  have hmem : s.grade a 64 ∈ (s.badCws a 64).map (fun e => e.2.grade) := maxOf_mem (by rw [show maxOf _ = 2 from hg]; decide)
  obtain ⟨e, he, hge⟩ := List.mem_map.mp hmem
  obtain ⟨-, hlo, hhi, -⟩ := (mem_badCws (by omega)).mp he
  have hecc : (s.unitReread q a rest).ecc = _ := scrubUnits_ecc q a 64 h
  rw [hecc]
  exact foldl_markPoison_poison _ _ (.inl (mem_unitsPoisoned he (hge.trans hg) (by omega)))

end

section
variable {q : CoreId} {s : State} {u : Nat} {rest : List Nat} (hq : (s.quarry q).repairQ = u :: rest)
include hq

/-- A repair rereads its unit, and mends it where that is again corrected whole. -/
theorem quarryRepair_cases :
    s.grade (unitAddr q u) 64 = 1 ∧ s.quarryRepair q = (s.unitReread q (unitAddr q u) rest).unitMended q (unitAddr q u) ∨
    s.grade (unitAddr q u) 64 ≠ 1 ∧ s.quarryRepair q = s.unitReread q (unitAddr q u) rest := by
  rw [quarryRepair_cons q s rest hq]
  by_cases hg : s.grade (unitAddr q u) 64 = 1
  exacts [.inl ⟨hg, if_pos hg⟩, .inr ⟨hg, if_neg hg⟩]

/-- A unit that is again corrected needs no correction after its repair. -/
theorem quarryRepair_cleans (hg : s.grade (unitAddr q u) 64 = 1) {e : Nat × Cw} (he : e ∈ (s.quarryRepair q).ecc) (h1 : unitAddr q u ≤ 32 * e.1)
    (h2 : 32 * e.1 < unitAddr q u + 64) : e.2.grade ≠ 1 := by
  rw [quarryRepair_cons q s rest hq, if_pos hg] at he
  exact unitMended_clean q _ he h1 h2

theorem quarryRepair_repairQ : ((s.quarryRepair q).quarry q).repairQ = rest := by
  have hread := unitReread_repairQ q s (unitAddr q u) rest
  rcases quarryRepair_cases hq with ⟨-, e⟩ | ⟨-, e⟩ <;> rw [e] <;> exact hread

variable (h : s.admitted q = [])
include h

theorem quarryRepair_frame : CellFrame (quarryCells q) (0xA0 :: quarryScrubCtrs) s (s.quarryRepair q) := by
  have hread := (unitReread_frame q (unitAddr q u) rest h).mono (may' := 0xA0 :: quarryScrubCtrs) (by simp)
  rcases quarryRepair_cases hq with ⟨-, e⟩ | ⟨-, e⟩ <;> rw [e]
  exacts [hread.trans ((unitMended_frame q _ _).mono (by simp)), hread]

theorem quarryRepair_reads : (s.quarryRepair q).ctr (.quarry q) 0x98 = (s.ctr (.quarry q) 0x98 + 1) % 2 ^ 48 := by
  have hread := unitReread_reads q (unitAddr q u) rest h
  rcases quarryRepair_cases hq with ⟨-, e⟩ | ⟨-, e⟩ <;> rw [e]
  exacts [((unitMended_frame q _ _).ctrs 0x98 (by decide) (by decide)).trans hread, hread]

theorem quarryRepair_mends : (s.quarryRepair q).ctr (.quarry q) 0xA0 =
    if s.grade (unitAddr q u) 64 = 1 then (s.ctr (.quarry q) 0xA0 + 1) % 2 ^ 48 else s.ctr (.quarry q) 0xA0 := by
  have hread : (s.unitReread q (unitAddr q u) rest).ctr (.quarry q) 0xA0 = s.ctr (.quarry q) 0xA0 :=
    (unitReread_frame q (unitAddr q u) rest h).ctrs 0xA0 (by decide) (by decide)
  rcases quarryRepair_cases hq with ⟨hg, e⟩ | ⟨hg, e⟩
  · rw [e, if_pos hg, unitMended_mends, hread]
  · rw [e, if_neg hg, hread]

/-- One that cannot be corrected is poisoned, both its codewords. -/
theorem quarryRepair_poison (hg : s.grade (unitAddr q u) 64 = 2) {k : Nat} (hk : k / 2 = unitAddr q u / 64) :
    (tget ⟨[], false⟩ (s.quarryRepair q).ecc k).poison = true := by
  rw [quarryRepair_cons q s rest hq, if_neg (by omega)]
  exact unitReread_poison q _ rest h (unitAddr_aligned q u) hg hk

end

/-! ### The commands -/

section
variable {s : State} (hl : s.live = true) (q : CoreId)
include hl

theorem exec_quarryPatrolScrub_live (errs : List CwUpset) : exec (.quarryPatrolScrub q errs) s = .next (finish s (s.quarryPatrol q errs)) := by
  rw [show exec (.quarryPatrolScrub q errs) s = execQuarryPatrolScrub q errs s from rfl]
  exact act_live hl _

theorem exec_quarryRepair_live : exec (.quarryRepair q) s = .next (finish s (s.quarryRepair q)) := by
  rw [show exec (.quarryRepair q) s = execQuarryRepair q s from rfl]
  exact act_live hl _

end

/-- The frame of a quarry's scrubber is one of its quarry. -/
theorem CellFrame.onlyQuarry {q : CoreId} {may : List Nat} {s t : State} (h : CellFrame (quarryCells q) may s t) :
    Unchanged s (finish s t) [.mem, .quarries, .ctrs, .regs, .flt] ∧ ∀ n, n ≠ q.val → (finish s t).quarry n = s.quarry n :=
  ⟨h.unchanged.mono (by simp [Cells.parts, quarryCells]), fun n hn => (finish_get_quarry s t n).trans (h.other n hn)⟩

end Sys2Proof.Machine
end

section
/-! Banks of a quarry: rows that idle, refreshes that come due (R241, R244); the cells settled (R186 to R188, R238 to R244). -/

namespace Sys2Proof.Machine

/-! ### ROW_IDLE_CLOSE and REFRESH -/

theorem tfind_tdel_ne {α : Type} (t : Tab α) {k x : Nat} (h : x ≠ k) : tfind (tdel t k) x = tfind t x := by
  unfold tfind tdel
  rw [List.find?_filter]
  congr 2
  funext e
  by_cases he : e.1 = x <;> simp [he, h]

section
variable (s : State) (q : CoreId) (bank k : Nat)

/-- Whether a request of a bank is late (R241). -/
def State.bankLate (s : State) (q bank : Nat) : Bool :=
  s.flight.any (fun r => r.space == 0 && r.st == .admitted && quarryOf r.addr == some q && qBank r.addr == bank && untilDue s.time r.deadline == 0)

/-- Rows of a bank refreshed. -/
def State.rowsRefreshed (s : State) (q bank k : Nat) : State :=
  (s.bump (.quarry q) 0x60 k).onQuarry q (fun y => { y with refRow := tset y.refRow bank ((tget 0 y.refRow bank + k) % 3072) })

/-- The refreshes that a bank owes. -/
def State.refreshOwed (s : State) (q bank k : Nat) : State := s.onQuarry q (fun y => { y with postponed := tset y.postponed bank k })

theorem refresh_prompt (h : s.bankLate q bank = false) :
    s.refresh q bank = (s.rowsRefreshed q bank (tget 0 (s.quarry q).postponed bank + 1)).refreshOwed q bank 0 :=
  if_neg (show ¬ s.bankLate q bank = true by rw [h]; decide)

theorem refresh_postponed (h : s.bankLate q bank = true) (hd : tget 0 (s.quarry q).postponed bank < 4) :
    s.refresh q bank = (s.bump (.quarry q) 0x68).refreshOwed q bank (tget 0 (s.quarry q).postponed bank + 1) := (if_pos h).trans (if_pos hd)

theorem refresh_forced (h : s.bankLate q bank = true) (hd : 4 ≤ tget 0 (s.quarry q).postponed bank) :
    s.refresh q bank = s.rowsRefreshed q bank 1 := (if_pos h).trans (if_neg (by omega))

/-- The next row after k refreshes of a bank, and their count. -/
def bankAdvanced (s t : State) (q bank k : Nat) : Prop :=
  tget 0 (t.quarry q).refRow bank = (tget 0 (s.quarry q).refRow bank + k) % 3072 ∧ t.ctr (.quarry q) 0x60 = (s.ctr (.quarry q) 0x60 + k) % 2 ^ 48

theorem rowsRefreshed_advanced : bankAdvanced s (s.rowsRefreshed q bank k) q bank k := by
  refine ⟨?_, State.ctr_bump_same ..⟩
  rw [State.rowsRefreshed, State.quarry_onQuarry_same]
  exact tget_tset_same ..

theorem refreshOwed_advanced {s t : State} {j : Nat} (h : bankAdvanced s t q bank j) : bankAdvanced s (t.refreshOwed q bank k) q bank j := by
  refine ⟨?_, h.2⟩
  rw [State.refreshOwed, State.quarry_onQuarry_same]
  exact h.1

theorem refreshOwed_debt : tget 0 ((s.refreshOwed q bank k).quarry q).postponed bank = k := by simp [State.refreshOwed]

theorem rowsRefreshed_debt : ((s.rowsRefreshed q bank k).quarry q).postponed = (s.quarry q).postponed := by simp [State.rowsRefreshed]

theorem refreshOwed_refRow : ((s.refreshOwed q bank k).quarry q).refRow = (s.quarry q).refRow := by simp [State.refreshOwed]

/-- A refresh touches its quarry, and counts. -/
theorem refresh_same {p : Part} (h : p ∉ [Part.quarries, .ctrs]) : p.same s (s.refresh q bank) := by
  obtain ⟨hq, hc, -⟩ : p ≠ .quarries ∧ p ≠ .ctrs ∧ p ∉ [] := by simpa using h
  have howe : ∀ (u : State) j, p.same u (u.refreshOwed q bank j) := fun u j => onQuarry_same u q _ hq
  have hrows : ∀ j, p.same s (s.rowsRefreshed q bank j) := fun j => Part.same_trans (bump_same s _ _ _ hc) (onQuarry_same _ q _ hq)
  cases hlate : s.bankLate q bank
  · rw [refresh_prompt s q bank hlate]
    exact Part.same_trans (hrows _) (howe _ _)
  · rcases Nat.lt_or_ge (tget 0 (s.quarry q).postponed bank) 4 with hd | hd
    · rw [refresh_postponed s q bank hlate hd]
      exact Part.same_trans (bump_same s _ _ _ hc) (howe _ _)
    · rw [refresh_forced s q bank hlate hd]
      exact hrows 1

theorem refresh_pending : (s.refresh q bank).pending = s.pending := by
  unfold State.refresh
  extract_lets
  split_ifs <;> rfl

end

section
variable {s : State} (hl : s.live = true) (q : CoreId) (bank : BitVec 7)
include hl

theorem exec_rowIdleClose_live : exec (.rowIdleClose q bank) s = .next (finish s (s.rowIdle q bank.toNat)) := by
  rw [show exec (.rowIdleClose q bank) s = execRowIdleClose q bank s from rfl]
  exact act_live hl _

theorem exec_refresh_live : exec (.refresh q bank) s = .next (finish s (s.refresh q bank.toNat)) := by
  rw [show exec (.refresh q bank) s = execRefresh q bank s from rfl]
  exact act_live hl _

end

/-! ### Upsets leave what a patrol reads (R184, R237) -/

theorem sillUpsets_reads (n : CoreId) (s : State) (errs : List CwUpset) : let u := s.sillUpsets n errs
    u.core n = s.core n ∧ u.ctr (.sill n) 0x50 = s.ctr (.sill n) 0x50 ∧ u.preg (.sill n) 0x100 = s.preg (.sill n) 0x100 := by
  obtain ⟨e, he⟩ := sillUpsets_eq n s errs
  rw [he]
  exact ⟨rfl, rfl, rfl⟩

theorem quarryUpsets_reads (q : CoreId) (s : State) (errs : List CwUpset) : let u := s.quarryUpsets q errs
    u.quarry q = s.quarry q ∧ u.admitted q = s.admitted q ∧ u.preg (.quarry q) 0x100 = s.preg (.quarry q) 0x100 ∧
    ∀ o, u.ctr (.quarry q) o = s.ctr (.quarry q) o := by
  obtain ⟨e, he⟩ := quarryUpsets_eq q s errs
  rw [he]
  exact ⟨rfl, rfl, rfl, fun _ => rfl⟩

/-- A command that touches the codes alone. -/
theorem unchanged_codes {s u : State} (h : ∃ e, u = { s with ecc := e }) : Unchanged s (finish s u) [.mem] := by
  obtain ⟨e, rfl⟩ := h
  refine unchanged_finish rfl fun p hp => ?_
  cases p <;> simp_all [Part.same, Part.kept]

/-- A command that finds nothing to do. -/
theorem unchanged_nothing (s : State) : Unchanged s (finish s s) [] := unchanged_finish rfl fun p _ => Part.same_refl s p

/-- A row that idles: its bank alone has none open. -/
theorem rowIdle_open (s : State) (q bank : Nat) : tfind ((s.rowIdle q bank).quarry q).open_ bank = none ∧
    ∀ k, k ≠ bank → tfind ((s.rowIdle q bank).quarry q).open_ k = tfind (s.quarry q).open_ k := by
  rw [State.rowIdle, State.quarry_onQuarry_same]
  exact ⟨tfind_tdel_same _ _, fun k hk => tfind_tdel_ne _ hk⟩

/-- Settles O31: of a sill and of a quarry the patrol, off and on, and the repair of the head of the queue; of a bank the idle row and the three
cases of a refresh. -/
theorem cellsAreScrubbedAndRefreshed : Obligations.CellsAreScrubbedAndRefreshed := by
  unfold Obligations.CellsAreScrubbedAndRefreshed
  refine ⟨⟨fun s c hl => ⟨fun errs => ?_, fun hnone => ?_, fun r rest hq => ?_⟩,
    fun s q hl hadm => ⟨fun errs => ?_, fun hnone => ?_, fun u rest hq => ?_⟩⟩, fun s q bank hl => ?_⟩
  · intro u works read
    have hexec := exec_sillPatrolScrub_live hl c errs
    obtain ⟨hcore, hctr, hpreg⟩ := sillUpsets_reads c s errs
    by_cases hw : s.sillPatrols c
    · rw [sillPatrol_on c s errs hw] at hexec
      have hframe := ((sillUpsets_frame s errs).mono (by simp)).trans (sillPatrolled_frame c u)
      refine ⟨_, hexec, fun a => by rw [finish_mem, hframe.mem], fun hoff => absurd hw hoff, fun _ => ⟨hframe.onlyCore, ?_, ?_, ?_, ?_⟩⟩
      · rw [finish_get_core, sillPatrolled_pos, hcore]
      · rw [finish_get_ctr, sillPatrolled_reads, hctr]
      · intro k hk
        rw [finish_ecc]
        exact sillPatrolled_other c (congrArg Core.scrubPos hcore) fun r hr hin => hk ⟨r, hr, hin⟩
      · intro k w hkw hread
        have hdealt := (sillCells_dealt ..).mp (sillPatrolled_dealt c (congrArg Core.scrubPos hcore) hkw hread)
        rw [hpreg] at hdealt
        rw [finish_ecc, finish_get_core]
        exact hdealt
    · rw [sillPatrol_off c s errs hw] at hexec
      obtain ⟨e, he⟩ := sillUpsets_eq c s errs
      exact ⟨_, hexec, fun a => by rw [finish_mem, he], fun _ => ⟨unchanged_codes ⟨e, he⟩, finish_ecc ..⟩, fun hon => absurd hon hw⟩
  · have hexec := exec_sillRepair_live hl c
    rw [sillRepair_none hnone] at hexec
    exact ⟨_, hexec, unchanged_nothing s⟩
  · intro again
    have hframe := sillRepair_frame hq
    obtain ⟨hagain, honce⟩ := sillRepair_mends hq
    refine ⟨_, exec_sillRepair_live hl c, hframe.onlyCore, ?_, ?_, fun a => by rw [finish_mem, hframe.mem], ?_, ?_, fun e he hlo hhi hg => ?_⟩
    · rw [finish_get_core, sillRepair_repairQ hq]
    · rw [finish_get_ctr, sillRepair_reads hq]
    · rw [finish_get_ctr]
      exact hagain
    · rw [finish_get_ctr]
      exact honce
    · rw [finish_ecc] at he
      exact sillRepair_cleans hq ⟨e, he, hlo, hhi, hg⟩
  · intro u works a
    have hexec := exec_quarryPatrolScrub_live hl q errs
    obtain ⟨hquarry, hadmitted, hpreg, hctr⟩ := quarryUpsets_reads q s errs
    have hnone : u.admitted q = [] := hadmitted.trans hadm
    by_cases hw : s.quarryPatrols q
    · rw [quarryPatrol_on q s errs hw] at hexec
      have hframe := ((quarryUpsets_frame q s errs).mono (by simp)).trans (quarryPatrolled_frame q hnone)
      obtain ⟨hparts, hothers⟩ := hframe.onlyQuarry
      refine ⟨_, hexec, fun a => by rw [finish_mem, hframe.mem], fun hoff => absurd hw hoff, fun _ =>
        ⟨hparts, hothers, ?_, ?_, ?_, fun k w hkw h1 h2 => ?_⟩⟩
      · rw [finish_get_quarry, quarryPatrolled_pos q hnone, hquarry]
      · rw [finish_get_ctr, quarryPatrolled_reads q hnone, hctr]
      · rw [finish_get_ctr, quarryPatrolled_units q hnone, hctr]
      · have hblock : u.blockAt q = a := by rw [State.blockAt, hquarry]
        have hdealt := (quarryCells_dealt ..).mp (quarryPatrolled_dealt hnone hkw (by rwa [hblock]) (by rwa [hblock]))
        rw [hpreg] at hdealt
        rw [finish_ecc, finish_get_quarry]
        exact hdealt
    · rw [quarryPatrol_off q s errs hw] at hexec
      obtain ⟨e, he⟩ := quarryUpsets_eq q s errs
      exact ⟨_, hexec, fun a => by rw [finish_mem, he], fun _ => ⟨unchanged_codes ⟨e, he⟩, finish_ecc ..⟩, fun hon => absurd hon hw⟩
  · have hexec := exec_quarryRepair_live hl q
    rw [quarryRepair_none q s hnone] at hexec
    exact ⟨_, hexec, unchanged_nothing s⟩
  · intro a
    have halign : a % 64 = 0 := unitAddr_aligned q u
    have hframe := quarryRepair_frame hq hadm
    obtain ⟨hparts, hothers⟩ := hframe.onlyQuarry
    refine ⟨_, exec_quarryRepair_live hl q, hparts, ?_, fun x => by rw [finish_mem, hframe.mem], hothers, ?_, ?_, fun hg e he h1 h2 => ?_,
      fun hg => ?_⟩
    · rw [finish_get_quarry, quarryRepair_repairQ hq]
    · rw [finish_get_ctr, quarryRepair_reads hq hadm]
    · rw [finish_get_ctr]
      exact quarryRepair_mends hq hadm
    · rw [finish_ecc] at he
      exact quarryRepair_cleans hq hg he h1 h2
    · rw [finish_ecc]
      exact ⟨quarryRepair_poison hq hadm hg (by simp only [unitAddr]; omega), quarryRepair_poison hq hadm hg (by simp only [unitAddr]; omega)⟩
  · intro debt late rows
    obtain ⟨hclosed, hopen⟩ := rowIdle_open s q bank.toNat
    refine ⟨⟨_, exec_rowIdleClose_live hl q bank, unchanged_finish rfl fun p hp => onQuarry_same s q _ (by simpa using hp), ?_, fun k hk => ?_, ?_,
      fun n hn => ?_⟩, ⟨_, exec_refresh_live hl q bank, unchanged_finish (refresh_pending ..) fun p hp => refresh_same s q _ hp,
      fun h => ?_, fun h hd => ?_, fun h hd => ?_⟩⟩
    · rw [finish_get_quarry, hclosed]
    · rw [finish_get_quarry, hopen k hk]
    · rw [finish_get_quarry, State.rowIdle, State.quarry_onQuarry_same]
    · rw [finish_get_quarry]
      exact State.quarry_onQuarry_ne s _ hn
    · rw [refresh_prompt s q _ h]
      have hrows := refreshOwed_advanced q bank.toNat 0 (rowsRefreshed_advanced s q bank.toNat (debt + 1))
      simpa only [rows, finish_get_quarry, finish_get_ctr] using ⟨hrows, refreshOwed_debt ..⟩
    · rw [refresh_postponed s q _ h hd, finish_get_quarry, finish_get_ctr]
      exact ⟨refreshOwed_refRow .., refreshOwed_debt .., State.ctr_bump_same ..⟩
    · rw [refresh_forced s q _ h hd]
      have hrows := rowsRefreshed_advanced s q bank.toNat 1
      have hdebt := congrArg (tget 0 · bank.toNat) (rowsRefreshed_debt s q bank.toNat 1)
      simpa only [rows, finish_get_quarry, finish_get_ctr] using ⟨hrows, hdebt⟩

end Sys2Proof.Machine
end

section
/-! A request of another core at a sill (R192, R195, R197, R199): what a try of its banks and a slot of its agent leave of the sill's core, and
the answer of each case. -/

namespace Sys2Proof.Machine

/-! ### The sill's core at work -/

section
variable (o : CoreId) (s : State)

/-- A counter of the sill's page advanced. -/
theorem coreWork_sillBump (x k : Nat) : CoreWork [.ctrs] o s (s.bump (.sill o) x k) :=
  .of_same (fun _ hp => bump_same s _ x k (by simpa using hp)) rfl (by simp) (by simp) (State.ctr_bump_ne s k (by simp only [Page.base]; omega))

/-- Banks taken are noted beside what the core runs. -/
theorem foldl_takes (at_ who : Nat) (bs : List Nat) (c : Core) :
    let d := bs.foldl (fun (c : Core) b => c.takes at_ b who) c
    d.pc = c.pc ∧ d.job = c.job ∧ d.running = c.running := by
  induction bs generalizing c with
  | nil => exact ⟨rfl, rfl, rfl⟩
  | cons b bs ih => exact ih (c.takes at_ b who)

/-- A try of banks is work of the sill's core; what it counts are losses of banks (R192). -/
theorem asyncTry_work (who : Nat) (rows : List Nat) : CoreWork [.ctrs] o s (s.asyncTry o who rows).1 ∧
    (s.asyncTry o who rows).1.ctr (.sill o) 0x68 = s.ctr (.sill o) 0x68 := by
  unfold State.asyncTry
  extract_lets c at_ banks
  split_ifs
  · exact ⟨.refl _ o s, rfl⟩
  · split
    · exact ⟨coreWork_onCore o s fun c => foldl_takes at_ who banks c, rfl⟩
    · next b hb =>
      split_ifs
      · exact ⟨.refl _ o s, rfl⟩
      · extract_lets m
        have hloses := coreWork_onCore (may := [.ctrs]) o (s.bump (.sill o) (0x200 + 0x40 * b + (if m = 3 then 0x20 else 0x18)))
          (f := fun c => c.loses at_ b who (m == 2)) fun _ => ⟨rfl, rfl, rfl⟩
        exact ⟨(coreWork_sillBump o s _ 1).trans hloses, State.ctr_bump_ne s 1 (by omega)⟩

/-- Slots handed on: the sill's core alone (R161, R211). -/
theorem handMoved_work (head k : Nat) : CoreWork [] o s (s.handMoved o head k) := by
  induction k generalizing s with
  | zero => exact .refl _ o s
  | succ k ih =>
    have hset : ∀ (u : State) x w, CoreWork [] o u (u.setSlot o x w) := fun u x w =>
      coreWork_onCore o u (f := fun c => { c with slots := tset c.slots x w }) fun _ => ⟨rfl, rfl, rfl⟩
    unfold State.handMoved
    extract_lets v out pos e filled passed
    split_ifs
    · have hpassed : CoreWork [] o s passed := by
        have hfilled : CoreWork [] o s filled := hset s _ _
        refine hfilled.trans ?_
        unfold passed
        split
        exacts [hset _ _ _, hset _ _ _]
      have hclear := coreWork_onCore (may := []) o passed (f := fun c => { c with hand := tset c.hand e 0 }) fun _ => ⟨rfl, rfl, rfl⟩
      exact hpassed.trans (hclear.trans (ih _))
    · exact .refl _ o s

theorem handUnits_work (head entry a len : Nat) : CoreWork [] o s (s.handUnits o head entry a len) := by
  unfold State.handUnits
  extract_lets units
  have hnote := coreWork_onCore (may := []) o s
    (f := fun c => { c with hand := tset c.hand entry (tget 0 c.hand entry ||| units) }) fun _ => ⟨rfl, rfl, rfl⟩
  exact hnote.trans (handMoved_work o _ head 64)

theorem coreMoved_work (r : Req) : CoreWork [] o s (s.coreMoved o r) := by
  unfold State.coreMoved
  split
  exacts [handUnits_work o s _ _ _ _, .refl _ o s]

theorem coreMoved_ctrs (r : Req) : (s.coreMoved o r).ctrs = s.ctrs := (coreMoved_work o s r).same .ctrs (by decide)

theorem coreMoved_mem (r : Req) : (s.coreMoved o r).mem = s.mem := ((coreMoved_work o s r).same .mem (by decide)).1

end

/-! ### A request served -/

theorem serve_same (s : State) (r : Req) (st : Nat) (bs : List Byte) {p : Part} (h : p ≠ .flight) : p.same s (s.serve r st bs) := by
  cases p <;> simp_all [Part.same, Part.kept, State.serve]

theorem coreWork_serve (o : CoreId) (s : State) (r : Req) (st : Nat) (bs : List Byte) : CoreWork [.flight] o s (s.serve r st bs) :=
  .of_same (fun _ hp => serve_same s r st bs (by simpa using hp)) rfl (by simp) (by simp) rfl

section
variable {s : State} {c tag : Nat} {r : Req} (hr : s.flight.find? (fun r => r.core == c && r.tag == tag) = some r)
include hr

theorem found_key : r.core = c ∧ r.tag = tag := by simpa using List.find?_some hr

/-- The requests in flight once the one found is served. -/
theorem serve_found (u : State) (hu : u.flight = s.flight) (st : Nat) (bs : List Byte) : (u.serve r st bs).flight =
    s.flight.map (fun x => if x.core = c ∧ x.tag = tag then { x with st := .served, status := st, data := bs } else x) := by
  obtain ⟨rfl, rfl⟩ := found_key hr
  rw [← hu]
  rfl

/-! ### REMOTE_SILL_REQUEST, case by case -/

variable {o : CoreId} (ho : sillOf r.addr = some o.val)
include ho

/-- Behind another of its core it waits (R197). -/
theorem remoteSill_behind (h : s.behind r o = true) : s.remoteSill c tag = s := by
  simp [State.remoteSill, hr, ho, h]

variable (hspace : r.space = 1) (hst : r.st = .issued)
include hspace hst

variable (hb : s.behind r o = false)
include hb

/-- A sill out of service, or moved by a switch, refuses it (R22, R199). -/
theorem remoteSill_shut (h : s.sillShut o = true ∨ s.sillMoves o = true) : s.remoteSill c tag = s.serve r 0x10 [] := by
  have hshut : (s.sillShut o || s.sillMoves o) = true := by simpa using h
  simp [State.remoteSill, hr, ho, hspace, hst, hb, hshut]

variable (hs : s.sillShut o = false) (hm : s.sillMoves o = false)
include hs hm

/-- A core that is not one of the running job's is denied, as is one whose sill is not (R195). -/
theorem remoteSill_denied (h : (s.core o).job ≠ s.runSlot ∨ (s.core c).job ≠ s.runSlot ∨ s.runSlot = none) :
    s.remoteSill c tag = (s.bump (.sill o) 0x70).serve r 0x60 [] := by
  have hdeny : ((s.core o).job != s.runSlot || (s.core c).job != s.runSlot || (s.core c).job.isNone) = true := by
    simp only [Bool.or_eq_true, bne_iff_ne, Option.isNone_iff_eq_none]
    by_cases hj : (s.core c).job = s.runSlot
    · exact h.elim (fun h => .inl (.inl h)) fun h => h.elim (fun h => absurd hj h) fun h => .inr (hj.trans h)
    · exact .inl (.inr hj)
  simp only [State.remoteSill, hr, ho, hspace, hst, hb, hs, hm, hdeny]
  simp

variable {j : Nat} (hrun : s.runSlot = some j) (hcj : (s.core c).job = some j) (hoj : (s.core o).job = some j) (hcur : (s.core o).current = true)
include hrun hcj hoj hcur

/-- Between cores of the running job it waits for a slot of its agent (R161). -/
theorem remoteSill_waits (hw : s.coreWaits o r = true) : s.remoteSill c tag = s := by
  simp [State.remoteSill, hr, ho, hspace, hst, hb, hs, hm, hrun, hcj, hoj, catchUp_current hcur, hw]

variable (hw : s.coreWaits o r = false)
include hw

/-- It tries for its banks, and loses one (R192), -/
theorem remoteSill_loses (htry : (s.asyncTry o meshPort [rowOf r.addr]).2 = false) :
    s.remoteSill c tag = (s.asyncTry o meshPort [rowOf r.addr]).1 := by
  generalize hu : s.asyncTry o meshPort [rowOf r.addr] = u at htry
  obtain ⟨u, got⟩ := u
  obtain rfl : got = false := htry
  simp [State.remoteSill, hr, ho, hspace, hst, hb, hs, hm, hrun, hcj, hoj, catchUp_current hcur, hw, hu]

variable {u : State} (htry : s.asyncTry o meshPort [rowOf r.addr] = (u, true))
include htry

/-- or has them, and writes its bytes, -/
theorem remoteSill_writes (hwrite : r.write = true) :
    s.remoteSill c tag = (((u.putRow r.addr r.data).coreMoved o r).bump (.sill o) 0x68).serve r 0 [] := by
  simp [State.remoteSill, hr, ho, hspace, hst, hb, hs, hm, hrun, hcj, hoj, catchUp_current hcur, hw, htry, hwrite]

/-- or reads them, which are as they stand where every codeword is clean. -/
theorem remoteSill_reads (hread : r.write = false) (hclean : u.ecc = []) :
    s.remoteSill c tag = ((u.coreMoved o r).bump (.sill o) 0x68).serve r 0 (u.bytes r.addr r.len) := by
  simp [State.remoteSill, hr, ho, hspace, hst, hb, hs, hm, hrun, hcj, hoj, catchUp_current hcur, hw, htry, hread, sillRead_clean hclean]

end

end Sys2Proof.Machine
end

section
/-! Mesh parity (R427): the request of a discarded packet stays gone through the teardown that follows. `State.landed.f` is the rule of the
operation `f`. -/

namespace Sys2Proof.Machine

/-- No request of a core and tag is in flight. -/
def State.landed (s : State) (n tag : Nat) : Prop := ∀ x ∈ s.flight, ¬ (x.core = n ∧ x.tag = tag)

section
variable {s : State} {n tag : Nat}

/-- Where no request is new. -/
theorem State.landed.of_subset {t : State} (h : s.landed n tag) (ht : t.flight ⊆ s.flight) : t.landed n tag := fun x hx => h x (ht hx)

theorem State.landed.of_flight {t : State} (h : s.landed n tag) (ht : t.flight = s.flight) : t.landed n tag := h.of_subset (by rw [ht]; simp)

theorem State.landed.ite {a b : State} {c : Prop} [Decidable c] (ha : a.landed n tag) (hb : b.landed n tag) : (if c then a else b).landed n tag := by
  split <;> assumption

theorem State.landed.foldl {α : Type} {xs : List α} {f : State → α → State} (h : s.landed n tag)
    (hf : ∀ s x, s.landed n tag → (f s x).landed n tag) : (xs.foldl f s).landed n tag :=
  List.foldlRecOn xs f h (fun s hs x _ => hf s x hs)

/-- A packet discarded takes its request with it. -/
theorem landed_land (s : State) (r : Req) : (s.land r).landed r.core r.tag := by
  intro x hx hkey
  have hkeep := (List.mem_filter.mp hx).2
  simp [hkey] at hkeep

/-! ### Records -/

theorem State.landed.fault (h : s.landed n tag) {cls status job unit flags detail sub} : (s.fault cls status job unit flags detail sub).landed n tag :=
  h.of_flight (fault_same s _ _ _ _ _ _ _ (p := .flight) (by decide))

theorem State.landed.post (h : s.landed n tag) {q status source job sq head detail} :
    (s.post q status source job sq head detail).landed n tag :=
  h.of_flight (post_same s _ _ _ _ _ _ _ (p := .flight) (by decide))

theorem State.landed.onHq (h : s.landed n tag) {q f} : (s.onHq q f).landed n tag := h

theorem State.landed.jobDone (h : s.landed n tag) {c slot status reason cls placed dur} :
    (s.jobDone c slot status reason cls placed dur).landed n tag := h.post.onHq

/-- A descriptor that fails reports, and touches its queue. -/
theorem State.landed.failStrm (h : s.landed n tag) {m q x status addr} : (s.failStrm m q x status addr).landed n tag := by
  unfold State.failStrm State.strmRecord
  refine .ite h ?_
  split
  exacts [State.landed.post (by exact h), h]

/-! ### Teardown -/

theorem State.landed.haltCore (h : s.landed n tag) {m} : (s.haltCore m).landed n tag := h.of_subset fun _ hx => (List.mem_filter.mp hx).1

theorem State.landed.benchTeardown (h : s.landed n tag) {j m qs} : (s.benchTeardown j m qs).landed n tag := by
  refine h.foldl fun _ _ h => ?_
  split
  exacts [.ite h.post h, h]

theorem State.landed.sendCtl (h : s.landed n tag) {sender m} : (s.sendCtl sender m).landed n tag := by
  unfold State.sendCtl
  extract_lets
  split
  exacts [h, State.landed.fault (by exact h)]

theorem State.landed.sendAbort (h : s.landed n tag) {j t status cls origin} : (s.sendAbort j t status cls origin).landed n tag :=
  State.landed.foldl h fun _ _ h => h.sendCtl

theorem State.landed.attTeardown (h : s.landed n tag) {j} : (s.attTeardown j).landed n tag :=
  State.landed.foldl (by exact h) fun _ _ h => h.post.onHq

theorem State.landed.parksTorn (h : s.landed n tag) {j cls} : (s.parksTorn j cls).landed n tag :=
  h.foldl fun _ _ h => State.landed.jobDone (by exact h)

theorem State.landed.switchTorn (h : s.landed n tag) {j cls} : (s.switchTorn j cls).landed n tag := by
  have hdone : ∀ {c slot status reason cls placed dur},
      (({ s with sw := {} } : State).jobDone c slot status reason cls placed dur).landed n tag := .jobDone (by exact h)
  unfold State.switchTorn
  refine .ite h (.ite ?_ (.ite ?_ h))
  · split
    · exact h
    · extract_lets
      split
      exacts [hdone, h]
  · extract_lets
    split
    exacts [hdone, h]

theorem State.landed.tearCore (h : s.landed n tag) {j cls} : (s.tearCore j cls).landed n tag := by
  unfold State.tearCore
  extract_lets _ _ sHalt sBench _ _ sTags _ sRed sAtt sTorn sKey sPark sSlot
  have hHalt : sHalt.landed n tag := h.foldl fun _ _ h => h.haltCore
  have hBench : sBench.landed n tag := hHalt.foldl fun _ _ h => .ite h.benchTeardown h.benchTeardown
  have hTags : sTags.landed n tag := hBench.foldl fun _ _ h => .ite h h.sendAbort
  have hAtt : sAtt.landed n tag := State.landed.attTeardown (s := sRed) hTags
  have hPark : sPark.landed n tag := .ite (State.landed.parksTorn (s := sKey) hAtt) hAtt
  have hSlot : sSlot.landed n tag := .ite hPark hPark
  exact State.landed.switchTorn (s := sSlot.bump .job 0x58) hSlot

theorem State.landed.tearJob (h : s.landed n tag) {job cls} : (s.tearJob job cls).landed n tag := by
  unfold State.tearJob
  split
  exacts [.ite h.tearCore.post h, h]

end

/-! ### MESH_PARITY_ERROR (R427) -/

section
variable {s : State} {c tag : Nat}

theorem meshParity_none (h : s.flight.find? (fun r => r.core == c && r.tag == tag) = none) : s.meshParity c tag = s := by
  simp [State.meshParity, h]

/-- The free-running values and class 11 of a packet discarded, its request gone. -/
def State.meshReported (s : State) (c : Nat) (r : Req) : State :=
  (s.useFree.useFree.land r).fault 11 0 (s.core c).job (Page.core c).unit 1
    (natLe 4 s.freeWord.toNat ++ natLe 4 (Config.freeValue (s.free + 1)).toNat) 1

/-- The stream that it was of failed, where there is one. -/
def State.meshFailed (s : State) (c : Nat) (r : Req) (job : Option Nat) : State :=
  match (s.sq c r.queue).run.find? (fun x => x.serial == r.serial) with
  | some x => (s.failStrm c r.queue x 0x7F r.addr).fault 14 0x7F job (Page.core c).unit 1 (progDetail c (s.core c).pc 0xFF r.queue r.addr)
  | none => s

theorem windsUp_meshFailed (s : State) (c : Nat) (r : Req) (job : Option Nat) : WindsUp s (s.meshFailed c r job) := by
  unfold State.meshFailed
  split
  exacts [(windsUp_failStrm _ _ _ _ _ _).1.trans (windsUp_fault _ _ _ _ _ _ _ _), .refl s]

theorem State.landed.meshFailed {n : Nat} (h : s.landed n tag) {r : Req} {job : Option Nat} : (s.meshFailed c r job).landed n tag := by
  unfold State.meshFailed
  split
  exacts [h.failStrm.fault, h]

section
variable {r : Req} (hr : s.flight.find? (fun r => r.core == c && r.tag == tag) = some r)
include hr

/-- Otherwise it reports, fails what streams it, and tears the core's job down. -/
theorem meshParity_some : s.meshParity c tag = ((s.meshReported c r).meshFailed c r (s.core c).job).tearJob (s.core c).job 11 := by
  unfold State.meshParity
  rw [hr]
  rfl

theorem meshParity_records : Records s (finish s (s.meshParity c tag)) 11 := by
  rw [meshParity_some hr]
  exact records_finish (u := s.useFree.useFree.land r) (by decide) rfl
    ((windsUp_meshFailed (s.meshReported c r) c r _).recs.trans (tearJob_keepsRecords _ _ _))

theorem meshParity_landed : (finish s (s.meshParity c tag)).landed c tag := by
  obtain ⟨rfl, rfl⟩ := found_key hr
  have hgone : (s.useFree.useFree.land r).landed r.core r.tag := landed_land _ r
  have hreported : (s.meshReported r.core r).landed r.core r.tag := hgone.fault
  rw [meshParity_some hr]
  exact hreported.meshFailed.tearJob.of_flight (finish_flight ..)

theorem meshParity_tears {j : Nat} (hj : (s.core c).job = some j) : Tears s (finish s (s.meshParity c tag)) j := by
  have hgone : WindsUp s (s.useFree.useFree.land r) := .of_eq rfl rfl rfl rfl rfl
  have hreported : WindsUp s (s.meshReported c r) := hgone.trans (windsUp_fault _ _ _ _ _ _ _ _)
  have hwinds := hreported.trans (windsUp_meshFailed _ c r (some j))
  rw [meshParity_some hr, hj]
  exact (tearJob_tears hwinds.jobs hwinds.sw (fun n => (hwinds.core n).1) j 11).finish

end

end

end Sys2Proof.Machine
end

section
/-! Requests of other cores at a sill, and mesh parity, settled (R192, R195, R197, R427). -/

namespace Sys2Proof.Machine

section
variable {s : State} (hl : s.live = true) (c : CoreId) (tag : Nat)
include hl

theorem exec_remoteSillRequest_live : exec (.remoteSillRequest c tag) s = .next (finish s (s.remoteSill c tag)) := by
  rw [show exec (.remoteSillRequest c tag) s = execRemoteSillRequest c tag s from rfl]
  exact act_live hl _

theorem exec_meshParityError_live : exec (.meshParityError c tag) s = .next (finish s (s.meshParity c tag)) := by
  rw [show exec (.meshParityError c tag) s = execMeshParityError c tag s from rfl]
  exact act_live hl _

end

section
variable {s u : State} {may : List Part} (o : CoreId) (r : Req)

/-- A request answered once what it moved is noted: the sill's core, the requests in flight, and the one count. -/
theorem answered_work (hu : CoreWork may o s u) (bs : List Byte) :
    CoreWork (.flight :: .ctrs :: may) o s (((u.coreMoved o r).bump (.sill o) 0x68).serve r 0 bs) :=
  (hu.mono (by simp)).trans (((coreMoved_work o u r).mono (by simp)).trans
    (((coreWork_sillBump o _ 0x68 1).mono (by simp)).trans ((coreWork_serve o _ r 0 bs).mono (by simp))))

theorem answered_ctr (bs : List Byte) : (((u.coreMoved o r).bump (.sill o) 0x68).serve r 0 bs).ctr (.sill o) 0x68 =
    (u.ctr (.sill o) 0x68 + 1) % 2 ^ 48 := by
  refine (State.ctr_bump_same (u.coreMoved o r) (.sill o) 0x68 1).trans ?_
  rw [State.ctr, State.ctr, coreMoved_ctrs]

theorem answered_mem (bs : List Byte) : (((u.coreMoved o r).bump (.sill o) 0x68).serve r 0 bs).mem = u.mem := coreMoved_mem o u r

theorem answered_flight {c tag : Nat} (hr : s.flight.find? (fun r => r.core == c && r.tag == tag) = some r) (hu : u.flight = s.flight)
    (bs : List Byte) : (((u.coreMoved o r).bump (.sill o) 0x68).serve r 0 bs).flight =
      s.flight.map (fun x => if x.core = c ∧ x.tag = tag then { x with st := .served, status := 0, data := bs } else x) :=
  serve_found hr _ (((coreMoved_work o u r).same .flight (by decide)).trans hu) 0 bs

theorem coreWork_putRow (a : Nat) (bs : List Byte) : CoreWork [.mem] o s (s.putRow a bs) :=
  .of_same (fun _ hp => putRow_same s a bs (by simpa using hp)) rfl (by simp) (by simp) rfl

end

/-- Settles O32: the answers of a sill to a request of another core in the order of its checks, and a packet with a parity error. -/
theorem meshRequestsAct : Obligations.MeshRequestsAct := by
  unfold Obligations.MeshRequestsAct
  refine ⟨fun s c o tag r hl hr hspace hst ho => ?_, fun s c tag hl => ⟨fun hnone => ?_, fun r hr => ?_⟩⟩
  · intro served
    have hexec := exec_remoteSillRequest_live hl c tag
    refine ⟨fun hb => ?_, fun hb => ⟨fun h => ?_, fun hs hm => ⟨fun h => ?_, fun j hrun hcj hoj hcur => ⟨fun hw => ?_, fun hw =>
      ⟨fun htry => ?_, fun hfree hclean => ?_⟩⟩⟩⟩⟩
    · rw [remoteSill_behind hr ho hb] at hexec
      exact ⟨_, hexec, unchanged_nothing s⟩
    · rw [remoteSill_shut hr ho hspace hst hb h] at hexec
      refine ⟨_, hexec, unchanged_finish rfl fun p hp => serve_same s r _ _ (by simpa using hp), ?_⟩
      exact (finish_flight ..).trans (serve_found hr s rfl _ _)
    · rw [remoteSill_denied hr ho hspace hst hb hs hm h] at hexec
      refine ⟨_, hexec, unchanged_finish rfl fun p hp => ?_, fun k hk => ?_, ?_, ?_⟩
      · obtain ⟨hf, hc, -⟩ : p ≠ .flight ∧ p ≠ .ctrs ∧ p ∉ [] := by simpa using hp
        exact Part.same_trans (bump_same s _ _ _ hc) (serve_same _ r _ _ hf)
      · rw [finish_ctrs]
        exact State.ctrs_bump_ne s (.sill o) 0x70 1 k (by simpa [ctrsAt] using hk)
      · rw [finish_get_ctr]
        exact State.ctr_bump_same ..
      · exact (finish_flight ..).trans (serve_found hr (s.bump (.sill o) 0x70) rfl _ _)
    · rw [remoteSill_waits hr ho hspace hst hb hs hm hrun hcj hoj hcur hw] at hexec
      exact ⟨_, hexec, unchanged_nothing s⟩
    · rw [remoteSill_loses hr ho hspace hst hb hs hm hrun hcj hoj hcur hw htry] at hexec
      exact ⟨_, hexec, (asyncTry_work o s _ _).1.onlyCore⟩
    · obtain ⟨hwork, hctr⟩ := asyncTry_work o s meshPort [rowOf r.addr]
      obtain ⟨u, htry, -⟩ := asyncTry_free hfree 0
      rw [htry] at hwork hctr
      have hmem : u.mem = s.mem := (hwork.same .mem (by decide)).1
      have hecc : u.ecc = [] := (hwork.same .mem (by decide)).2.trans hclean
      have hflight : u.flight = s.flight := hwork.same .flight (by decide)
      refine ⟨fun hread => ?_, fun hwrite hmemOk => ?_⟩
      · have hbytes : u.bytes r.addr r.len = s.bytes r.addr r.len := by rw [State.bytes, State.bytes, hmem]
        rw [remoteSill_reads hr ho hspace hst hb hs hm hrun hcj hoj hcur hw htry hread hecc, hbytes] at hexec
        refine ⟨_, hexec, ((answered_work o r hwork _).mono (by simp)).onlyCore, ?_, ?_⟩
        · exact (finish_flight ..).trans (answered_flight o r hr hflight _)
        · rw [finish_get_ctr, answered_ctr, hctr]
      · have hput := (hwork.mono (List.subset_cons_self .mem _)).trans
          ((coreWork_putRow o r.addr r.data).mono (by simp : [Part.mem] ⊆ [.mem, .ctrs]))
        have hwrites : ∀ s0 bs, (finish s0 ((((u.putRow r.addr r.data).coreMoved o r).bump (.sill o) 0x68).serve r 0 bs)).mem =
            memWrite s.mem r.addr r.data := fun s0 bs => by rw [finish_mem, answered_mem, ← hmem]; rfl
        rw [remoteSill_writes hr ho hspace hst hb hs hm hrun hcj hoj hcur hw htry hwrite] at hexec
        refine ⟨_, hexec, ((answered_work o r hput []).mono (by simp)).onlyCore, fun a ha => ?_, ?_, ?_, ?_⟩
        · rw [hwrites, memGet_memWrite_outside _ ha]
        · exact bytes_of_memWrite hmemOk (hwrites s [])
        · exact (finish_flight ..).trans (answered_flight o r hr (u := u.putRow r.addr r.data) hflight _)
        · rw [finish_get_ctr, answered_ctr, ← hctr]
          rfl
  · have hexec := exec_meshParityError_live hl c tag
    rw [meshParity_none hnone] at hexec
    exact ⟨_, hexec, unchanged_nothing s⟩
  · exact ⟨_, exec_meshParityError_live hl c tag, meshParity_records hr, meshParity_landed hr, fun j => meshParity_tears hr⟩

end Sys2Proof.Machine
end
